-- ==== Sys2Proof/Word.lean ====
section
/-! DEFINITION. The machine's word types: bytes, 16-, 32- and 64-bit words, 64-byte lines (spec/00_scope.md). -/
namespace Sys2Proof

/-- One byte. -/
abbrev Byte := BitVec 8
/-- A 64-bit word: a Ramer register (R111) or one word of a table entry (R125). -/
abbrev W64 := BitVec 64
/-- A 64-byte line (the glossary of 00_scope.md). -/
abbrev Line := BitVec 512
/-- A device physical address, 46 bits (R22). -/
abbrev Dpa := BitVec 46

end Sys2Proof
end

