-- ==== Sys2Proof/Syntax.lean ====
section
/-! DEFINITION. The commands of the SX8160: one constructor of `Instr` per row of
spec/opcode_table.json, in the table's order, with the operands a row needs. The table gives
its rows no bits; operands that no unit of the device computes (what a sensor read, what a
host's memory returned, how an ECC decode came out) are the command's operands. -/
namespace Sys2Proof

/-- Head number, HD00-HD31 (R7). -/
abbrev HeadNo := Fin 32
/-- Logical device number, 16 × head + local index (R87). -/
abbrev LdNo := Fin 256
/-- Wayfinder number (R111). -/
abbrev WfNo := Fin 16
/-- Thread number of a wayfinder (R111). -/
abbrev ThrNo := Fin 4
/-- Ramer register number (R111). -/
abbrev Reg := Fin 32
/-- Memory unit number: 0-23 MC00-MC23, 24-27 stacks H0-H3 (R167, table MEMCH). -/
abbrev UnitNo := Fin 28
/-- DDR5 channel number (R7). -/
abbrev ChanNo := Fin 24
/-- Riser bay number (R7). -/
abbrev BayNo := Fin 12
/-- Home slice number (R7). -/
abbrev SliceNo := Fin 16
/-- Management candidate number (R79). -/
abbrev Cand := Fin 34
/-- Ring number of a logical device (R87). -/
abbrev RingNo := Fin 128
/-- Function: 0-255 an LD, 256 the management endpoint (R130). -/
abbrev Func := Fin 257
/-- Link number: 0-31 the heads, 32 the management endpoint's (R55). -/
abbrev LinkNo := Fin 33
/-- Tollgate: 0-31 the heads, 32 endpoint, 33 movers, 34 wayfinders (R386, R411). -/
abbrev TollNo := Fin 35
/-- Roundabout: 0-15 home slices, 16-39 channels, 40-43 stacks (R167, table ROUNDABOUT). -/
abbrev RbNo := Fin 44
/-- Power domain number (R436). -/
abbrev DomNo := Fin 78
/-- Thermal sensor number, TH00-TH51 (R7). -/
abbrev ThNo := Fin 52

/-- The straps as sampled (R49). -/
structure Straps where
  ownMode : BitVec 2
  bootSrc : BitVec 2
  bmcAddr : BitVec 2
  testEn : Bool
deriving DecidableEq, Repr

/-- Device width of a DIMM (R351). -/
inductive DevWidth where
  | x4 | x8 | x16
deriving DecidableEq, Repr

/-- What the SPD of one DIMM says (R351, R352). -/
structure Dimm where
  chan : ChanNo
  slot : Fin 2
  /-- An RDIMM with ECC (R351's module type). -/
  rdimm : Bool
  checksumOk : Bool
  width : DevWidth
  densityGb : Nat
  pkgRanks : Nat
  /-- Dies in a 3DS stack; 1 where the DIMM is not stacked. -/
  stack : Nat
  capGiB : Nat
  /-- Speed rating in MT/s. -/
  speed : Nat
deriving DecidableEq, Repr

/-- A boot record of 512 bytes and the base program image it names, as a flash or a candidate
presents them (R70). -/
structure Flash where
  record : List (BitVec 8)
  image : List (BitVec 8)
deriving DecidableEq, Repr

/-- The content of the valid life-ledger record with the highest sequence number (R460). -/
structure LedgerRec where
  seq : BitVec 32
  bins : List (BitVec 32)
  equivH : BitVec 32
  recentEq : BitVec 32
  roDrift : BitVec 16
  remainH : BitVec 32
deriving DecidableEq, Repr

/-- How a CXL.io memory read of the device was answered by its host. -/
inductive HostResp where
  | ok (bytes : List (BitVec 8))
  | failed
  /-- Not answered within this command: `CXL_IO_COMPLETION` answers it (R193). -/
  | outstanding
deriving DecidableEq, Repr

/-- How the ECC of what was read decoded (R21, R359-R361). `devs` are the devices corrected. -/
inductive Decode where
  | clean
  | corrected (devs : List (BitVec 6))
  | uncorrectable
  | poisoned
  /-- Decoded (as clean, or as corrected) with wrong data, `flip` away from what is stored (R497). -/
  | wrong (flip : BitVec 512) (asClean : Bool)
deriving DecidableEq, Repr

/-- An error that a read of metadata on a unit finds (R21, R243, R338). Frames are by number in the unit, copies in map frames by
OFFSET. -/
inductive MetaRead where
  /-- A frame's counter block or slot counter set is uncorrectable, or (`sealWord`) its leaf seal. -/
  | leaf (frame : BitVec 28) (sealWord : Bool)
  /-- A leaf fails its seal on clean data. -/
  | leafSeal (frame : BitVec 28)
  /-- A span's tag word is uncorrectable. -/
  | tag (frame : BitVec 28) (span : BitVec 4)
  /-- One copy of a tree node is bad; both are; a copy fails its MAC on clean data. -/
  | nodeCopy (off : BitVec 31)
  | node (level : Fin 4) (idx : BitVec 33)
  | nodeMac (level : Fin 4) (idx : BitVec 33)
  /-- One copy of a region entry or sub-table is bad; every copy of a region's is. -/
  | mapCopy (off : BitVec 31)
  | mapAll (region : BitVec 25)
deriving DecidableEq, Repr

/-- A read of DRAM completes: the data read in flight, as it decodes, or a read of metadata that finds an error. -/
inductive DramRead where
  | data (dec : Decode)
  | metadata (m : MetaRead)
deriving DecidableEq, Repr

/-- What a read at the snoop filter finds (R205, R207): an entry read by the scrub or by a request, or a parity error
of the set's pseudo-LRU state. -/
inductive SfRead where
  | scrub (dec : Decode)
  | request (dec : Decode)
  | treeParity
deriving DecidableEq, Repr

/-- Forms of a response that leaves a head a copy (R210): BIRspS, BIRspE and their block forms. -/
inductive RspForm where
  | s | sBlk | e | eBlk
deriving DecidableEq, Repr

/-- Outcome of a self-test (R65, R382). -/
inductive TestResult where
  | pass
  | fail (addr : BitVec 64)
  /-- A channel's training failed before the sample was written (R376). -/
  | trainFail
  /-- An SRAM array of the unit with this unit ID failed; was a spare row free? (R65) -/
  | sram (uid : BitVec 10) (spare : Bool)
deriving DecidableEq, Repr

/-- Who sends a management request: the endpoint, the BMC, the mailbox of an LD, or the load window. -/
inductive Sender where
  | ep
  | bmc
  | ld (n : LdNo)
  | window
deriving DecidableEq, Repr

/-- MetaValue of a CXL.mem request (R211). -/
inductive MetaVal where
  | invalid
  | shared
  | any
  | noOp
  | reserved
deriving DecidableEq, Repr

/-- What a host commits to an HDM decoder (R173). -/
structure DecoderSet where
  base : BitVec 64
  size : BitVec 64
  ways : Nat
  gran : Nat
  skip : BitVec 64
  bi : Bool
deriving DecidableEq, Repr

/-- How a copy pass of a page's move came out (R253, R255, R427). -/
inductive CopyEvent where
  | ended
  /-- A write to the target met an uncorrectable error. -/
  | targetBad
  /-- The mover reported a class 2 fault. -/
  | moverFault
deriving DecidableEq, Repr

/-- How a stow in a coder came out (R294, R295). -/
inductive StowEvent where
  | written
  | engineFault
  /-- The slot's first write failed, and the second did not; both failed. -/
  | slotFault
  | slotFaults
deriving DecidableEq, Repr

/-- One counted occurrence of an event (R470): the unit, event code, qualifier bits and LD. -/
structure Occurrence where
  unit : BitVec 10
  event : BitVec 8
  qual : BitVec 8
  ld : BitVec 9
deriving DecidableEq, Repr

/-- Credit types a host returns on a head's link (R191). -/
inductive CreditKind where
  | ndr | drs | bisnp | posted | nonPosted | ioCompletion
deriving DecidableEq, Repr

/-- What a CXL.io packet carries beside its payload: the TLP type of its header, its request tag and its host address (R194). -/
structure Tlp where
  type : BitVec 8
  tag : BitVec 16
  addr : BitVec 64
deriving DecidableEq, Repr

/-- The way of a register access: a packet to a function's BAR2 (R103), or a service message of the BMC sideband, whose
offset counts from the service access block (R106). -/
inductive RegPath where
  | bar (f : Func) (tlp : Tlp)
  | bmc
deriving DecidableEq, Repr

/-- What a register access asks: a write, a read, or nothing that the receiver can make out (R193). -/
inductive RegOp where
  | write (v : BitVec 64)
  | read
  | malformed
deriving DecidableEq, Repr

/-- The rows of R176. -/
inductive Cap where
  | linkSpeeds | linkWidth | flitMode | l0p | aspmL0s | aspmL1 | l1Substates | laneMargining | retimers | aer | doe | msix
  | msiIntx | flr | atsPriPasidSriovPtm | linkIdeTdisp | maxPayload | tenBitTags | maxReadRequest | cxlIo | cxlMem | cxlCache
  | deviceType | hdmH | hdmDb | hdmD | m2sRequests | multiLd | multiHead | hdmDecoders | interleaveWays | interleaveGran
  | dynamicCapacity | memoryActiveTimeout | persistent | viral | cxlIde | qosTelemetry | perLdQos | mailbox | fmApi | portRouting
deriving DecidableEq, Repr

/-- What a configuration request reads, through configuration space or DOE (R57, R58, R75, R176, R200). -/
inductive CfgReg where
  | cap (c : Cap)
  | memoryActive
  | mailboxReady
  | errorNotCommitted (n : Fin 4)
  | cdat
  | spdmPhase
deriving DecidableEq, Repr

/-- A configuration request: a read, or the host's write of the head's BI-ID (R202). -/
inductive CfgOp where
  | read (r : CfgReg)
  | setBiId (v : BitVec 12)
deriving DecidableEq, Repr

/-- Test access port instructions (R51). -/
inductive TapIns where
  | boundaryScan
  | bypass
  | other (code : BitVec 8)
deriving DecidableEq, Repr

/-- A configuration request of a host to one of the functions (R58). -/
structure CfgReq where
  func : Func
  op : CfgOp
deriving DecidableEq, Repr

/-- A word posted to a mailbox (R98), with what its packet carries beside it. -/
structure MailWord where
  word : BitVec 64
  tlp : Tlp
deriving DecidableEq, Repr

/-- A fetch that gives no listed instruction (R117); `ue`: it met an uncorrectable error in the instruction store (R164). -/
structure BadFetch where
  thread : ThrNo
  ue : Bool
deriving DecidableEq, Repr

/-- What a byte-masked write carries beside its bytes (R19): its poison, and how the read that merges it decodes. -/
structure PtlWrite where
  poisoned : Bool
  dec : Decode
deriving DecidableEq, Repr

/-- A BIRspI of a head (R210); `block`: its block form. -/
structure RspI where
  dpa : BitVec 46
  tag : BitVec 16
  block : Bool
deriving DecidableEq, Repr

/-- A response of a head that leaves it a copy (R210). -/
structure RspS where
  dpa : BitVec 46
  tag : BitVec 16
  form : RspForm
deriving DecidableEq, Repr

/-- A BIConflict of a head (R223), with the host address it names (R194). -/
structure Conflict where
  dpa : BitVec 46
  tag : BitVec 16
  hpa : BitVec 64
deriving DecidableEq, Repr

/-- What the test access port is driven with (R51): an instruction, and TRST_N's level. -/
structure TapDrive where
  ins : TapIns
  trstLow : Bool
deriving DecidableEq, Repr

/-- The commands, one constructor per row of spec/opcode_table.json, in its order. -/
inductive Instr where
  /-- PWRGOOD_RISE (R42): With supplies stable and REFCLK_CORE running, PWRGOOD rises and only the AON domain starts; bays stay off. -/
  | pwrgoodRise (sysrstHigh : Bool)
  /-- SYSRST_N_TAKEN_AS_RISING (R42): When SYSRST_N was already high, AON takes it as rising 1 ms after PWRGOOD rose, samples the straps and starts power-on. -/
  | sysrstNTakenAsRising (st : Straps)
  /-- SYSRST_N_RISE (R42): In the AON-only state, a rise of SYSRST_N samples the straps and starts power-on from bay power-up. -/
  | sysrstNRise (st : Straps)
  /-- SYSRST_N_FALL (R42): Outside a class 3 halt, a fall of SYSRST_N returns the device to AON only and loses all state outside AON; during a halt it has no effect. -/
  | sysrstNFall
  /-- PWRGOOD_FALL (R42): A fall of PWRGOOD makes the device unpowered, stops AON, clears any class 3 halt and releases THERMTRIP_N. -/
  | pwrgoodFall
  /-- HDPERST_N_FALL (R43): HDPERST_N low puts one head in fundamental reset, which acts as an LD reset of every LD of the head. -/
  | hdperstNFall (h : HeadNo)
  /-- HDPERST_N_RISE (R43): HDPERST_N high lets the head train once link training has begun. -/
  | hdperstNRise (h : HeadNo)
  /-- MG_PERST_N_FALL (R43): MG_PERST_N low resets the management endpoint and can start the owner's lapse. -/
  | mgPerstNFall
  /-- MG_PERST_N_RISE (R43): MG_PERST_N high lets the management endpoint train. -/
  | mgPerstNRise
  /-- BAY_TURN (R61): At power-on step 3, the next present bay starts pre-charge at least 10 ms after the previous bay asserted BAYPG or latched off. -/
  | bayTurn (b : BayNo) (bayvinMv : BitVec 16)
  /-- SPD_READS_COMPLETE (R55): SPD and thermal sensor reads of every bay complete, step 3 ends and DRAM CK is chosen. -/
  | spdReadsComplete (dimms : List Dimm)
  /-- ROOT_PLL_LOCK (R55): The root PLL locks at 8.0 GHz and the derived clocks start. -/
  | rootPllLock
  /-- PLL_LOCK_TIMEOUT (R73): The root PLL is not locked within 100 µs; a class 3 halt under CK00 follows. -/
  | pllLockTimeout
  /-- SELF_TEST_COMPLETE (R382): A channel or stack completes its self-test sample; a failing unit is excluded. -/
  | selfTestComplete (u : UnitNo) (res : TestResult)
  /-- BOOT_IMAGE_VERIFY (R71): The boot record and base program image are read and verified, with fallback to the other flash or phase RECOVERY. -/
  | bootImageVerify (f0 : Option Flash) (f1 : Option Flash) (ledger : Option LedgerRec) (refclk : BitVec 16)
  /-- RECOVERY_IMAGE_SUBMIT (R72): A boot record and base image received through the program load window or MCTP are verified, and power-on continues. -/
  | recoveryImageSubmit (c : Cand) (image : Flash)
  /-- FILL_COMPLETE (R382): A unit's fill of zero with valid check bits completes, or fails after retries and excludes the unit. -/
  | fillComplete (u : UnitNo) (failedAt : Option (BitVec 64)) (ms : BitVec 32)
  /-- BASE_PROGRAM_READY (R55): The base program has built the free-frame pool and set the CXL mailboxes ready. -/
  | baseProgramReady (ms : BitVec 32)
  /-- BASE_PROGRAM_TIMEOUT (R73): The base program fails to start within 200 ms, and the phase goes to RECOVERY. -/
  | baseProgramTimeout (code : BitVec 8)
  /-- PHASE_STORE (R76): An owner store of the PHASE field changes the phase, or is refused, as the phase table allows. -/
  | phaseStore (w : WfNo) (t : ThrNo) (d : Reg) (v : BitVec 2)
  /-- CLAIM (R84): A candidate writes a claim word, which can make it owner or successor. -/
  | claim (c : Cand) (word : BitVec 32)
  /-- STATUS (R80): A candidate reads OWNER_STATUS through its ownership path. -/
  | status (c : Cand)
  /-- HANDOVER (R84): The owner names a successor and starts the 1 s acceptance timer. -/
  | handover (c : Cand) (successor : BitVec 6)
  /-- HANDOVER_CANCEL (R84): The owner cancels a pending handover. -/
  | handoverCancel (c : Cand)
  /-- RELEASE (R84): The owner releases ownership and the state returns to OPEN. -/
  | release (c : Cand)
  /-- HANDOVER_TIMER_EXPIRY (R84): The 1 s acceptance timer expires and the owner stays unchanged. -/
  | handoverTimerExpiry
  /-- LAPSE_TIMER_EXPIRY (R84): The lapse timer expires, the claim word is cleared and OWNER_EPOCH increments. -/
  | lapseTimerExpiry
  /-- FUNCTION_LEVEL_RESET (R83): A Function Level Reset of the endpoint or of a single-LD head resets that function. -/
  | functionLevelReset (f : Func)
  /-- LD_RESET (R102): An LD reset stops the LD's rings, ends its tenant invocations, resets TO_HOST and HOST_MASK, and can start a lapse. -/
  | ldReset (ld : LdNo)
  /-- BMC_SCL_LOW_TIMEOUT (R83): BMC_SCL held low for 35 ms resets the BMC sideband candidate. -/
  | bmcSclLowTimeout
  /-- I3C_TARGET_RESET (R83): An I3C target reset action addressed to the device resets the BMC sideband candidate. -/
  | i3cTargetReset
  /-- RING_ENABLE (R88): ENABLE going from 0 to 1 zeroes the ring indices and sets the expected phase to 1. -/
  | ringEnable (ld : LdNo) (r : RingNo)
  /-- RING_DISABLE (R88): ENABLE going to 0 stops fetching; commands already started run to completion. -/
  | ringDisable (ld : LdNo) (r : RingNo)
  /-- CMD_TAIL_WRITE (R89): A host write of CMD_TAIL makes new commands available for fetch. -/
  | cmdTailWrite (ld : LdNo) (r : RingNo) (v : BitVec 16)
  /-- CPL_HEAD_WRITE (R95): A host write of CPL_HEAD consumes completion entries and frees room. -/
  | cplHeadWrite (ld : LdNo) (r : RingNo) (v : BitVec 16)
  /-- COMMAND_FETCH (R90): The ring fetches and starts its next command once there is room in flight and in the completion ring. -/
  | commandFetch (ld : LdNo) (r : RingNo) (resp : HostResp)
  /-- COMMAND_COMPLETE (R94): A ring command completes and its 16-byte completion entry is written, with an optional doorbell. -/
  | commandComplete (ld : LdNo) (r : RingNo) (i : BitVec 16) (hostOk : Bool)
  /-- COPY (R260): The COPY ring command copies a device range through sealing. -/
  | copy (ld : LdNo) (r : RingNo) (i : BitVec 16)
  /-- ZERO (R261): The ZERO ring command makes whole pages BLANK and zeroes partly covered ones. -/
  | zero (ld : LdNo) (r : RingNo) (i : BitVec 16)
  /-- REKEY (R341): The REKEY ring command re-seals pages from the old key slot to the new one. -/
  | rekey (ld : LdNo) (r : RingNo) (i : BitVec 16)
  /-- STOW (R293): The STOW ring command stows the eligible pages of a range. -/
  | stow (ld : LdNo) (r : RingNo) (i : BitVec 16)
  /-- UNSTOW (R297): The UNSTOW ring command promotes the STOWED pages of a range to a named tier. -/
  | unstow (ld : LdNo) (r : RingNo) (i : BitVec 16)
  /-- PIN (R262): The PIN ring command pins pages to a tier and moves or promotes them into it. -/
  | pin (ld : LdNo) (r : RingNo) (i : BitVec 16)
  /-- UNPIN (R262): The UNPIN ring command clears the pin of pages without moving them. -/
  | unpin (ld : LdNo) (r : RingNo) (i : BitVec 16)
  /-- HINT (R140): The HINT ring command is delivered to the policy queue, or completes at once when the queue is full. -/
  | hint (ld : LdNo) (r : RingNo) (i : BitVec 16)
  /-- EXPORT (R304): The EXPORT ring command compresses a device range into a host buffer in stream mode. -/
  | exportStream (ld : LdNo) (r : RingNo) (i : BitVec 16) (hostOk : Bool)
  /-- IMPORT (R305): The IMPORT ring command decodes a host stream into device memory. -/
  | importStream (ld : LdNo) (r : RingNo) (i : BitVec 16) (resp : HostResp)
  /-- SAVE (R306): CTX_OP SAVE writes a stream context image to host memory and frees the context. -/
  | save (ld : LdNo) (r : RingNo) (i : BitVec 16) (hostOk : Bool)
  /-- RESTORE (R306): CTX_OP RESTORE loads a stream context from a verified image. -/
  | restore (ld : LdNo) (r : RingNo) (i : BitVec 16) (resp : HostResp)
  /-- RUN (R158): The RUN ring command invokes a tenant program, or is refused by phase or grant. -/
  | run (ld : LdNo) (r : RingNo) (i : BitVec 16) (resp : HostResp)
  /-- RUN_DISPATCH (R158): A waiting RUN is dispatched to an idle thread once one is free. -/
  | runDispatch
  /-- SNAP (R477): The SNAP ring command writes a milepost group snapshot into host memory. -/
  | snap (ld : LdNo) (r : RingNo) (i : BitVec 16) (hostOk : Bool)
  /-- MAILBOX_SEND (R98): A word posted to a host-to-device mailbox is stored, or rejected while the mailbox is FULL. -/
  | mailboxSend (f : Func) (m : BitVec 4) (v : MailWord)
  /-- MAILBOX_ACK (R98): An ACK write empties a device-to-host mailbox. -/
  | mailboxAck (f : Func) (m : BitVec 4)
  /-- DB_SET (R101): A DB_SET write sets TO_DEV bits and raises DOORBELL events for unmasked bits. -/
  | dbSet (f : Func) (v : BitVec 32)
  /-- DB_STATUS_CLEAR (R100): A W1C write to DB_STATUS clears TO_HOST bits. -/
  | dbStatusClear (f : Func) (v : BitVec 32)
  /-- DB_MASK_WRITE (R101): A HOST_MASK write that unmasks a bit already set raises the host interrupt. -/
  | dbMaskWrite (f : Func) (v : BitVec 32)
  /-- SA_NEW (R104): SA_CTRL.NEW generates a new service access challenge. -/
  | saNew (c : Cand)
  /-- SA_SUBMIT (R105): SA_CTRL.SUBMIT checks the response against the challenge, opening the port or counting a wrong response. -/
  | saSubmit (c : Cand) (method : BitVec 2)
  /-- SA_LOCK (R105): SA_CTRL.LOCK relocks the service access port. -/
  | saLock (c : Cand)
  /-- SA_DBG_GO (R107): SA_DBG_CTRL.GO starts a debug read of one line through sealing. -/
  | saDbgGo (c : Cand)
  /-- DEBUG_READ_COMPLETE (R107): A debug read completes and RESULT, KEYSLOT, PAGE_STATE and DATA are set. -/
  | debugReadComplete (dec : Decode)
  /-- DEBUG_HALT (R157): A debug halt through the open service access port stops a thread. -/
  | debugHalt (w : WfNo) (t : ThrNo)
  /-- DEBUG_RESUME (R157): A debug resume returns a halted thread to its previous state. -/
  | debugResume (w : WfNo) (t : ThrNo)
  /-- DEBUG_SINGLE_STEP (R157): A debug single step executes one instruction and returns the thread to debug halt. -/
  | debugSingleStep (w : WfNo) (t : ThrNo)
  /-- LOAD (R154): The loader LOAD request verifies an image and places its code in the named wayfinders. -/
  | load (snd : Sender) (mask : BitVec 16) (image : List (BitVec 8))
  /-- UNLOAD (R155): The loader UNLOAD request removes a program unless it is running or awaited. -/
  | unload (snd : Sender) (prog : BitVec 8)
  /-- START (R158): The loader START request starts an owner invocation on a named thread. -/
  | start (snd : Sender) (mask : BitVec 16) (thr : BitVec 8) (prog : BitVec 8) (args : List (BitVec 8))
  /-- STOP (R155): The loader STOP request ends the invocation on a thread. -/
  | stop (snd : Sender) (mask : BitVec 16) (thr : BitVec 8)
  /-- QUERY (R152): The loader QUERY request returns a wayfinder's thread state and end statuses. -/
  | query (snd : Sender) (mask : BitVec 16) (prog : BitVec 8)
  /-- RESTART (R164): The loader RESTART request restarts a wayfinder. -/
  | restart (snd : Sender) (mask : BitVec 16)
  /-- WIN_CLEAR (R153): WIN_CTRL.CLEAR zeroes the program load window's staging buffer. -/
  | winClear
  /-- WAYFINDER_RESTART_COMPLETE (R164): A wayfinder restart completes, with the base program running again from its entry. -/
  | wayfinderRestartComplete (w : WfNo)
  /-- ILLEGAL_INSTRUCTION (R117): Fetch of an unlisted opcode or fn, or of a bad target, raises ILLEGAL. -/
  | illegalInstruction (w : WfNo) (t : BadFetch)
  /-- ADD (R121): Adds two registers modulo 2^64. -/
  | add (w : WfNo) (t : ThrNo) (d a b : Reg)
  /-- SUB (R121): Subtracts two registers modulo 2^64. -/
  | sub (w : WfNo) (t : ThrNo) (d a b : Reg)
  /-- AND (R121): Bitwise AND of two registers. -/
  | and (w : WfNo) (t : ThrNo) (d a b : Reg)
  /-- OR (R121): Bitwise OR of two registers. -/
  | or (w : WfNo) (t : ThrNo) (d a b : Reg)
  /-- XOR (R121): Bitwise XOR of two registers. -/
  | xor (w : WfNo) (t : ThrNo) (d a b : Reg)
  /-- SHL (R121): Shifts a register left. -/
  | shl (w : WfNo) (t : ThrNo) (d a b : Reg)
  /-- SHR (R121): Shifts a register right logically. -/
  | shr (w : WfNo) (t : ThrNo) (d a b : Reg)
  /-- SAR (R121): Shifts a register right arithmetically. -/
  | sar (w : WfNo) (t : ThrNo) (d a b : Reg)
  /-- MUL (R121): Writes the low 64 bits of a product. -/
  | mul (w : WfNo) (t : ThrNo) (d a b : Reg)
  /-- MULH (R121): Writes the high 64 bits of an unsigned product. -/
  | mulh (w : WfNo) (t : ThrNo) (d a b : Reg)
  /-- DIVU (R121): Divides unsigned; a zero divisor gives all ones. -/
  | divu (w : WfNo) (t : ThrNo) (d a b : Reg)
  /-- REMU (R121): Writes the unsigned remainder; a zero divisor gives the dividend. -/
  | remu (w : WfNo) (t : ThrNo) (d a b : Reg)
  /-- MIN (R121): Writes the signed minimum of two registers. -/
  | min (w : WfNo) (t : ThrNo) (d a b : Reg)
  /-- MAX (R121): Writes the signed maximum of two registers. -/
  | max (w : WfNo) (t : ThrNo) (d a b : Reg)
  /-- CLZ (R121): Counts the leading zero bits of a register. -/
  | clz (w : WfNo) (t : ThrNo) (d a : Reg)
  /-- POPC (R121): Counts the one bits of a register. -/
  | popc (w : WfNo) (t : ThrNo) (d a : Reg)
  /-- SEQ (R121): Sets the destination to 1 if two registers are equal. -/
  | seq (w : WfNo) (t : ThrNo) (d a b : Reg)
  /-- SLT (R121): Signed less-than comparison. -/
  | slt (w : WfNo) (t : ThrNo) (d a b : Reg)
  /-- SLTU (R121): Unsigned less-than comparison. -/
  | sltu (w : WfNo) (t : ThrNo) (d a b : Reg)
  /-- ADDI (R121): Adds a sign-extended immediate. -/
  | addi (w : WfNo) (t : ThrNo) (d a : Reg) (imm : BitVec 16)
  /-- ANDI (R121): ANDs a zero-extended immediate. -/
  | andi (w : WfNo) (t : ThrNo) (d a : Reg) (imm : BitVec 16)
  /-- ORI (R121): ORs a zero-extended immediate. -/
  | ori (w : WfNo) (t : ThrNo) (d a : Reg) (imm : BitVec 16)
  /-- XORI (R121): XORs a zero-extended immediate. -/
  | xori (w : WfNo) (t : ThrNo) (d a : Reg) (imm : BitVec 16)
  /-- SHLI (R121): Shifts left by an immediate. -/
  | shli (w : WfNo) (t : ThrNo) (d a : Reg) (imm : BitVec 16)
  /-- SHRI (R121): Shifts right logically by an immediate. -/
  | shri (w : WfNo) (t : ThrNo) (d a : Reg) (imm : BitVec 16)
  /-- SARI (R121): Shifts right arithmetically by an immediate. -/
  | sari (w : WfNo) (t : ThrNo) (d a : Reg) (imm : BitVec 16)
  /-- MULI (R121): Multiplies by a sign-extended immediate. -/
  | muli (w : WfNo) (t : ThrNo) (d a : Reg) (imm : BitVec 16)
  /-- LHI (R121): Loads an immediate into bits [31:16], sign-extended. -/
  | lhi (w : WfNo) (t : ThrNo) (d : Reg) (imm : BitVec 16)
  /-- SLTI (R121): Signed less-than comparison with an immediate. -/
  | slti (w : WfNo) (t : ThrNo) (d a : Reg) (imm : BitVec 16)
  /-- SLTIU (R121): Unsigned less-than comparison with a sign-extended immediate. -/
  | sltiu (w : WfNo) (t : ThrNo) (d a : Reg) (imm : BitVec 16)
  /-- SEQI (R121): Equality comparison with an immediate. -/
  | seqi (w : WfNo) (t : ThrNo) (d a : Reg) (imm : BitVec 16)
  /-- BEQ (R122): Branches if two registers are equal. -/
  | beq (w : WfNo) (t : ThrNo) (a b : Reg) (imm : BitVec 16)
  /-- BNE (R122): Branches if two registers differ. -/
  | bne (w : WfNo) (t : ThrNo) (a b : Reg) (imm : BitVec 16)
  /-- BLT (R122): Branches on signed less-than. -/
  | blt (w : WfNo) (t : ThrNo) (a b : Reg) (imm : BitVec 16)
  /-- BGE (R122): Branches on signed greater-or-equal. -/
  | bge (w : WfNo) (t : ThrNo) (a b : Reg) (imm : BitVec 16)
  /-- BLTU (R122): Branches on unsigned less-than. -/
  | bltu (w : WfNo) (t : ThrNo) (a b : Reg) (imm : BitVec 16)
  /-- BGEU (R122): Branches on unsigned greater-or-equal. -/
  | bgeu (w : WfNo) (t : ThrNo) (a b : Reg) (imm : BitVec 16)
  /-- J (R122): Jumps to an absolute word address. -/
  | j (w : WfNo) (t : ThrNo) (imm : BitVec 26)
  /-- JAL (R122): Jumps and links through g31. -/
  | jal (w : WfNo) (t : ThrNo) (imm : BitVec 26)
  /-- JR (R122): Jumps to a register address and links in the destination register. -/
  | jr (w : WfNo) (t : ThrNo) (d a : Reg)
  /-- LDB (R124): Loads a sign-extended byte from scratch. -/
  | ldb (w : WfNo) (t : ThrNo) (d a : Reg) (imm : BitVec 16)
  /-- LDBU (R124): Loads a zero-extended byte from scratch. -/
  | ldbu (w : WfNo) (t : ThrNo) (d a : Reg) (imm : BitVec 16)
  /-- LDH (R124): Loads a sign-extended half-word from scratch. -/
  | ldh (w : WfNo) (t : ThrNo) (d a : Reg) (imm : BitVec 16)
  /-- LDHU (R124): Loads a zero-extended half-word from scratch. -/
  | ldhu (w : WfNo) (t : ThrNo) (d a : Reg) (imm : BitVec 16)
  /-- LDW (R124): Loads a sign-extended word from scratch. -/
  | ldw (w : WfNo) (t : ThrNo) (d a : Reg) (imm : BitVec 16)
  /-- LDWU (R124): Loads a zero-extended word from scratch. -/
  | ldwu (w : WfNo) (t : ThrNo) (d a : Reg) (imm : BitVec 16)
  /-- LDD (R124): Loads a double word from scratch. -/
  | ldd (w : WfNo) (t : ThrNo) (d a : Reg) (imm : BitVec 16)
  /-- STB (R124): Stores a byte to scratch. -/
  | stb (w : WfNo) (t : ThrNo) (d a : Reg) (imm : BitVec 16)
  /-- STH (R124): Stores a half-word to scratch. -/
  | sth (w : WfNo) (t : ThrNo) (d a : Reg) (imm : BitVec 16)
  /-- STW (R124): Stores a word to scratch. -/
  | stw (w : WfNo) (t : ThrNo) (d a : Reg) (imm : BitVec 16)
  /-- STD (R124): Stores a double word to scratch. -/
  | std (w : WfNo) (t : ThrNo) (d a : Reg) (imm : BitVec 16)
  /-- TLD (R126): Reads the committed value of a table word. -/
  | tld (w : WfNo) (t : ThrNo) (d a : Reg)
  /-- WALKER_NEXT (R280): A TLD of word 1 of a PLACE walker entry searches for the next storage unit and advances the cursor. -/
  | walkerNext (w : WfNo) (t : ThrNo) (d a : Reg)
  /-- TST (R127): Stages a word of a table entry. -/
  | tst (w : WfNo) (t : ThrNo) (d a b : Reg)
  /-- TST_C (R169): Stages a word and submits the entry for admission by the table unit. -/
  | tstC (w : WfNo) (t : ThrNo) (d a b : Reg)
  /-- TCAS (R126): Submits the staged entry only if the committed word equals the expected value. -/
  | tcas (w : WfNo) (t : ThrNo) (d a b : Reg)
  /-- TABLE_COMMIT (R168): An admitted table store reaches its commit point and the governed unit acts on the new value. -/
  | tableCommit (tbl : BitVec 8) (idx : BitVec 48)
  /-- WAIT (R131): Returns pending events, or suspends until an event or a timeout. -/
  | wait (w : WfNo) (t : ThrNo) (d a b : Reg)
  /-- POST_THREAD (R131): Sets a SOFT event bit of a named thread. -/
  | postThread (w : WfNo) (t : ThrNo) (d a b : Reg)
  /-- POST_MAILBOX (R131): Posts a word to a device-to-host mailbox. -/
  | postMailbox (w : WfNo) (t : ThrNo) (d a b : Reg)
  /-- POST_DOORBELL (R131): Sets TO_HOST doorbell bits. -/
  | postDoorbell (w : WfNo) (t : ThrNo) (d a b : Reg)
  /-- SLEEP (R131): Suspends the thread for at least a given number of FCLK cycles. -/
  | sleep (w : WfNo) (t : ThrNo) (a : Reg)
  /-- MBRD (R131): Reads a mailbox's PEEK value and FULL flag. -/
  | mbrd (w : WfNo) (t : ThrNo) (d a : Reg)
  /-- MBACK (R131): ACKs a host-to-device mailbox. -/
  | mback (w : WfNo) (t : ThrNo) (d a : Reg)
  /-- DBTAKE (R131): Takes and clears TO_DEV doorbell bits. -/
  | dbtake (w : WfNo) (t : ThrNo) (d a b : Reg)
  /-- THREAD_RESUME (R157): A suspended thread resumes when its WAIT, SLEEP, data-path or fence condition is met. -/
  | threadResume (w : WfNo) (t : ThrNo) (expired : Bool)
  /-- STEP_BUDGET_EXPIRY (R160): A tenant invocation's step count reaches its budget during a suspension and raises STEP_BUDGET. -/
  | stepBudgetExpiry (w : WfNo) (t : ThrNo)
  /-- TICK (R129): Every 1 ms the TICK event is raised for threads running owner programs. -/
  | tick
  /-- MOVE_TIER (R136): A mover descriptor of kind TIER moves pages to a target tier or unit. -/
  | moveTier (w : WfNo) (t : ThrNo) (d a : Reg)
  /-- MOVE_COPY (R136): A mover descriptor of kind COPY copies pages through sealing. -/
  | moveCopy (w : WfNo) (t : ThrNo) (d a : Reg)
  /-- MOVE_ZERO (R136): A mover descriptor of kind ZERO zeroes pages. -/
  | moveZero (w : WfNo) (t : ThrNo) (d a : Reg)
  /-- MOVE_REKEY (R136): A mover descriptor of kind REKEY re-keys pages. -/
  | moveRekey (w : WfNo) (t : ThrNo) (d a : Reg)
  /-- MOVE_DONE (R137): A MOVE completes; PAGES and STATUS are written to scratch and MOVE_DONE is set if NOTIFY was asked. -/
  | moveDone (w : WfNo) (t : ThrNo) (desc : BitVec 18)
  /-- STOW_INSTR (R293): The STOW instruction stows one page and waits for completion. -/
  | stowInstr (w : WfNo) (t : ThrNo) (d a b : Reg)
  /-- UNSTOW_INSTR (R134): The UNSTOW instruction promotes one page and waits. -/
  | unstowInstr (w : WfNo) (t : ThrNo) (d a b : Reg)
  /-- BINV (R134): Back-invalidates every tracked line of a range and waits for the responses. -/
  | binv (w : WfNo) (t : ThrNo) (d a b : Reg)
  /-- HEAT (R252): Pops the hottest entry of the hot-page table. -/
  | heat (w : WfNo) (t : ThrNo) (d : Reg)
  /-- MREAD (R139): Reads device memory through a named key slot into scratch. -/
  | mread (w : WfNo) (t : ThrNo) (n : Fin 7) (d a b : Reg)
  /-- MWRITE (R139): Writes scratch to device memory through a named key slot. -/
  | mwrite (w : WfNo) (t : ThrNo) (n : Fin 7) (d a b : Reg)
  /-- RGET (R134): Takes the oldest policy queue item into scratch. -/
  | rget (w : WfNo) (t : ThrNo) (d a : Reg)
  /-- RPUT (R140): Completes a policy queue item with a status and result. -/
  | rput (w : WfNo) (t : ThrNo) (d a b : Reg)
  /-- MPRD (R141): Reads a milepost counter. -/
  | mprd (w : WfNo) (t : ThrNo) (d a : Reg)
  /-- MPSNAP (R141): Takes a snapshot of a milepost group and returns its generation. -/
  | mpsnap (w : WfNo) (t : ThrNo) (d a : Reg)
  /-- TIME (R141): Reads FCLK cycles since the root PLL locked. -/
  | time (w : WfNo) (t : ThrNo) (d : Reg)
  /-- FENCE_S (R146): Waits until the thread's earlier scratch stores are visible to all four threads. -/
  | fenceS (w : WfNo) (t : ThrNo)
  /-- FENCE_T (R146): Waits until the thread's earlier admitted table stores have committed. -/
  | fenceT (w : WfNo) (t : ThrNo)
  /-- FENCE_D (R146): Waits until the thread's earlier MOVEs have completed. -/
  | fenceD (w : WfNo) (t : ThrNo)
  /-- FENCE_A (R146): Waits for the conditions of all three fences. -/
  | fenceA (w : WfNo) (t : ThrNo)
  /-- TRAP (R144): Raises TRAP with a code and ends the invocation. -/
  | trap (w : WfNo) (t : ThrNo) (imm : BitVec 16)
  /-- HALT (R141): Waits for outstanding MOVEs, then ends the invocation with a return value. -/
  | halt (w : WfNo) (t : ThrNo) (a : Reg)
  /-- LINK_TRAINING_COMPLETE (R172): A head's link reaches DL_Active at a negotiated rate, width, flit mode and protocol. -/
  | linkTrainingComplete (l : LinkNo) (rate : BitVec 4) (width : BitVec 5) (flit256 : Bool) (cxl : Bool)
  /-- LINK_DOWN (R197): A head's link leaves DL_Active; decoders uncommit and rings, mailboxes and ownership follow their rules. -/
  | linkDown (l : LinkNo)
  /-- HDM_DECODER_COMMIT (R178): A host commits an HDM decoder, or the commit fails with Error Not Committed. -/
  | hdmDecoderCommit (ld : LdNo) (n : Fin 4) (dec : DecoderSet)
  /-- CONFIGURATION_REQUEST (R58): A CXL.io configuration request completes. -/
  | configurationRequest (r : CfgReq)
  /-- REGISTER_WRITE (R3): A host write to a BAR register with no behaviour of its own stores by access type. -/
  | registerWrite (p : RegPath) (off : BitVec 24) (size : BitVec 8) (op : RegOp)
  /-- MEM_RD (R211): A MemRd from a head is checked at the head, tolled and ordered at its home slice. -/
  | memRd (ld : LdNo) (mv : MetaVal) (hpa : BitVec 64) (tag : BitVec 16)
  /-- MEM_RD_DATA (R211): A MemRdData is served as a read to hold shared. -/
  | memRdData (ld : LdNo) (mv : MetaVal) (hpa : BitVec 64) (tag : BitVec 16)
  /-- MEM_RD_FWD (R211): A MemRdFwd is served as a read by its MetaValue. -/
  | memRdFwd (ld : LdNo) (mv : MetaVal) (hpa : BitVec 64) (tag : BitVec 16)
  /-- MEM_SPEC_RD (R176): A MemSpecRd only fetches the page's placement entry and gets no response. -/
  | memSpecRd (ld : LdNo) (mv : MetaVal) (hpa : BitVec 64) (tag : BitVec 16)
  /-- MEM_INV (R211): A MemInv changes the line's coherence state without data. -/
  | memInv (ld : LdNo) (mv : MetaVal) (hpa : BitVec 64) (tag : BitVec 16)
  /-- MEM_INV_NT (R211): A MemInvNT changes the line's coherence state without data. -/
  | memInvNt (ld : LdNo) (mv : MetaVal) (hpa : BitVec 64) (tag : BitVec 16)
  /-- MEM_WR (R211): A MemWr is ordered at the home slice and completed, after any snoops. -/
  | memWr (ld : LdNo) (mv : MetaVal) (hpa : BitVec 64) (tag : BitVec 16) (data : BitVec 512) (poisoned : Bool)
  /-- MEM_WR_PTL (R19): A MemWrPtl is ordered and merged as a byte-masked write. -/
  | memWrPtl (ld : LdNo) (mv : MetaVal) (hpa : BitVec 64) (tag : BitVec 16) (data : BitVec 512) (mask : BitVec 64)
      (p : PtlWrite)
  /-- BI_RSP_I (R210): A BIRspI answers an outstanding back-invalidate snoop. -/
  | biRspI (h : HeadNo) (r : RspI)
  /-- BI_RSP_S (R210): A BIRspS answers an outstanding BISnpData; a BIRspE and the block forms come here too. -/
  | biRspS (h : HeadNo) (r : RspS)
  /-- BI_CONFLICT (R223): A BIConflict is answered with BIConflictAck after the earlier-ordered responses. -/
  | biConflict (h : HeadNo) (r : Conflict)
  /-- VIOLATION_LOG_READ (R195): Opcode 0xC020 or MCTP code 0x21 returns the violation log. -/
  | violationLogRead (snd : Sender) (h : HeadNo)
  /-- VIOLATION_LOG_CLEAR (R195): Opcode 0xC022 clears the violation log and overwrite count. -/
  | violationLogClear (snd : Sender) (h : HeadNo)
  /-- ISOLATION_INTERVAL (R196): At the end of each 1 s interval, counted violations are checked against ISO_LIMIT and can isolate the head. -/
  | isolationInterval (h : HeadNo)
  /-- ISOLATED_CLEAR (R196): The owner writes 1 to ISOLATED and ends the head's isolation. -/
  | isolatedClear (w : WfNo) (t : ThrNo) (d : Reg) (h : HeadNo)
  /-- L0P_SAMPLE (R188): Every 10 µs the head samples utilisation and may request a narrower or full width. -/
  | l0pSample (h : HeadNo) (load : BitVec 7)
  /-- HOST_L0P_REQUEST (R189): The host requests an L0p width, which the head accepts. -/
  | hostL0pRequest (h : HeadNo) (width : BitVec 5)
  /-- L0P_CHANGE_COMPLETE (R189): An L0p width change completes and L0P_HOLD restarts. -/
  | l0pChangeComplete (h : HeadNo)
  /-- L1_ENTRY (R190): A link enters ASPM L1 when L1_ENABLE is 1 and the host permits it. -/
  | l1Entry (h : HeadNo)
  /-- L1_EXIT (R190): A link leaves L1 by host exit or by a wake for a snoop or send. -/
  | l1Exit (h : HeadNo)
  /-- TOLL_INTERVAL (R393): Every 64 FCLK cycles the tollgates take the level L and set each class's limit and tokens. -/
  | tollInterval
  /-- QUEUE_LEVEL_REPORT (R373): Every 64 FCLK cycles each controller reports its queue level and any DELIVERABLE change. -/
  | queueLevelReport (u : UnitNo) (level : BitVec 7)
  /-- TOLLGATE_ADMIT (R394): A waiting request is admitted when its class has tokens, or by the 1,024-cycle progress rule. -/
  | tollgateAdmit (g : TollNo)
  /-- ROUNDABOUT_REFILL (R404): At each 1,024-FCLK-cycle window boundary, credits are refilled and clamped. -/
  | roundaboutRefill
  /-- ROUNDABOUT_GRANT (R405): A roundabout grants one presented request by longest wait, express or credit. -/
  | roundaboutGrant (r : RbNo)
  /-- DWELL_WINDOW_END (R218): A head's dwell window on a line ends and waiting requests may snoop it. -/
  | dwellWindowEnd (dpa : BitVec 46)
  /-- VICTIM_SNOOP_ISSUE (R216): A stalled allocation issues its victim's snoops once unreserved slots are free for every head. -/
  | victimSnoopIssue (hs : SliceNo)
  /-- SNOOP_TIMEOUT (R224): A BISnp times out; a first timeout applies DEAD_POLICY to the group and head. -/
  | snoopTimeout (h : HeadNo) (dpa : BitVec 46)
  /-- RECLAIM_WALK_END (R227): The RECLAIM walk of a dead head's entries completes and a DEAD_AGENT_RECLAIM record is made. -/
  | reclaimWalkEnd (h : HeadNo) (win : BitVec 12)
  /-- REOPEN (R229): The owner stores REOPEN, reclaiming every timed-out head and reopening the closed road. -/
  | reopen (w : WfNo) (t : ThrNo) (d : Reg) (win : BitVec 12)
  /-- RECLAIMED_CLEAR (R228): The owner clears a head's RECLAIMED bit, which also clears its TIMED_OUT bit. -/
  | reclaimedClear (w : WfNo) (t : ThrNo) (d : Reg) (win : BitVec 12) (mask : BitVec 32)
  /-- SNOOP_FILTER_SCRUB (R207): A slice scrub read corrects an entry or halts on an uncorrectable one. -/
  | snoopFilterScrub (hs : SliceNo) (set : BitVec 14) (way : BitVec 4) (ev : SfRead)
  /-- WINDOW_DISABLE (R183): A store of ENABLE 0 to a shared member starts back-invalidation of its lines. -/
  | windowDisable (w : WfNo) (t : ThrNo) (d : Reg) (win : BitVec 12)
  /-- WINDOW_DISABLE_COMPLETE (R183): The last snoop of a member disable completes and the disable takes effect. -/
  | windowDisableComplete (win : BitVec 12)
  /-- HEAT_DECAY (R252): Every DECAY_MS every hot-page COUNT is halved and entries at zero are removed. -/
  | heatDecay
  /-- PAGE_MOVE_COPY_PASS_END (R253): A move's copy or redo pass ends, and a further redo pass or the hold begins. -/
  | pageMoveCopyPassEnd (p : BitVec 34) (ev : CopyEvent)
  /-- PAGE_MOVE_SWITCH (R253): At the end of the hold, the map entry switches to the target and held writes are ordered. -/
  | pageMoveSwitch (p : BitVec 34)
  /-- SLOT_RELOCATION (R258): Compaction relocates the last slot of a partly filled frame into a freed slot once no operation holds it. -/
  | slotRelocation (loc : BitVec 36)
  /-- EVACUATE (R271): A BAY store of EVACUATE marks the bay's channels draining if the frames allow. -/
  | evacuate (w : WfNo) (t : ThrNo) (d : Reg) (b : BayNo)
  /-- CANCEL (R273): A BAY store of CANCEL ends an evacuation and returns the channels' frames to the pool. -/
  | cancel (w : WfNo) (t : ThrNo) (d : Reg) (b : BayNo)
  /-- OFFER (R284): The owner offers an extent and Add Capacity events go to its member heads. -/
  | offer (w : WfNo) (t : ThrNo) (d : Reg) (e : BitVec 14)
  /-- RECALL (R270): The owner recalls an extent and release requests go to its accepting members. -/
  | recall (w : WfNo) (t : ThrNo) (d : Reg) (e : BitVec 14)
  /-- EXTENT_ACCEPT (R270): A member head accepts an offered extent. -/
  | extentAccept (h : HeadNo) (e : BitVec 14)
  /-- EXTENT_RELEASE (R270): A member head releases an extent, which frees it once no member holds it. -/
  | extentRelease (h : HeadNo) (e : BitVec 14)
  /-- CODER_ASSIGN (R294): A waiting stow receives a free coder and its page goes MOVING. -/
  | coderAssign
  /-- STOW_COMPLETE (R294): The slot is written and the map entry switches to STOWED, or the stow fails. -/
  | stowComplete (p : BitVec 34) (ev : StowEvent)
  /-- DECODER_GRANT (R299): A decoder is granted to the oldest decode of the highest priority. -/
  | decoderGrant
  /-- PROMOTION_COMPLETE (R297): A promotion decodes, checks and re-seals the page into a frame and switches it. -/
  | promotionComplete (p : BitVec 34) (engineFault : Bool)
  /-- PROMOTION_BUFFER_READ (R298): A decode into a promotion buffer serves its waiting reads; the page stays STOWED. -/
  | promotionBufferRead (p : BitVec 34) (engineFault : Bool)
  /-- CONTEXT_RELEASE (R310): An owner store of RELEASE frees an idle stream context. -/
  | contextRelease (w : WfNo) (t : ThrNo) (d : Reg) (c : BitVec 12)
  /-- INSTALL (R313): KEYSLOT INSTALL installs key material and fixes the mode of an empty slot. -/
  | install (w : WfNo) (t : ThrNo) (d : Reg) (k : BitVec 12) (material : BitVec 256) (mode : BitVec 2) (dbg : Bool) (gen : Bool)
  /-- CLEAR (R313): KEYSLOT CLEAR zeroizes an unused slot's key. -/
  | clear (w : WfNo) (t : ThrNo) (d : Reg) (k : BitVec 12)
  /-- MERGE_WINDOW_EXPIRY (R327): A merge entry's MERGE_WINDOW passes and the entry closes. -/
  | mergeWindowExpiry (u : UnitNo) (frame : BitVec 28) (span : BitVec 4)
  /-- MERGE_ENTRY_SEAL (R328): A closed merge entry is sealed directly or read-verified, merged and re-sealed. -/
  | mergeEntrySeal (u : UnitNo) (frame : BitVec 28) (span : BitVec 4) (dec : Decode)
  /-- REENCRYPTION_COMPLETE (R321): A minor-overflow re-encryption writes the page under a new MAJOR and releases the held accesses. -/
  | reencryptionComplete (p : BitVec 34)
  /-- TREE_NODE_WRITEBACK (R336): An evicted dirty tree node or leaf is written back and its parent's minor increments. -/
  | treeNodeWriteback (level : Fin 4) (idx : BitVec 33)
  /-- NODE_REBASE_COMPLETE (R337): A node re-base re-seals its children under the new version and releases waiting accesses. -/
  | nodeRebaseComplete (level : Fin 6) (idx : BitVec 33)
  /-- DRAM_READ_COMPLETE (R362): Data returns from DRAM and its decode outcome is answered. -/
  | dramReadComplete (u : UnitNo) (ev : DramRead)
  /-- REFRESH (R369): A refresh interval elapses and a refresh is issued or postponed. -/
  | refresh (u : UnitNo) (hot : Bool) (postpone : Bool)
  /-- RETRAINING_PAUSE (R370): A channel's RETRAIN_MS period elapses and it takes its retraining pause. -/
  | retrainingPause (u : UnitNo)
  /-- CA_PARITY_ALERT (R371): A CA parity error on ALERT_N replays the commands since the last checked command. -/
  | caParityAlert (u : UnitNo) (slot : Bool)
  /-- WRITE_CRC_ALERT (R371): A write CRC error rewrites the burst, or starts recovery retraining. -/
  | writeCrcAlert (u : UnitNo) (place : BitVec 5)
  /-- RECOVERY_RETRAINING_END (R376): Recovery retraining succeeds and the unit returns to ACTIVE, or fails and the unit stops. -/
  | recoveryRetrainingEnd (u : UnitNo) (ok : Bool)
  /-- PMIC_FAULT (R371): A DIMM's PMIC reports a fault over the sideband and the channel stops. -/
  | pmicFault (u : UnitNo)
  /-- PATROL_SCRUB_READ (R381): The patrol scrub issues a read and handles what it finds. -/
  | patrolScrubRead (u : UnitNo) (line : BitVec 34) (dec : Decode)
  /-- CE_DECAY (R377): Every CE_DECAY_H the correctable-error counts and DEV_HITS are halved. -/
  | ceDecay (u : UnitNo)
  /-- CE_CLEAR (R380): A MEMCH store of CE_CLEAR removes non-retiring entries and zeroes DEV_HITS. -/
  | ceClear (w : WfNo) (t : ThrNo) (d : Reg) (u : UnitNo)
  /-- MEMCH_RESET (R376): A MEMCH store of RESET returns a STOPPED unit to TRAINING. -/
  | memchReset (w : WfNo) (t : ThrNo) (d : Reg) (u : UnitNo)
  /-- LAY_BY_ENTRY_COMPLETE (R374): A channel or stack reaches self-refresh with its clocks stopped. -/
  | layByEntryComplete (u : UnitNo)
  /-- LAY_BY_EXIT_COMPLETE (R374): A unit leaves lay-by and the stalled access issues. -/
  | layByExitComplete (u : UnitNo)
  /-- COLLECTOR_TAKE (R417): Each AON clock cycle the collector takes one pending report and merges it or makes a record. -/
  | collectorTake
  /-- RECORD_ACK (R422): The owner acknowledges a fault record, removing it unless it is in handling. -/
  | recordAck (c : Cand) (slot : BitVec 8)
  /-- LATCH_CLEAR (R419): The owner writes 1 to VALID of a first-source latch, clearing it. -/
  | latchClear (c : Cand) (cls : Fin 4)
  /-- FAULT_STATUS_READ (R433): MCTP code 0x30 returns FAULT entry 0. -/
  | faultStatusRead
  /-- FAULT_RECORDS_READ (R433): MCTP code 0x31 returns a range of record slots. -/
  | faultRecordsRead (i : BitVec 8) (j : BitVec 8)
  /-- RESET_GO (R428): A FAULT store of RESET_GO requests a unit reset of a PG, SC, MV, TH or CK unit. -/
  | resetGo (w : WfNo) (t : ThrNo) (d : Reg) (uid : BitVec 10)
  /-- UNIT_RESET_COMPLETE (R428): A unit reset completes, or the unit reports its fault again. -/
  | unitResetComplete (faulty : Bool)
  /-- CHECKIN (R429): A store of CHECKIN restarts the heartbeat check-in period. -/
  | checkin (w : WfNo) (t : ThrNo) (d : Reg)
  /-- CHECKIN_TIMEOUT (R429): No CHECKIN within 1 s stops HEARTBEAT and sets CHECKIN_LATE. -/
  | checkinTimeout
  /-- HEARTBEAT_TOGGLE (R429): Every 500 µs HEARTBEAT toggles. -/
  | heartbeatToggle
  /-- DOMAIN_EVALUATION (R438): Every 1 µs a domain is evaluated and may start entry to level 1 or 2, or count a refusal. -/
  | domainEvaluation (dom : DomNo) (idle : BitVec 32)
  /-- DOMAIN_ENTRY_COMPLETE (R437): A domain's entry to parking, lay-by or shelving completes, or replays a latched wake. -/
  | domainEntryComplete (dom : DomNo) (error : Bool)
  /-- DOMAIN_WAKE (R437): A wake event makes a parked, laid-by or shelved domain start waking. -/
  | domainWake (dom : DomNo)
  /-- DOMAIN_READY (R437): A waking domain becomes ACTIVE and its held accesses issue. -/
  | domainReady (dom : DomNo)
  /-- THERMAL_SAMPLE (R442): A sensor is read, corrected, checked for failure, and can start an orderly shutdown. -/
  | thermalSample (th : ThNo) (raw : Option (BitVec 16))
  /-- THROTTLE_UPDATE (R444): Every 100 µs CUT is set from the hottest zone's excess. -/
  | throttleUpdate
  /-- DIMM_SENSOR_READ (R446): A DIMM sensor is read, setting the channel's DIMM cut and refresh rate. -/
  | dimmSensorRead (c : ChanNo) (reading : Option (BitVec 16)) (dramHot : Bool)
  /-- SHUTDOWN_GRACE_END (R447): Admitted requests complete or GRACE_US passes, and the orderly shutdown proceeds to lay-by and halt. -/
  | shutdownGraceEnd
  /-- HARD_TRIP (R448): A hard-trip comparator reaches TRIP_C, THERMTRIP_N asserts and the device halts. -/
  | hardTrip (th : ThNo)
  /-- BAY_PRESENCE_VALID (R453): BAYPRES_N has been low for 20 µs and the bay starts debounce. -/
  | bayPresenceValid (b : BayNo)
  /-- BAY_PRESENCE_LOST (R453): BAYPRES_N has been high for 20 µs and the bay returns to EMPTY, forced off if powered. -/
  | bayPresenceLost (b : BayNo)
  /-- DEBOUNCE_EXPIRY (R450): The debounce timer expires and the bay enters HOLDOFF. -/
  | debounceExpiry (b : BayNo)
  /-- HOLDOFF_EXPIRY (R450): The hold-off timer expires and the bay pre-charges, latches, or goes or stays off. -/
  | holdoffExpiry (b : BayNo) (bayvinMv : BitVec 16)
  /-- PRECHARGE_COMPLETE (R450): BAYVS reaches 90% of BAYVIN and BAYGATE starts to ramp. -/
  | prechargeComplete (b : BayNo) (bayvsMv : BitVec 16)
  /-- PRECHARGE_TIMEOUT (R452): PRECHARGE_MS elapses before pre-charge completes and the bay latches off. -/
  | prechargeTimeout (b : BayNo) (bayvsMv : BitVec 16)
  /-- GATE_FULLY_ON (R450): The main gate is fully on; BAYPG asserts, SPD is read and the channels start training. -/
  | gateFullyOn (b : BayNo) (bayvsMv : BitVec 16) (dimms : List Dimm)
  /-- RAMP_TIMEOUT (R450): 10 ms in RAMP elapse and the bay latches off. -/
  | rampTimeout (b : BayNo) (bayvsMv : BitVec 16)
  /-- FAST_TRIP (R452): Bay current reaches twice LIMIT and the bay latches off within 1 µs. -/
  | fastTrip (b : BayNo) (current : BitVec 16)
  /-- SLOW_TRIP (R452): Current stays above LIMIT for longer than SLOW_MS and the bay latches off. -/
  | slowTrip (b : BayNo) (current : BitVec 16)
  /-- VBAYDRV_LOSS (R450): VBAYDRV stays below its check threshold for 10 µs and the powered bays are forced off. -/
  | vbaydrvLoss (mv : BitVec 16)
  /-- BAYVIN_EXCURSION (R451): BAYVIN stays out of range for the stated time and the bay is forced off. -/
  | bayvinExcursion (b : BayNo) (mv : BitVec 16)
  /-- BAY_ENABLE (R455): A store changing ENABLE from 0 to 1 starts pre-charge of an OFF or DOWN bay. -/
  | bayEnable (w : WfNo) (t : ThrNo) (d : Reg) (b : BayNo)
  /-- BAY_DISABLE (R455): A store changing ENABLE from 1 to 0 powers off or clears the latch of a bay, or is refused. -/
  | bayDisable (w : WfNo) (t : ThrNo) (d : Reg) (b : BayNo)
  /-- BAY_POWER_DOWN (R454): Once both channels are DRAINED, the bay enters lay-by and powers down, and BAYLED lights. -/
  | bayPowerDown (b : BayNo)
  /-- LEDGER_SECOND (R458): Once a second the life ledger adds hours by temperature and equivalent hours. -/
  | ledgerSecond (util : BitVec 7)
  /-- AGEING_READ (R458): Once a day the ring-oscillator ageing sensors are read into RO_DRIFT. -/
  | ageingRead (drift : BitVec 16)
  /-- LEDGER_WRITE (R460): Every hour a ledger record is written to boot flash. -/
  | ledgerWrite (ok : Bool)
  /-- COUNTER_WRAP (R478): A milepost counter wraps, setting OVF, and can reload, write a sample or set FREEZE. -/
  | counterWrap (n : Fin 544) (occ : Occurrence)
  /-- SNAP_REQ (R475): A write of SNAP_REQ requests snapshots of milepost groups. -/
  | snapReq (c : Cand) (mask : BitVec 17)
  /-- SNAPSHOT_COMPLETE (R475): A captured snapshot is written to the other bank, which becomes current, and GEN increments. -/
  | snapshotComplete (g : Fin 17)
  /-- CLEAR_ALL (R473): CLEAR_ALL zeroes every programmable counter in one FCLK cycle. -/
  | clearAll (w : WfNo) (t : ThrNo) (d : Reg)
  /-- FLOW_CONTROL_CREDIT_RETURN (R191): The host returns flow-control credits on a head's link, and transmissions waiting for that credit type, including issued BISnp, ring fetches and completions, are sent. -/
  | flowControlCreditReturn (h : HeadNo) (kind : CreditKind) (n : BitVec 16)
  /-- CXL_IO_COMPLETION (R193): A CXL.io completion arrives from a host, answering a device request for ring fetch or host-memory data, or matching none and being dropped as violation 0x10. -/
  | cxlIoCompletion (h : HeadNo) (tag : BitVec 16) (resp : HostResp)
  /-- DRAM_COMMAND_ISSUE (R364): A channel or stack scheduler issues a queued read, write or twin read to DRAM by its priority, age and write-drain rules. -/
  | dramCommandIssue (u : UnitNo)
  /-- VBAYDRV_PASSES_AGAIN (R487): VBAYDRV rises above the rising threshold after a failed check, so bays may start again. -/
  | vbaydrvPassesAgain
  /-- FUNCTION_OUT_OF_RESET (R83): A Function Level Reset of the endpoint or a reset of LD 0 ends, so the candidate's function is back and a lapsing owner returns to OWNED. -/
  | functionOutOfReset (f : Func)
  /-- TEST_ACCESS_PORT_INSTRUCTION (R51): An instruction loaded through the test access port on TCK, TMS and TDI executes as boundary scan, or as BYPASS unless field service access is open. -/
  | testAccessPortInstruction (p : TapDrive)
deriving DecidableEq, Repr

end Sys2Proof
end

