-- ==== Sys2Proof/Decode.lean ====
section
/-! DEFINITION. The command a word spells. The table gives no row of this block any bits: its commands
arrive as register accesses, protocol messages, pin events and timer expiries, not as words. -/
namespace Sys2Proof

/-- The command that a word of the table's numbering spells: none, since no row has bits (log entry 9). -/
def decodeTableWord (_nbits _w : Nat) : Option Instr := none

end Sys2Proof
end

