-- ==== Sys2Proof/Machine/Tab.lean ====
section
/-! DEFINITION. Sparse maps in one canonical form (keys strictly rising, no entry equal to what an
unlisted key reads as), byte memories over them, and little-endian byte strings. -/
namespace Sys2Proof.Machine

/-- A sparse map from numbered things to values. -/
abbrev Tab (α : Type) := List (Nat × α)

/-- The value at a key; an unlisted key reads as `d k`. -/
def tget {α : Type} (d : Nat → α) : Tab α → Nat → α
  | [], k => d k
  | (k', v) :: t, k => if k' = k then v else tget d t k

/-- The map without the entry of a key. -/
def terase {α : Type} : Tab α → Nat → Tab α
  | [], _ => []
  | (k', v) :: t, k => if k' = k then terase t k else (k', v) :: terase t k

/-- An entry put at its place by key. -/
def tinsert {α : Type} (k : Nat) (v : α) : Tab α → Tab α
  | [] => [(k, v)]
  | (k', v') :: t => if k < k' then (k, v) :: (k', v') :: t else (k', v') :: tinsert k v t

/-- The map with `v` at `k`: a value an unlisted key would read as is not listed. -/
def tset {α : Type} [DecidableEq α] (d : Nat → α) (t : Tab α) (k : Nat) (v : α) : Tab α :=
  if v = d k then terase t k else tinsert k v (terase t k)

/-- Keys strictly rising from `lo` on, and no entry that an unlisted key would read as. -/
def twfFrom {α : Type} [DecidableEq α] (d : Nat → α) : Nat → Tab α → Bool
  | _, [] => true
  | lo, (k, v) :: t => decide (lo ≤ k) && decide (v ≠ d k) && twfFrom d (k + 1) t

/-- The canonical form. -/
def Tab.wf {α : Type} [DecidableEq α] (d : Nat → α) (t : Tab α) : Bool := twfFrom d 0 t

/-- A byte memory: (address, byte) cells in canonical form. -/
abbrev Mem := List Host.Cell

/-- What a byte that nothing has written reads as. DESIGN CHOICE, log entry 4: zero. -/
def Mem.blank (_ : Nat) : BitVec 8 := 0

/-- One byte of a memory. -/
def Mem.read (m : Mem) (a : Nat) : BitVec 8 := tget Mem.blank m a

/-- A memory with one byte written. -/
def Mem.write (m : Mem) (a : Nat) (b : BitVec 8) : Mem := tset Mem.blank m a b

/-- The canonical form of a byte memory. -/
def Memory.wf (m : Mem) : Bool := Tab.wf Mem.blank m

/-- `n` bytes from an address on. -/
def Mem.readN (m : Mem) : Nat → Nat → List (BitVec 8)
  | _, 0 => []
  | a, n + 1 => m.read a :: Mem.readN m (a + 1) n

/-- Bytes written from an address on. -/
def Mem.writeN (m : Mem) : Nat → List (BitVec 8) → Mem
  | _, [] => m
  | a, b :: bs => Mem.writeN (m.write a b) (a + 1) bs

/-- The number a little-endian byte string stands for (00_scope.md, multi-byte values). -/
def leNat : List (BitVec 8) → Nat
  | [] => 0
  | b :: bs => b.toNat + 256 * leNat bs

/-- The `n` little-endian bytes of a number. -/
def leBytes : Nat → Nat → List (BitVec 8)
  | 0, _ => []
  | n + 1, v => BitVec.ofNat 8 v :: leBytes n (v / 256)

/-- `n` bytes of a byte string from an offset on, as a number (bytes beyond the end count zero). -/
def leAt (bs : List (BitVec 8)) (off n : Nat) : Nat := leNat ((bs.drop off).take n)

/-- `n` zero bytes. -/
def zeros (n : Nat) : List (BitVec 8) := List.replicate n 0

/-- Bits [lo + w - 1 : lo] of a number. -/
def bitsOf (v lo w : Nat) : Nat := v / 2 ^ lo % 2 ^ w

/-- One bit of a number. -/
def bitOf (v i : Nat) : Bool := v / 2 ^ i % 2 == 1

/-- A list updated at one index. -/
def setAt {α : Type} (l : List α) (i : Nat) (v : α) : List α := l.set i v

/-- The first `n` numbers that satisfy a test, scanned from `from` for `fuel` numbers. -/
def firstFrom (p : Nat → Bool) : Nat → Nat → Option Nat
  | _, 0 => none
  | i, fuel + 1 => if p i then some i else firstFrom p (i + 1) fuel

end Sys2Proof.Machine
end

