-- ==== Sys2Proof/Machine/Encoding.lean ====
section
/-! DEFINITION. The encoding of Ramer instructions (R116-R119): the four 32-bit forms, the opcode of every instruction and
its fn under a group opcode, and which words are listed at all. -/
namespace Sys2Proof.Machine

/-- What a word must hold to be an instruction: fields as lowest bit, width and value. A field that an instruction does
not use is not listed: it must be zero and is ignored (R117). -/
abbrev Pat := List (Nat × Nat × Nat)

/-- Field [25:21] of the register and immediate forms (R116). -/
def fieldD (r : Reg) : Nat × Nat × Nat := (21, 5, r.val)
/-- Field [20:16] of the register and immediate forms (R116). -/
def fieldA (r : Reg) : Nat × Nat × Nat := (16, 5, r.val)
/-- Field [15:11] of the register form (R116). -/
def fieldB (r : Reg) : Nat × Nat × Nat := (11, 5, r.val)

/-- Register form (R116): opcode, fn, and the register fields used. -/
def regForm (op fn : Nat) (fs : Pat) : Pat := (26, 6, op) :: (0, 11, fn) :: fs
/-- Register form with d, a and b. -/
def regDab (op fn : Nat) (d a b : Reg) : Pat := regForm op fn [fieldD d, fieldA a, fieldB b]
/-- Register form with d and a. -/
def regDa (op fn : Nat) (d a : Reg) : Pat := regForm op fn [fieldD d, fieldA a]
/-- Immediate form (R116). -/
def immForm (op : Nat) (d a : Reg) (imm : BitVec 16) : Pat := [(26, 6, op), fieldD d, fieldA a, (0, 16, imm.toNat)]
/-- Immediate form of a shift: imm16[5:0] is used (R118). -/
def shiftForm (op : Nat) (d a : Reg) (imm : BitVec 16) : Pat := [(26, 6, op), fieldD d, fieldA a, (0, 6, imm.toNat % 64)]
/-- Branch form (R116). -/
def branchForm (op : Nat) (a b : Reg) (imm : BitVec 16) : Pat := [(26, 6, op), (21, 5, a.val), (16, 5, b.val), (0, 16, imm.toNat)]
/-- Jump form (R116). -/
def jumpForm (op : Nat) (imm : BitVec 26) : Pat := [(26, 6, op), (0, 26, imm.toNat)]

/-- The TST.C of a row that stands for a store of one table field: its status register is d (R119, R126). -/
def storeForm (d : Reg) : Pat := regForm 0x28 0x009 [fieldD d]

/-- The encoding of a Ramer instruction (R118, R119); none for a command that is no instruction of a program. MOVE's four
rows and POST's three share their word: the descriptor's KIND and the selector's KIND tell them apart (R130, R136). A row that
stands for a store of one table field is the TST.C that submits it (R126). -/
def encOf : Instr → Option Pat
  | .add _ _ d a b => some (regDab 0x00 0x000 d a b)
  | .sub _ _ d a b => some (regDab 0x00 0x001 d a b)
  | .and _ _ d a b => some (regDab 0x00 0x002 d a b)
  | .or _ _ d a b => some (regDab 0x00 0x003 d a b)
  | .xor _ _ d a b => some (regDab 0x00 0x004 d a b)
  | .shl _ _ d a b => some (regDab 0x00 0x005 d a b)
  | .shr _ _ d a b => some (regDab 0x00 0x006 d a b)
  | .sar _ _ d a b => some (regDab 0x00 0x007 d a b)
  | .mul _ _ d a b => some (regDab 0x00 0x008 d a b)
  | .mulh _ _ d a b => some (regDab 0x00 0x009 d a b)
  | .divu _ _ d a b => some (regDab 0x00 0x00A d a b)
  | .remu _ _ d a b => some (regDab 0x00 0x00B d a b)
  | .min _ _ d a b => some (regDab 0x00 0x00C d a b)
  | .max _ _ d a b => some (regDab 0x00 0x00D d a b)
  | .clz _ _ d a => some (regDa 0x00 0x00E d a)
  | .popc _ _ d a => some (regDa 0x00 0x00F d a)
  | .seq _ _ d a b => some (regDab 0x00 0x010 d a b)
  | .slt _ _ d a b => some (regDab 0x00 0x011 d a b)
  | .sltu _ _ d a b => some (regDab 0x00 0x012 d a b)
  | .addi _ _ d a i => some (immForm 0x01 d a i)
  | .andi _ _ d a i => some (immForm 0x02 d a i)
  | .ori _ _ d a i => some (immForm 0x03 d a i)
  | .xori _ _ d a i => some (immForm 0x04 d a i)
  | .shli _ _ d a i => some (shiftForm 0x05 d a i)
  | .shri _ _ d a i => some (shiftForm 0x06 d a i)
  | .sari _ _ d a i => some (shiftForm 0x07 d a i)
  | .muli _ _ d a i => some (immForm 0x08 d a i)
  | .lhi _ _ d i => some [(26, 6, 0x09), fieldD d, (0, 16, i.toNat)]
  | .slti _ _ d a i => some (immForm 0x0A d a i)
  | .sltiu _ _ d a i => some (immForm 0x0B d a i)
  | .seqi _ _ d a i => some (immForm 0x0C d a i)
  | .beq _ _ a b i => some (branchForm 0x10 a b i)
  | .bne _ _ a b i => some (branchForm 0x11 a b i)
  | .blt _ _ a b i => some (branchForm 0x12 a b i)
  | .bge _ _ a b i => some (branchForm 0x13 a b i)
  | .bltu _ _ a b i => some (branchForm 0x14 a b i)
  | .bgeu _ _ a b i => some (branchForm 0x15 a b i)
  | .j _ _ i => some (jumpForm 0x16 i)
  | .jal _ _ i => some (jumpForm 0x17 i)
  | .jr _ _ d a => some (regDa 0x2B 0x020 d a)
  | .ldb _ _ d a i => some (immForm 0x18 d a i)
  | .ldbu _ _ d a i => some (immForm 0x19 d a i)
  | .ldh _ _ d a i => some (immForm 0x1A d a i)
  | .ldhu _ _ d a i => some (immForm 0x1B d a i)
  | .ldw _ _ d a i => some (immForm 0x1C d a i)
  | .ldwu _ _ d a i => some (immForm 0x1D d a i)
  | .ldd _ _ d a i => some (immForm 0x1E d a i)
  | .stb _ _ d a i => some (immForm 0x20 d a i)
  | .sth _ _ d a i => some (immForm 0x21 d a i)
  | .stw _ _ d a i => some (immForm 0x22 d a i)
  | .std _ _ d a i => some (immForm 0x23 d a i)
  | .tld _ _ d a => some (regDa 0x28 0x000 d a)
  | .walkerNext _ _ d a => some (regDa 0x28 0x000 d a)
  | .tst _ _ d a b => some (regDab 0x28 0x001 d a b)
  | .tstC _ _ d a b => some (regDab 0x28 0x009 d a b)
  | .tcas _ _ d a b => some (regDab 0x28 0x002 d a b)
  | .wait _ _ d a b => some (regDab 0x29 0x000 d a b)
  | .postThread _ _ d a b => some (regDab 0x29 0x001 d a b)
  | .postMailbox _ _ d a b => some (regDab 0x29 0x001 d a b)
  | .postDoorbell _ _ d a b => some (regDab 0x29 0x001 d a b)
  | .sleep _ _ a => some (regForm 0x29 0x002 [fieldA a])
  | .mbrd _ _ d a => some (regDa 0x29 0x003 d a)
  | .mback _ _ d a => some (regDa 0x29 0x004 d a)
  | .dbtake _ _ d a b => some (regDab 0x29 0x005 d a b)
  | .moveTier _ _ d a => some (regDa 0x2A 0x000 d a)
  | .moveCopy _ _ d a => some (regDa 0x2A 0x000 d a)
  | .moveZero _ _ d a => some (regDa 0x2A 0x000 d a)
  | .moveRekey _ _ d a => some (regDa 0x2A 0x000 d a)
  | .stowInstr _ _ d a b => some (regDab 0x2A 0x001 d a b)
  | .unstowInstr _ _ d a b => some (regDab 0x2A 0x002 d a b)
  | .binv _ _ d a b => some (regDab 0x2A 0x003 d a b)
  | .heat _ _ d => some (regForm 0x2A 0x004 [fieldD d])
  | .mread _ _ n d a b => some (regDab 0x2A (0x005 + 0x010 * n.val) d a b)
  | .mwrite _ _ n d a b => some (regDab 0x2A (0x006 + 0x010 * n.val) d a b)
  | .rget _ _ d a => some (regDa 0x2A 0x007 d a)
  | .rput _ _ d a b => some (regDab 0x2A 0x008 d a b)
  | .mprd _ _ d a => some (regDa 0x2B 0x000 d a)
  | .mpsnap _ _ d a => some (regDa 0x2B 0x001 d a)
  | .time _ _ d => some (regForm 0x2B 0x002 [fieldD d])
  | .fenceS _ _ => some (regForm 0x2B 0x010 [])
  | .fenceT _ _ => some (regForm 0x2B 0x011 [])
  | .fenceD _ _ => some (regForm 0x2B 0x012 [])
  | .fenceA _ _ => some (regForm 0x2B 0x013 [])
  | .trap _ _ i => some [(26, 6, 0x30), (0, 16, i.toNat)]
  | .halt _ _ a => some (regForm 0x2B 0x030 [fieldA a])
  | .phaseStore _ _ d _ | .isolatedClear _ _ d _ | .reopen _ _ d _ | .reclaimedClear _ _ d _ _ | .windowDisable _ _ d _
  | .evacuate _ _ d _ | .cancel _ _ d _ | .offer _ _ d _ | .recall _ _ d _ | .contextRelease _ _ d _ | .install _ _ d _ _ _ _ _
  | .clear _ _ d _ | .ceClear _ _ d _ | .memchReset _ _ d _ | .resetGo _ _ d _ | .checkin _ _ d | .bayEnable _ _ d _
  | .bayDisable _ _ d _ | .clearAll _ _ d => some (storeForm d)
  | _ => none

/-- A word holds every field of a pattern. -/
def Pat.fits (p : Pat) (x : Nat) : Bool := p.all (fun f => bitsOf x f.1 f.2.1 == f.2.2)

/-- The word of a pattern, its unused fields zero (R117). -/
def Pat.word (p : Pat) : Nat := (p.map (fun f => f.2.2 * 2 ^ f.1)).sum

/-- The fn values listed under a group opcode (R119). -/
def groupFns (op : Nat) : List Nat :=
  match op with
  | 0x00 => List.range 0x13
  | 0x28 => [0x000, 0x001, 0x009, 0x002]
  | 0x29 => List.range 6
  | 0x2A => [0x000, 0x001, 0x002, 0x003, 0x004, 0x007, 0x008] ++
      (List.range 7).map (fun n => 0x005 + 0x010 * n) ++ (List.range 7).map (fun n => 0x006 + 0x010 * n)
  | 0x2B => [0x000, 0x001, 0x002, 0x010, 0x011, 0x012, 0x013, 0x020, 0x030]
  | _ => []

/-- The word's opcode, and its fn where the opcode is a group, are listed; any other word raises ILLEGAL (R117-R119). -/
def listed (x : Nat) : Bool :=
  let op := bitsOf x 26 6
  (decide (0x01 ≤ op) && decide (op ≤ 0x0C)) || (decide (0x10 ≤ op) && decide (op ≤ 0x1E)) ||
  (decide (0x20 ≤ op) && decide (op ≤ 0x23)) || op == 0x30 || (groupFns op).contains (bitsOf x 0 11)

/-- A fetched word is this instruction; ILLEGAL_INSTRUCTION stands for a word that is not listed, and for one whose fetch
met an uncorrectable error. -/
def fits (i : Instr) (x : Nat) : Bool :=
  match i, encOf i with
  | .illegalInstruction _ t, _ => t.ue || !listed x
  | _, some p => p.fits x
  | _, none => false

end Sys2Proof.Machine
end

