-- ==== Sys2Proof/Config.lean ====
section
/-! DEFINITION. What an implementation fixes and the spec leaves open: free values and the
cryptographic functions the spec takes from other standards. None of them has a body. -/
namespace Sys2Proof

/-- The n-th free value: the value the spec leaves open, taken n-th. Nothing constrains it. Log entry 2. -/
opaque Config.freeValue : Nat → BitVec 64

/-- AES-256 of one block under a key (R316 names the cipher and leaves it to its standard). Log entry 5. -/
opaque Config.aes256 : BitVec 256 → BitVec 128 → BitVec 128

/-- GHASH under a hash subkey over blocks, as NIST SP 800-38D defines it (R323 names it and leaves it to
its standard). Log entry 5. -/
opaque Config.ghash : BitVec 128 → List (BitVec 128) → BitVec 128

/-- Does this ECDSA P-384 signature (r ‖ s) over SHA-384 of these bytes verify under this public key
(Krezel's when none is given)? R149, R105. Log entry 5. -/
opaque Config.ecdsaOk : Option (List (BitVec 8)) → List (BitVec 8) → List (BitVec 8) → Bool

/-- HMAC-SHA-256 of the bytes under the key (R105). Log entry 5. -/
opaque Config.hmacSha256 : BitVec 256 → List (BitVec 8) → BitVec 256

/-- The device identity reported by SPDM (R104). Log entry 5. -/
opaque Config.deviceIdentity : BitVec 64

/-- CHECK of a snoop-filter entry: a double-error-correcting code over its 56 bits, which no rule lays out (R205).
Log entry 76. -/
opaque Config.sfCheck : BitVec 56 → BitVec 14

/-- Parity of a set's pseudo-LRU state, of a sense no rule states (R205). Log entry 76. -/
opaque Config.plruParity : BitVec 15 → Bool

/-- Size in bytes of BAR2 of the management endpoint (true) or of a logical device (false), which no rule gives.
Log entry 2. -/
opaque Config.barSize : Bool → Nat

end Sys2Proof
end

