-- ==== Sys2Proof/Machine/Fields.lean ====
section
/-! DEFINITION. The device tables' fields, as the spec lays them out: one descriptor per named field
of the "Bits | Field | Type | Reset" tables, with its table, its bits in the entry, its access
type (R3) and its reset value, and the catalogue of R167 (index ranges and entry lengths). -/
namespace Sys2Proof.Machine

/-- Access types of R3. -/
inductive Acc where
  | ro | rw | wo | w1c | w1s | roh
deriving DecidableEq, Repr

/-- Entry layouts: a table, or a part of a table whose entries have a layout of their own. -/
inductive Lay where
  | access | bay | capExt | capPool | faultColl | faultRec | keymap | keyslot | memch | milepost | milepostAll | owner0 | owner1 | owner2 | phase | placeCtl0 | placeCtl1 | placePage | placeWalker | port | power | powerAll | rbOwn | rbReq | snoopSlice | snoopWin | stowCtx | stowSet | tag | thermal | thermalSup | toll | tollDev | window
deriving DecidableEq, Repr

/-- A field: its layout, lowest bit in the entry, width, access type and reset value. -/
structure Fld where
  lay : Lay
  lo : Nat
  w : Nat
  ty : Acc
  rst : Nat
deriving DecidableEq, Repr

/-- The table ID of a layout (R167). -/
def Lay.tbl : Lay → Nat
  | .port => 0x01 | .window => 0x02 | .tag => 0x03 | .keymap => 0x04 | .keyslot => 0x05
  | .toll => 0x06 | .tollDev => 0x06 | .rbReq => 0x07 | .rbOwn => 0x07
  | .placePage => 0x08 | .placeCtl0 => 0x08 | .placeCtl1 => 0x08 | .placeWalker => 0x08
  | .capPool => 0x09 | .capExt => 0x09 | .stowSet => 0x0A | .stowCtx => 0x0A
  | .memch => 0x0B | .bay => 0x0C | .thermal => 0x0D | .thermalSup => 0x0D
  | .faultColl => 0x0E | .faultRec => 0x0E | .milepost => 0x0F | .milepostAll => 0x0F
  | .power => 0x10 | .powerAll => 0x10 | .snoopWin => 0x11 | .snoopSlice => 0x11
  | .owner0 => 0x12 | .owner1 => 0x12 | .owner2 => 0x12 | .access => 0x13 | .phase => 0x14

/-- The handle of R125 as a number: TABLE in [63:56], INDEX in [55:8], WORD in [7:0]. -/
def handle (tbl idx word : Nat) : Nat := tbl * 2 ^ 56 + idx * 2 ^ 8 + word

/-- The INDEX of PLACE control entry `n` (R167: INDEX[47] = 1). -/
def placeCtl (n : Nat) : Nat := 2 ^ 47 + n

/-- The word of its entry that holds a field, and the field's lowest bit in it. -/
def Fld.word (f : Fld) : Nat := f.lo / 64
/-- See `Fld.word`. -/
def Fld.bit (f : Fld) : Nat := f.lo % 64

/-- The field of an internal tollgate in bits [255:128] of TOLL entries 1 to 3 (R411). -/
def Fld.internal (f : Fld) : Fld := { f with lo := f.lo + 128 }

/-- PHASE of R78 ([1:0]). -/
def PHASE.CURRENT : Fld := ⟨.phase, 0, 2, .rw, 0⟩
/-- ENTRY_CAUSE of R78 ([3:2]). -/
def PHASE.ENTRY_CAUSE : Fld := ⟨.phase, 2, 2, .roh, 0⟩
/-- LAST_STEP of R78 ([15:8]). -/
def PHASE.LAST_STEP : Fld := ⟨.phase, 8, 8, .roh, 0⟩
/-- FAILED_STEP of R78 ([23:16]). -/
def PHASE.FAILED_STEP : Fld := ⟨.phase, 16, 8, .roh, 0⟩
/-- ALARM_COUNT of R78 ([47:32]). -/
def PHASE.ALARM_COUNT : Fld := ⟨.phase, 32, 16, .roh, 0⟩
/-- BOOT_IMAGE of R78 ([55:48]). -/
def PHASE.BOOT_IMAGE : Fld := ⟨.phase, 48, 8, .roh, 255⟩
/-- FILL_MS of R78 ([95:64]). -/
def PHASE.FILL_MS : Fld := ⟨.phase, 64, 32, .roh, 0⟩
/-- ACTIVE_MS of R78 ([127:96]). -/
def PHASE.ACTIVE_MS : Fld := ⟨.phase, 96, 32, .roh, 0⟩
/-- LAPSE_MS of R108 ([15:0]). -/
def OWNER.LAPSE_MS : Fld := ⟨.owner0, 0, 16, .rw, 5000⟩
/-- SA_HMAC_OK of R108 ([16]). -/
def OWNER.SA_HMAC_OK : Fld := ⟨.owner0, 16, 1, .rw, 0⟩
/-- SA_KEY_SET of R108 ([17]). -/
def OWNER.SA_KEY_SET : Fld := ⟨.owner0, 17, 1, .roh, 0⟩
/-- SA_KEY of R108 ([255:0]). -/
def OWNER.SA_KEY : Fld := ⟨.owner1, 0, 256, .wo, 0⟩
/-- PROG_KEY of R108 ([767:0]). -/
def OWNER.PROG_KEY : Fld := ⟨.owner2, 0, 768, .wo, 0⟩
/-- RINGS of R109 ([7:0]). -/
def ACCESS.RINGS : Fld := ⟨.access, 0, 8, .rw, 0⟩
/-- RUN_OK of R109 ([8]). -/
def ACCESS.RUN_OK : Fld := ⟨.access, 8, 1, .rw, 0⟩
/-- MILEPOST_WINDOW of R109 ([9]). -/
def ACCESS.MILEPOST_WINDOW : Fld := ⟨.access, 9, 1, .rw, 0⟩
/-- SNAP_OK of R109 ([10]). -/
def ACCESS.SNAP_OK : Fld := ⟨.access, 10, 1, .rw, 0⟩
/-- STREAM_OK of R109 ([11]). -/
def ACCESS.STREAM_OK : Fld := ⟨.access, 11, 1, .rw, 0⟩
/-- REKEY_OK of R109 ([12]). -/
def ACCESS.REKEY_OK : Fld := ⟨.access, 12, 1, .rw, 0⟩
/-- HANDLER_WF of R109 ([19:16]). -/
def ACCESS.HANDLER_WF : Fld := ⟨.access, 16, 4, .rw, 0⟩
/-- HANDLER_THREAD of R109 ([21:20]). -/
def ACCESS.HANDLER_THREAD : Fld := ⟨.access, 20, 2, .rw, 0⟩
/-- DB_WF_MASK of R109 ([47:32]). -/
def ACCESS.DB_WF_MASK : Fld := ⟨.access, 32, 16, .rw, 65535⟩
/-- CTX_QUOTA of R109 ([59:48]). -/
def ACCESS.CTX_QUOTA : Fld := ⟨.access, 48, 12, .rw, 0⟩
/-- LD_COUNT of R198 ([4:0]). -/
def PORT.LD_COUNT : Fld := ⟨.port, 0, 5, .rw, 1⟩
/-- CLOCK_MODE of R198 ([9:8]). -/
def PORT.CLOCK_MODE : Fld := ⟨.port, 8, 2, .rw, 0⟩
/-- L1_ENABLE of R198 ([10]). -/
def PORT.L1_ENABLE : Fld := ⟨.port, 10, 1, .rw, 0⟩
/-- L0P_ENABLE of R198 ([11]). -/
def PORT.L0P_ENABLE : Fld := ⟨.port, 11, 1, .rw, 1⟩
/-- L0P_MIN_WIDTH of R198 ([14:12]). -/
def PORT.L0P_MIN_WIDTH : Fld := ⟨.port, 12, 3, .rw, 2⟩
/-- L0P_NARROW_PCT of R198 ([23:16]). -/
def PORT.L0P_NARROW_PCT : Fld := ⟨.port, 16, 8, .rw, 30⟩
/-- L0P_WIDEN_PCT of R198 ([31:24]). -/
def PORT.L0P_WIDEN_PCT : Fld := ⟨.port, 24, 8, .rw, 70⟩
/-- L0P_HOLD of R198 ([39:32]). -/
def PORT.L0P_HOLD : Fld := ⟨.port, 32, 8, .rw, 10⟩
/-- DEVLOAD_T1 of R198 ([47:40]). -/
def PORT.DEVLOAD_T1 : Fld := ⟨.port, 40, 8, .rw, 25⟩
/-- DEVLOAD_T2 of R198 ([55:48]). -/
def PORT.DEVLOAD_T2 : Fld := ⟨.port, 48, 8, .rw, 60⟩
/-- DEVLOAD_T3 of R198 ([63:56]). -/
def PORT.DEVLOAD_T3 : Fld := ⟨.port, 56, 8, .rw, 85⟩
/-- ISO_LIMIT of R198 ([79:64]). -/
def PORT.ISO_LIMIT : Fld := ⟨.port, 64, 16, .rw, 1000⟩
/-- ISOLATED of R198 ([80]). -/
def PORT.ISOLATED : Fld := ⟨.port, 80, 1, .w1c, 0⟩
/-- MAXRATE of R198 ([87:84]). -/
def PORT.MAXRATE : Fld := ⟨.port, 84, 4, .rw, 0⟩
/-- LINK_RATE of R198 ([99:96]). -/
def PORT.LINK_RATE : Fld := ⟨.port, 96, 4, .roh, 0⟩
/-- LINK_WIDTH of R198 ([104:100]). -/
def PORT.LINK_WIDTH : Fld := ⟨.port, 100, 5, .roh, 0⟩
/-- FLIT256 of R198 ([105]). -/
def PORT.FLIT256 : Fld := ⟨.port, 105, 1, .roh, 0⟩
/-- CXL of R198 ([106]). -/
def PORT.CXL : Fld := ⟨.port, 106, 1, .roh, 0⟩
/-- LD_SIZE_LOG2 of R199 ([5:0]). -/
def TAG.LD_SIZE_LOG2 : Fld := ⟨.tag, 0, 6, .rw, 0⟩
/-- KEYID_WIDTH of R199 ([11:8]). -/
def TAG.KEYID_WIDTH : Fld := ⟨.tag, 8, 4, .rw, 0⟩
/-- CLASS_WIDTH of R199 ([13:12]). -/
def TAG.CLASS_WIDTH : Fld := ⟨.tag, 12, 2, .rw, 0⟩
/-- DEFAULT_CLASS of R199 ([18:16]). -/
def TAG.DEFAULT_CLASS : Fld := ⟨.tag, 16, 3, .rw, 0⟩
/-- CLASS_ALLOW of R199 ([31:24]). -/
def TAG.CLASS_ALLOW : Fld := ⟨.tag, 24, 8, .rw, 127⟩
/-- KEY_POLICY of R199 ([32]). -/
def TAG.KEY_POLICY : Fld := ⟨.tag, 32, 1, .rw, 0⟩
/-- DEFAULT_KEYID of R199 ([47:36]). -/
def TAG.DEFAULT_KEYID : Fld := ⟨.tag, 36, 12, .rw, 0⟩
/-- DECODERS of R199 ([51:48]). -/
def TAG.DECODERS : Fld := ⟨.tag, 48, 4, .roh, 0⟩
/-- ENABLE of R200 ([0]). -/
def WINDOW.ENABLE : Fld := ⟨.window, 0, 1, .rw, 0⟩
/-- TYPE of R200 ([1]). -/
def WINDOW.TYPE : Fld := ⟨.window, 1, 1, .rw, 0⟩
/-- POLICY of R200 ([3:2]). -/
def WINDOW.POLICY : Fld := ⟨.window, 2, 2, .rw, 0⟩
/-- STOW of R200 ([4]). -/
def WINDOW.STOW : Fld := ⟨.window, 4, 1, .rw, 0⟩
/-- LD_BASE of R200 ([45:21]). -/
def WINDOW.LD_BASE : Fld := ⟨.window, 21, 25, .rw, 0⟩
/-- SIZE of R200 ([89:64]). -/
def WINDOW.SIZE : Fld := ⟨.window, 64, 26, .rw, 0⟩
/-- DEV_BASE of R200 ([173:149]). -/
def WINDOW.DEV_BASE : Fld := ⟨.window, 149, 25, .rw, 0⟩
/-- STATE of R200 ([193:192]). -/
def WINDOW.STATE : Fld := ⟨.window, 192, 2, .roh, 0⟩
/-- DWELL of R233 ([8:0]). -/
def SNOOP.DWELL : Fld := ⟨.snoopWin, 0, 9, .rw, 64⟩
/-- DEAD_POLICY of R233 ([9]). -/
def SNOOP.DEAD_POLICY : Fld := ⟨.snoopWin, 9, 1, .rw, 0⟩
/-- REOPEN of R233 ([10]). -/
def SNOOP.REOPEN : Fld := ⟨.snoopWin, 10, 1, .w1s, 0⟩
/-- TIMEOUT of R233 ([32:16]). -/
def SNOOP.TIMEOUT : Fld := ⟨.snoopWin, 16, 17, .rw, 100⟩
/-- TIMED_OUT of R233 ([95:64]). -/
def SNOOP.TIMED_OUT : Fld := ⟨.snoopWin, 64, 32, .roh, 0⟩
/-- RECLAIMED of R233 ([127:96]). -/
def SNOOP.RECLAIMED : Fld := ⟨.snoopWin, 96, 32, .w1c, 0⟩
/-- BI_RESERVE of R234 ([7:0]). -/
def HSET.BI_RESERVE : Fld := ⟨.snoopSlice, 0, 8, .rw, 32⟩
/-- VICTIM_POLICY of R234 ([8]). -/
def HSET.VICTIM_POLICY : Fld := ⟨.snoopSlice, 8, 1, .rw, 0⟩
/-- SCRUB_MS of R234 ([31:16]). -/
def HSET.SCRUB_MS : Fld := ⟨.snoopSlice, 16, 16, .rw, 1000⟩
/-- VALID_ENTRIES of R234 ([50:32]). -/
def HSET.VALID_ENTRIES : Fld := ⟨.snoopSlice, 32, 19, .roh, 0⟩
/-- BI_OUT of R234 ([72:64]). -/
def HSET.BI_OUT : Fld := ⟨.snoopSlice, 64, 9, .roh, 0⟩
/-- CORRECTED of R234 ([95:80]). -/
def HSET.CORRECTED : Fld := ⟨.snoopSlice, 80, 16, .roh, 0⟩
/-- STATE of R277 ([2:0]). -/
def PAGE.STATE : Fld := ⟨.placePage, 0, 3, .roh, 0⟩
/-- PIN of R277 ([4:3]). -/
def PAGE.PIN : Fld := ⟨.placePage, 3, 2, .rw, 0⟩
/-- ACCESSED of R277 ([5]). -/
def PAGE.ACCESSED : Fld := ⟨.placePage, 5, 1, .w1c, 0⟩
/-- RETIRE of R277 ([6]). -/
def PAGE.RETIRE : Fld := ⟨.placePage, 6, 1, .roh, 0⟩
/-- SLOT_CLASS of R277 ([9:8]). -/
def PAGE.SLOT_CLASS : Fld := ⟨.placePage, 8, 2, .roh, 0⟩
/-- KEYSLOT of R277 ([23:12]). -/
def PAGE.KEYSLOT : Fld := ⟨.placePage, 12, 12, .roh, 0⟩
/-- LOC of R277 ([59:24]). -/
def PAGE.LOC : Fld := ⟨.placePage, 24, 36, .roh, 0⟩
/-- AUX of R277 ([63:60]). -/
def PAGE.AUX : Fld := ⟨.placePage, 60, 4, .roh, 0⟩
/-- REGION_KIND of R277 ([65:64]). -/
def PAGE.REGION_KIND : Fld := ⟨.placePage, 64, 2, .roh, 0⟩
/-- ELASTIC of R277 ([66]). -/
def PAGE.ELASTIC : Fld := ⟨.placePage, 66, 1, .roh, 0⟩
/-- POP of R277 ([85:76]). -/
def PAGE.POP : Fld := ⟨.placePage, 76, 10, .roh, 0⟩
/-- SAMPLE_LOG2 of R278 ([3:0]). -/
def PLACE.SAMPLE_LOG2 : Fld := ⟨.placeCtl0, 0, 4, .rw, 6⟩
/-- DECAY_MS of R278 ([15:8]). -/
def PLACE.DECAY_MS : Fld := ⟨.placeCtl0, 8, 8, .rw, 10⟩
/-- FIRST_TIER of R278 ([16]). -/
def PLACE.FIRST_TIER : Fld := ⟨.placeCtl0, 16, 1, .rw, 0⟩
/-- PROMOTE_TIER of R278 ([17]). -/
def PLACE.PROMOTE_TIER : Fld := ⟨.placeCtl0, 17, 1, .rw, 0⟩
/-- POLICY_CLAIM of R278 ([18]). -/
def PLACE.POLICY_CLAIM : Fld := ⟨.placeCtl0, 18, 1, .rw, 0⟩
/-- DEFAULT_POLICY of R278 ([19]). -/
def PLACE.DEFAULT_POLICY : Fld := ⟨.placeCtl0, 19, 1, .rw, 1⟩
/-- HOT_OCC of R278 ([47:32]). -/
def PLACE.HOT_OCC : Fld := ⟨.placeCtl0, 32, 16, .roh, 0⟩
/-- DRAINING of R278 ([91:64]). -/
def PLACE.DRAINING : Fld := ⟨.placeCtl0, 64, 28, .roh, 0⟩
/-- DRAINED of R278 ([123:96]). -/
def PLACE.DRAINED : Fld := ⟨.placeCtl0, 96, 28, .roh, 0⟩
/-- PROMOTE_COUNT of R279 ([14:0]). -/
def POLICY.PROMOTE_COUNT : Fld := ⟨.placeCtl1, 0, 15, .rw, 8⟩
/-- DEMOTE_S of R279 ([23:16]). -/
def POLICY.DEMOTE_S : Fld := ⟨.placeCtl1, 16, 8, .rw, 10⟩
/-- STOW_LEVEL of R279 ([26:24]). -/
def POLICY.STOW_LEVEL : Fld := ⟨.placeCtl1, 24, 3, .rw, 3⟩
/-- STOW_AGE_S of R279 ([35:28]). -/
def POLICY.STOW_AGE_S : Fld := ⟨.placeCtl1, 28, 8, .rw, 60⟩
/-- PRESSURE_LEVEL of R279 ([38:36]). -/
def POLICY.PRESSURE_LEVEL : Fld := ⟨.placeCtl1, 36, 3, .rw, 7⟩
/-- PRESSURE_AGE_S of R279 ([47:40]). -/
def POLICY.PRESSURE_AGE_S : Fld := ⟨.placeCtl1, 40, 8, .rw, 5⟩
/-- UNIT of R280 ([4:0]). -/
def WALKER.UNIT : Fld := ⟨.placeWalker, 0, 5, .rw, 0⟩
/-- CURSOR of R280 ([38:8]). -/
def WALKER.CURSOR : Fld := ⟨.placeWalker, 8, 31, .rw, 0⟩
/-- NEXT_SLOT of R280 ([41:39]). -/
def WALKER.NEXT_SLOT : Fld := ⟨.placeWalker, 39, 3, .roh, 0⟩
/-- NEXT_PAGE of R280 ([97:64]). -/
def WALKER.NEXT_PAGE : Fld := ⟨.placeWalker, 64, 34, .roh, 0⟩
/-- NEXT_FRAME of R280 ([125:98]). -/
def WALKER.NEXT_FRAME : Fld := ⟨.placeWalker, 98, 28, .roh, 0⟩
/-- NEXT_STOWED of R280 ([126]). -/
def WALKER.NEXT_STOWED : Fld := ⟨.placeWalker, 126, 1, .roh, 0⟩
/-- VALID of R280 ([127]). -/
def WALKER.VALID : Fld := ⟨.placeWalker, 127, 1, .roh, 0⟩
/-- FREE_NEAR of R282 ([39:0]). -/
def POOL.FREE_NEAR : Fld := ⟨.capPool, 0, 40, .roh, 0⟩
/-- FREE_FAR of R282 ([103:64]). -/
def POOL.FREE_FAR : Fld := ⟨.capPool, 64, 40, .roh, 0⟩
/-- RESERVE of R282 ([167:128]). -/
def POOL.RESERVE : Fld := ⟨.capPool, 128, 40, .roh, 0⟩
/-- SPARE of R282 ([231:192]). -/
def POOL.SPARE : Fld := ⟨.capPool, 192, 40, .roh, 0⟩
/-- LOW_WM of R282 ([287:256]). -/
def POOL.LOW_WM : Fld := ⟨.capPool, 256, 32, .rw, 4194304⟩
/-- RELEASE_WM of R282 ([319:288]). -/
def POOL.RELEASE_WM : Fld := ⟨.capPool, 288, 32, .rw, 1048576⟩
/-- FLOOR of R282 ([351:320]). -/
def POOL.FLOOR : Fld := ⟨.capPool, 320, 32, .rw, 262144⟩
/-- LOW of R282 ([352]). -/
def POOL.LOW : Fld := ⟨.capPool, 352, 1, .w1c, 0⟩
/-- RELEASING of R282 ([353]). -/
def POOL.RELEASING : Fld := ⟨.capPool, 353, 1, .w1c, 0⟩
/-- AT_FLOOR of R282 ([354]). -/
def POOL.AT_FLOOR : Fld := ⟨.capPool, 354, 1, .w1c, 0⟩
/-- COMMIT_SHORT of R282 ([355]). -/
def POOL.COMMIT_SHORT : Fld := ⟨.capPool, 355, 1, .w1c, 0⟩
/-- AUTO_RELEASE of R282 ([356]). -/
def POOL.AUTO_RELEASE : Fld := ⟨.capPool, 356, 1, .rw, 1⟩
/-- RETIRED of R282 ([423:384]). -/
def POOL.RETIRED : Fld := ⟨.capPool, 384, 40, .roh, 0⟩
/-- STOW_SAVED of R282 ([487:448]). -/
def POOL.STOW_SAVED : Fld := ⟨.capPool, 448, 40, .roh, 0⟩
/-- COMMITTED of R282 ([551:512]). -/
def POOL.COMMITTED : Fld := ⟨.capPool, 512, 40, .roh, 0⟩
/-- USABLE of R282 ([615:576]). -/
def POOL.USABLE : Fld := ⟨.capPool, 576, 40, .roh, 0⟩
/-- MAP_FRAMES of R282 ([671:640]). -/
def POOL.MAP_FRAMES : Fld := ⟨.capPool, 640, 32, .roh, 0⟩
/-- STATE of R283 ([1:0]). -/
def EXTENT.STATE : Fld := ⟨.capExt, 0, 2, .roh, 0⟩
/-- OFFER of R283 ([2]). -/
def EXTENT.OFFER : Fld := ⟨.capExt, 2, 1, .w1s, 0⟩
/-- RECALL of R283 ([3]). -/
def EXTENT.RECALL : Fld := ⟨.capExt, 3, 1, .w1s, 0⟩
/-- CLASS of R283 ([4]). -/
def EXTENT.CLASS : Fld := ⟨.capExt, 4, 1, .rw, 0⟩
/-- WINDOW of R283 ([27:16]). -/
def EXTENT.WINDOW : Fld := ⟨.capExt, 16, 12, .rw, 0⟩
/-- LD_BASE of R283 ([88:64]). -/
def EXTENT.LD_BASE : Fld := ⟨.capExt, 64, 25, .rw, 0⟩
/-- COUNT of R283 ([153:128]). -/
def EXTENT.COUNT : Fld := ⟨.capExt, 128, 26, .rw, 0⟩
/-- ACCEPTED of R283 ([223:192]). -/
def EXTENT.ACCEPTED : Fld := ⟨.capExt, 192, 32, .roh, 0⟩
/-- RELEASED of R283 ([255:224]). -/
def EXTENT.RELEASED : Fld := ⟨.capExt, 224, 32, .roh, 0⟩
/-- MIN_CLASS of R309 ([1:0]). -/
def STOW.MIN_CLASS : Fld := ⟨.stowSet, 0, 2, .rw, 1⟩
/-- STREAM_LEVEL of R309 ([4:2]). -/
def STOW.STREAM_LEVEL : Fld := ⟨.stowSet, 2, 3, .rw, 3⟩
/-- STREAM_CODERS of R309 ([12:8]). -/
def STOW.STREAM_CODERS : Fld := ⟨.stowSet, 8, 5, .rw, 0⟩
/-- STOWED_PAGES of R309 ([103:64]). -/
def STOW.STOWED_PAGES : Fld := ⟨.stowSet, 64, 40, .roh, 0⟩
/-- SLOT_FRAMES of R309 ([167:128]). -/
def STOW.SLOT_FRAMES : Fld := ⟨.stowSet, 128, 40, .roh, 0⟩
/-- CRC_FAILS of R309 ([207:192]). -/
def STOW.CRC_FAILS : Fld := ⟨.stowSet, 192, 16, .roh, 0⟩
/-- CTX_HELD of R309 ([236:224]). -/
def STOW.CTX_HELD : Fld := ⟨.stowSet, 224, 13, .roh, 0⟩
/-- STATE of R310 ([2:0]). -/
def CTX.STATE : Fld := ⟨.stowCtx, 0, 3, .roh, 0⟩
/-- BUSY of R310 ([3]). -/
def CTX.BUSY : Fld := ⟨.stowCtx, 3, 1, .roh, 0⟩
/-- RELEASE of R310 ([4]). -/
def CTX.RELEASE : Fld := ⟨.stowCtx, 4, 1, .w1s, 0⟩
/-- HOLDER of R310 ([15:8]). -/
def CTX.HOLDER : Fld := ⟨.stowCtx, 8, 8, .roh, 0⟩
/-- IN_BYTES of R310 ([127:64]). -/
def CTX.IN_BYTES : Fld := ⟨.stowCtx, 64, 64, .roh, 0⟩
/-- OUT_BYTES of R310 ([191:128]). -/
def CTX.OUT_BYTES : Fld := ⟨.stowCtx, 128, 64, .roh, 0⟩
/-- CRC of R310 ([223:192]). -/
def CTX.CRC : Fld := ⟨.stowCtx, 192, 32, .roh, 0⟩
/-- SLOT of R349 ([11:0]). -/
def KEYMAP.SLOT : Fld := ⟨.keymap, 0, 12, .rw, 0⟩
/-- VALID of R349 ([12]). -/
def KEYMAP.VALID : Fld := ⟨.keymap, 12, 1, .rw, 1⟩
/-- MATERIAL of R350 ([255:0]). -/
def KEYSLOT.MATERIAL : Fld := ⟨.keyslot, 0, 256, .wo, 0⟩
/-- MODE of R350 ([257:256]). -/
def KEYSLOT.MODE : Fld := ⟨.keyslot, 256, 2, .rw, 0⟩
/-- DEBUGGABLE of R350 ([258]). -/
def KEYSLOT.DEBUGGABLE : Fld := ⟨.keyslot, 258, 1, .rw, 0⟩
/-- INSTALL of R350 ([259]). -/
def KEYSLOT.INSTALL : Fld := ⟨.keyslot, 259, 1, .w1s, 0⟩
/-- GENERATE of R350 ([260]). -/
def KEYSLOT.GENERATE : Fld := ⟨.keyslot, 260, 1, .w1s, 0⟩
/-- CLEAR of R350 ([261]). -/
def KEYSLOT.CLEAR : Fld := ⟨.keyslot, 261, 1, .w1s, 0⟩
/-- INSTALLED of R350 ([264]). -/
def KEYSLOT.INSTALLED : Fld := ⟨.keyslot, 264, 1, .roh, 1⟩
/-- ACTIVE_MODE of R350 ([266:265]). -/
def KEYSLOT.ACTIVE_MODE : Fld := ⟨.keyslot, 265, 2, .roh, 0⟩
/-- ACTIVE_DEBUGGABLE of R350 ([267]). -/
def KEYSLOT.ACTIVE_DEBUGGABLE : Fld := ⟨.keyslot, 267, 1, .roh, 0⟩
/-- MERGE_WINDOW of R350 ([281:272]). -/
def KEYSLOT.MERGE_WINDOW : Fld := ⟨.keyslot, 272, 10, .rw, 32⟩
/-- PAGES of R350 ([359:320]). -/
def KEYSLOT.PAGES : Fld := ⟨.keyslot, 320, 40, .roh, 0⟩
/-- MAPS of R350 ([404:384]). -/
def KEYSLOT.MAPS : Fld := ⟨.keyslot, 384, 21, .roh, 0⟩
/-- ALARMS of R350 ([431:416]). -/
def KEYSLOT.ALARMS : Fld := ⟨.keyslot, 416, 16, .roh, 0⟩
/-- RESET of R384 ([0]). -/
def MEMCH.RESET : Fld := ⟨.memch, 0, 1, .w1s, 0⟩
/-- REFRESH_MODE of R384 ([1]). -/
def MEMCH.REFRESH_MODE : Fld := ⟨.memch, 1, 1, .rw, 1⟩
/-- AUTO_MARK of R384 ([2]). -/
def MEMCH.AUTO_MARK : Fld := ⟨.memch, 2, 1, .rw, 1⟩
/-- CE_CLEAR of R384 ([3]). -/
def MEMCH.CE_CLEAR : Fld := ⟨.memch, 3, 1, .w1s, 0⟩
/-- RETRAIN_MS of R384 ([23:8]). -/
def MEMCH.RETRAIN_MS : Fld := ⟨.memch, 8, 16, .rw, 100⟩
/-- SCRUB_H of R384 ([31:24]). -/
def MEMCH.SCRUB_H : Fld := ⟨.memch, 24, 8, .rw, 24⟩
/-- CE_RETIRE of R384 ([39:32]). -/
def MEMCH.CE_RETIRE : Fld := ⟨.memch, 32, 8, .rw, 4⟩
/-- CE_DECAY_H of R384 ([47:40]). -/
def MEMCH.CE_DECAY_H : Fld := ⟨.memch, 40, 8, .rw, 24⟩
/-- DEVICE_LIMIT of R384 ([55:48]). -/
def MEMCH.DEVICE_LIMIT : Fld := ⟨.memch, 48, 8, .rw, 16⟩
/-- WQ_HIGH of R384 ([71:64]). -/
def MEMCH.WQ_HIGH : Fld := ⟨.memch, 64, 8, .rw, 75⟩
/-- WQ_LOW of R384 ([79:72]). -/
def MEMCH.WQ_LOW : Fld := ⟨.memch, 72, 8, .rw, 25⟩
/-- RETIRE_LIMIT of R384 ([95:80]). -/
def MEMCH.RETIRE_LIMIT : Fld := ⟨.memch, 80, 16, .rw, 4096⟩
/-- MARK of R384 ([101:96]). -/
def MEMCH.MARK : Fld := ⟨.memch, 96, 6, .rw, 63⟩
/-- STATE of R384 ([131:128]). -/
def MEMCH.STATE : Fld := ⟨.memch, 128, 4, .roh, 0⟩
/-- WIDTH of R384 ([133:132]). -/
def MEMCH.WIDTH : Fld := ⟨.memch, 132, 2, .roh, 0⟩
/-- DIMMS of R384 ([135:134]). -/
def MEMCH.DIMMS : Fld := ⟨.memch, 134, 2, .roh, 0⟩
/-- RANKS of R384 ([140:136]). -/
def MEMCH.RANKS : Fld := ⟨.memch, 136, 5, .roh, 0⟩
/-- CAPACITY_GIB of R384 ([159:144]). -/
def MEMCH.CAPACITY_GIB : Fld := ⟨.memch, 144, 16, .roh, 0⟩
/-- SPEED of R384 ([163:160]). -/
def MEMCH.SPEED : Fld := ⟨.memch, 160, 4, .roh, 0⟩
/-- REFRESH_2X of R384 ([164]). -/
def MEMCH.REFRESH_2X : Fld := ⟨.memch, 164, 1, .roh, 0⟩
/-- RETIRE_LIMIT_REACHED of R384 ([165]). -/
def MEMCH.RETIRE_LIMIT_REACHED : Fld := ⟨.memch, 165, 1, .w1c, 0⟩
/-- DELIVERABLE of R384 ([207:192]). -/
def MEMCH.DELIVERABLE : Fld := ⟨.memch, 192, 16, .roh, 0⟩
/-- QLEVEL of R384 ([214:208]). -/
def MEMCH.QLEVEL : Fld := ⟨.memch, 208, 7, .roh, 0⟩
/-- CE_TOTAL of R384 ([287:256]). -/
def MEMCH.CE_TOTAL : Fld := ⟨.memch, 256, 32, .roh, 0⟩
/-- UE_TOTAL of R384 ([319:288]). -/
def MEMCH.UE_TOTAL : Fld := ⟨.memch, 288, 32, .roh, 0⟩
/-- CE_OVERFLOW of R384 ([335:320]). -/
def MEMCH.CE_OVERFLOW : Fld := ⟨.memch, 320, 16, .roh, 0⟩
/-- ALERT_CA of R384 ([351:336]). -/
def MEMCH.ALERT_CA : Fld := ⟨.memch, 336, 16, .roh, 0⟩
/-- ALERT_CRC of R384 ([367:352]). -/
def MEMCH.ALERT_CRC : Fld := ⟨.memch, 352, 16, .roh, 0⟩
/-- RECOVERIES of R384 ([383:368]). -/
def MEMCH.RECOVERIES : Fld := ⟨.memch, 368, 16, .roh, 0⟩
/-- RETIRED_FRAMES of R384 ([415:384]). -/
def MEMCH.RETIRED_FRAMES : Fld := ⟨.memch, 384, 32, .roh, 0⟩
/-- MARK_CORRECTED of R384 ([447:416]). -/
def MEMCH.MARK_CORRECTED : Fld := ⟨.memch, 416, 32, .roh, 0⟩
/-- SCRUB_PCT of R384 ([454:448]). -/
def MEMCH.SCRUB_PCT : Fld := ⟨.memch, 448, 7, .roh, 0⟩
/-- LAST_PASS_MIN of R384 ([471:456]). -/
def MEMCH.LAST_PASS_MIN : Fld := ⟨.memch, 456, 16, .roh, 0⟩
/-- SCRUB_PASSES of R384 ([503:472]). -/
def MEMCH.SCRUB_PASSES : Fld := ⟨.memch, 472, 32, .roh, 0⟩
/-- DEV_HITS[s] of R384 ([8s + 519:8s + 512]). -/
def MEMCH.DEV_HITS (i : Nat) : Fld := ⟨.memch, 8 * i + 512, 8, .roh, 0⟩
/-- GUARANTEE of R410 ([15:0]). -/
def TOLL.GUARANTEE : Fld := ⟨.toll, 0, 16, .rw, 0⟩
/-- CAP of R410 ([31:16]). -/
def TOLL.CAP : Fld := ⟨.toll, 16, 16, .rw, 0⟩
/-- G_EFF of R410 ([47:32]). -/
def TOLL.G_EFF : Fld := ⟨.toll, 32, 16, .roh, 0⟩
/-- THROTTLED of R410 ([48]). -/
def TOLL.THROTTLED : Fld := ⟨.toll, 48, 1, .roh, 0⟩
/-- RATE of R410 ([79:64]). -/
def TOLL.RATE : Fld := ⟨.toll, 64, 16, .roh, 0⟩
/-- LIMIT of R410 ([95:80]). -/
def TOLL.LIMIT : Fld := ⟨.toll, 80, 16, .roh, 65535⟩
/-- THROTTLE_LEVEL of R411 ([135:128]). -/
def TOLLDEV.THROTTLE_LEVEL : Fld := ⟨.tollDev, 128, 8, .rw, 60⟩
/-- SLOPE of R411 ([143:136]). -/
def TOLLDEV.SLOPE : Fld := ⟨.tollDev, 136, 8, .rw, 4⟩
/-- FMAX of R411 ([150:144]). -/
def TOLLDEV.FMAX : Fld := ⟨.tollDev, 144, 7, .rw, 90⟩
/-- LEVEL_MODE of R411 ([151]). -/
def TOLLDEV.LEVEL_MODE : Fld := ⟨.tollDev, 151, 1, .rw, 0⟩
/-- SHORTFALL of R411 ([152]). -/
def TOLLDEV.SHORTFALL : Fld := ⟨.tollDev, 152, 1, .w1c, 0⟩
/-- BOOKED of R411 ([179:160]). -/
def TOLLDEV.BOOKED : Fld := ⟨.tollDev, 160, 20, .roh, 0⟩
/-- BOOKABLE of R411 ([199:180]). -/
def TOLLDEV.BOOKABLE : Fld := ⟨.tollDev, 180, 20, .roh, 0⟩
/-- SCALE of R411 ([216:200]). -/
def TOLLDEV.SCALE : Fld := ⟨.tollDev, 200, 17, .roh, 65536⟩
/-- LEVEL of R411 ([230:224]). -/
def TOLLDEV.LEVEL : Fld := ⟨.tollDev, 224, 7, .roh, 0⟩
/-- WEIGHT of R412 ([7:0]). -/
def RB.WEIGHT : Fld := ⟨.rbReq, 0, 8, .rw, 16⟩
/-- REFILL of R412 ([31:16]). -/
def RB.REFILL : Fld := ⟨.rbReq, 16, 16, .roh, 0⟩
/-- CEILING of R412 ([47:32]). -/
def RB.CEILING : Fld := ⟨.rbReq, 32, 16, .roh, 0⟩
/-- GRANTS of R412 ([95:64]). -/
def RB.GRANTS : Fld := ⟨.rbReq, 64, 32, .roh, 0⟩
/-- CREDIT of R412 ([127:96]). -/
def RB.CREDIT : Fld := ⟨.rbReq, 96, 32, .roh, 0⟩
/-- LONG_N of R413 ([6:0]). -/
def RBOWN.LONG_N : Fld := ⟨.rbOwn, 0, 7, .rw, 16⟩
/-- CAP of R413 ([31:16]). -/
def RBOWN.CAP : Fld := ⟨.rbOwn, 16, 16, .roh, 0⟩
/-- WEIGHT_SUM of R413 ([47:32]). -/
def RBOWN.WEIGHT_SUM : Fld := ⟨.rbOwn, 32, 16, .roh, 0⟩
/-- CHECKIN_EN of R434 ([0]). -/
def FAULT.CHECKIN_EN : Fld := ⟨.faultColl, 0, 1, .rw, 0⟩
/-- CHECKIN of R434 ([1]). -/
def FAULT.CHECKIN : Fld := ⟨.faultColl, 1, 1, .w1s, 0⟩
/-- FAULT2_EN of R434 ([2]). -/
def FAULT.FAULT2_EN : Fld := ⟨.faultColl, 2, 1, .rw, 0⟩
/-- RESET_GO of R434 ([3]). -/
def FAULT.RESET_GO : Fld := ⟨.faultColl, 3, 1, .w1s, 0⟩
/-- ALERT_MIN of R434 ([5:4]). -/
def FAULT.ALERT_MIN : Fld := ⟨.faultColl, 4, 2, .rw, 2⟩
/-- ALERT_EN of R434 ([6]). -/
def FAULT.ALERT_EN : Fld := ⟨.faultColl, 6, 1, .rw, 1⟩
/-- RESET_UNIT of R434 ([17:8]). -/
def FAULT.RESET_UNIT : Fld := ⟨.faultColl, 8, 10, .rw, 0⟩
/-- RESET_STATUS of R434 ([19:18]). -/
def FAULT.RESET_STATUS : Fld := ⟨.faultColl, 18, 2, .roh, 0⟩
/-- NEXT_SEQ of R434 ([47:32]). -/
def FAULT.NEXT_SEQ : Fld := ⟨.faultColl, 32, 16, .roh, 0⟩
/-- RECORDS of R434 ([56:48]). -/
def FAULT.RECORDS : Fld := ⟨.faultColl, 48, 9, .roh, 0⟩
/-- DROPPED of R434 ([79:64]). -/
def FAULT.DROPPED : Fld := ⟨.faultColl, 64, 16, .roh, 0⟩
/-- HALTED of R434 ([80]). -/
def FAULT.HALTED : Fld := ⟨.faultColl, 80, 1, .roh, 0⟩
/-- CHECKIN_LATE of R434 ([81]). -/
def FAULT.CHECKIN_LATE : Fld := ⟨.faultColl, 81, 1, .roh, 0⟩
/-- VALID_c of R434 ([64c + 128]). -/
def FAULT.VALID (i : Nat) : Fld := ⟨.faultColl, 64 * i + 128, 1, .w1c, 0⟩
/-- OVERFLOW_c of R434 ([64c + 129]). -/
def FAULT.OVERFLOW (i : Nat) : Fld := ⟨.faultColl, 64 * i + 129, 1, .w1c, 0⟩
/-- UNIT_c of R434 ([64c + 139:64c + 130]). -/
def FAULT.UNIT (i : Nat) : Fld := ⟨.faultColl, 64 * i + 130, 10, .roh, 0⟩
/-- CODE_c of R434 ([64c + 147:64c + 140]). -/
def FAULT.CODE (i : Nat) : Fld := ⟨.faultColl, 64 * i + 140, 8, .roh, 0⟩
/-- SEQ_c of R434 ([64c + 163:64c + 148]). -/
def FAULT.SEQ (i : Nat) : Fld := ⟨.faultColl, 64 * i + 148, 16, .roh, 0⟩
/-- SEQ of R435 ([15:0]). -/
def RECORD.SEQ : Fld := ⟨.faultRec, 0, 16, .roh, 0⟩
/-- CLASS of R435 ([17:16]). -/
def RECORD.CLASS : Fld := ⟨.faultRec, 16, 2, .roh, 0⟩
/-- ALARM of R435 ([18]). -/
def RECORD.ALARM : Fld := ⟨.faultRec, 18, 1, .roh, 0⟩
/-- HANDLING of R435 ([19]). -/
def RECORD.HANDLING : Fld := ⟨.faultRec, 19, 1, .roh, 0⟩
/-- VALID of R435 ([20]). -/
def RECORD.VALID : Fld := ⟨.faultRec, 20, 1, .roh, 0⟩
/-- ACK of R435 ([21]). -/
def RECORD.ACK : Fld := ⟨.faultRec, 21, 1, .w1s, 0⟩
/-- UNIT of R435 ([31:22]). -/
def RECORD.UNIT : Fld := ⟨.faultRec, 22, 10, .roh, 0⟩
/-- CODE of R435 ([39:32]). -/
def RECORD.CODE : Fld := ⟨.faultRec, 32, 8, .roh, 0⟩
/-- COUNT of R435 ([55:40]). -/
def RECORD.COUNT : Fld := ⟨.faultRec, 40, 16, .roh, 0⟩
/-- FIRST_T of R435 ([127:64]). -/
def RECORD.FIRST_T : Fld := ⟨.faultRec, 64, 64, .roh, 0⟩
/-- LAST_T of R435 ([191:128]). -/
def RECORD.LAST_T : Fld := ⟨.faultRec, 128, 64, .roh, 0⟩
/-- DETAIL of R435 ([255:192]). -/
def RECORD.DETAIL : Fld := ⟨.faultRec, 192, 64, .roh, 0⟩
/-- POLICY of R461 ([1:0]). -/
def POWER.POLICY : Fld := ⟨.power, 0, 2, .rw, 0⟩
/-- DEEP_EN of R461 ([2]). -/
def POWER.DEEP_EN : Fld := ⟨.power, 2, 1, .rw, 0⟩
/-- IDLE1 of R461 ([31:16]). -/
def POWER.IDLE1 : Fld := ⟨.power, 16, 16, .rw, 0⟩
/-- IDLE2 of R461 ([47:32]). -/
def POWER.IDLE2 : Fld := ⟨.power, 32, 16, .rw, 0⟩
/-- STATE of R461 ([50:48]). -/
def POWER.STATE : Fld := ⟨.power, 48, 3, .roh, 0⟩
/-- REFUSER_VALID of R461 ([51]). -/
def POWER.REFUSER_VALID : Fld := ⟨.power, 51, 1, .roh, 0⟩
/-- CAUSE of R461 ([55:52]). -/
def POWER.CAUSE : Fld := ⟨.power, 52, 4, .roh, 0⟩
/-- REFUSALS of R461 ([79:64]). -/
def POWER.REFUSALS : Fld := ⟨.power, 64, 16, .roh, 0⟩
/-- ABORTS of R461 ([95:80]). -/
def POWER.ABORTS : Fld := ⟨.power, 80, 16, .roh, 0⟩
/-- LAST_REFUSER of R461 ([105:96]). -/
def POWER.LAST_REFUSER : Fld := ⟨.power, 96, 10, .roh, 0⟩
/-- WAKES of R461 ([127:112]). -/
def POWER.WAKES : Fld := ⟨.power, 112, 16, .roh, 0⟩
/-- GLOBAL_HOLD of R463 ([0]). -/
def POWERALL.GLOBAL_HOLD : Fld := ⟨.powerAll, 0, 1, .rw, 0⟩
/-- PARKED of R463 ([23:16]). -/
def POWERALL.PARKED : Fld := ⟨.powerAll, 16, 8, .roh, 0⟩
/-- SHELVED of R463 ([31:24]). -/
def POWERALL.SHELVED : Fld := ⟨.powerAll, 24, 8, .roh, 0⟩
/-- LAID_BY of R463 ([39:32]). -/
def POWERALL.LAID_BY : Fld := ⟨.powerAll, 32, 8, .roh, 0⟩
/-- ENABLE of R464 ([0]). -/
def THERMAL.ENABLE : Fld := ⟨.thermal, 0, 1, .rw, 1⟩
/-- FAILED of R464 ([1]). -/
def THERMAL.FAILED : Fld := ⟨.thermal, 1, 1, .roh, 0⟩
/-- HOT of R464 ([2]). -/
def THERMAL.HOT : Fld := ⟨.thermal, 2, 1, .roh, 0⟩
/-- THROTTLE_C of R464 ([15:8]). -/
def THERMAL.THROTTLE_C : Fld := ⟨.thermal, 8, 8, .rw, 95⟩
/-- SHUTDOWN_C of R464 ([23:16]). -/
def THERMAL.SHUTDOWN_C : Fld := ⟨.thermal, 16, 8, .rw, 105⟩
/-- TRIP_C of R464 ([31:24]). -/
def THERMAL.TRIP_C : Fld := ⟨.thermal, 24, 8, .rw, 110⟩
/-- OFFSET of R464 ([39:32]). -/
def THERMAL.OFFSET : Fld := ⟨.thermal, 32, 8, .rw, 0⟩
/-- NF_ADJ of R464 ([47:40]). -/
def THERMAL.NF_ADJ : Fld := ⟨.thermal, 40, 8, .rw, 0⟩
/-- BETA_K of R464 ([63:48]). -/
def THERMAL.BETA_K : Fld := ⟨.thermal, 48, 16, .rw, 3435⟩
/-- READING of R464 ([79:64]). -/
def THERMAL.READING : Fld := ⟨.thermal, 64, 16, .roh, 0⟩
/-- MAX_SEEN of R464 ([95:80]). -/
def THERMAL.MAX_SEEN : Fld := ⟨.thermal, 80, 16, .roh, 0⟩
/-- SLOPE of R465 ([7:0]). -/
def LEDGER.SLOPE : Fld := ⟨.thermalSup, 0, 8, .rw, 16⟩
/-- CUT_MAX of R465 ([14:8]). -/
def LEDGER.CUT_MAX : Fld := ⟨.thermalSup, 8, 7, .rw, 90⟩
/-- CUT of R465 ([22:16]). -/
def LEDGER.CUT : Fld := ⟨.thermalSup, 16, 7, .roh, 0⟩
/-- HOTTEST of R465 ([31:24]). -/
def LEDGER.HOTTEST : Fld := ⟨.thermalSup, 24, 8, .roh, 0⟩
/-- GRACE_US of R465 ([47:32]). -/
def LEDGER.GRACE_US : Fld := ⟨.thermalSup, 32, 16, .rw, 500⟩
/-- DIMM_THROTTLE_C of R465 ([55:48]). -/
def LEDGER.DIMM_THROTTLE_C : Fld := ⟨.thermalSup, 48, 8, .rw, 90⟩
/-- LEDGER_OK of R465 ([56]). -/
def LEDGER.LEDGER_OK : Fld := ⟨.thermalSup, 56, 1, .roh, 0⟩
/-- THROTTLE_MS of R465 ([95:64]). -/
def LEDGER.THROTTLE_MS : Fld := ⟨.thermalSup, 64, 32, .roh, 0⟩
/-- BIN_H[b] of R465 ([32b + 159:32b + 128]). -/
def LEDGER.BIN_H (i : Nat) : Fld := ⟨.thermalSup, 32 * i + 128, 32, .roh, 0⟩
/-- EQUIV_H of R465 ([1183:1152]). -/
def LEDGER.EQUIV_H : Fld := ⟨.thermalSup, 1152, 32, .roh, 0⟩
/-- RECENT_EQ of R465 ([1215:1184]). -/
def LEDGER.RECENT_EQ : Fld := ⟨.thermalSup, 1184, 32, .roh, 0⟩
/-- LIFE_USED of R465 ([1231:1216]). -/
def LEDGER.LIFE_USED : Fld := ⟨.thermalSup, 1216, 16, .roh, 0⟩
/-- RO_DRIFT of R465 ([1247:1232]). -/
def LEDGER.RO_DRIFT : Fld := ⟨.thermalSup, 1232, 16, .roh, 0⟩
/-- REMAIN_H of R465 ([1279:1248]). -/
def LEDGER.REMAIN_H : Fld := ⟨.thermalSup, 1248, 32, .roh, 0⟩
/-- ENABLE of R466 ([0]). -/
def BAY.ENABLE : Fld := ⟨.bay, 0, 1, .rw, 0⟩
/-- EVACUATE of R466 ([1]). -/
def BAY.EVACUATE : Fld := ⟨.bay, 1, 1, .w1s, 0⟩
/-- CANCEL of R466 ([2]). -/
def BAY.CANCEL : Fld := ⟨.bay, 2, 1, .w1s, 0⟩
/-- LOCATE of R466 ([3]). -/
def BAY.LOCATE : Fld := ⟨.bay, 3, 1, .rw, 0⟩
/-- STATE of R466 ([7:4]). -/
def BAY.STATE : Fld := ⟨.bay, 4, 4, .roh, 0⟩
/-- LATCH of R466 ([8]). -/
def BAY.LATCH : Fld := ⟨.bay, 8, 1, .roh, 0⟩
/-- TRIP of R466 ([10:9]). -/
def BAY.TRIP : Fld := ⟨.bay, 9, 2, .roh, 0⟩
/-- LIMIT of R466 ([31:16]). -/
def BAY.LIMIT : Fld := ⟨.bay, 16, 16, .rw, 0⟩
/-- SLOW_MS of R466 ([47:32]). -/
def BAY.SLOW_MS : Fld := ⟨.bay, 32, 16, .rw, 0⟩
/-- PRECHARGE_MS of R466 ([63:48]). -/
def BAY.PRECHARGE_MS : Fld := ⟨.bay, 48, 16, .rw, 0⟩
/-- DEBOUNCE_MS of R466 ([79:64]). -/
def BAY.DEBOUNCE_MS : Fld := ⟨.bay, 64, 16, .rw, 0⟩
/-- HOLDOFF_MS of R466 ([95:80]). -/
def BAY.HOLDOFF_MS : Fld := ⟨.bay, 80, 16, .rw, 0⟩
/-- CURRENT of R466 ([111:96]). -/
def BAY.CURRENT : Fld := ⟨.bay, 96, 16, .roh, 0⟩
/-- PEAK of R466 ([127:112]). -/
def BAY.PEAK : Fld := ⟨.bay, 112, 16, .roh, 0⟩
/-- BAYVS_MV of R466 ([143:128]). -/
def BAY.BAYVS_MV : Fld := ⟨.bay, 128, 16, .roh, 0⟩
/-- BAYVIN_MV of R466 ([159:144]). -/
def BAY.BAYVIN_MV : Fld := ⟨.bay, 144, 16, .roh, 0⟩
/-- TRIPS of R466 ([175:160]). -/
def BAY.TRIPS : Fld := ⟨.bay, 160, 16, .roh, 0⟩
/-- INSERTIONS of R466 ([191:176]). -/
def BAY.INSERTIONS : Fld := ⟨.bay, 176, 16, .roh, 0⟩
/-- UNIT of R483 ([9:0]). -/
def MILEPOST.UNIT : Fld := ⟨.milepost, 0, 10, .rw, 0⟩
/-- ALL_INDEX of R483 ([10]). -/
def MILEPOST.ALL_INDEX : Fld := ⟨.milepost, 10, 1, .rw, 0⟩
/-- MODE of R483 ([11]). -/
def MILEPOST.MODE : Fld := ⟨.milepost, 11, 1, .rw, 0⟩
/-- EVENT of R483 ([19:12]). -/
def MILEPOST.EVENT : Fld := ⟨.milepost, 12, 8, .rw, 0⟩
/-- QUAL of R483 ([27:20]). -/
def MILEPOST.QUAL : Fld := ⟨.milepost, 20, 8, .rw, 255⟩
/-- FILTER_LD of R483 ([36:28]). -/
def MILEPOST.FILTER_LD : Fld := ⟨.milepost, 28, 9, .rw, 511⟩
/-- VIEW of R483 ([45:37]). -/
def MILEPOST.VIEW : Fld := ⟨.milepost, 37, 9, .rw, 511⟩
/-- ENABLE of R483 ([46]). -/
def MILEPOST.ENABLE : Fld := ⟨.milepost, 46, 1, .rw, 0⟩
/-- SAMPLE of R483 ([47]). -/
def MILEPOST.SAMPLE : Fld := ⟨.milepost, 47, 1, .rw, 0⟩
/-- FRZ_OVF of R483 ([48]). -/
def MILEPOST.FRZ_OVF : Fld := ⟨.milepost, 48, 1, .rw, 0⟩
/-- OVF of R483 ([49]). -/
def MILEPOST.OVF : Fld := ⟨.milepost, 49, 1, .w1c, 0⟩
/-- VALUE of R483 ([111:64]). -/
def MILEPOST.VALUE : Fld := ⟨.milepost, 64, 48, .rw, 0⟩
/-- RELOAD of R483 ([175:128]). -/
def MILEPOST.RELOAD : Fld := ⟨.milepost, 128, 48, .rw, 0⟩
/-- SNAP of R483 ([239:192]). -/
def MILEPOST.SNAP : Fld := ⟨.milepost, 192, 48, .roh, 0⟩
/-- FREEZE of R484 ([0]). -/
def MPALL.FREEZE : Fld := ⟨.milepostAll, 0, 1, .rw, 0⟩
/-- CLEAR_ALL of R484 ([1]). -/
def MPALL.CLEAR_ALL : Fld := ⟨.milepostAll, 1, 1, .w1s, 0⟩
/-- SAMPLE_RD of R484 ([22:16]). -/
def MPALL.SAMPLE_RD : Fld := ⟨.milepostAll, 16, 7, .rw, 0⟩
/-- SAMPLE_WR of R484 ([30:24]). -/
def MPALL.SAMPLE_WR : Fld := ⟨.milepostAll, 24, 7, .roh, 0⟩
/-- SAMPLES_LOST of R484 ([47:32]). -/
def MPALL.SAMPLES_LOST : Fld := ⟨.milepostAll, 32, 16, .roh, 0⟩
/-- GEN[g] of R484 ([32g + 95:32g + 64]). -/
def MPALL.GEN (i : Nat) : Fld := ⟨.milepostAll, 32 * i + 64, 32, .roh, 0⟩

/-- The fields of layout `access`. -/
def Lay.accessFields : List Fld :=
  [ACCESS.RINGS, ACCESS.RUN_OK, ACCESS.MILEPOST_WINDOW, ACCESS.SNAP_OK, ACCESS.STREAM_OK, ACCESS.REKEY_OK, ACCESS.HANDLER_WF, ACCESS.HANDLER_THREAD, ACCESS.DB_WF_MASK, ACCESS.CTX_QUOTA]

/-- The fields of layout `bay`. -/
def Lay.bayFields : List Fld :=
  [BAY.ENABLE, BAY.EVACUATE, BAY.CANCEL, BAY.LOCATE, BAY.STATE, BAY.LATCH, BAY.TRIP, BAY.LIMIT, BAY.SLOW_MS, BAY.PRECHARGE_MS, BAY.DEBOUNCE_MS, BAY.HOLDOFF_MS] ++ [BAY.CURRENT, BAY.PEAK, BAY.BAYVS_MV, BAY.BAYVIN_MV, BAY.TRIPS, BAY.INSERTIONS]

/-- The fields of layout `capExt`. -/
def Lay.capExtFields : List Fld :=
  [EXTENT.STATE, EXTENT.OFFER, EXTENT.RECALL, EXTENT.CLASS, EXTENT.WINDOW, EXTENT.LD_BASE, EXTENT.COUNT, EXTENT.ACCEPTED, EXTENT.RELEASED]

/-- The fields of layout `capPool`. -/
def Lay.capPoolFields : List Fld :=
  [POOL.FREE_NEAR, POOL.FREE_FAR, POOL.RESERVE, POOL.SPARE, POOL.LOW_WM, POOL.RELEASE_WM, POOL.FLOOR, POOL.LOW, POOL.RELEASING, POOL.AT_FLOOR, POOL.COMMIT_SHORT, POOL.AUTO_RELEASE] ++ [POOL.RETIRED, POOL.STOW_SAVED, POOL.COMMITTED, POOL.USABLE, POOL.MAP_FRAMES]

/-- The fields of layout `faultColl`. -/
def Lay.faultCollFields : List Fld :=
  [FAULT.CHECKIN_EN, FAULT.CHECKIN, FAULT.FAULT2_EN, FAULT.RESET_GO, FAULT.ALERT_MIN, FAULT.ALERT_EN, FAULT.RESET_UNIT, FAULT.RESET_STATUS, FAULT.NEXT_SEQ, FAULT.RECORDS, FAULT.DROPPED, FAULT.HALTED] ++ [FAULT.CHECKIN_LATE] ++ ((List.range 4).map FAULT.VALID) ++ ((List.range 4).map FAULT.OVERFLOW) ++ ((List.range 4).map FAULT.UNIT) ++ ((List.range 4).map FAULT.CODE) ++ ((List.range 4).map FAULT.SEQ)

/-- The fields of layout `faultRec`. -/
def Lay.faultRecFields : List Fld :=
  [RECORD.SEQ, RECORD.CLASS, RECORD.ALARM, RECORD.HANDLING, RECORD.VALID, RECORD.ACK, RECORD.UNIT, RECORD.CODE, RECORD.COUNT, RECORD.FIRST_T, RECORD.LAST_T, RECORD.DETAIL]

/-- The fields of layout `keymap`. -/
def Lay.keymapFields : List Fld :=
  [KEYMAP.SLOT, KEYMAP.VALID]

/-- The fields of layout `keyslot`. -/
def Lay.keyslotFields : List Fld :=
  [KEYSLOT.MATERIAL, KEYSLOT.MODE, KEYSLOT.DEBUGGABLE, KEYSLOT.INSTALL, KEYSLOT.GENERATE, KEYSLOT.CLEAR, KEYSLOT.INSTALLED, KEYSLOT.ACTIVE_MODE, KEYSLOT.ACTIVE_DEBUGGABLE, KEYSLOT.MERGE_WINDOW, KEYSLOT.PAGES, KEYSLOT.MAPS] ++ [KEYSLOT.ALARMS]

/-- The fields of layout `memch`. -/
def Lay.memchFields : List Fld :=
  [MEMCH.RESET, MEMCH.REFRESH_MODE, MEMCH.AUTO_MARK, MEMCH.CE_CLEAR, MEMCH.RETRAIN_MS, MEMCH.SCRUB_H, MEMCH.CE_RETIRE, MEMCH.CE_DECAY_H, MEMCH.DEVICE_LIMIT, MEMCH.WQ_HIGH, MEMCH.WQ_LOW, MEMCH.RETIRE_LIMIT] ++ [MEMCH.MARK, MEMCH.STATE, MEMCH.WIDTH, MEMCH.DIMMS, MEMCH.RANKS, MEMCH.CAPACITY_GIB, MEMCH.SPEED, MEMCH.REFRESH_2X, MEMCH.RETIRE_LIMIT_REACHED, MEMCH.DELIVERABLE, MEMCH.QLEVEL, MEMCH.CE_TOTAL] ++ [MEMCH.UE_TOTAL, MEMCH.CE_OVERFLOW, MEMCH.ALERT_CA, MEMCH.ALERT_CRC, MEMCH.RECOVERIES, MEMCH.RETIRED_FRAMES, MEMCH.MARK_CORRECTED, MEMCH.SCRUB_PCT, MEMCH.LAST_PASS_MIN, MEMCH.SCRUB_PASSES] ++ ((List.range 40).map MEMCH.DEV_HITS)

/-- The fields of layout `milepost`. -/
def Lay.milepostFields : List Fld :=
  [MILEPOST.UNIT, MILEPOST.ALL_INDEX, MILEPOST.MODE, MILEPOST.EVENT, MILEPOST.QUAL, MILEPOST.FILTER_LD, MILEPOST.VIEW, MILEPOST.ENABLE, MILEPOST.SAMPLE, MILEPOST.FRZ_OVF, MILEPOST.OVF, MILEPOST.VALUE] ++ [MILEPOST.RELOAD, MILEPOST.SNAP]

/-- The fields of layout `milepostAll`. -/
def Lay.milepostAllFields : List Fld :=
  [MPALL.FREEZE, MPALL.CLEAR_ALL, MPALL.SAMPLE_RD, MPALL.SAMPLE_WR, MPALL.SAMPLES_LOST] ++ ((List.range 17).map MPALL.GEN)

/-- The fields of layout `owner0`. -/
def Lay.owner0Fields : List Fld :=
  [OWNER.LAPSE_MS, OWNER.SA_HMAC_OK, OWNER.SA_KEY_SET]

/-- The fields of layout `owner1`. -/
def Lay.owner1Fields : List Fld :=
  [OWNER.SA_KEY]

/-- The fields of layout `owner2`. -/
def Lay.owner2Fields : List Fld :=
  [OWNER.PROG_KEY]

/-- The fields of layout `phase`. -/
def Lay.phaseFields : List Fld :=
  [PHASE.CURRENT, PHASE.ENTRY_CAUSE, PHASE.LAST_STEP, PHASE.FAILED_STEP, PHASE.ALARM_COUNT, PHASE.BOOT_IMAGE, PHASE.FILL_MS, PHASE.ACTIVE_MS]

/-- The fields of layout `placeCtl0`. -/
def Lay.placeCtl0Fields : List Fld :=
  [PLACE.SAMPLE_LOG2, PLACE.DECAY_MS, PLACE.FIRST_TIER, PLACE.PROMOTE_TIER, PLACE.POLICY_CLAIM, PLACE.DEFAULT_POLICY, PLACE.HOT_OCC, PLACE.DRAINING, PLACE.DRAINED]

/-- The fields of layout `placeCtl1`. -/
def Lay.placeCtl1Fields : List Fld :=
  [POLICY.PROMOTE_COUNT, POLICY.DEMOTE_S, POLICY.STOW_LEVEL, POLICY.STOW_AGE_S, POLICY.PRESSURE_LEVEL, POLICY.PRESSURE_AGE_S]

/-- The fields of layout `placePage`. -/
def Lay.placePageFields : List Fld :=
  [PAGE.STATE, PAGE.PIN, PAGE.ACCESSED, PAGE.RETIRE, PAGE.SLOT_CLASS, PAGE.KEYSLOT, PAGE.LOC, PAGE.AUX, PAGE.REGION_KIND, PAGE.ELASTIC, PAGE.POP]

/-- The fields of layout `placeWalker`. -/
def Lay.placeWalkerFields : List Fld :=
  [WALKER.UNIT, WALKER.CURSOR, WALKER.NEXT_SLOT, WALKER.NEXT_PAGE, WALKER.NEXT_FRAME, WALKER.NEXT_STOWED, WALKER.VALID]

/-- The fields of layout `port`. -/
def Lay.portFields : List Fld :=
  [PORT.LD_COUNT, PORT.CLOCK_MODE, PORT.L1_ENABLE, PORT.L0P_ENABLE, PORT.L0P_MIN_WIDTH, PORT.L0P_NARROW_PCT, PORT.L0P_WIDEN_PCT, PORT.L0P_HOLD, PORT.DEVLOAD_T1, PORT.DEVLOAD_T2, PORT.DEVLOAD_T3, PORT.ISO_LIMIT] ++ [PORT.ISOLATED, PORT.MAXRATE, PORT.LINK_RATE, PORT.LINK_WIDTH, PORT.FLIT256, PORT.CXL]

/-- The fields of layout `power`. -/
def Lay.powerFields : List Fld :=
  [POWER.POLICY, POWER.DEEP_EN, POWER.IDLE1, POWER.IDLE2, POWER.STATE, POWER.REFUSER_VALID, POWER.CAUSE, POWER.REFUSALS, POWER.ABORTS, POWER.LAST_REFUSER, POWER.WAKES]

/-- The fields of layout `powerAll`. -/
def Lay.powerAllFields : List Fld :=
  [POWERALL.GLOBAL_HOLD, POWERALL.PARKED, POWERALL.SHELVED, POWERALL.LAID_BY]

/-- The fields of layout `rbOwn`. -/
def Lay.rbOwnFields : List Fld :=
  [RBOWN.LONG_N, RBOWN.CAP, RBOWN.WEIGHT_SUM]

/-- The fields of layout `rbReq`. -/
def Lay.rbReqFields : List Fld :=
  [RB.WEIGHT, RB.REFILL, RB.CEILING, RB.GRANTS, RB.CREDIT]

/-- The fields of layout `snoopSlice`. -/
def Lay.snoopSliceFields : List Fld :=
  [HSET.BI_RESERVE, HSET.VICTIM_POLICY, HSET.SCRUB_MS, HSET.VALID_ENTRIES, HSET.BI_OUT, HSET.CORRECTED]

/-- The fields of layout `snoopWin`. -/
def Lay.snoopWinFields : List Fld :=
  [SNOOP.DWELL, SNOOP.DEAD_POLICY, SNOOP.REOPEN, SNOOP.TIMEOUT, SNOOP.TIMED_OUT, SNOOP.RECLAIMED]

/-- The fields of layout `stowCtx`. -/
def Lay.stowCtxFields : List Fld :=
  [CTX.STATE, CTX.BUSY, CTX.RELEASE, CTX.HOLDER, CTX.IN_BYTES, CTX.OUT_BYTES, CTX.CRC]

/-- The fields of layout `stowSet`. -/
def Lay.stowSetFields : List Fld :=
  [STOW.MIN_CLASS, STOW.STREAM_LEVEL, STOW.STREAM_CODERS, STOW.STOWED_PAGES, STOW.SLOT_FRAMES, STOW.CRC_FAILS, STOW.CTX_HELD]

/-- The fields of layout `tag`. -/
def Lay.tagFields : List Fld :=
  [TAG.LD_SIZE_LOG2, TAG.KEYID_WIDTH, TAG.CLASS_WIDTH, TAG.DEFAULT_CLASS, TAG.CLASS_ALLOW, TAG.KEY_POLICY, TAG.DEFAULT_KEYID, TAG.DECODERS]

/-- The fields of layout `thermal`. -/
def Lay.thermalFields : List Fld :=
  [THERMAL.ENABLE, THERMAL.FAILED, THERMAL.HOT, THERMAL.THROTTLE_C, THERMAL.SHUTDOWN_C, THERMAL.TRIP_C, THERMAL.OFFSET, THERMAL.NF_ADJ, THERMAL.BETA_K, THERMAL.READING, THERMAL.MAX_SEEN]

/-- The fields of layout `thermalSup`. -/
def Lay.thermalSupFields : List Fld :=
  [LEDGER.SLOPE, LEDGER.CUT_MAX, LEDGER.CUT, LEDGER.HOTTEST, LEDGER.GRACE_US, LEDGER.DIMM_THROTTLE_C, LEDGER.LEDGER_OK, LEDGER.THROTTLE_MS, LEDGER.EQUIV_H, LEDGER.RECENT_EQ, LEDGER.LIFE_USED, LEDGER.RO_DRIFT] ++ [LEDGER.REMAIN_H] ++ ((List.range 32).map LEDGER.BIN_H)

/-- The fields of layout `toll`. -/
def Lay.tollFields : List Fld :=
  [TOLL.GUARANTEE, TOLL.CAP, TOLL.G_EFF, TOLL.THROTTLED, TOLL.RATE, TOLL.LIMIT]

/-- The fields of layout `tollDev`. -/
def Lay.tollDevFields : List Fld :=
  [TOLLDEV.THROTTLE_LEVEL, TOLLDEV.SLOPE, TOLLDEV.FMAX, TOLLDEV.LEVEL_MODE, TOLLDEV.SHORTFALL, TOLLDEV.BOOKED, TOLLDEV.BOOKABLE, TOLLDEV.SCALE, TOLLDEV.LEVEL]

/-- The fields of layout `window`. -/
def Lay.windowFields : List Fld :=
  [WINDOW.ENABLE, WINDOW.TYPE, WINDOW.POLICY, WINDOW.STOW, WINDOW.LD_BASE, WINDOW.SIZE, WINDOW.DEV_BASE, WINDOW.STATE]

/-- The fields of an entry (INDEX as R167 counts it). -/
def fieldsOf (tbl idx : Nat) : List Fld :=
  match tbl with
  | 0x01 => Lay.portFields | 0x02 => Lay.windowFields | 0x03 => Lay.tagFields
  | 0x04 => Lay.keymapFields | 0x05 => Lay.keyslotFields
  | 0x06 => if idx = 0 then Lay.tollFields ++ Lay.tollDevFields
            else if idx ≤ 3 then Lay.tollFields ++ Lay.tollFields.map Fld.internal
            else Lay.tollFields
  | 0x07 => if idx % 64 = 63 then Lay.rbOwnFields else Lay.rbReqFields
  | 0x08 => if idx < 2 ^ 47 then Lay.placePageFields
            else if idx = placeCtl 0 then Lay.placeCtl0Fields
            else if idx = placeCtl 1 then Lay.placeCtl1Fields
            else if idx ≤ placeCtl 5 then Lay.placeWalkerFields
            else [⟨.placeWalker, 0, 64, .rw, 0⟩, ⟨.placeWalker, 64, 64, .rw, 0⟩]
  | 0x09 => if idx = 0 then Lay.capPoolFields else Lay.capExtFields
  | 0x0A => if idx = 0 then Lay.stowSetFields else Lay.stowCtxFields
  | 0x0B => Lay.memchFields | 0x0C => Lay.bayFields
  | 0x0D => if idx = 52 then Lay.thermalSupFields else Lay.thermalFields
  | 0x0E => if idx = 0 then Lay.faultCollFields else Lay.faultRecFields
  | 0x0F => if idx = 544 then Lay.milepostAllFields else Lay.milepostFields
  | 0x10 => if idx = 78 then Lay.powerAllFields else Lay.powerFields
  | 0x11 => if idx < 4096 then Lay.snoopWinFields else Lay.snoopSliceFields
  | 0x12 => if idx = 0 then Lay.owner0Fields else if idx = 1 then Lay.owner1Fields else Lay.owner2Fields
  | 0x13 => Lay.accessFields | 0x14 => Lay.phaseFields
  | _ => []

/-- Is INDEX inside the table's index range? (R167; R277 for PLACE. The R277 conditions on a page that
depend on the state are checked where a handle is used.) -/
def indexOk (tbl idx : Nat) : Bool :=
  match tbl with
  | 0x01 => idx < 32 | 0x02 => idx < 4096 | 0x03 => idx < 256 | 0x04 => idx < 1048576
  | 0x05 => idx < 4096 | 0x06 => idx < 256 | 0x07 => idx < 2816
  | 0x08 => idx < 2 ^ 34 || (placeCtl 0 ≤ idx && idx ≤ placeCtl 15)
  | 0x09 => idx < 16385 | 0x0A => idx < 4097 | 0x0B => idx < 28 | 0x0C => idx < 12
  | 0x0D => idx < 53 | 0x0E => idx < 257 | 0x0F => idx < 545 | 0x10 => idx < 79
  | 0x11 => idx < 4112 | 0x12 => idx < 3 | 0x13 => idx < 256 | 0x14 => idx = 0
  | _ => false

/-- The entry's length in 64-bit words, as each table's chapter states it in bytes. -/
def wordsOf (tbl idx : Nat) : Nat :=
  match tbl with
  | 0x01 => 2 | 0x02 => 4 | 0x03 => 1 | 0x04 => 1 | 0x05 => 8 | 0x06 => 4 | 0x07 => 2
  | 0x08 => 2
  | 0x09 => if idx = 0 then 12 else 4
  | 0x0A => 4
  | 0x0B => 80 | 0x0C => 4
  | 0x0D => if idx = 52 then 20 else 2
  | 0x0E => if idx = 0 then 8 else 4
  | 0x0F => if idx = 544 then 16 else 4
  | 0x10 => 2
  | 0x11 => 2
  | 0x12 => if idx = 0 then 2 else if idx = 1 then 4 else 12
  | 0x13 => 1 | 0x14 => 2
  | _ => 0

/-- The reset value of a field at an index, where the spec gives one by index. -/
def rstOf (f : Fld) (idx : Nat) : Nat :=
  if f = KEYMAP.VALID then (if idx % 4096 = 0 then 1 else 0)
  else if f = KEYSLOT.INSTALLED then (if idx = 0 then 1 else 0)
  else if f = KEYSLOT.MAPS then (if idx = 0 then 256 else 0)
  else if f = TOLL.CAP then (if idx % 8 = 7 then 128 else 0)
  else if f = RB.WEIGHT then (if idx % 64 = 35 then 64 else 16)
  else if f = RBOWN.CAP then 0
  else if f = MILEPOST.ENABLE then (if 512 ≤ idx then 1 else 0)
  else if f = THERMAL.ENABLE then (if 32 ≤ idx ∧ idx < 48 then 0 else 1)
  else if f = THERMAL.THROTTLE_C then (if idx < 32 then 95 else if idx < 48 then 100 else 85)
  else if f = THERMAL.SHUTDOWN_C then (if idx < 32 then 105 else if idx < 48 then 110 else 95)
  else if f = THERMAL.TRIP_C then (if idx < 32 then 110 else if idx < 48 then 120 else 100)
  else if f = POWER.POLICY then (if idx = 34 ∨ idx = 35 then 0 else 1)
  else if f = POWER.DEEP_EN then (if idx < 34 then 1 else 0)
  else if f = POWER.IDLE1 then (if idx < 34 then 10 else if 74 ≤ idx then 50 else 100)
  else if f = POWER.IDLE2 then
    (if idx < 16 then 10000 else if idx < 50 then 100 else 1000)
  else f.rst

/-- A word of an entry at reset: every field at its reset value, reserved bits zero (R4). -/
def resetWord (h : Nat) : BitVec 64 :=
  let tbl := h / 2 ^ 56
  let idx := h / 2 ^ 8 % 2 ^ 48
  let word := h % 2 ^ 8
  BitVec.ofNat 64 (((fieldsOf tbl idx).filter (fun f => f.word == word)).foldl
    (fun acc f => acc + rstOf f idx % 2 ^ f.w * 2 ^ f.bit) 0)

/-- A field of a word. -/
def Fld.get (f : Fld) (x : BitVec 64) : Nat := x.toNat / 2 ^ f.bit % 2 ^ f.w

/-- The bits of a field in its word. -/
def Fld.mask (f : Fld) : BitVec 64 := BitVec.ofNat 64 ((2 ^ f.w - 1) * 2 ^ f.bit)

/-- The bits of a field in a word of its entry: a wide field has bits in several words (R3). -/
def Fld.maskAt (f : Fld) (word : Nat) : BitVec 64 :=
  let a := max f.lo (64 * word)
  let b := min (f.lo + f.w) (64 * word + 64)
  if a < b then BitVec.ofNat 64 ((2 ^ (b - a) - 1) * 2 ^ (a - 64 * word)) else 0

/-- A word with a field replaced (the value taken modulo the field's width). -/
def Fld.put (f : Fld) (x : BitVec 64) (v : Nat) : BitVec 64 :=
  (x &&& ~~~ f.mask) ||| (BitVec.ofNat 64 (v % 2 ^ f.w * 2 ^ f.bit) &&& f.mask)

end Sys2Proof.Machine
end

