-- ==== Sys2Proof/Machine/State.lean ====
section
/-! DEFINITION. The device's state: everything the spec gives the machine, as plain data, and the
state right after reset. INVENTORY.md lists each piece with its rule and reset value. -/
namespace Sys2Proof.Machine

/-- Power states of R42. -/
inductive Power where
  | unpowered | aonOnly | poweringOn | running
deriving DecidableEq, Repr

/-- Where power-on waits (R50, R72, R73). -/
inductive Hold where
  | none | strapStop | recovery6 | recovery10
deriving DecidableEq, Repr

/-- The board's side: pins, straps, and the progress of power-on (R42-R55). -/
structure Board where
  power : Power
  halted : Bool
  /-- PWRGOOD rose with SYSRST_N high: the 1 ms wait runs (R42). -/
  riseTimer : Bool
  straps : Straps
  /-- Highest power-on step completed (R55). -/
  step : Nat
  hold : Hold
  /-- The next bay whose turn it is at step 3 (R61). -/
  turn : Nat
  /-- Bays that reported a fault at step 3 (R62). -/
  reported : BitVec 12
  vbaydrvLow : Bool
  /-- VBAYDRV as last measured below its threshold, in mV. -/
  vbaydrvMv : Nat
  /-- VBAYDRV was below its threshold at bay power-up: no bay powers up (R46). -/
  vbayFail : Bool
  record : List (BitVec 8)
  image : List (BitVec 8)
  /-- Port groups whose reference clock was present at step 6 (R54). -/
  refclk : BitVec 16
  /-- DRAM CK is root /2.5, DDR5-6400 (R11). -/
  ckSlow : Bool
  /-- HDPERST_N[31:0] and MG_PERST_N (bit 32), as levels (R43). -/
  perst : BitVec 33
  /-- Link training has begun (step 7). -/
  training : Bool
  /-- The CXL mailboxes are ready (step 10). -/
  mbReady : Bool
  /-- Memory_Active has been reported (step 11). -/
  active : Bool
  /-- The owner-election path of the BMC is down (R83). -/
  bmcDown : Bool
  /-- The functions held in reset (bit 256 the endpoint, R83). -/
  inReset : BitVec 257
  heart : Bool
  heartOn : Bool
  thermtrip : Bool
  /-- Bays whose BAYPG is high; whose BAYPRE and BAYGATE are driven high. -/
  baypg : BitVec 12
  baypre : BitVec 12
  baygate : BitVec 12
  /-- The phase before the last PHASE store, and the FCLK cycle of that store's commit (R77). -/
  phaseWas : Option (Nat × Nat)
deriving DecidableEq, Repr

/-- Clocks (R10, R141). -/
structure Time where
  /-- AON clock cycles since PWRGOOD rose. -/
  aon : Nat
  /-- FCLK cycles since the root PLL locked. -/
  fclk : Nat
  locked : Bool
  /-- FCLK cycles since the last AON clock edge. -/
  sub : Nat
deriving DecidableEq, Repr

/-- Election states of R84. -/
inductive ElState where
  | closed | open | owned | handover | lapsing
deriving DecidableEq, Repr

/-- The owner election (R79-R86). -/
structure Election where
  st : ElState
  owner : Option Nat
  successor : Option Nat
  epoch : BitVec 12
  word : BitVec 32
deriving DecidableEq, Repr

/-- Field service access (R104-R107). -/
structure Service where
  challenge : BitVec 128
  hasChallenge : Bool
  method : BitVec 2
  /-- STATE of SA_STATUS: 0 LOCKED, 1 OPEN, 2 CLOSED. -/
  st : BitVec 2
  fails : BitVec 2
  last : BitVec 4
  response : BitVec 1024
  dbgAddr : BitVec 46
  /-- The line under read (device DPA / 64). -/
  dbgLine : BitVec 40
  dbgBusy : Bool
  /-- The read has passed its home slice and waits for its data. -/
  dbgReady : Bool
  dbgResult : BitVec 4
  dbgKey : BitVec 12
  dbgPage : BitVec 3
  dbgData : BitVec 512
deriving DecidableEq, Repr

/-- A table store admitted and not yet at its commit point: the word's bits `mask` were `old` in force. -/
structure Uncommitted where
  tbl : Nat
  idx : Nat
  word : Nat
  mask : BitVec 64
  old : BitVec 64
  /-- W1C and W1S bits stored as 1, which act at the commit point. -/
  ones : BitVec 64
  /-- The thread (4 × wayfinder + thread) that stored it. -/
  by_ : Nat
deriving DecidableEq, Repr

/-- Bits of a W1C register, or of a doorbell block, that hardware or a host has set in the current cycle of its clock (R132,
R423): a word of a table entry, or of a pseudo-table of doorbell blocks. -/
structure Stamp where
  tbl : Nat
  idx : Nat
  word : Nat
  mask : BitVec 64
  /-- The FCLK cycle and the AON clock cycle. -/
  fclk : Nat
  aon : Nat
deriving DecidableEq, Repr

/-- A ring pair's registers (R87). -/
structure Ring where
  cmdBase : BitVec 64
  cplBase : BitVec 64
  enable : Bool
  cmdLog2 : BitVec 5
  cplLog2 : BitVec 5
  error : Bool
  cause : BitVec 4
  cmdHead : BitVec 16
  cplTail : BitVec 16
  cmdTail : BitVec 16
  cplHead : BitVec 16
  phase : Bool
  /-- The descriptor read at CMD_HEAD is outstanding (R193). -/
  fetching : Bool
  /-- Completion entries written and not consumed (R90, R95). -/
  unread : Nat
deriving DecidableEq, Repr

/-- A mailbox (R97). -/
structure Mailbox where
  payload : BitVec 63
  full : Bool
  posted : BitVec 16
  acked : BitVec 16
  rejects : BitVec 16
deriving DecidableEq, Repr

/-- A doorbell block (R100); DEV_MASK is ACCESS.DB_WF_MASK, and the endpoint's its own. -/
structure Doorbell where
  toDev : BitVec 16
  toHost : BitVec 16
  hostMask : BitVec 16
deriving DecidableEq, Repr

/-- Where a command in flight stands. -/
inductive CmdSt where
  /-- Fetched, with FLAGS.FENCE: earlier commands of its ring have not completed (R89). -/
  | held
  /-- Started; its row takes it up. -/
  | started
  /-- Its row has taken it up. -/
  | working
  /-- Its host data is being read (`CXL_IO_COMPLETION` brings it). -/
  | reading
  /-- It has its status and result, and its completion is to be written. -/
  | done (status : BitVec 8) (result : BitVec 64)
deriving DecidableEq, Repr

/-- A ring command fetched and not completed (R89-R94). `idx` is its index in the ring. -/
structure RingCmd where
  ld : Nat
  ring : Nat
  idx : Nat
  desc : List (BitVec 8)
  st : CmdSt
  /-- Host bytes read for it. -/
  data : List (BitVec 8)
  /-- FCLK cycle of its fetch (R158). -/
  at_ : Nat
deriving DecidableEq, Repr

/-- A read request of the device to a host that is not answered (R193). -/
structure IoRead where
  head : Nat
  tag : BitVec 16
  ld : Nat
  ring : Nat
  /-- The command's index, or none for a descriptor fetch. -/
  idx : Option Nat
deriving DecidableEq, Repr

/-- Who issued a range job: a ring command (ld, ring, idx) or a MOVE (wayfinder, thread, descriptor address). -/
inductive Origin where
  | ring (ld ring idx : Nat)
  | move (w t desc : Nat)
  /-- A STOW or UNSTOW instruction of a thread, whose status goes to register `d`. -/
  | instr (w t d : Nat)
  /-- A MOVE whose invocation ended without waiting for it (R160, R164): no MOVE_DONE. -/
  | orphan
deriving DecidableEq, Repr

/-- What a range job does to its pages. -/
inductive JobKind where
  | tier | copy | zero | rekey | stow | unstow | pin | unpin
deriving DecidableEq, Repr

/-- A command or MOVE that works through a range of device memory (R93, R137). -/
structure Job where
  /-- The model's own number of the job, in order of starting. -/
  id : Nat
  origin : Origin
  kind : JobKind
  /-- Start of the range (of the source for COPY) and of COPY's destination: LD DPAs when an LD invokes it, else device DPAs. -/
  a : Nat
  b : Nat
  /-- Bytes in the range, and bytes completed. -/
  len : Nat
  done : Nat
  /-- Key slots (destination, old; new), target or effort or tier code, FORCE and NOTIFY. -/
  key : Nat
  key2 : Nat
  arg : Nat
  force : Bool
  notify : Bool
  /-- The invoking LD, when there is one. -/
  ld : Option Nat
  /-- The final status, once the job has one. -/
  status : Option (BitVec 8)
  /-- The page operation it waits for: a page, and that operation's status once it has ended. -/
  busy : Option (Nat × Option Nat)
  /-- Address of the MOVE that issued it. -/
  pc : Nat := 0
  /-- The page whose move a mover's fault has ended once (R427). -/
  tried : Option Nat := none
deriving DecidableEq, Repr

/-- Kinds of invocations (R156). -/
inductive Kind where
  | base | owner | tenant (ld : Nat)
deriving DecidableEq, Repr

/-- States of a thread (R157); a halted thread keeps the state it returns to. -/
inductive ThSt where
  | idle | running | suspended
deriving DecidableEq, Repr

/-- What a suspended thread waits for. -/
inductive Wait where
  | none
  | event (d : Nat) (mask : BitVec 32) (until_ : Option Nat)
  | sleep (until_ : Nat)
  | fence (s t d : Bool)
  /-- A synchronous data-path instruction that is not complete: STOW 1, UNSTOW 2, BINV 3, MREAD 4, MWRITE 5. -/
  | op (code : Nat) (d : Nat) (page : Nat)
  /-- That operation's status, ready to be delivered to register `d`. -/
  | status (d : Nat) (v : BitVec 64)
  /-- A unit fault: the instruction raises DATA_PATH when the thread resumes (R133). -/
  | dataPath
  /-- The snapshot of group `g` that takes generation `gen`, which goes to `d`. -/
  | snap (d g : Nat) (gen : BitVec 32)
  /-- The invocation ended and waits for its outstanding MOVEs (R144): end kind, status, RESULT. -/
  | ending (kind : BitVec 2) (status : BitVec 16) (result : BitVec 64)
deriving DecidableEq, Repr

/-- A wayfinder thread (R111, R152, R157). g0-g31 are in `State.regs`. -/
structure Thread where
  st : ThSt
  /-- Debug halt stands (R157). -/
  dbg : Bool
  /-- A single step is allowed (R157). -/
  single : Bool
  kind : Kind
  prog : Nat
  /-- PC, a byte address; PC[1:0] is zero (R112). -/
  pc : BitVec 16
  /-- A jump target that the next fetch refuses (R123). -/
  badTarget : Option (BitVec 64)
  winBase : Nat
  winSize : Nat
  steps : Nat
  /-- The step budget; 0 is no budget (R148). -/
  budget : Nat
  pend : BitVec 32
  /-- The staging buffer (R127): table, index, and words. -/
  stTbl : Nat
  stIdx : Nat
  staged : Tab (BitVec 64)
  wait : Wait
  /-- FCLK cycle at which the suspension began; in debug halt, the cycles of it that no step has counted. -/
  suspAt : Nat
  /-- The RUN command this invocation answers. -/
  run : Option (Nat × Nat × Nat)
  lastProg : Nat
  endStatus : BitVec 16
  endKind : BitVec 2
  /-- The page whose decode or promotion its MREAD or MWRITE waits for, and that operation's status once it has one. -/
  stall : Option (Nat × Option Nat)
deriving DecidableEq, Repr

/-- A wayfinder (R154-R165). -/
structure Wf where
  released : Bool
  stopped : Bool
  restarting : Bool
  /-- FCLK cycles of its restarts. -/
  restarts : List Nat
deriving DecidableEq, Repr

/-- A loaded program (R148, R154). `mask` has a bit per wayfinder that holds it. -/
structure Program where
  kind : Kind
  base : Nat
  len : Nat
  entry : Nat
  scratch : Nat
  steps : Nat
  mask : BitVec 16
  image : List (BitVec 8)
deriving DecidableEq, Repr

/-- The program load window (R153). -/
structure LoadWin where
  buf : Mem
  base : BitVec 17
  busy : Bool
  status : BitVec 8
  program : BitVec 8
deriving DecidableEq, Repr

/-- An entry of a head's violation log (R194). -/
structure Violation where
  seq : BitVec 16
  code : BitVec 8
  response : BitVec 8
  ld : BitVec 8
  count : BitVec 8
  address : BitVec 64
  time : Nat
  detail : BitVec 64
deriving DecidableEq, Repr

/-- An L0p width change in progress (R189). -/
inductive L0p where
  | stable | device (w : Nat) | host (w : Nat)
deriving DecidableEq, Repr

/-- A link: a head's, or the endpoint's (index 32). -/
structure Link where
  /-- DL_Active. -/
  up : Bool
  rate : Nat
  /-- Trained width and the width in use. -/
  trained : Nat
  width : Nat
  flit256 : Bool
  cxl : Bool
  l1 : Bool
  l0p : L0p
  /-- The last width change was the host's (R189). -/
  byHost : Bool
  /-- FCLK cycle of the last width change, and since when every sample was below the threshold. -/
  holdAt : Nat
  lowSince : Option Nat
  /-- An express request waits for full width (R188). -/
  express : Bool
  /-- The policy was stopped while the link was narrower, and has yet to ask for the trained width (R188). -/
  toFull : Bool
  /-- The load of the last sample, in percent (R188). -/
  load : Nat
  /-- The BI-ID that the host has programmed for the head (R202). -/
  biId : BitVec 12
  log : List Violation
  seq : BitVec 16
  overwrites : Nat
  counted : Nat
  /-- Transmit credits held, by type: BISnp, posted, non-posted (R191). -/
  crBisnp : Nat
  crPosted : Nat
  crNonPosted : Nat
deriving DecidableEq, Repr

/-- An HDM decoder (R178, R498). `skipLo` is the LD address its range starts at; `way` the way bits seen. -/
structure Decoder where
  committed : Bool
  base : Nat
  size : Nat
  ways : Nat
  gran : Nat
  ldBase : Nat
  bi : Bool
  way : Option Nat
  /-- Error Not Committed stands (R178). -/
  err : Bool
deriving DecidableEq, Repr

/-- What a request asks of a line (R209). -/
inductive Req where
  | read | readData | readFwd | specRd | inv | invNt | write | writePtl
deriving DecidableEq, Repr

/-- Where a request comes from. -/
inductive Src where
  /-- A host: head, LD, tag, HPA. -/
  | host (h ld : Nat) (tag : BitVec 16) (hpa : BitVec 64)
  /-- The debug read registers. -/
  | debug
  /-- No head: a line that a reclaim walk stores as poisoned, for a member LD (R500). -/
  | internal (ld : Nat)
deriving DecidableEq, Repr

/-- A memory request past its head: line DPA[45:6], device key slot, route class, MetaValue. -/
structure MemReq where
  src : Src
  kind : Req
  mv : MetaVal
  line : Nat
  key : Nat
  cls : Nat
  data : BitVec 512
  mask : BitVec 64
  poison : Bool
  throttled : Bool
  /-- FCLK cycle of its arrival where it waits. -/
  at_ : Nat
  /-- Line key of its unit, once placed; and for a read whether its span verified as stored. -/
  addr : Nat := 0
  ok : Bool := true
  /-- The local KeyID of a host request. -/
  keyId : Nat := 0
  /-- Its line has been looked up in the snoop filter (R217). -/
  looked : Bool := false
  /-- It has been counted by its slice's heat sampler (R251). -/
  counted : Bool := false
  /-- How the read that a byte-masked write needs decodes (R19, R21). -/
  dec : Decode := .clean
deriving DecidableEq, Repr

/-- A snoop-filter entry (R205): VALID entries only are listed. -/
structure SfEntry where
  valid : Bool
  tag : BitVec 22
  sharers : BitVec 32
  excl : Bool
deriving DecidableEq, Repr

/-- Why a line is being snooped. -/
inductive Why where
  | conflict | victim | binv (w t : Nat) | stowForce (page : Nat) | disable (win : Nat) | loss | internal | debug
deriving DecidableEq, Repr

/-- A BISnp (R210, R215). `inv`: BISnpInv. `done`: its accepted response, `some true` for BIRspS, kept until every
snoop of the line is complete (R212). `due`: tags of the head's requests for the line that were ordered before it and
are not answered (R223). -/
structure Snoop where
  head : Nat
  line : Nat
  inv : Bool
  why : Why
  reserved : Bool
  sent : Bool
  at_ : Nat
  done : Option Bool := none
  due : List (BitVec 16) := []
deriving DecidableEq, Repr

/-- A line tracker (R212, R214): requests waiting for a line, in order of acceptance. -/
structure Tracker where
  line : Nat
  queue : List MemReq
deriving DecidableEq, Repr

/-- A dwell window running: line, holder, FCLK cycle of its end (R218). -/
structure Dwell where
  line : Nat
  head : Nat
  until_ : Nat
deriving DecidableEq, Repr

/-- A victim waiting for snoop slots, or whose snoops are out (R216, R217). -/
structure Victim where
  slice : Nat
  set : Nat
  way : Nat
  /-- The line whose allocation needs the way, and the line to be evicted. -/
  forLine : Nat
  old : Nat
  issued : Bool
deriving DecidableEq, Repr

/-- A reclaim walk (R227): head, WINDOW index of the group's lowest member, the group's range of regions; and, when
every entry has been visited, the lines being stored as poisoned, whose writes the walk still waits for (R500). -/
structure Walk where
  head : Nat
  win : Nat
  base : Nat
  size : Nat
  stored : Option (List Nat) := none
deriving DecidableEq, Repr

/-- Page states of R240. -/
inductive PgSt where
  | blank | near | far | stowed | moving | lost
deriving DecidableEq, Repr

/-- A page's map entry (R240). `loc` is the LOC of R236; `src` the source state of a MOVING page;
`code` the LOST code; `pin` 0 none, 1 near, 2 far. -/
structure Page where
  st : PgSt
  pin : Nat
  accessed : Bool
  retire : Bool
  slotClass : Nat
  key : Nat
  loc : Nat
  src : PgSt
  code : Nat
deriving DecidableEq, Repr

/-- A region's entry (R239): WHOLE runs keep their pages' entries here; `kind` 0 BLANK, 1 WHOLE, 2 MIXED. -/
structure Region where
  kind : Nat
  /-- LOCs of the sub-table's two copies. -/
  sub1 : Option Nat
  sub2 : Option Nat
deriving DecidableEq, Repr

/-- A frame's use: what the frame owner records (R280) and the allocator know of it. -/
inductive Use where
  | free
  /-- Holds the page with this number. -/
  | page (p : Nat)
  /-- A slot frame of a class; the pages in its slots. -/
  | slots (cls : Nat) (pages : List (Option Nat))
  /-- A map frame. -/
  | map
  /-- Taken by a move, a stow or a promotion that has not switched. -/
  | target (p : Nat)
  | retired
deriving DecidableEq, Repr

/-- A frame: its use and whether it is pending retirement (R259). -/
structure Frame where
  use : Use
  retiring : Bool
deriving DecidableEq, Repr

/-- A memory unit's standing with the allocator (R64, R237, R275). -/
structure Pool where
  /-- Frames of the unit (R353); 0 until its capacity is known. -/
  frames : Nat
  inPool : Bool
  excluded : Bool
  present : Bool
  /-- Its fill is complete. -/
  filled : Bool
  /-- Frames at the unit's end that hold subtree copies of other units (R241, R334). -/
  subtree : Nat
deriving DecidableEq, Repr

/-- What a page move is (R253, R257). -/
inductive MoveKind where
  | tier
  /-- A page of a TIER move that takes a whole region into one run of frames (R244). -/
  | run
  | stow (level : Nat) (coder : Nat) | promote (dec : Nat) | relocate
deriving DecidableEq, Repr

/-- A page being moved (R253): its target LOC and slot class, redo bits, and pass (0 waiting for its
engine, 1 copying, 2 the first redo pass, 3 the second, 4 hold). -/
structure Move where
  page : Nat
  kind : MoveKind
  mover : Nat
  target : Nat
  tgtClass : Nat
  redo : BitVec 64
  pass : Nat
  /-- Tried before on another frame or engine. -/
  retried : Bool
  held : List MemReq
  /-- The target state is near (else far or stowed). -/
  near : Bool
  force : Bool
deriving DecidableEq, Repr

/-- A hot-page entry (R252); entries are kept in order of making. -/
structure Hot where
  page : Nat
  count : Nat
deriving DecidableEq, Repr

/-- A stow waiting for a coder, or a promotion for a decoder (R294, R299). -/
structure Queued where
  page : Nat
  /-- Effort level of a stow; priority of a promotion. -/
  level : Nat
  force : Bool
  /-- A promotion's unit or tier: 0 near, 1 far, 16 + s, 32 + c; 255 by policy. -/
  target : Nat
  /-- Serve from a promotion buffer (R298). -/
  buffer : Bool
  cls : Nat
  reqs : List MemReq
  /-- A stow or decode started again after its first engine failed (R295, R299). -/
  retried : Bool := false
deriving DecidableEq, Repr

/-- A decoder's work (R298, R299). -/
structure DecWork where
  dec : Nat
  q : Queued
deriving DecidableEq, Repr

/-- A stream context (R302, R310). -/
structure Ctx where
  st : Nat
  busy : Bool
  holder : Nat
  inBytes : Nat
  outBytes : Nat
  crc : BitVec 32
  history : List (BitVec 8)
  /-- Bits of a partial byte (export), or input bits not consumed (import). -/
  bits : List Bool
  /-- Decoded bytes of a partial page (import). -/
  part : List (BitVec 8)
  /-- Inside a block (import): 0 between blocks, 1 a fixed Huffman block, 2 + n a stored block with n bytes left. -/
  blk : Nat
  /-- The final block has begun. -/
  fin : Bool
deriving DecidableEq, Repr

/-- A key slot's secret side (R311): its key. Mode and flags are KEYSLOT fields. -/
abbrev KeyTab := Tab (BitVec 256)

/-- A counter block (R318): MAJOR and the 64 minors of 7 bits. -/
structure CBlock where
  major : BitVec 64
  minors : BitVec 448
deriving DecidableEq, Repr

/-- A tree node (R331). -/
structure Node where
  major : BitVec 64
  minors : BitVec 384
  mac : BitVec 64
deriving DecidableEq, Repr

/-- A span merge entry (R326): frame key, span, page, four lines with masks. -/
structure Merge where
  unit : Nat
  frame : Nat
  span : Nat
  page : Nat
  key : Nat
  lines : List (BitVec 512 × BitVec 64 × Bool)
  until_ : Nat
deriving DecidableEq, Repr

/-- A read waiting in a controller's queue. -/
structure Rd where
  req : MemReq
  addr : Nat
  at_ : Nat
deriving DecidableEq, Repr

/-- A line waiting in a controller's write queue: raw contents, poison; `low` a corrected write-back. -/
structure Wr where
  addr : Nat
  data : BitVec 512
  poison : Bool
  low : Bool
deriving DecidableEq, Repr

/-- A channel or stack controller (R363-R371). Addresses are line numbers within the unit. -/
structure Chan where
  rq : List Rd
  wq : List Wr
  /-- The write queue drains since it reached WQ_HIGH (R364). -/
  draining : Bool
  inflight : Option Rd
  /-- Lines kept in the twin buffer. -/
  twin : List Nat
  /-- Open rows: bank, row, FCLK cycle of the last use. -/
  openRows : List (Nat × Nat × Nat)
  postponed : Nat
  /-- Failures of the burst being written again, by place (R371). -/
  crcTries : List (Nat × Nat)
  alerts : List Nat
  /-- Scrub reads of the present pass, and the FCLK cycle at which it began. -/
  scrub : Nat
  scrubAt : Nat
  /-- FCLK cycle until which a retraining pause lasts (R370). -/
  readyAt : Nat
deriving DecidableEq, Repr

/-- A tollgate: per-class queues, tokens, admitted bytes of the last intervals (R390-R394). -/
structure Toll where
  queue : List MemReq
  /-- Token counts, in 1/3,200 byte. -/
  tokens : List Nat
  /-- Classes with no limit in this interval. -/
  noLimit : List Bool
  hist : List (List Nat)
  waitSince : List Nat
deriving DecidableEq, Repr

/-- A roundabout (R404, R405): presented requests by requester with arrival, grants since the longest-wait grant. -/
structure Rb where
  queue : List (Nat × MemReq)
  since : Nat
  /-- Last grant or raise per requester. -/
  lastGrant : Tab Nat
deriving DecidableEq, Repr

/-- A pending fault report (R416). -/
structure Report where
  unit : Nat
  code : Nat
  cls : Nat
  alarm : Bool
  count : Nat
  detail : BitVec 64
  at_ : Nat
deriving DecidableEq, Repr

/-- A unit reset in progress (R428). -/
structure UnitReset where
  unit : Nat
deriving DecidableEq, Repr

/-- A power domain's private side (R437, R439); its STATE is a POWER field. -/
structure Dom where
  /-- The level being entered. -/
  level : Nat
  latched : Bool
  /-- FCLK cycle of the last work. -/
  lastWork : Nat
deriving DecidableEq, Repr

/-- A milepost snapshot bank (R474). -/
structure Bank where
  gen : BitVec 32
  frozen : Bool
  time : Nat
  vals : List (BitVec 48)
deriving DecidableEq, Repr

/-- A sample record (R479). -/
structure Sample where
  counter : Nat
  unit : Nat
  ld : Nat
  addrValid : Bool
  time : Nat
  dpa : Nat
  info : Nat
deriving DecidableEq, Repr

/-- A message or answer of the device. Newest first in `State.out`. -/
inductive Out where
  /-- A CXL.mem response to a host: head, tag, data (none: NDR), poison, DevLoad. -/
  | s2m (h : Nat) (tag : BitVec 16) (data : Option (BitVec 512)) (poison : Bool) (devLoad : BitVec 2)
  /-- A back-invalidate snoop on a head's link, addressed to the BI-ID the host programmed (R202). -/
  | bisnp (h : Nat) (biId : BitVec 12) (hpa : BitVec 64) (inv : Bool)
  | biConflictAck (h : Nat) (dpa : Nat)
  | hostWrite (ld : Nat) (addr : BitVec 64) (bytes : List (BitVec 8))
  | hostRead (ld : Nat) (addr : BitVec 64) (n : Nat) (tag : BitVec 16)
  | msix (f : Nat) (vec : Nat)
  | unsupported (f : Nat)
  | completerAbort (f : Nat)
  | errCor (f : Nat)
  /-- A configuration read's value; none: the capability is not advertised, and its registers are absent (R176). -/
  | config (f : Nat) (v : Option (List Nat))
  /-- A function's CDAT as read through DOE: memory ranges by LD DPA and size, flagged where HDM-DB (R200). -/
  | cdat (f : Nat) (ranges : List (Nat × Nat × Bool))
  /-- A configuration write completes. -/
  | configDone (f : Nat)
  /-- A register read's bytes. -/
  | regData (f : Nat) (bytes : List (BitVec 8))
  /-- A receiver error reported through AER (R193). -/
  | aer (f : Nat)
  | ownerStatus (c : Nat) (v : BitVec 64)
  | answer (bytes : List (BitVec 8))
  | loader (status program : BitVec 8) (extra : List (BitVec 8))
  | l0pRequest (h : Nat) (w : Nat)
  | capacityEvent (h : Nat) (extent : Nat) (add : Bool)
  | training (l : Nat)
  | fillStart (u : Nat)
  | flashWrite (seq : BitVec 32)
deriving DecidableEq, Repr

/-- Programs, rings and messages. -/
structure Soft where
  rings : Tab Ring
  cmds : List RingCmd
  ioReads : List IoRead
  nextTag : BitVec 16
  jobs : List Job
  mail : Tab Mailbox
  bells : Tab Doorbell
  epMask : BitVec 16
  wfs : Tab Wf
  threads : Tab Thread
  istore : Mem
  scratch : Mem
  programs : Tab (Option Program)
  runQ : List RingCmd
  policyQ : List RingCmd
  /-- TICKs since the base program's last check-in (R166). -/
  checkTicks : Nat
  /-- The LDs' poison lists: LD and line (R186). -/
  poisonList : List (Nat × Nat)
  win : LoadWin
deriving DecidableEq, Repr

/-- Coherence: the snoop filter and what is in progress around it. -/
structure Coh where
  sf : Tab SfEntry
  plru : Tab (BitVec 15)
  trackers : List Tracker
  snoops : List Snoop
  dwells : List Dwell
  victims : List Victim
  walks : List Walk
  /-- Internal invalidations in progress (R231): line, source, and whether the head must give the line up. -/
  invals : List (Nat × Why × Bool)
  /-- Requests that wait at their home slice for a page's re-encryption or a node's re-base (R321, R337). -/
  parked : List MemReq
  /-- Sampling positions of the home slices (R251). -/
  heatTick : Tab Nat
  /-- BIConflicts whose acknowledgement waits for earlier responses: head, line, and the tags awaited (R223). -/
  acks : List (Nat × Nat × List (BitVec 16))
  /-- Writebacks and MemInv I of holders that reached a home slice which is not ACTIVE (R213, R232). -/
  early : List MemReq
  /-- Exclusive grants ordered and not yet handed to the junction: line, head, tag (R218). -/
  granting : List (Nat × Nat × BitVec 16)
  /-- Entries each home slice has read in its running scrub pass (R207, R234). -/
  scrubbed : Tab Nat
deriving DecidableEq, Repr

/-- Placement and capacity. -/
structure Plc where
  pages : Tab Page
  regions : Tab Region
  /-- LOCs of the three copies of each region-table block held (R238). -/
  blocks : Tab (List Nat)
  frames : Tab Frame
  pools : Tab Pool
  hot : List Hot
  moves : List Move
  /-- Slot frames' free slots waiting for compaction: LOC of the freed slot. -/
  compact : List Nat
  accessedRegions : Tab Bool
  /-- FCLK cycle since which the default policy has found a page untouched, plus one (R279). -/
  untouched : Tab Nat
  /-- SPARE, and whether RESERVE exceeded FREE, when the watermarks were last compared (R268, R269). -/
  marks : Nat × Bool
  /-- The placement cache (R242), newest last: 2 × region for a BLANK or WHOLE region's entry, 2 × page + 1 for a page's. -/
  cache : List Nat
  /-- The regions whose sub-table the HBM verge caches (R241). -/
  subs : List Nat
deriving DecidableEq, Repr

/-- The stow cluster. -/
structure Stow where
  waiting : List Queued
  promos : List Queued
  decoding : List DecWork
  ctxs : Tab Ctx
  /-- Units stopped by a class 2 fault ENGINE (SC and MV unit IDs). -/
  stopped : List Nat
  /-- Coders assigned: coder, page. -/
  coding : List (Nat × Queued)
deriving DecidableEq, Repr

/-- Sealing. -/
structure Seal where
  keys : KeyTab
  clock : BitVec 64
  treeKey : BitVec 256
  /-- Hash subkey H_M of the tree (R332). -/
  treeSub : BitVec 128
  /-- The key of context images (R306). -/
  imageKey : BitVec 256
  blocks : Tab CBlock
  tags : Tab (BitVec 64)
  slotCtrs : Tab (BitVec 64)
  seals : Tab (BitVec 64)
  nodes : Tab Node
  /-- Tree nodes changed and not written back. -/
  dirty : List (Nat × Nat)
  rebase : List (Nat × Nat)
  merges : List Merge
  reenc : List Nat
  /-- Span read buffers: frame key × 16 + span. -/
  spans : List Nat
deriving DecidableEq, Repr

/-- DRAM and its controllers. -/
structure Dram where
  lines : Tab (BitVec 512)
  poison : Tab Bool
  /-- Lines last found uncorrectable. -/
  bad : Tab Bool
  chans : Tab Chan
  levels : Tab Nat
deriving DecidableEq, Repr

/-- Traffic regulation. -/
structure Traffic where
  tolls : Tab Toll
  rbs : Tab Rb
  throttled : Tab Bool
  /-- The unit whose change last brought BOOKABLE to its value (R400). -/
  changed : Nat
deriving DecidableEq, Repr

/-- The AON units. -/
structure Aon where
  reports : List Report
  nextSeq : BitVec 16
  reset : Option UnitReset
  lastCheckin : Nat
  doms : Tab Dom
  /-- READING of DIMM sensors by channel, in 0.25 °C; none where silent. -/
  dimm : Tab (Option (BitVec 16))
  /-- TH sensors read since device reset. -/
  seen : List Nat
  shutdown : Bool
  shutdownBy : Nat
  /-- Numerators of the ledger's sub-hour accrual: seconds in the hour, and per bin. -/
  ledgerSec : Nat
  binSec : Tab Nat
  ledgerSeq : BitVec 32
  /-- Equivalent hours below one hour, in units of 1/(140 × 3,600 × 2^32) h; the same for the hour running, and for
  each of the last 720 hours, newest first (R458, R459). -/
  equivAcc : Nat
  hourAcc : Nat
  recent : List Nat
  /-- 100 µs updates with CUT above 0 not yet counted as a millisecond (R444). -/
  cutTicks : Nat
  /-- Bays whose power-up began as an insertion (R450). -/
  inserting : BitVec 12
  present : BitVec 12
  /-- Evacuations: RETIRE bits set by the evacuation of a bay (pages). -/
  evac : Tab (List Nat)
deriving DecidableEq, Repr

/-- Mileposts. -/
structure Mile where
  banks : Tab Bank
  inProgress : List (Nat × Bank)
  /-- Groups requested again while in progress. -/
  again : List Nat
  samples : Tab Sample
  /-- Condition counters' units whose condition held at the last cycle. -/
  held : List (Nat × Nat)
  /-- Counters in MODE 1 that have counted in this FCLK cycle (R467). -/
  cycle : List Nat
deriving DecidableEq, Repr

/-- Faults of the model: where a step stops. -/
inductive Fault where
  /-- Raised by TEST_ACCESS_PORT_INSTRUCTION for an instruction beyond boundary scan and BYPASS while
  field service access is OPEN: R51 names the facility and gives it no effect. Safe: the model stops. -/
  | testPortUndescribed (code : BitVec 8)
deriving DecidableEq, Repr

/-- Refusals of the model. -/
inductive Refusal where
  /-- Raised by an arm of `exec` that has no meaning yet. Safe: the model stops. -/
  | notModelled (mnemonic : String)
deriving DecidableEq, Repr

/-- The state of the device. -/
structure State where
  board : Board
  time : Time
  own : Election
  svc : Service
  /-- Every device-table word (key: the handle of R125); an unlisted word has its reset value. -/
  tab : Tab (BitVec 64)
  uncommitted : List Uncommitted
  stamps : List Stamp
  soft : Soft
  /-- General registers: key (4 × wayfinder + thread) × 32 + register. -/
  regs : Tab (BitVec 64)
  links : Tab Link
  decoders : Tab Decoder
  coh : Coh
  plc : Plc
  stow : Stow
  sealing : Seal
  dram : Dram
  traffic : Traffic
  aon : Aon
  mile : Mile
  /-- Free values taken so far (the model's own counter). -/
  freeUsed : Nat
  /-- Messages sent, newest first. -/
  out : List Out
  /-- Commands waiting, first in first out (the model's own queue). -/
  pending : List Instr
deriving DecidableEq, Repr

/-! What an unlisted key of each map reads as, which is also each thing's reset value. -/

/-- A ring pair at reset (R87). -/
def Ring.init : Ring := ⟨0, 0, false, 0, 0, false, 0, 0, 0, 0, 0, true, false, 0⟩
/-- A mailbox at reset (R97). -/
def Mailbox.init : Mailbox := ⟨0, false, 0, 0, 0⟩
/-- A doorbell block at reset (R100). -/
def Doorbell.init : Doorbell := ⟨0, 0, 0xFFFF⟩
/-- A thread before any invocation. -/
def Thread.init : Thread :=
  ⟨.idle, false, false, .base, 0, 0, none, 0, 0, 0, 0, 0, 0, 0, [], .none, 0, none, 0, 0, 0, none⟩
/-- A wayfinder before its release. -/
def Wf.init : Wf := ⟨false, false, false, []⟩
/-- A link that is down. -/
def Link.init : Link := ⟨false, 0, 0, 0, false, false, false, .stable, false, 0, none, false, false, 0, 0, [], 0, 0, 0, 0, 0, 0⟩
/-- An uncommitted decoder. -/
def Decoder.init : Decoder := ⟨false, 0, 0, 1, 256, 0, false, none, false⟩
/-- A snoop-filter entry that is not VALID. -/
def SfEntry.init : SfEntry := ⟨false, 0, 0, false⟩
/-- A BLANK page (R248). -/
def Page.init : Page := ⟨.blank, 0, false, false, 0, 0, 0, .blank, 0⟩
/-- A region of KIND BLANK (R238). -/
def Region.init : Region := ⟨0, none, none⟩
/-- A free frame. -/
def Frame.init : Frame := ⟨.free, false⟩
/-- A unit not present. -/
def Pool.init : Pool := ⟨0, false, false, false, false, 0⟩
/-- A free stream context (R302). -/
def Ctx.init : Ctx := ⟨0, false, 0, 0, 0, 0, [], [], [], 0, false⟩
/-- The counter block of a free frame (R347). -/
def CBlock.init : CBlock := ⟨0, 0⟩
/-- A tree node's initial content but for its MAC (R332). -/
def Node.init : Node := ⟨0, 0, 0⟩
/-- An idle controller. -/
def Chan.init : Chan := ⟨[], [], false, none, [], [], 0, [], [], 0, 0, 0⟩
/-- An empty tollgate. -/
def Toll.init : Toll :=
  ⟨[], [0, 0, 0, 0, 0, 0, 0, 0], [true, true, true, true, true, true, true, false], [], [0, 0, 0, 0, 0, 0, 0, 0]⟩
/-- An empty roundabout. -/
def Rb.init : Rb := ⟨[], 0, []⟩
/-- A power domain's private side at reset. -/
def Dom.init : Dom := ⟨0, false, 0⟩
/-- A snapshot bank of generation 0 (R474). -/
def Bank.init : Bank := ⟨0, false, 0, []⟩
/-- An empty sample. -/
def Sample.init : Sample := ⟨0, 0, 0, false, 0, 0, 0⟩

/-- The board at reset: unpowered (R42). -/
def Board.init : Board :=
  { power := .unpowered, halted := false, riseTimer := false, straps := ⟨0, 0, 0, false⟩, step := 0,
    hold := .none, turn := 0, reported := 0, vbaydrvLow := false, vbaydrvMv := 0, vbayFail := false, record := [],
    image := [], refclk := 0, ckSlow := false, perst := 0, training := false, mbReady := false, active := false, bmcDown := false, inReset := 0,
    heart := false, heartOn := false, thermtrip := false, baypg := 0, baypre := 0, baygate := 0, phaseWas := none }

/-- The election at reset (R84, R86). -/
def Election.init : Election := ⟨.closed, none, none, 0, 0⟩

/-- Service access at reset (R104, R107). -/
def Service.init : Service := ⟨0, false, 0, 0, 0, 0, 0, 0, 0, false, false, 0, 0, 0, 0⟩

/-- Rings, mailboxes and programs at reset. -/
def Soft.init : Soft :=
  { rings := [], cmds := [], ioReads := [], nextTag := 0, jobs := [], mail := [], bells := [],
    epMask := 0xFFFF, wfs := [], threads := [], istore := [], scratch := [], programs := [],
    runQ := [], policyQ := [], checkTicks := 0, poisonList := [], win := ⟨[], 0, false, 0, 0⟩ }

/-- Coherence at reset. -/
def Coh.init : Coh := ⟨[], [], [], [], [], [], [], [], [], [], [], [], [], []⟩
/-- Placement at reset. -/
def Plc.init : Plc := ⟨[], [], [], [], [], [], [], [], [], [], (0, false), [], []⟩
/-- The stow cluster at reset. -/
def Stow.init : Stow := ⟨[], [], [], [], [], []⟩
/-- Sealing at reset. -/
def Seal.init : Seal := ⟨[], 0, 0, 0, 0, [], [], [], [], [], [], [], [], [], []⟩
/-- DRAM at reset. -/
def Dram.init : Dram := ⟨[], [], [], [], []⟩
/-- Traffic regulation at reset. -/
def Traffic.init : Traffic := ⟨[], [], [], 0⟩
/-- The AON units at reset. -/
def Aon.init : Aon := ⟨[], 0, none, 0, [], [], [], false, 0, 0, [], 0, 0, 0, [], 0, 0, 0, []⟩
/-- Mileposts at reset. -/
def Mile.init : Mile := ⟨[], [], [], [], [], []⟩

/-- The device before PWRGOOD rises: unpowered, every register at its reset value, nothing listed in
any map, nothing waiting (R42). Log entries 3 and 4 name the values the spec does not give. -/
def State.reset : State :=
  { board := Board.init, time := ⟨0, 0, false, 0⟩, own := Election.init, svc := Service.init, tab := [],
    uncommitted := [], stamps := [], soft := Soft.init, regs := [], links := [], decoders := [], coh := Coh.init,
    plc := Plc.init, stow := Stow.init, sealing := Seal.init, dram := Dram.init,
    traffic := Traffic.init, aon := Aon.init, mile := Mile.init, freeUsed := 0, out := [], pending := [] }

end Sys2Proof.Machine
end

