-- ==== Sys2Proof/Machine/Ops.lean ====
section
/-! DEFINITION. The named operations every meaning is built from: table fields, the maps of the
state, messages, free values, unit IDs, fault reports, the device halt, events to threads,
and the milepost counters. -/
namespace Sys2Proof.Machine

/-! ### Table words and fields (R125, R128) -/

/-- The committed word at a handle (R170). -/
def State.wordAt (s : State) (tbl idx word : Nat) : BitVec 64 := tget resetWord s.tab (handle tbl idx word)

/-- A committed word replaced. -/
def State.setWord (s : State) (tbl idx word : Nat) (v : BitVec 64) : State :=
  { s with tab := tset resetWord s.tab (handle tbl idx word) v }

/-- The committed value of a field at an INDEX. -/
def State.rd (s : State) (f : Fld) (idx : Nat) : Nat := f.get (s.wordAt f.lay.tbl idx f.word)

/-- A field at an INDEX replaced. -/
def State.wr (s : State) (f : Fld) (idx v : Nat) : State :=
  s.setWord f.lay.tbl idx f.word (f.put (s.wordAt f.lay.tbl idx f.word) v)

/-- A one-bit field as a truth value. -/
def State.rdB (s : State) (f : Fld) (idx : Nat) : Bool := s.rd f idx == 1

/-- The word in force: stores not yet at their commit point count at their old value (R128). -/
def State.wordInForce (s : State) (tbl idx word : Nat) : BitVec 64 :=
  s.uncommitted.foldl (fun x u =>
    if u.tbl = tbl ∧ u.idx = idx ∧ u.word = word then (x &&& ~~~ u.mask) ||| (u.old &&& u.mask) else x)
    (s.wordAt tbl idx word)

/-- W1C and W1S bits of a word that stores not yet at their commit point hold (R3). -/
def State.onesAt (s : State) (tbl idx word : Nat) : BitVec 64 :=
  s.uncommitted.foldl (fun (x : BitVec 64) u => if u.tbl = tbl ∧ u.idx = idx ∧ u.word = word then x ||| u.ones else x) 0

/-- A W1C or W1S field of which a store not yet at its commit point holds a 1. -/
def State.onesIn (s : State) (f : Fld) (idx : Nat) : Bool := f.get (s.onesAt f.lay.tbl idx f.word) != 0

/-- The value in force of a field. -/
def State.inf (s : State) (f : Fld) (idx : Nat) : Nat := f.get (s.wordInForce f.lay.tbl idx f.word)

/-- The value in force of a one-bit field. -/
def State.infB (s : State) (f : Fld) (idx : Nat) : Bool := s.inf f idx == 1

/-- A field incremented, wrapping at its width. -/
def State.inc (s : State) (f : Fld) (idx : Nat) : State := s.wr f idx (s.rd f idx + 1)

/-- A field raised by `k`, saturating at its width's largest value. -/
def State.incSat (s : State) (f : Fld) (idx k : Nat) : State :=
  s.wr f idx (min (s.rd f idx + k) (2 ^ f.w - 1))

/-! ### Bits set in the current cycle (R132, R423) -/

/-- The table whose W1C bits the AON clock drives: the fault collector's (R416). -/
def aonClocked (tbl : Nat) : Bool := tbl == 0x0E

/-- A stamp of the current cycle of its bits' clock. -/
def State.isNow (s : State) (x : Stamp) : Bool :=
  if aonClocked x.tbl then x.aon == s.time.aon else x.fclk == s.time.fclk

/-- Bits of a word marked as set in this cycle. -/
def State.stamp (s : State) (tbl idx word : Nat) (mask : BitVec 64) : State :=
  { s with stamps := ⟨tbl, idx, word, mask, s.time.fclk, s.time.aon⟩ :: s.stamps.filter s.isNow }

/-- The bits of a word that have been set in this cycle. -/
def State.setNow (s : State) (tbl idx word : Nat) : BitVec 64 :=
  s.stamps.foldl (fun (m : BitVec 64) x => if x.tbl = tbl ∧ x.idx = idx ∧ x.word = word ∧ s.isNow x = true then m ||| x.mask else m) 0

/-- A W1C field set by hardware to `v`, whose one bits are marked as set in this cycle (R423). -/
def State.setW1c (s : State) (f : Fld) (idx v : Nat) : State :=
  (s.wr f idx v).stamp f.lay.tbl idx f.word (f.put 0 v &&& f.mask)

/-- Ones of `v` in a W1C field cleared by software: a bit that hardware has set in this cycle is left set (R423). -/
def State.clearW1c (s : State) (f : Fld) (idx v : Nat) : State :=
  s.wr f idx (f.get (s.wordAt f.lay.tbl idx f.word &&& ~~~ (f.put 0 v &&& f.mask &&& ~~~ s.setNow f.lay.tbl idx f.word)))

/-- The pseudo-tables of the doorbell blocks' TO_HOST and TO_DEV bits. -/
def bellTbl (toDev : Bool) : Nat := if toDev then 0x101 else 0x100

/-! ### The maps of the state -/

/-- Key of a thread. -/
def thKey (w t : Nat) : Nat := 4 * w + t
/-- A thread. -/
def State.thread (s : State) (w t : Nat) : Thread := tget (fun _ => Thread.init) s.soft.threads (thKey w t)
/-- A thread replaced. -/
def State.setThread (s : State) (w t : Nat) (x : Thread) : State :=
  { s with soft.threads := tset (fun _ => Thread.init) s.soft.threads (thKey w t) x }
/-- A wayfinder. -/
def State.wf (s : State) (w : Nat) : Wf := tget (fun _ => Wf.init) s.soft.wfs w
/-- A wayfinder replaced. -/
def State.setWf (s : State) (w : Nat) (x : Wf) : State :=
  { s with soft.wfs := tset (fun _ => Wf.init) s.soft.wfs w x }
/-- g[r] of a thread; g0 reads as zero (R112). -/
def State.g (s : State) (w t r : Nat) : BitVec 64 :=
  if r = 0 then 0 else tget (fun _ => 0) s.regs (thKey w t * 32 + r)
/-- g[r] written; a write to g0 is discarded (R112). -/
def State.setG (s : State) (w t r : Nat) (v : BitVec 64) : State :=
  if r = 0 then s else { s with regs := tset (fun _ => 0) s.regs (thKey w t * 32 + r) v }
/-- A program by number (R154). -/
def State.program (s : State) (n : Nat) : Option Program := tget (fun _ => none) s.soft.programs n
/-- A program slot replaced. -/
def State.setProgram (s : State) (n : Nat) (p : Option Program) : State :=
  { s with soft.programs := tset (fun _ => none) s.soft.programs n p }
/-- Scratch byte address of a wayfinder. -/
def scrAddr (w a : Nat) : Nat := w * 2 ^ 18 + a
/-- Instruction store byte address of a wayfinder. -/
def isAddr (w a : Nat) : Nat := w * 2 ^ 16 + a % 2 ^ 16
/-- Bytes of a wayfinder's scratch. -/
def State.scr (s : State) (w a n : Nat) : List (BitVec 8) := s.soft.scratch.readN (scrAddr w a) n
/-- Bytes written to a wayfinder's scratch. -/
def State.setScr (s : State) (w a : Nat) (bs : List (BitVec 8)) : State :=
  { s with soft.scratch := s.soft.scratch.writeN (scrAddr w a) bs }
/-- Key of a ring. -/
def ringKey (ld r : Nat) : Nat := ld * 128 + r
/-- A ring pair. -/
def State.ring (s : State) (ld r : Nat) : Ring := tget (fun _ => Ring.init) s.soft.rings (ringKey ld r)
/-- A ring pair replaced. -/
def State.setRing (s : State) (ld r : Nat) (x : Ring) : State :=
  { s with soft.rings := tset (fun _ => Ring.init) s.soft.rings (ringKey ld r) x }
/-- Key of a mailbox: function, direction (true: host to device), number. -/
def mailKey (f : Nat) (toDev : Bool) (m : Nat) : Nat := f * 32 + (if toDev then 0 else 16) + m
/-- A mailbox. -/
def State.mailbox (s : State) (f : Nat) (toDev : Bool) (m : Nat) : Mailbox :=
  tget (fun _ => Mailbox.init) s.soft.mail (mailKey f toDev m)
/-- A mailbox replaced. -/
def State.setMailbox (s : State) (f : Nat) (toDev : Bool) (m : Nat) (x : Mailbox) : State :=
  { s with soft.mail := tset (fun _ => Mailbox.init) s.soft.mail (mailKey f toDev m) x }
/-- A doorbell block. -/
def State.bell (s : State) (f : Nat) : Doorbell := tget (fun _ => Doorbell.init) s.soft.bells f
/-- A doorbell block replaced. -/
def State.setBell (s : State) (f : Nat) (x : Doorbell) : State :=
  { s with soft.bells := tset (fun _ => Doorbell.init) s.soft.bells f x }
/-- A link. -/
def State.link (s : State) (l : Nat) : Link := tget (fun _ => Link.init) s.links l
/-- A link replaced. -/
def State.setLink (s : State) (l : Nat) (x : Link) : State :=
  { s with links := tset (fun _ => Link.init) s.links l x }
/-- An HDM decoder of an LD. -/
def State.decoder (s : State) (ld n : Nat) : Decoder := tget (fun _ => Decoder.init) s.decoders (ld * 4 + n)
/-- An HDM decoder replaced. -/
def State.setDecoder (s : State) (ld n : Nat) (x : Decoder) : State :=
  { s with decoders := tset (fun _ => Decoder.init) s.decoders (ld * 4 + n) x }
/-- A page's map entry. -/
def State.page (s : State) (p : Nat) : Page := tget (fun _ => Page.init) s.plc.pages p
/-- A page's map entry replaced. -/
def State.setPage (s : State) (p : Nat) (x : Page) : State :=
  { s with plc.pages := tset (fun _ => Page.init) s.plc.pages p x }
/-- A region's entry. -/
def State.region (s : State) (r : Nat) : Region := tget (fun _ => Region.init) s.plc.regions r
/-- A region's entry replaced. -/
def State.setRegion (s : State) (r : Nat) (x : Region) : State :=
  { s with plc.regions := tset (fun _ => Region.init) s.plc.regions r x }
/-- Key of a frame of a unit. -/
def frKey (u f : Nat) : Nat := u * 2 ^ 28 + f
/-- A frame. -/
def State.frame (s : State) (k : Nat) : Frame := tget (fun _ => Frame.init) s.plc.frames k
/-- A frame replaced. -/
def State.setFrame (s : State) (k : Nat) (x : Frame) : State :=
  { s with plc.frames := tset (fun _ => Frame.init) s.plc.frames k x }
/-- A memory unit's standing with the allocator. -/
def State.pool (s : State) (u : Nat) : Pool := tget (fun _ => Pool.init) s.plc.pools u
/-- A unit's standing replaced. -/
def State.setPool (s : State) (u : Nat) (x : Pool) : State :=
  { s with plc.pools := tset (fun _ => Pool.init) s.plc.pools u x }
/-- A stream context. -/
def State.ctx (s : State) (c : Nat) : Ctx := tget (fun _ => Ctx.init) s.stow.ctxs c
/-- A stream context replaced. -/
def State.setCtx (s : State) (c : Nat) (x : Ctx) : State :=
  { s with stow.ctxs := tset (fun _ => Ctx.init) s.stow.ctxs c x }
/-- A controller. -/
def State.chan (s : State) (u : Nat) : Chan := tget (fun _ => Chan.init) s.dram.chans u
/-- A controller replaced. -/
def State.setChan (s : State) (u : Nat) (x : Chan) : State :=
  { s with dram.chans := tset (fun _ => Chan.init) s.dram.chans u x }
/-- A tollgate. -/
def State.toll (s : State) (t : Nat) : Toll := tget (fun _ => Toll.init) s.traffic.tolls t
/-- A tollgate replaced. -/
def State.setToll (s : State) (t : Nat) (x : Toll) : State :=
  { s with traffic.tolls := tset (fun _ => Toll.init) s.traffic.tolls t x }
/-- A roundabout. -/
def State.rb (s : State) (r : Nat) : Rb := tget (fun _ => Rb.init) s.traffic.rbs r
/-- A roundabout replaced. -/
def State.setRb (s : State) (r : Nat) (x : Rb) : State :=
  { s with traffic.rbs := tset (fun _ => Rb.init) s.traffic.rbs r x }
/-- A power domain's private side. -/
def State.dom (s : State) (d : Nat) : Dom := tget (fun _ => Dom.init) s.aon.doms d
/-- A power domain's private side replaced. -/
def State.setDom (s : State) (d : Nat) (x : Dom) : State :=
  { s with aon.doms := tset (fun _ => Dom.init) s.aon.doms d x }

/-! ### Messages, free values, unit IDs -/

/-- A message sent. -/
def State.send (s : State) (o : Out) : State := { s with out := o :: s.out }

/-- The next free value (log entry 2). -/
def State.fresh (s : State) : BitVec 64 := Config.freeValue s.freeUsed

/-- A free value taken. -/
def State.took (s : State) : State := { s with freeUsed := s.freeUsed + 1 }

/-- A unit ID (R7). -/
def uid (type idx : Nat) : Nat := type * 64 + idx
/-- Unit ID of a memory unit: MC or HB (R7). -/
def memUid (u : Nat) : Nat := if u < 24 then uid 3 u else uid 4 (u - 24)
/-- Unit ID of a memory unit's sealing unit (R7). -/
def sealUid (u : Nat) : Nat := uid 5 u
/-- Unit ID of the milestone tree (R7). -/
def treeUid : Nat := uid 5 63

/-- A unit ID of a listed type and index (R7, R8). -/
def unitListed (u : Nat) : Bool :=
  let i := u % 64
  match u / 64 with
  | 0x0 => decide (i < 32) | 0x1 => decide (i < 16) | 0x2 => decide (i < 16) | 0x3 => decide (i < 24)
  | 0x4 => decide (i < 4) | 0x5 => decide (i < 28) || i == 63 | 0x6 => true | 0x7 => true
  | 0x8 => decide (i < 16) | 0x9 => decide (i < 12) | 0xA => decide (i < 53)
  | 0xB => decide (i < 2) || (decide (16 ≤ i) && decide (i < 32))
  | 0xC => decide (i < 5) | 0xD => decide (i < 6) | _ => false

/-- The listed unit IDs in rising order: what a report of a unit that the spec leaves open may name (R8). -/
def listedUnits : List Nat := (List.range 1024).filter unitListed

/-- The codes of R424. -/
def faultCodes : List Nat := (List.range 0x35).map (· + 1)

/-- The device is powered up and no class 3 halt stands. -/
def State.live (s : State) : Bool :=
  (s.board.power == .poweringOn || s.board.power == .running) && !s.board.halted

/-! ### Mileposts (R467-R473, R478) -/

/-- What an occurrence carries (R470, R471): LD, class or slot-class bit, and DPA with head. -/
structure Occ where
  unit : Nat
  event : Nat
  ld : Option Nat
  qual : Option Nat
  addr : Option (Nat × Nat)
deriving DecidableEq, Repr

/-- The power domain a unit lies in (R436), for the unit types that have one. -/
def domOf (u : Nat) : Option Nat :=
  let i := u % 64
  match u / 64 with
  | 0 => some (i / 2) | 1 => some i | 2 => some (16 + i) | 3 => some (50 + i) | 4 => some (74 + i)
  | 5 => if i < 28 then some (50 + i) else none
  | 6 => some (32 + i % 32 / 16)
  | 8 => some (34 + i)
  | _ => none

/-- Is the unit's power domain ACTIVE (R469)? -/
def State.domActive (s : State) (u : Nat) : Bool :=
  match domOf u with
  | some d => s.rd POWER.STATE d == 0
  | none => true

/-- The programmable counters that are enabled. -/
def State.enabledCounters (s : State) : List Nat :=
  s.tab.filterMap (fun p =>
    if handle 0x0F 0 0 ≤ p.1 ∧ p.1 < handle 0x0F 512 0 ∧ p.1 % 256 = 0 ∧ bitOf p.2.toNat 46 then
      some (p.1 / 256 % 2 ^ 48) else none)

/-- Does a counter count this occurrence (R467, R469, R470)? -/
def State.counts (s : State) (n : Nat) (o : Occ) : Bool :=
  let u := s.rd MILEPOST.UNIT n
  (if s.rdB MILEPOST.ALL_INDEX n then u / 64 == o.unit / 64 else u == o.unit) &&
  s.rd MILEPOST.EVENT n == o.event &&
  (match o.ld with
   | some l => s.rd MILEPOST.FILTER_LD n == 0x1FF || s.rd MILEPOST.FILTER_LD n == l
   | none => true) &&
  (match o.qual with
   | some q => bitOf (s.rd MILEPOST.QUAL n) q
   | none => true)

/-- A sample record written, or lost when the buffer is full (R478, R479). -/
def State.sample (s : State) (n : Nat) (o : Occ) : State :=
  let w := s.rd MPALL.SAMPLE_WR 544
  if (w + 128 - s.rd MPALL.SAMPLE_RD 544) % 128 = 64 then s.incSat MPALL.SAMPLES_LOST 544 1
  else
    let r : Sample :=
      { counter := n, unit := o.unit, ld := o.ld.getD 0xFFFF, addrValid := o.addr.isSome, time := s.time.fclk,
        dpa := (o.addr.map Prod.fst).getD 0,
        info := (o.addr.map Prod.snd).getD 0 + 32 * o.qual.getD 0 }
    ({ s with mile.samples := tset (fun _ => Sample.init) s.mile.samples (w % 64) r }).wr
      MPALL.SAMPLE_WR 544 (w + 1)

/-- A wrap of a counter (R478, R473): OVF, the reload and sample of SAMPLE, and FREEZE. -/
def State.wrapped (s : State) (n : Nat) (o : Occ) : State :=
  let s := s.setW1c MILEPOST.OVF n 1
  let s := if n < 512 && s.rdB MILEPOST.SAMPLE n then
      (s.wr MILEPOST.VALUE n (s.rd MILEPOST.RELOAD n)).sample n o
    else s.wr MILEPOST.VALUE n 0
  if n < 512 && s.rdB MILEPOST.FRZ_OVF n then s.wr MPALL.FREEZE 544 1 else s

/-- One occurrence added to a counter. -/
def State.addOne (s : State) (n : Nat) (o : Occ) : State :=
  let v := s.rd MILEPOST.VALUE n
  if v + 1 < 2 ^ 48 then s.wr MILEPOST.VALUE n (v + 1) else s.wrapped n o

/-- One occurrence counted by a counter: in MODE 1 at most once in a cycle (R467). -/
def State.addOcc (s : State) (n : Nat) (o : Occ) : State :=
  if s.rdB MILEPOST.MODE n then
    if s.mile.cycle.contains n then s
    else ({ s with mile := { s.mile with cycle := n :: s.mile.cycle } }).addOne n o
  else s.addOne n o

/-- An occurrence of an event, counted by every counter that counts it. -/
def State.occur (s : State) (o : Occ) : State :=
  if !s.time.locked || s.board.halted || s.rdB MPALL.FREEZE 544 || !s.domActive o.unit then s
  else (s.enabledCounters.filter (fun n => s.counts n o)).foldl (fun s n => s.addOcc n o) s

/-- An occurrence that carries nothing. -/
def State.event (s : State) (unit event : Nat) : State := s.occur ⟨unit, event, none, none, none⟩

/-- One occurrence of a fixed counter's event (R472). -/
def State.fixed (s : State) (n : Nat) : State :=
  if !s.time.locked || s.board.halted then s
  else s.addOne n ⟨0, 0, none, none, none⟩

/-! ### Port groups and heads (R70, R171) -/

/-- PG_MODE of a port group in the boot record in use (R70). -/
def State.pgMode (s : State) (n : Nat) : Nat := bitsOf (leAt s.board.record 0x008 4) (2 * n) 2

/-- The head exists (R171). -/
def State.headExists (s : State) (h : Nat) : Bool :=
  s.pgMode (h / 2) == 2 || (s.pgMode (h / 2) == 1 && h % 2 == 0)

/-- A logical device exists: its head does, and its local index is below LD_COUNT (R171, R173). -/
def State.ldExists (s : State) (ld : Nat) : Bool :=
  s.headExists (ld / 16) && decide (ld % 16 < s.inf PORT.LD_COUNT (ld / 16))

/-! ### Records in handling, and training (R43, R54, R421) -/

/-- Record slots in the log, lowest first. -/
def State.records (s : State) : List Nat := (List.range 256).filter (fun i => s.rdB RECORD.VALID (i + 1))

/-- A class 2 record of a unit is in handling (R421). -/
def State.inHandling (s : State) (unit : Nat) : Bool :=
  (List.range 256).any (fun i =>
    s.rdB RECORD.VALID (i + 1) && s.rdB RECORD.HANDLING (i + 1) && s.rd RECORD.UNIT (i + 1) == unit &&
    s.rd RECORD.CLASS (i + 1) == 2)

/-- Handling ends for a unit's records of the given codes (R421, R427). -/
def State.endHandling (s : State) (unit : Nat) (codes : List Nat) : State :=
  s.records.foldl (fun s i =>
    if s.rd RECORD.UNIT (i + 1) == unit && codes.contains (s.rd RECORD.CODE (i + 1)) then
      s.wr RECORD.HANDLING (i + 1) 0 else s) s

/-- The reference clock of a head's port group is present: no REFCLK fault of it is pending or in handling (R54). -/
def State.clockOk (s : State) (h : Nat) : Bool :=
  let u := uid 0xB (16 + h / 2)
  !s.inHandling u && !s.aon.reports.any (fun r => r.unit == u)

/-- A link may train now (R43, R54, R55). -/
def State.mayTrain (s : State) (l : Nat) : Bool :=
  s.live && s.board.training && s.board.perst.getLsbD l && !(s.link l).up &&
  (l == 32 || (s.headExists l && s.clockOk l))

/-- A port group whose POLICY has no effect: disabled, or shelved for want of its clock (R441). -/
def State.pgDead (s : State) (d : Nat) : Bool := decide (d < 16) && (s.pgMode d == 0 || !s.clockOk (2 * d))

/-- A head's or the endpoint's link begins to train, where it may. -/
def State.startTrain (s : State) (l : Nat) : State := if s.mayTrain l then s.send (.training l) else s

/-! ### Waking a power domain (R437, R439) -/

/-- A wake event reaches a domain: an exit begins, or is latched while the domain is ENTERING. No event wakes a port group
that is disabled, or shelved for want of its clock (R54, R441). -/
def State.wakeDom (s : State) (d : Nat) : State :=
  let st := s.rd POWER.STATE d
  if s.pgDead d then s
  else if st = 4 then s.setDom d { s.dom d with latched := true }
  else if 1 ≤ st ∧ st ≤ 3 then ((s.wr POWER.STATE d 5).inc POWER.WAKES d).fixed 535
  else s

/-- Work reaches the domain of a unit (R436). -/
def State.wakeUnit (s : State) (u : Nat) : State :=
  match domOf u with
  | some d => s.wakeDom d
  | none => s

/-- A port group shelved at power-on (R54, R72, R441). -/
def State.shelve (s : State) (n : Nat) : State :=
  (s.wr POWER.STATE n 2).setDom n { s.dom n with level := 2, latched := false }

/-! ### Snapshots (R474, R475) -/

/-- The generation after another (R475). -/
def nextGen (g : BitVec 32) : BitVec 32 := if g = 0xFFFFFFFF then 1 else g + 1

/-- The current bank of a group. -/
def State.bank (s : State) (g : Nat) : Bank := tget (fun _ => Bank.init) s.mile.banks g

/-- A snapshot of a group that is to take this generation has not completed. -/
def State.snapOut (s : State) (g : Nat) (gen : BitVec 32) : Bool :=
  let cur := (s.bank g).gen
  (s.mile.inProgress.any (fun p => p.1 == g) && gen == nextGen cur) || (s.mile.again.contains g && gen == nextGen (nextGen cur))

/-! ### Events to threads (R129) -/

/-- An event bit set on a thread, which wakes its wayfinder (R161, R436). -/
def State.raise (s : State) (w t bit : Nat) : State :=
  let x := s.thread w t
  (s.setThread w t { x with pend := x.pend ||| BitVec.ofNat 32 (2 ^ bit) }).wakeUnit (uid 8 w)

/-- An event bit set on every thread that runs an owner program. -/
def State.raiseOwners (s : State) (bit : Nat) : State :=
  (List.range 64).foldl (fun s k =>
    let x := s.thread (k / 4) (k % 4)
    if x.st ≠ .idle ∧ x.kind = .owner then s.raise (k / 4) (k % 4) bit else s) s

/-- The running wayfinder with the lowest number (R165). -/
def State.lowestRunning (s : State) : Option Nat :=
  (List.range 16).find? (fun w => (s.wf w).released && !(s.wf w).stopped)

/-- The wayfinder that serves in place of `w`: itself, or the lowest running one once it is stopped (R165). -/
def State.serving (s : State) (w : Nat) : Nat :=
  if (s.wf w).stopped then s.lowestRunning.getD w else w

/-- An event for the handler thread of a function (R129): an LD's handler, or the base program of WF00. On the substitute of a
stopped wayfinder thread 0 takes it (DESIGN CHOICE, log entry 63).-/
def State.raiseHandler (s : State) (f bit : Nat) : State :=
  if f = 256 then s.raise (s.serving 0) 0 bit
  else
    let w := s.rd ACCESS.HANDLER_WF f
    let w' := s.serving w
    s.raise w' (if w' = w then s.rd ACCESS.HANDLER_THREAD f else 0) bit

/-! ### Fault reports and the halt (R416, R425) -/

/-- A fault occurs at a unit: its code's pending report counts it (R416). -/
def State.report (s : State) (unit code cls : Nat) (detail : Nat) (alarm : Bool := false) : State :=
  if s.aon.reports.any (fun r => r.unit == unit && r.code == code) then
    { s with aon.reports := s.aon.reports.map (fun r =>
        if r.unit = unit ∧ r.code = code then { r with count := r.count + 1 } else r) }
  else
    { s with aon.reports := s.aon.reports ++
        [{ unit := unit, code := code, cls := cls, alarm := alarm, count := 1,
           detail := BitVec.ofNat 64 detail, at_ := s.time.aon }] }

/-- A candidate's function resets or goes down: its lapse timer starts when it is the owner (R83, R84). -/
def State.ownerDown (s : State) (c : Nat) : State :=
  if s.own.owner = some c ∧ (s.own.st = .owned ∨ s.own.st = .handover) then
    { s with own := { s.own with st := .lapsing, successor := none } }
  else s

/-- The head a request comes from. -/
def MemReq.head (r : MemReq) : Option Nat := match r.src with | .host h _ _ _ => some h | _ => none

/-- A link is out of DL_Active: decoders uncommitted, isolation ended, a width change abandoned, requests that no
slice has accepted discarded, the owner's function down (R83, R196, R197). -/
def State.linkLost (s : State) (l : Nat) : State :=
  let k := s.link l
  if !k.up then s
  else
    let s := s.setLink l { k with up := false, rate := 0, width := 0, trained := 0, flit256 := false, cxl := false,
                                  l1 := false, l0p := .stable, byHost := false, lowSince := none, express := false,
                                  toFull := false, load := 0 }
    if l = 32 then s.ownerDown 0
    else
      let s := (((s.wr PORT.LINK_RATE l 0).wr PORT.LINK_WIDTH l 0).wr PORT.FLIT256 l 0).wr PORT.CXL l 0
      let s := (List.range 64).foldl (fun s i => s.setDecoder (16 * l + i / 4) (i % 4) Decoder.init) s
      let s := (List.range 16).foldl (fun s i => s.wr TAG.DECODERS (16 * l + i) 0) s
      let s := if s.rdB PORT.ISOLATED l then (s.wr PORT.ISOLATED l 0).endHandling (uid 0 l) [0x19] else s
      let s := s.setToll l { s.toll l with queue := [] }
      let s := (List.range 16).foldl (fun s r =>
        s.setRb r { s.rb r with queue := (s.rb r).queue.filter (fun x => x.2.head ≠ some l) }) s
      s.ownerDown (l + 2)

/-- Requests queued at the controllers discarded (R375). -/
def State.dropQueues (s : State) : State :=
  { s with dram.chans := s.dram.chans.map (fun p => (p.1, { p.2 with rq := [], wq := [], inflight := none })) }

/-- The device halt of R425: HEARTBEAT stops, HALTED sets, every link leaves DL_Active with what that
brings (R197), DRAM enters self-refresh. -/
def State.halt (s : State) : State :=
  let s := { s with board.halted := true, board.heartOn := false }
  ((List.range 33).foldl (fun s l => s.linkLost l) (s.wr FAULT.HALTED 0 1)).dropQueues

/-- A class 3 fault: reported, and the halt started at once (R425). -/
def State.fatal (s : State) (unit code detail : Nat) : State :=
  if s.board.halted then s.report unit code 3 detail else (s.report unit code 3 detail).halt

/-- The phase in force: in the FCLK cycle in which a PHASE store commits, the phase before it (R77). -/
def State.phase (s : State) : Nat :=
  match s.board.phaseWas with
  | some (p, c) => if s.time.locked ∧ c = s.time.fclk then p else s.rd PHASE.CURRENT 0
  | none => s.rd PHASE.CURRENT 0

/-- An integrity failure (R21, R345): a class 3 halt in SERVICE, else a class 1 security alarm. DETAIL holds
the DPA, the key slot and the kind (0 span, 1 slot, 2 leaf, 3 node). -/
def State.integrity (s : State) (unit dpa key kind : Nat) : State :=
  let detail := dpa % 2 ^ 46 + key * 2 ^ 46 + kind * 2 ^ 58
  let s := ((s.incSat PHASE.ALARM_COUNT 0 1).incSat KEYSLOT.ALARMS key 1).fixed 530
  if s.phase = 1 then s.fatal unit 0x10 detail else s.report unit 0x10 1 detail true

/-! ### Doorbells and mailboxes (R97-R101) -/

/-- The link of a function: its head's, or the management endpoint's (32). -/
def linkOf (f : Nat) : Nat := if f = 256 then 32 else f / 16

/-- DEV_MASK of a function (R100): the copy of ACCESS.DB_WF_MASK. The endpoint has no ACCESS entry: its mask stays at its reset
value 0xFFFF, so its TO_DEV bits raise no event (DESIGN CHOICE, log entry 67). -/
def State.devMask (s : State) (f : Nat) : BitVec 16 :=
  if f = 256 then s.soft.epMask else BitVec.ofNat 16 (s.rd ACCESS.DB_WF_MASK f)

/-- TO_HOST bits set: an unmasked bit that becomes set raises MSI-X vector 0 (R101). -/
def State.setToHost (s : State) (f : Nat) (bits : BitVec 16) : State :=
  let b := s.bell f
  let new := bits &&& ~~~ b.toHost &&& ~~~ b.hostMask
  let s := (s.setBell f { b with toHost := b.toHost ||| bits }).stamp (bellTbl false) f 0 (bits.zeroExtend 64)
  if new = 0 then s else s.send (.msix f 0)

/-- TO_DEV bits set: an unmasked bit that becomes set is a DOORBELL event (R101, R129). -/
def State.setToDev (s : State) (f : Nat) (bits : BitVec 16) : State :=
  let b := s.bell f
  let new := bits &&& ~~~ b.toDev &&& ~~~ s.devMask f
  let s := (s.setBell f { b with toDev := b.toDev ||| bits }).stamp (bellTbl true) f 0 (bits.zeroExtend 64)
  if new = 0 then s else s.raiseHandler f 1

/-- A debug read completes with no page and no data, with a RESULT (R107). -/
def State.dbgDone (s : State) (result : BitVec 4) : State :=
  { s with svc := { s.svc with dbgBusy := false, dbgReady := false, dbgResult := result, dbgKey := 0, dbgPage := 0,
                               dbgData := 0 } }

end Sys2Proof.Machine
end

