-- ==== Sys2Proof/Machine/Invoke.lean ====
section
/-! DEFINITION. Invocations: how a thread starts, ends and takes an exception (R113, R144, R155-R164),
and how a wayfinder restarts or stops. -/
namespace Sys2Proof.Machine

/-- The bytes of a little-endian header field of an image (R148). -/
def imgField (img : List (BitVec 8)) (off n : Nat) : Nat := leAt img off n

/-- A program's code bytes: after the 64-byte header (R148). -/
def Program.code (p : Program) : List (BitVec 8) := (p.image.drop 64).take p.len

/-- A wayfinder runs: released, not stopped, not restarting. -/
def State.wfRuns (s : State) (w : Nat) : Bool :=
  (s.wf w).released && !(s.wf w).stopped && !(s.wf w).restarting

/-- The MOVEs of a thread that have not completed (R137). -/
def State.movesOut (s : State) (w t : Nat) : Nat :=
  (s.soft.jobs.filter (fun j => match j.origin with
    | .move w' t' _ => w' == w && t' == t
    | _ => false)).length

/-- The outstanding MOVEs of a thread run on, and no MOVE_DONE is delivered (R160, R164). -/
def State.orphanMoves (s : State) (w t : Nat) : State :=
  { s with soft.jobs := s.soft.jobs.map (fun j => match j.origin with
      | .move w' t' _ => if w' = w ∧ t' = t then { j with origin := .orphan, notify := false } else j
      | _ => j) }

/-- An abandoned STOW, UNSTOW or BINV of a thread runs on, and its status is not delivered (R160, R164). -/
def State.detachOps (s : State) (w t : Nat) : State :=
  let why := fun (y : Why) => if y = .binv w t then .internal else y
  let jobs := s.soft.jobs.map (fun j => match j.origin with
      | .instr w' t' _ => if w' = w ∧ t' = t then { j with origin := .orphan } else j
      | _ => j)
  { s with
    soft := { s.soft with jobs := jobs }
    coh := { s.coh with
      invals := s.coh.invals.map (fun x => (x.1, why x.2.1, x.2.2))
      snoops := s.coh.snoops.map (fun n => { n with why := why n.why }) } }

/-- A ring command in flight given its status and result, so that its completion can be written (R94). -/
def State.finishCmd (s : State) (ld ring idx : Nat) (status : BitVec 8) (result : BitVec 64) : State :=
  { s with soft.cmds := s.soft.cmds.map (fun c =>
      if c.ld = ld ∧ c.ring = ring ∧ c.idx = idx then { c with st := .done status result } else c) }

/-- An invocation ends (R144, R155, R157): the thread goes idle, its end is recorded for QUERY, and a RUN
command is completed with the given status and result. -/
def State.endInvocation (s : State) (w t : Nat) (kind : BitVec 2) (status : BitVec 16)
    (runStatus : BitVec 8) (result : BitVec 64) : State :=
  let s := s.detachOps w t
  let x := s.thread w t
  let s := s.setThread w t
    { x with st := .idle, dbg := false, single := false, wait := .none, staged := [], badTarget := none, run := none,
             stall := none, lastProg := x.prog, endStatus := status, endKind := kind }
  match x.run with
  | some (ld, ring, idx) => (s.finishCmd ld ring idx runStatus result).fixed 538
  | none => s

/-- The registers of a new invocation (R113): g1 and g2 the argument block, g3 the LD, the rest zero. -/
def State.initRegs (s : State) (w t : Nat) (g1 g2 g3 : BitVec 64) : State :=
  let s := { s with regs := s.regs.filter (fun p => p.1 / 32 ≠ thKey w t) }
  ((s.setG w t 1 g1).setG w t 2 g2).setG w t 3 g3

/-- A program starts on a thread (R113, R157): window, registers, PC at LINK_BASE + ENTRY. -/
def State.startThread (s : State) (w t n : Nat) (p : Program) (winBase winSize : Nat)
    (g1 g2 g3 : BitVec 64) (run : Option (Nat × Nat × Nat)) : State :=
  let x := s.thread w t
  let budget := match p.kind with
    | .tenant _ => if p.steps = 0 then 65536 else p.steps
    | _ => p.steps
  let s := s.setThread w t
    { x with st := .running, dbg := false, single := false, kind := p.kind, prog := n, pc := BitVec.ofNat 16 (p.base + p.entry),
             badTarget := none, winBase := winBase, winSize := winSize, steps := 0, budget := budget,
             staged := [], wait := .none, run := run, stall := none }
  s.initRegs w t g1 g2 g3

/-- The base program starts on thread 0 of a wayfinder (R156). Its registers: log entry 3. -/
def State.startBase (s : State) (w : Nat) : State :=
  match s.program 0 with
  | some p => s.startThread w 0 0 p 0 (2 ^ 18) 0 0 0 none
  | none => s

/-- A wayfinder's instruction store rewritten from the programs it holds (R164). -/
def State.rewriteStore (s : State) (w : Nat) : State :=
  let s := { s with soft.istore := s.soft.istore.filter (fun c => c.1 / 2 ^ 16 ≠ w) }
  s.soft.programs.foldl (fun s np => match np.2 with
    | some p => if p.mask.getLsbD w then
        { s with soft.istore := s.soft.istore.writeN (isAddr w p.base) p.code } else s
    | none => s) s

/-- RUN commands that no running wayfinder can serve any more complete with ABORTED (R165). -/
def State.abortUnservable (s : State) : State :=
  let gone := s.soft.runQ.filter (fun c =>
    match s.program (leAt c.desc 0x20 8) with
    | some p => !(List.range 16).any (fun w => p.mask.getLsbD w && (s.wf w).released && !(s.wf w).stopped)
    | none => true)
  gone.foldl (fun s c =>
    ({ s with soft.runQ := s.soft.runQ.filter (fun d => d ≠ c) }).finishCmd c.ld c.ring c.idx 0x0C 0) s

/-- Threads 1-3 of a wayfinder end for a restart (R164): RUN completes with ABORTED, end status 0xFE. -/
def State.endThreads (s : State) (w : Nat) : State :=
  [1, 2, 3].foldl (fun s t =>
    let s := s.orphanMoves w t
    if (s.thread w t).st = .idle then s else s.endInvocation w t 0b11 0xFE 0x0C 0) s

/-- A wayfinder restarts (R164, R165): its fourth restart within 10 s stops it. -/
def State.restartWf (s : State) (w : Nat) : State :=
  let s := ((s.endThreads w).orphanMoves w 0).detachOps w 0
  let x := s.thread w 0
  let s := s.setThread w 0
    { x with st := .idle, dbg := false, single := false, staged := [], wait := .none, badTarget := none, stall := none }
  let recent := (s.wf w).restarts.filter (fun at_ => s.time.fclk < at_ + 10000000000)
  let s := s.setWf w { s.wf w with restarts := s.time.fclk :: recent, restarting := true }
  let s := { s with soft.scratch := s.soft.scratch.filter (fun c => c.1 / 2 ^ 18 ≠ w) }
  if 3 ≤ recent.length then
    let s := s.setWf w { s.wf w with stopped := true, restarting := false }
    let s := (s.report (uid 8 w) 0x20 2 (recent.length + 1)).abortUnservable
    if s.lowestRunning.isNone then s.fatal (uid 8 0) 0x21 0 else s
  else s.rewriteStore w

/-- An uncorrectable error in a wayfinder's instruction store or scratch, at a byte address: a class 2 fault, on which the
wayfinder restarts (R164, R424). -/
def State.wfUe (s : State) (w addr : Nat) : State := (s.report (uid 8 w) 0x1E 2 addr).restartWf w

/-- The result word of an exception for a RUN completion (R144). -/
def excResult (code trap addr : Nat) : BitVec 64 :=
  BitVec.ofNat 64 (code + trap * 2 ^ 8 + addr % 2 ^ 16 * 2 ^ 32)

/-- An invocation is over and ends as soon as its MOVEs complete (R144 step 3), at once when none is out. While it waits the thread
shows as suspended (DESIGN CHOICE, log entry 74). -/
def State.endWhenMoved (s : State) (w t : Nat) (kind : BitVec 2) (status : BitVec 16)
    (runStatus : BitVec 8) (result : BitVec 64) : State :=
  let s := s.detachOps w t
  let x := s.thread w t
  if s.movesOut w t = 0 then s.endInvocation w t kind status runStatus result
  else s.setThread w t { x with st := .suspended, staged := [], badTarget := none,
                                wait := .ending kind status result, suspAt := s.time.fclk }

/-- The base program fails at power-on step 10 (R73): phase RECOVERY, which waits for an image. A device already in RECOVERY
enters no phase, and keeps its ENTRY_CAUSE (R76, R78). -/
def State.baseFails (s : State) (code : Nat) : State :=
  let s := s.report (uid 8 0) 0x1F 2 code
  let s := if s.rd PHASE.CURRENT 0 = 3 then s else (s.wr PHASE.CURRENT 0 3).wr PHASE.ENTRY_CAUSE 0 2
  let s := if s.rd PHASE.FAILED_STEP 0 = 0 then s.wr PHASE.FAILED_STEP 0 10 else s
  { s with board := { s.board with hold := .recovery10 } }

/-- TAKING AN EXCEPTION (R144, R163, R164): the instruction has no effect, staged words go, the invocation
ends once its MOVEs complete (at once after STEP_BUDGET in a tenant), and the owner's is reported; on
thread 0 the wayfinder restarts. `addr` is the faulting instruction's byte address. -/
def State.takeException (s : State) (w t code trap addr : Nat) : State :=
  let s := s.event (uid 8 w) 4
  let x := s.thread w t
  let detail := x.prog % 256 + t * 2 ^ 8 + code * 2 ^ 10 + trap * 2 ^ 18 + addr % 2 ^ 16 * 2 ^ 34
  if t = 0 then
    let s := if s.board.step < 10 then s.baseFails code else s
    s.restartWf w
  else match x.kind with
  | .tenant _ =>
    if code = 5 then
      (s.orphanMoves w t).endInvocation w t 0b01 (BitVec.ofNat 16 code) 0x0D (excResult code trap addr)
    else s.endWhenMoved w t 0b01 (BitVec.ofNat 16 code) 0x0D (excResult code trap addr)
  | _ =>
    (s.report (uid 8 w) 0x1D 1 detail).endWhenMoved w t 0b01 (BitVec.ofNat 16 code) 0x0D
      (excResult code trap addr)

/-- An invocation that waited for its MOVEs ends when none is out (R144, R157). -/
def State.tryEnd (s : State) (w t : Nat) : State :=
  match (s.thread w t).wait with
  | .ending kind status result =>
    if s.movesOut w t = 0 then
      s.endInvocation w t kind status (if kind = 0b00 then 0x00 else if kind = 0b10 then 0x0C else 0x0D) result
    else s
  | _ => s

end Sys2Proof.Machine
end

