-- ==== Sys2Proof/Machine/Operands.lean ====
section
/-! DEFINITION. Operand forms: Ramer's immediates, scratch addresses, table handles and port selectors
(R114, R116-R118, R125, R130), the shared frame of every Ramer instruction (R115, R123, R142), and the
fields of ring descriptors and of mover descriptors (R91, R136). -/
namespace Sys2Proof.Machine

/-- A sign-extended immediate (R118). -/
def simm (i : BitVec 16) : BitVec 64 := i.signExtend 64
/-- A zero-extended immediate (R118). -/
def zimm (i : BitVec 16) : BitVec 64 := i.zeroExtend 64
/-- LHI's immediate: placed in [31:16], sign-extended from bit 31 (R118). -/
def himm (i : BitVec 16) : BitVec 64 := ((i.zeroExtend 32) <<< 16).signExtend 64
/-- A shift amount: bits [5:0] (R121). -/
def shAmt (v : BitVec 64) : Nat := v.toNat % 64

/-- What the body of an instruction does. -/
inductive Eff where
  /-- Its effect is taken, and the PC moves to the next instruction. -/
  | next (s : State)
  /-- Its effect is taken, and the PC goes to the target (R122). -/
  | jump (s : State) (target : BitVec 64)
  /-- It raises an exception: code and TRAP code (R142). -/
  | raise (code trap : Nat)
  /-- It suspends the thread after its effect (R157); the PC is past it. -/
  | suspend (s : State) (wait : Wait)
  /-- It ends the thread's invocation or does otherwise what the state says; the PC does not matter. -/
  | stop (s : State)
  /-- It stalls: it is tried again, and until then only what `f` starts happens. -/
  | retry (f : State → State)

/-- The program whose image a thread's invocation runs. -/
def State.imageOf (s : State) (x : Thread) : Option Program := s.program x.prog

/-- Does this byte address lie in the invocation's program image, within the instruction store (R112, R123)? -/
def inImage (p : Program) (a : Nat) : Bool := p.base ≤ a && a < p.base + p.len && decide (a < 65536)

/-- PC moved to a target: the next fetch refuses a target that is misaligned or outside the image (R123). -/
def Thread.jumpTo (x : Thread) (p : Option Program) (target : BitVec 64) : Thread :=
  if target.toNat % 4 = 0 && (match p with | some p => inImage p target.toNat | none => false) then
    { x with pc := BitVec.ofNat 16 target.toNat, badTarget := none }
  else { x with badTarget := some target }

/-- The thread can issue: live device, running wayfinder in an ACTIVE domain, thread running (R120, R157). -/
def State.canIssue (s : State) (w t : Nat) : Bool :=
  s.live && s.wfRuns w && s.domActive (uid 8 w) && (s.thread w t).st == .running && (!(s.thread w t).dbg || (s.thread w t).single)

/-- The address a fetch happens at, and whether it is legal (R123). -/
def State.fetchAt (s : State) (w t : Nat) : BitVec 64 × Bool :=
  let x := s.thread w t
  match x.badTarget with
  | some a => (a, false)
  | none => (x.pc.zeroExtend 64, (match s.imageOf x with | some p => inImage p x.pc.toNat | none => false))

/-- Is this thread's invocation a tenant's? -/
def State.tenant (s : State) (w t : Nat) : Option Nat :=
  match (s.thread w t).kind with
  | .tenant ld => some ld
  | _ => none

/-- One instruction of a thread, whatever its dispatch state: budget, fetch, body, and PC (R115, R123, R142). -/
def runBody (w t : Nat) (body : State → Eff) (s : State) : State :=
  let x := s.thread w t
  let at_ := s.fetchAt w t
  if x.budget ≠ 0 ∧ x.budget ≤ x.steps then s.takeException w t 5 0 at_.1.toNat
  else if at_.2 = false then s.takeException w t 1 0 at_.1.toNat
  else
    let issued := ((s.setThread w t { x with steps := x.steps + 1 }).event (uid 8 w) 1).fixed 539
    let advance := fun (s' : State) =>
      let y := s'.thread w t
      s'.setThread w t (y.jumpTo (s'.imageOf y) (at_.1 + 4))
    match body issued with
    | .next s' => advance s'
    | .jump s' target =>
      let y := s'.thread w t
      s'.setThread w t (y.jumpTo (s'.imageOf y) target)
    | .raise code trap => s.takeException w t code trap at_.1.toNat
    | .suspend s' wt =>
      let s' := advance s'
      s'.setThread w t { s'.thread w t with st := .suspended, wait := wt, suspAt := s'.time.fclk }
    | .stop s' => s'
    | .retry f => f s

/-- The word at a thread's PC in its wayfinder's instruction store (R111, R116). -/
def State.fetchedWord (s : State) (w t : Nat) : Nat := leNat (s.soft.istore.readN (isAddr w (s.thread w t).pc.toNat) 4)

/-- A Ramer instruction as a command: it issues when its thread can and the word its thread fetches is one of its own;
where the fetch itself is refused, whichever command stands for it meets that (R123, log entry 8). -/
def issue (w t : Nat) (ok : Nat → Bool) (body : State → Eff) (s : State) : State :=
  if s.canIssue w t && (!(s.fetchAt w t).2 || ok (s.fetchedWord w t)) then
    let r := runBody w t body s
    if (s.thread w t).single then r.setThread w t { r.thread w t with single := false } else r
  else s

/-- An instruction's meaning: its body, issued for the word that encodes it (R116). -/
def ramer (w t : Nat) (i : Instr) (body : State → Eff) : State → State := issue w t (fits i) body

/-- A scratch range of `n` bytes at a window address, aligned to `al` (R114): its scratch address, or none. -/
def State.scratchAt (s : State) (w t : Nat) (a : BitVec 64) (n al : Nat) : Option Nat :=
  let x := s.thread w t
  if a.toNat % al = 0 ∧ a.toNat + n ≤ x.winSize then some (x.winBase + a.toNat) else none

/-! ### Table handles (R125) -/

/-- TABLE of a handle. -/
def hTbl (h : BitVec 64) : Nat := h.toNat / 2 ^ 56
/-- INDEX of a handle. -/
def hIdx (h : BitVec 64) : Nat := h.toNat / 2 ^ 8 % 2 ^ 48
/-- WORD of a handle. -/
def hWord (h : BitVec 64) : Nat := h.toNat % 2 ^ 8

/-- Does the handle lie in the catalogue (R125, R277)? -/
def handleOk (h : BitVec 64) : Bool := indexOk (hTbl h) (hIdx h) && decide (hWord h < wordsOf (hTbl h) (hIdx h))

/-! ### Port selectors (R130) -/

/-- FUNCTION of a selector. -/
def pFunc (v : BitVec 64) : Nat := v.toNat % 512
/-- INDEX of a selector. -/
def pIndex (v : BitVec 64) : Nat := v.toNat / 2 ^ 16 % 16
/-- KIND of a selector. -/
def pKind (v : BitVec 64) : Nat := v.toNat / 2 ^ 30 % 4

/-- Does the selector name an existing object, of a kind in `kinds`, with its zero fields zero (R130)? -/
def selectorOk (v : BitVec 64) (kinds : List Nat) : Bool :=
  bitsOf v.toNat 9 7 == 0 && bitsOf v.toNat 20 10 == 0 && kinds.contains (pKind v) &&
  (if pKind v = 0 then decide (pFunc v < 64) && pIndex v == 0
   else if pKind v = 2 then decide (pFunc v ≤ 256) && pIndex v == 0
   else if pFunc v = 256 then true else decide (pFunc v < 256) && decide (pIndex v < 4))

/-! ### Descriptors (R91, R136) -/

/-- OPCODE of a ring descriptor. -/
def RingCmd.opcode (c : RingCmd) : Nat := leAt c.desc 0 1
/-- FLAGS of a ring descriptor. -/
def RingCmd.flags (c : RingCmd) : Nat := leAt c.desc 1 1
/-- CMD_ID of a ring descriptor. -/
def RingCmd.cmdId (c : RingCmd) : Nat := leAt c.desc 2 2
/-- ADDR_A of a ring descriptor. -/
def RingCmd.addrA (c : RingCmd) : Nat := leAt c.desc 0x08 8
/-- ADDR_B of a ring descriptor. -/
def RingCmd.addrB (c : RingCmd) : Nat := leAt c.desc 0x10 8
/-- LENGTH of a ring descriptor. -/
def RingCmd.len (c : RingCmd) : Nat := leAt c.desc 0x18 8
/-- ARG0 of a ring descriptor. -/
def RingCmd.arg0 (c : RingCmd) : Nat := leAt c.desc 0x20 8
/-- ARG1 of a ring descriptor. -/
def RingCmd.arg1 (c : RingCmd) : Nat := leAt c.desc 0x28 8

end Sys2Proof.Machine
end

