-- ==== Sys2Proof/Machine/Flags.lean ====
section
/-! DEFINITION. Conditions and flags: Ramer's comparisons (R121, R122) and the device's derived flags
(DevLoad R192, watermarks R269, FAULT_N R430, BMC_ALERT_N R431, BAYLED R457). -/
namespace Sys2Proof.Machine

/-- A truth value as a register value. -/
def flag (b : Bool) : BitVec 64 := if b then 1 else 0
/-- g[a] = g[b] (R121). -/
def isEq (a b : BitVec 64) : Bool := a == b
/-- s(g[a]) < s(g[b]) (R121). -/
def isLt (a b : BitVec 64) : Bool := a.slt b
/-- u(g[a]) < u(g[b]) (R121). -/
def isLtu (a b : BitVec 64) : Bool := a.ult b

/-- DevLoad of a level against a head's PORT thresholds, raised when the class was throttled (R192). -/
def State.devLoad (s : State) (h level : Nat) (throttled : Bool) : BitVec 2 :=
  let v : Nat :=
    if level < s.inf PORT.DEVLOAD_T1 h then 0
    else if level < s.inf PORT.DEVLOAD_T2 h then 1
    else if level < s.inf PORT.DEVLOAD_T3 h then 2 else 3
  BitVec.ofNat 2 (if throttled then max v 2 else v)

/-- Straps have been sampled, and SYSRST_N is high: the balls active from strap sampling work (R40, R42). -/
def State.strapped (s : State) : Bool := s.board.power == .poweringOn || s.board.power == .running

/-- FAULT_N is asserted (R430). At reset it is high impedance (R40). -/
def State.faultN (s : State) : Bool :=
  s.strapped && (s.board.halted || (s.rdB FAULT.FAULT2_EN 0 && s.rdB (FAULT.VALID 2) 0))

/-- BMC_ALERT_N is asserted (R431). At reset it is high impedance (R40). -/
def State.bmcAlert (s : State) : Bool :=
  s.strapped && s.rdB FAULT.ALERT_EN 0 && (List.range 256).any (fun i =>
    s.rdB RECORD.VALID (i + 1) && decide (s.rd FAULT.ALERT_MIN 0 ≤ s.rd RECORD.CLASS (i + 1)))

/-- BAYLED patterns of R457. -/
inductive Led where
  | blink4 | blink1 | on | blinkHalf | off
deriving DecidableEq, Repr

/-- BAYLED of a bay (R457). -/
def State.bayLed (s : State) (b : Nat) : Led :=
  if s.rdB BAY.LATCH b || s.inHandling (uid 9 b) then .blink4
  else if s.rd BAY.STATE b = 7 then .blink1
  else if s.rd BAY.STATE b = 8 then .on
  else if s.rdB BAY.LOCATE b then .blinkHalf else .off

end Sys2Proof.Machine
end

