-- ==== Sys2Proof/Machine/Frames.lean ====
section
/-! DEFINITION. Windows, groups and extents as ranges of device memory; frames, the allocator, the
capacity counts and the region kinds (R181-R182, R235-R244, R248-R249, R265-R270). -/
namespace Sys2Proof.Machine

/-! ### Windows and groups -/

/-- A number put in its place in a rising list, once. -/
def insUniq (n : Nat) : List Nat → List Nat
  | [] => [n]
  | m :: t => if n = m then m :: t else if n < m then n :: m :: t else m :: insUniq n t

/-- INDEX values of a table whose word 0 is listed or has a store not yet at its commit point, rising. -/
def State.listed (s : State) (tbl : Nat) : List Nat :=
  (s.uncommitted.filter (fun u => u.tbl == tbl && u.word == 0)).foldl (fun l u => insUniq u.idx l)
    ((s.tab.filter (fun (p : Nat × BitVec 64) => p.1 / 2 ^ 56 == tbl && p.1 % 256 == 0)).map
      (fun p => p.1 / 256 % 2 ^ 48))

/-- The enabled windows, by WINDOW index, in force. -/
def State.windows (s : State) : List Nat := (s.listed 0x02).filter (fun i => s.infB WINDOW.ENABLE i)

/-- Does an enabled window's device range hold a 2 MiB region? -/
def State.winHas (s : State) (i r : Nat) : Bool :=
  s.inf WINDOW.DEV_BASE i ≤ r && r < s.inf WINDOW.DEV_BASE i + s.inf WINDOW.SIZE i

/-- The enabled windows over a region. -/
def State.windowsAt (s : State) (r : Nat) : List Nat := s.windows.filter (fun i => s.winHas i r)

/-- The members of an enabled shared window's group (R182), lowest LD first; none for a private window. -/
def State.group (s : State) (i : Nat) : List Nat :=
  if s.infB WINDOW.TYPE i then
    s.windows.filter (fun j => s.infB WINDOW.TYPE j && s.inf WINDOW.DEV_BASE j == s.inf WINDOW.DEV_BASE i &&
      s.inf WINDOW.SIZE j == s.inf WINDOW.SIZE i)
  else []

/-- The window whose settings govern a region: the lowest window over it (R182). -/
def State.govern (s : State) (r : Nat) : Option Nat := (s.windowsAt r).head?

/-- The shared group over a region, by its lowest member's WINDOW index (R201). -/
def State.groupAt (s : State) (r : Nat) : Option Nat :=
  ((s.windowsAt r).filter (fun i => s.infB WINDOW.TYPE i)).head?

/-- The LD of a WINDOW index and the head of an LD. -/
def winLd (i : Nat) : Nat := i / 16
/-- See `winLd`. -/
def ldHead (ld : Nat) : Nat := ld / 16

/-- Head `h` is a member of group `g`: an enabled window in it, and CXL in 256-byte flit mode (R202). -/
def State.isMember (s : State) (g h : Nat) : Bool :=
  (s.group g).any (fun i => ldHead (winLd i) == h) && (s.link h).cxl && (s.link h).flit256

/-- WINDOW.STATE: 0 disabled, 1 open, 2 closed road, 3 disabling (R200). -/
def State.winState (s : State) (i : Nat) : Nat := s.rd WINDOW.STATE i

/-- The group is a closed road (R226). -/
def State.closedRoad (s : State) (g : Nat) : Bool := (s.group g).any (fun i => s.winState i == 2)

/-- The window of an LD that holds an LD DPA (R181), and the device DPA it names. -/
def State.ldWindow (s : State) (ld ldDpa : Nat) : Option (Nat × Nat) :=
  (s.windows.find? (fun i => winLd i == ld && s.inf WINDOW.LD_BASE i * 2 ^ 21 ≤ ldDpa &&
      ldDpa < (s.inf WINDOW.LD_BASE i + s.inf WINDOW.SIZE i) * 2 ^ 21 && s.winState i != 3)).map
    (fun i => (i, s.inf WINDOW.DEV_BASE i * 2 ^ 21 + (ldDpa - s.inf WINDOW.LD_BASE i * 2 ^ 21)))

/-! ### Extents and capacity classes -/

/-- CAPACITY indices of extents that cover pages: COUNT non-zero and their window enabled (Capacity). -/
def State.extents (s : State) : List Nat :=
  (s.listed 0x09).filter (fun e => e ≠ 0 && s.inf EXTENT.COUNT e ≠ 0 &&
    s.infB WINDOW.ENABLE (s.inf EXTENT.WINDOW e))

/-- First region of an extent. -/
def State.extBase (s : State) (e : Nat) : Nat :=
  let w := s.inf EXTENT.WINDOW e
  s.inf WINDOW.DEV_BASE w + s.inf EXTENT.LD_BASE e - s.inf WINDOW.LD_BASE w

/-- Does an extent hold a region? -/
def State.extHas (s : State) (e r : Nat) : Bool :=
  s.extBase e ≤ r && r < s.extBase e + s.inf EXTENT.COUNT e

/-- Capacity class of a region's pages (Capacity, R265). -/
inductive PClass where
  | outside | committed | elastic | unoffered
deriving DecidableEq, Repr

/-- The capacity class of a region's pages. -/
def State.pclass (s : State) (r : Nat) : PClass :=
  if (s.windowsAt r).isEmpty then .outside
  else
    let es := s.extents.filter (fun e => s.extHas e r)
    match es.find? (fun e => s.rd EXTENT.STATE e ≠ 0) with
    | some e => if s.infB EXTENT.CLASS e then .elastic else .committed
    | none => if es.isEmpty then .committed else .unoffered

/-! ### Frames (R236, R237, R353) -/

/-- LOC of a frame (R236): UNIT in [35:31], OFFSET in 512-byte units. -/
def frLoc (k : Nat) : Nat := k / 2 ^ 28 * 2 ^ 31 + k % 2 ^ 28 * 8
/-- The frame key of a LOC. -/
def locFrame (loc : Nat) : Nat := frKey (loc / 2 ^ 31) (loc % 2 ^ 31 / 8)
/-- The 512-byte position of a LOC in its frame. -/
def locPos (loc : Nat) : Nat := loc % 8
/-- The unit of a frame key. -/
def frUnit (k : Nat) : Nat := k / 2 ^ 28

/-- A unit is draining (R271). -/
def State.draining (s : State) (u : Nat) : Bool := bitOf (s.rd PLACE.DRAINING (placeCtl 0)) u

/-- The unit takes part in allocation: in the pool, present, not excluded, not draining (R237). -/
def State.allocatable (s : State) (u : Nat) : Bool :=
  (s.pool u).inPool && (s.pool u).present && !(s.pool u).excluded && !s.draining u

/-- The frames of a unit that the allocator may not hand out, in ascending order. -/
def State.taken (s : State) (u : Nat) : List Nat :=
  (s.plc.frames.filter (fun p => p.1 / 2 ^ 28 == u && (p.2.use != .free || p.2.retiring))).map (fun p => p.1 % 2 ^ 28)

/-- Free frames of a unit. -/
def State.freeOf (s : State) (u : Nat) : Nat :=
  if s.allocatable u then (s.pool u).frames - (s.pool u).subtree - (s.taken u).length else 0

/-- Units of a tier: the stacks are near (R235). -/
def tierUnits (near : Bool) : List Nat := if near then [24, 25, 26, 27] else List.range 24

/-- Free frames of a tier. -/
def State.freeTier (s : State) (near : Bool) : Nat := ((tierUnits near).map s.freeOf).sum

/-- The unit of a tier with the most free frames, ties to the lowest UNIT, if any has one (R237). -/
def State.bestUnit (s : State) (us : List Nat) : Option Nat :=
  us.foldl (fun best u =>
    if s.freeOf u = 0 then best
    else match best with
      | none => some u
      | some v => if s.freeOf v < s.freeOf u then some u else best) none

/-- The n-th free frame number past the taken ones (given in ascending order). -/
def nthFree : List Nat → Nat → Nat
  | [], n => n
  | f :: fs, n => if f ≤ n then nthFree fs (n + 1) else n

/-- A free frame of a unit, which one the spec leaves open (log entry 2). -/
def State.pickFrame (s : State) (u : Nat) : Nat :=
  frKey u (nthFree (s.taken u) (s.fresh.toNat % s.freeOf u))

/-- A frame taken for a use. -/
def State.take (s : State) (k : Nat) (use : Use) : State :=
  ((s.took).setFrame k { (s.frame k) with use := use }).fixed 526

/-- Pages in force of a page frame number range. -/
def State.pagesIn (s : State) (r : Nat) : List (Nat × Page) :=
  s.plc.pages.filter (fun p => p.1 / 512 == r)

/-! ### Counts of R265 -/

/-- Device ranges of the enabled windows, each shared group once: (first region, regions). -/
def State.ranges (s : State) : List (Nat × Nat) :=
  (s.windows.map (fun i => (s.inf WINDOW.DEV_BASE i, s.inf WINDOW.SIZE i))).dedup

/-- The regions at which an enabled window or an extent begins or ends, rising: between two of them every region has one
capacity class. -/
def State.bounds (s : State) : List Nat :=
  (s.ranges ++ s.extents.map (fun e => (s.extBase e, s.inf EXTENT.COUNT e))).foldl
    (fun l x => insUniq (x.1 + x.2) (insUniq x.1 l)) []

/-- COMMITTED of R265, in regions. -/
def State.committedRegions (s : State) : Nat :=
  ((s.bounds.zip s.bounds.tail).map (fun x => if s.pclass x.1 = .committed then x.2 - x.1 else 0)).sum

/-- The pages not BLANK that lie in committed regions. -/
def State.committedPages (s : State) : List (Nat × Page) :=
  s.plc.pages.filter (fun p => p.2.st != .blank && s.pclass (p.1 / 512) == .committed)

/-- Eighths of a frame that a slot class saves: (1 − 1/ratio) (R265, R285). -/
def savedEighths (cls : Nat) : Nat := if cls = 1 then 4 else if cls = 2 then 6 else if cls = 3 then 7 else 0

/-- RESERVE of R265, rounded up to whole frames. -/
def State.reserve (s : State) : Nat :=
  let pages := s.committedPages
  let blank := s.committedRegions * 512 - pages.length
  let stowed := ((pages.filter (fun p => p.2.st == .stowed)).map (fun p => savedEighths p.2.slotClass)).sum
  let blankRegions := s.committedRegions -
    (s.plc.regions.filter (fun p => p.2.kind ≠ 0 && s.pclass p.1 == .committed)).length
  blank + (stowed + 7) / 8 + 2 * blankRegions

/-- FREE of R265. -/
def State.freeFrames (s : State) : Nat := s.freeTier true + s.freeTier false

/-- SPARE of R265. -/
def State.spare (s : State) : Nat := s.freeFrames - s.reserve

/-- USABLE of R265. -/
def State.usable (s : State) : Nat :=
  ((List.range 28).map (fun u =>
    if s.allocatable u then
      (s.pool u).frames - (s.plc.frames.filter (fun p => p.1 / 2 ^ 28 == u && p.2.use == .retired)).length
    else 0)).sum

/-- A frame may be granted to a page of the region (R266, R268). -/
def State.grantable (s : State) (r : Nat) : Bool :=
  if s.pclass r = .elastic then decide (s.inf POOL.FLOOR 0 < s.spare) && decide (0 < s.freeFrames)
  else decide (0 < s.freeFrames)

/-- The watermark flags set at a downward crossing of SPARE or when RESERVE passes FREE, and the CAPACITY
event at each crossing either way, since they were last compared (R268, R269). -/
def State.watermarks (s : State) : State :=
  let old := s.plc.marks.1
  let oldShort := s.plc.marks.2
  let now := s.spare
  let short := decide (s.freeFrames < s.reserve)
  let s : State := { s with plc := { s.plc with marks := (now, short) } }
  let down := fun (below : Nat → Bool) => below now && !below old
  let crossed := fun (below : Nat → Bool) => below now != below old
  let low := fun x => decide (x < s.inf POOL.LOW_WM 0)
  let rel := fun x => decide (x < s.inf POOL.RELEASE_WM 0)
  let flo := fun x => decide (x ≤ s.inf POOL.FLOOR 0)
  let s' := if down low then s.setW1c POOL.LOW 0 1 else s
  let s' := if down rel && s.infB POOL.AUTO_RELEASE 0 then s'.setW1c POOL.RELEASING 0 1 else s'
  let s' := if down flo then s'.setW1c POOL.AT_FLOOR 0 1 else s'
  let s' := if short && !oldShort then s'.setW1c POOL.COMMIT_SHORT 0 1 else s'
  if crossed low || crossed rel || crossed flo || (short && !oldShort) then s'.raiseOwners 6 else s'

/-- A change of frames or pages made, with the watermark consequences of R268 and R269. -/
def State.withMarks (s : State) (f : State → State) : State :=
  (f s).watermarks

/-! ### Freeing frames, retirement (R253, R259, R379) -/

/-- A frame released: back to the pool, or retired when it is pending retirement (R253 step 7, R259).
Its companion reads as zero (R347). -/
def State.release (s : State) (k : Nat) : State :=
  let fr := s.frame k
  let sl : Seal := { s.sealing with
      blocks := terase s.sealing.blocks k
      tags := s.sealing.tags.filter (fun p => p.1 / 16 ≠ k)
      slotCtrs := s.sealing.slotCtrs.filter (fun p => p.1 / 8 ≠ k) }
  let s : State := { s with sealing := sl }
  if fr.retiring then
    let u := frUnit k
    let s := s.setFrame k { use := .retired, retiring := true }
    let s := (s.wr MEMCH.RETIRED_FRAMES u (s.rd MEMCH.RETIRED_FRAMES u + 1))
    let s := (List.range 32).foldl (fun s e =>
      if bitOf (s.wordAt 0x0B u (16 + 2 * e)).toNat 28 &&
          (s.wordAt 0x0B u (16 + 2 * e)).toNat % 2 ^ 28 == k % 2 ^ 28 then
        (s.setWord 0x0B u (16 + 2 * e) 0).setWord 0x0B u (17 + 2 * e) 0 else s) s
    if s.rd MEMCH.RETIRED_FRAMES u = s.inf MEMCH.RETIRE_LIMIT u then
      (s.setW1c MEMCH.RETIRE_LIMIT_REACHED u 1).report (memUid u) 0x0A 0 (s.rd MEMCH.RETIRED_FRAMES u)
    else s
  else (s.setFrame k Frame.init).fixed 527

/-! ### Regions (R239, R244) -/

/-- POP of a region (R239). -/
def State.pop (s : State) (r : Nat) : Nat := ((s.pagesIn r).filter (fun p => p.2.st != .blank)).length

/-- Do all 512 pages of a region have one PIN? -/
def State.onePin (s : State) (r : Nat) : Bool :=
  let ps := s.pagesIn r
  let pins := (ps.map (fun p => p.2.pin)).dedup
  if ps.length = 512 then pins.length == 1 else pins.all (· == 0)

/-- The best unit of a list and the best of those that another list gives for it, when both have a free frame. -/
def State.bestPair (s : State) (us : List Nat) (others : Nat → List Nat) : Option (Nat × Nat) :=
  (s.bestUnit us).bind (fun a => (s.bestUnit (others a)).map (fun b => (a, b)))

/-- The units of a structure's two far copies (R238): channels of different bays; the two channels of the only bay in
service; with no far channel, two stacks. With a single channel in service the second copy takes a stack (DESIGN CHOICE, log
entry 79). -/
def State.mapPair (s : State) : Option (Nat × Nat) :=
  let far := (List.range 24).filter s.allocatable
  let hbm := tierUnits true
  match far.map (· / 2) |>.dedup with
  | [] => s.bestPair hbm (fun a => hbm.filter (· ≠ a))
  | [_] => if far.length = 1 then s.bestPair far (fun _ => hbm) else s.bestPair far (fun a => far.filter (· ≠ a))
  | _ => s.bestPair far (fun a => far.filter (fun u => u / 2 ≠ a / 2))

/-- A map frame taken on a unit (R241). -/
def State.takeMap (s : State) (u : Nat) : State × Nat :=
  let k := s.pickFrame u
  (s.take k .map, frLoc k)

/-- The frames of a sub-table are granted to a region, or it has one (R241, R266). -/
def State.canSplit (s : State) (r : Nat) : Bool :=
  (s.region r).kind == 2 ||
  (s.mapPair.isSome && (s.pclass r != .elastic || decide (s.inf POOL.FLOOR 0 < s.spare)))

/-- Entries of the placement caches dropped: a region's own, or those of its pages with its cached sub-table (R242). -/
def State.uncache (s : State) (r : Nat) (pages : Bool) : State :=
  { s with plc := { s.plc with
    cache := s.plc.cache.filter (fun c => if pages then c % 2 = 0 ∨ c / 2 / 512 ≠ r else c ≠ 2 * r)
    subs := if pages then s.plc.subs.filter (· ≠ r) else s.plc.subs } }

/-- The ACCESSED bits of a region's pages replaced (R239, R240, R277). -/
def State.setAccessed (s : State) (r : Nat) (region : Bool) (pages : Page → Bool) : State :=
  (s.pagesIn r).foldl (fun s q => s.setPage q.1 { q.2 with accessed := pages q.2 })
    { s with plc := { s.plc with accessedRegions := tset (fun _ => false) s.plc.accessedRegions r region } }

/-- A region becomes MIXED: its sub-table's two map frames are taken, and a WHOLE region's ACCESSED bit goes to its pages
(R241, R244). A change that cannot be refused and finds no pair of frames keeps the entries with no copy held (DESIGN CHOICE,
log entry 80). -/
def State.split (s : State) (r : Nat) : State :=
  let g := s.region r
  let acc := tget (fun _ => false) s.plc.accessedRegions r
  let s := (s.uncache r false).setAccessed r false (fun x => x.accessed || (acc && x.st != .blank && x.st != .lost))
  match s.mapPair with
  | some (a, b) =>
    let (s, l1) := s.takeMap a
    let (s, l2) := s.takeMap b
    s.setRegion r { g with kind := 2, sub1 := some l1, sub2 := some l2 }
  | none => s.setRegion r { g with kind := 2, sub1 := none, sub2 := none }

/-- A region made MIXED where it is not. -/
def State.mixed (s : State) (r : Nat) : State := if (s.region r).kind = 2 then s else s.split r

/-- A region's sub-table released; a region that becomes WHOLE keeps in its ACCESSED bit that a page of it was accessed
(R239, R241, R244). -/
def State.unsplit (s : State) (r kind : Nat) : State :=
  let g := s.region r
  let acc := kind == 1 && (s.pagesIn r).any (fun q => q.2.accessed)
  let s := ((s.uncache r true).setAccessed r acc (fun _ => false)).setRegion r { g with kind := kind, sub1 := none, sub2 := none }
  let s := match g.sub1 with | some l => s.release (locFrame l) | none => s
  match g.sub2 with | some l => s.release (locFrame l) | none => s

/-- All 512 pages of a region are alike as a WHOLE region's are: one key slot and PIN, NEAR or FAR on one aligned run of
frames, or LOST with one code (R239). -/
def State.alike (s : State) (r : Nat) : Bool :=
  let ps := (List.range 512).map (fun i => s.page (r * 512 + i))
  match ps.head? with
  | none => false
  | some a =>
    let same := fun (x : Page) => x.st == a.st && x.key == a.key && x.pin == a.pin
    if a.st = .lost then ps.all (fun x => same x && x.code == a.code)
    else (a.st == .near || a.st == .far) && a.loc / 8 % 512 == 0 &&
      (ps.zipIdx).all (fun x => same x.1 && x.1.loc == a.loc + 8 * x.2)

/-- A region's KIND after some of its pages changed (R244): BLANK when every page is; a MIXED region otherwise stays so, for only
a TIER move makes it WHOLE; one that was not is WHOLE while its pages are alike, and is split else. -/
def State.fixRegion (s : State) (r : Nat) : State :=
  let g := s.region r
  if s.pop r = 0 ∧ s.onePin r then
    if g.kind = 0 then s else s.unsplit r 0
  else if g.kind = 2 then s
  else if s.alike r then s.setRegion r { g with kind := 1 }
  else s.split r

/-- Pages' map entries changed, with their regions' KINDs following (R244). -/
def State.putPages (s : State) (xs : List (Nat × Page)) : State :=
  (xs.foldl (fun l x => insUniq (x.1 / 512) l) []).foldl (fun s r => s.fixRegion r)
    (xs.foldl (fun s x => s.setPage x.1 x.2) s)

/-- A page's map entry changed, with its region's KIND following (R244). -/
def State.putPage (s : State) (p : Nat) (x : Page) : State := s.putPages [(p, x)]

/-! ### First allocation (R249, R266) -/

/-- The tier a page's first frame is taken from: true near (R249). -/
def State.firstTier (s : State) (p : Nat) : Bool :=
  let x := s.page p
  let pol := match s.govern (p / 512) with | some i => s.inf WINDOW.POLICY i | none => 0
  if x.pin = 1 then true else if x.pin = 2 then false
  else if pol = 1 then true else if pol = 2 then false
  else s.inf PLACE.FIRST_TIER (placeCtl 0) == 0

/-- The tier of a promotion that no one names: true near (R257). -/
def State.promoteTier (s : State) (p : Nat) : Bool :=
  let x := s.page p
  let pol := match s.govern (p / 512) with | some i => s.inf WINDOW.POLICY i | none => 0
  if x.pin = 1 then true else if x.pin = 2 then false
  else if pol = 1 then true else if pol = 2 then false
  else s.inf PLACE.PROMOTE_TIER (placeCtl 0) == 0

/-- A unit with a free frame in the tier, or in the other one when it is full (R249, R257). -/
def State.unitFor (s : State) (near : Bool) : Option Nat :=
  match s.bestUnit (tierUnits near) with
  | some u => some u
  | none => s.bestUnit (tierUnits (!near))

/-- The capacity counts a TLD of CAPACITY entry 0 shows (R265, R282). -/
def State.capCounts (s : State) : State :=
  let retired := (s.plc.frames.filter (fun p => p.2.retiring && (p.2.use == .retired || p.2.use == .free))).length
  let maps := (s.plc.frames.filter (fun p => p.2.use == .map)).length +
    ((List.range 28).map (fun u => (s.pool u).subtree)).sum
  let stowed := ((s.plc.pages.filter (fun p => p.2.st == .stowed)).map (fun p => savedEighths p.2.slotClass)).sum
  let sets : List (Fld × Nat) :=
    [(POOL.FREE_NEAR, s.freeTier true), (POOL.FREE_FAR, s.freeTier false), (POOL.RESERVE, s.reserve),
     (POOL.SPARE, s.spare), (POOL.RETIRED, retired), (POOL.STOW_SAVED, stowed / 8),
     (POOL.COMMITTED, s.committedRegions * 512), (POOL.USABLE, s.usable), (POOL.MAP_FRAMES, maps)]
  sets.foldl (fun s' fv => s'.wr fv.1 0 fv.2) s

end Sys2Proof.Machine
end

