-- ==== Sys2Proof/Machine/Units.lean ====
section
/-! DEFINITION. Memory units: heads that exist, deliverable bandwidth and the booking budget, unit states,
retirement of frames, and the correctable-error table (R171, R259, R362, R372, R376-R380, R396-R400). -/
namespace Sys2Proof.Machine

/-! ### Deliverable bandwidth and the budget (R372, R396-R400) -/

/-- DELIVERABLE of R372 in units of 0.1 GB/s, at the 1x or 2x refresh rate, rounded to the nearest. -/
def State.deliverable (s : State) (u : Nat) (twice : Bool) : Nat :=
  let peak := match s.rd MEMCH.SPEED u with | 1 => 512 | 2 => 640 | 3 => 10240 | _ => 0
  let k := if twice then 2 else 1
  let r := s.inf MEMCH.RETRAIN_MS u
  let num :=
    if u < 24 then peak * ((88 - k * (if s.infB MEMCH.REFRESH_MODE u then 3 else 5)) * 100 * r - 15)
    else peak * ((92 - k * 2) * 100 * r)
  let den := 10000 * r
  (2 * num + den) / (2 * den)

/-- The unit's state gives it a deliverable bandwidth: ACTIVE, LAY_BY or RECOVERY (R372). -/
def State.delivers (s : State) (u : Nat) : Bool :=
  let st := s.rd MEMCH.STATE u
  3 ≤ st && st ≤ 5

/-- BOOKABLE of R396. -/
def State.bookable (s : State) : Nat :=
  ((List.range 28).map (fun u => if s.delivers u then s.deliverable u true else 0)).sum

/-- BOOKED of R397. -/
def State.booked (s : State) : Nat :=
  ((List.range 32).map (fun h =>
    if s.headExists h then
      ((List.range 7).map (fun c => s.rd TOLL.GUARANTEE (8 * h + c))).sum + s.rd TOLL.CAP (8 * h + 7)
    else 0)).sum +
  s.rd TOLL.GUARANTEE.internal 1 + s.rd TOLL.GUARANTEE.internal 2 + s.rd TOLL.GUARANTEE.internal 3

/-- SCALE of R399. -/
def scaleOf (bookable booked : Nat) : Nat :=
  if booked ≤ bookable then 65536 else 65536 * bookable / booked

/-- BOOKABLE recomputed after a unit's change; a fall below BOOKED is a shortfall (R396, R400). -/
def State.rebook (s : State) (u : Nat) : State :=
  let old := s.rd TOLLDEV.BOOKABLE 0
  let new := s.bookable
  let booked := s.booked
  let s := s.wr TOLLDEV.BOOKABLE 0 new
  if new = old then s
  else
    let s : State := { s with traffic := { s.traffic with changed := u } }
    if new < old ∧ new < booked then
      (s.setW1c TOLLDEV.SHORTFALL 0 1).report (memUid u) 0x1B 0 (scaleOf new booked)
    else s

/-- DELIVERABLE of a unit brought up to date (R372), with BOOKABLE (R396). -/
def State.redeliver (s : State) (u : Nat) : State :=
  (s.wr MEMCH.DELIVERABLE u
    (if s.delivers u then s.deliverable u (s.rdB MEMCH.REFRESH_2X u) else 0)).rebook u

/-- MEMCH.STATE of a unit changed (R376). -/
def State.setUnit (s : State) (u st : Nat) : State := (s.wr MEMCH.STATE u st).redeliver u

/-- A unit is excluded (R64, R352): a class 2 fault under its unit ID, and it reads ABSENT. -/
def State.exclude (s : State) (u code : Nat) (detail : Nat) : State :=
  let s := s.setPool u { s.pool u with excluded := true, inPool := false, filled := false }
  ((s.setUnit u 0).wr POWER.STATE (50 + u) 6).report (memUid u) code 2 detail

/-- A unit is present: powered (a stack always is) and not excluded; it does not read as ABSENT (R170, R376). -/
def State.unitPresent (s : State) (u : Nat) : Bool := s.rd MEMCH.STATE u != 0

/-! ### Retirement of frames (R259, R379) -/

/-- The units that hold the other copies of a map frame's structure (R238, R241). -/
def State.mapSibs (s : State) (k : Nat) : List Nat :=
  let l := frLoc k
  let rs := s.plc.regions.filterMap (fun (r : Nat × Region) =>
    if r.2.sub1 = some l then r.2.sub2 else if r.2.sub2 = some l then r.2.sub1 else none)
  let bs := (s.plc.blocks.filter (fun (b : Nat × List Nat) => b.2.contains l)).flatMap (fun b => b.2.filter (· ≠ l))
  (rs ++ bs).map (fun x => x / 2 ^ 31)

/-- A unit for a map frame's copy in place of its own: of its tier and on another bay than the other copies where
there is one, never on a unit that holds another copy (R238, R271). -/
def State.remapUnit (s : State) (k : Nat) : Option Nat :=
  let sibs := s.mapSibs k
  let tier := (tierUnits (24 ≤ frUnit k)).filter (fun u => u ≠ frUnit k ∧ ¬ sibs.contains u)
  match s.bestUnit (tier.filter (fun u => 24 ≤ u ∨ ¬ sibs.any (fun v => v / 2 == u / 2))) with
  | some u => some u
  | none => match s.bestUnit tier with
    | some u => some u
    | none => s.bestUnit ((tierUnits (frUnit k < 24)).filter (fun u => ¬ sibs.contains u))

/-- A map frame's copy rewritten on another unit, and the frame released (R259, R272, R274). -/
def State.remap (s : State) (k : Nat) : State :=
  match s.remapUnit k with
  | some u =>
    let n := s.pickFrame u
    let s := s.take n .map
    let fix : Option Nat → Option Nat := fun l => if l = some (frLoc k) then some (frLoc n) else l
    let pl : Plc := { s.plc with
      regions := s.plc.regions.map (fun (r : Nat × Region) =>
        (r.1, { r.2 with sub1 := fix r.2.sub1, sub2 := fix r.2.sub2 }))
      blocks := s.plc.blocks.map (fun (b : Nat × List Nat) =>
        (b.1, b.2.map (fun l => if l = frLoc k then frLoc n else l))) }
    ({ s with plc := pl }).release k
  | none => s

/-- A frame pending retirement (R259, R379): a free one leaves the pool, pages held there get RETIRE, a map frame is rewritten
elsewhere, a target stays pending. A unit's subtree copies lie in the last of its frames that nothing else takes, so one of
those that leaves the pool is rewritten in the frame before them. -/
def State.retireFrame (s : State) (k : Nat) : State :=
  if (s.frame k).retiring then s
  else
    let s := s.setFrame k { s.frame k with retiring := true }
    match (s.frame k).use with
    | .free => s.withMarks (fun s => s.release k)
    | .page p => s.setPage p { s.page p with retire := true }
    | .slots _ ps => ps.foldl (fun s p => match p with
        | some q => s.setPage q { s.page q with retire := true }
        | none => s) s
    | .map => s.remap k
    | _ => s

/-! ### Correctable errors (R362, R377-R380) -/

/-- A correctable-error entry (R385). -/
structure Ce where
  frame : Nat
  valid : Bool
  retiring : Bool
  multi : Bool
  ue : Bool
  source : Nat
  count : Nat
  first : Nat
  last : Nat
deriving DecidableEq, Repr

/-- Entry `e` of a unit's table (R385). -/
def State.ce (s : State) (u e : Nat) : Ce :=
  let lo := (s.wordAt 0x0B u (16 + 2 * e)).toNat
  let hi := (s.wordAt 0x0B u (17 + 2 * e)).toNat
  { frame := lo % 2 ^ 28, valid := bitOf lo 28, retiring := bitOf lo 29, multi := bitOf lo 30, ue := bitOf lo 31,
    source := bitsOf lo 32 6, count := bitsOf lo 40 8, first := hi % 2 ^ 32, last := hi / 2 ^ 32 }

/-- Entry `e` of a unit's table replaced (R385). -/
def State.setCe (s : State) (u e : Nat) (c : Ce) : State :=
  let b := fun (x : Bool) (n : Nat) => if x then 2 ^ n else 0
  let lo := c.frame % 2 ^ 28 + b c.valid 28 + b c.retiring 29 + b c.multi 30 + b c.ue 31 + c.source % 64 * 2 ^ 32 +
    c.count % 256 * 2 ^ 40
  (s.setWord 0x0B u (16 + 2 * e) (BitVec.ofNat 64 lo)).setWord 0x0B u (17 + 2 * e)
    (BitVec.ofNat 64 (c.first % 2 ^ 32 + c.last % 2 ^ 32 * 2 ^ 32))

/-- Seconds since root PLL lock. -/
def State.seconds (s : State) : Nat := s.time.fclk / 10 ^ 9

/-- LOC of a unit's line (R236). -/
def lineLoc (u l : Nat) : Nat := u * 2 ^ 31 + l / 8

/-- Frame number of a unit's line. -/
def lineFrame (l : Nat) : Nat := l / 64

/-- The line lies in a frame, not in the verge (R353). -/
def State.inFrames (s : State) (u l : Nat) : Bool := decide (lineFrame l < (s.pool u).frames)

/-- The entry of a frame, if it has one. -/
def State.ceOf (s : State) (u f : Nat) : Option Nat :=
  (List.range 32).find? (fun e => (s.ce u e).valid && (s.ce u e).frame == f)

/-- The entry a new frame takes: a free one, else the one with the oldest LAST among those with COUNT 1 and not
RETIRING (R377). -/
def State.cePlace (s : State) (u : Nat) : Option Nat :=
  match (List.range 32).find? (fun e => !(s.ce u e).valid) with
  | some e => some e
  | none => ((List.range 32).filter (fun e => (s.ce u e).count == 1 && !(s.ce u e).retiring)).foldl
      (fun b e => match b with
        | none => some e
        | some x => if (s.ce u e).last < (s.ce u x).last then some e else some x) none

/-- DEV_HITS fed for a device, with automatic marking (R378). -/
def State.devHit (s : State) (u d : Nat) : State :=
  let old := s.rd (MEMCH.DEV_HITS d) u
  let s := s.incSat (MEMCH.DEV_HITS d) u 1
  let lim := s.inf MEMCH.DEVICE_LIMIT u
  if old < lim ∧ lim ≤ s.rd (MEMCH.DEV_HITS d) u then
    if s.rd MEMCH.MARK u = 0x3F then
      if s.infB MEMCH.AUTO_MARK u then (s.wr MEMCH.MARK u d).report (memUid u) 0x08 0 d else s
    else if s.rd MEMCH.MARK u ≠ d then s.report (memUid u) 0x09 0 d else s
  else s

/-- A frame that is handed to the allocator as pending retirement (R259, R379). -/
def State.retireAt (s : State) (u f : Nat) : State := s.retireFrame (frKey u f)

/-- The entry's frame is retired when COUNT has reached CE_RETIRE, with a FAULT event (R259, R379). -/
def State.ceLimit (s : State) (u e : Nat) (inFr : Bool) : State :=
  let c := s.ce u e
  if inFr && !c.retiring && decide (s.inf MEMCH.CE_RETIRE u ≤ c.count) then
    ((s.setCe u e { c with retiring := true }).retireAt u c.frame).raiseOwners 5
  else s

/-- The table updated by one decode that corrected the devices `ds` outside the mark, in codeword order (R377). -/
def State.ceTable (s : State) (u f : Nat) (inFr : Bool) (ds : List Nat) : State :=
  let now := s.seconds
  let r : Option (State × Nat × List Nat) :=
    match s.ceOf u f with
    | some e =>
      let c := s.ce u e
      some (s.setCe u e { c with count := min 255 (c.count + 1), last := now }, e, ds)
    | none => match s.cePlace u with
      | some e =>
        let d := ds.headD 0x3F
        some ((s.setCe u e { frame := f, valid := true, retiring := false, multi := false, ue := false,
                             source := d, count := 1, first := now, last := now }).devHit u d, e, ds.tail)
      | none => none
  match r with
  | none => s.incSat MEMCH.CE_OVERFLOW u 1
  | some (s, e, ds) =>
    let s := ds.foldl (fun s d =>
      let c := s.ce u e
      if c.source = d then s else (s.setCe u e { c with source := d, multi := true }).devHit u d) s
    s.ceLimit u e inFr

/-- A corrected twin or line joins the write queue as a lowest-priority write (R368). -/
def State.writeBack (s : State) (u l : Nat) : State :=
  let c := s.chan u
  if c.wq.any (fun w => w.addr == l) then s
  else
    let k := u * 2 ^ 34 + l
    s.setChan u { c with wq := c.wq ++
      [⟨l, tget (fun _ => 0) s.dram.lines k, tget (fun _ => false) s.dram.poison k, true⟩] }

/-- A decode that corrected devices (R362): in the mark only, MARK_CORRECTED; else CE. -/
def State.ceFound (s : State) (u l : Nat) (ds : List Nat) : State :=
  let out := ds.filter (fun d => d ≠ s.rd MEMCH.MARK u)
  let s := (s.event (memUid u) 9).fixed 528
  if out.isEmpty then s.incSat MEMCH.MARK_CORRECTED u 1
  else
    let s := (s.incSat MEMCH.CE_TOTAL u 1).report (memUid u) 0x01 0 (lineLoc u l + out.headD 0 * 2 ^ 38)
    (s.ceTable u (lineFrame l) (s.inFrames u l) out).writeBack u l

/-- An uncorrectable decode in the correctable-error table: its frame is retired (R362, R379). -/
def State.ueTable (s : State) (u l : Nat) : State :=
  let f := lineFrame l
  let fr := s.inFrames u l
  let now := s.seconds
  let s := match s.ceOf u f with
    | some e =>
      let c := s.ce u e
      s.setCe u e { c with ue := true, retiring := c.retiring || fr, last := now }
    | none => match s.cePlace u with
      | some e => s.setCe u e { frame := f, valid := true, retiring := fr, multi := false, ue := true,
                                source := 0x3F, count := 0, first := now, last := now }
      | none => s.incSat MEMCH.CE_OVERFLOW u 1
  if fr then s.retireAt u f else s

/-- An uncorrectable decode of data (R362, R379): `code` UE or SCRUB_UE, the frame retired, the line known bad. -/
def State.ueFound (s : State) (u l code : Nat) : State :=
  let s := ((s.incSat MEMCH.UE_TOTAL u 1).report (memUid u) code 1 (lineLoc u l)).fixed 529
  ({ s with dram := { s.dram with bad := tset (fun _ => false) s.dram.bad (u * 2 ^ 34 + l) true } }).ueTable u l

/-- A miscorrected line is written back with its wrong data (R497). -/
def State.miscorrect (s : State) (u l : Nat) (flip : BitVec 512) : State :=
  let n := if u < 24 then 20 else 36
  let s := (s.took).ceFound u l [s.fresh.toNat % n]
  let c := s.chan u
  s.setChan u { c with wq := c.wq.map (fun w => if w.addr = l ∧ w.low = true then { w with data := w.data ^^^ flip } else w) }

/-- A decode outcome's faults at a line of a unit (R362). -/
def State.decodeFaults (s : State) (u l : Nat) (dec : Decode) : State :=
  match dec with
  | .corrected ds => s.ceFound u l (ds.map (fun d => d.toNat))
  | .wrong flip false => s.miscorrect u l flip
  | .uncorrectable => s.ueFound u l 0x02
  | _ => s

/-- Decay (R377): COUNTs and DEV_HITS halve, and entries at 0 that are not RETIRING go. -/
def State.ceDecay (s : State) (u : Nat) : State :=
  let s := (List.range 32).foldl (fun s e =>
    let c := s.ce u e
    if !c.valid then s
    else if c.count / 2 = 0 ∧ !c.retiring then s.setCe u e ⟨0, false, false, false, false, 0, 0, 0, 0⟩
    else s.setCe u e { c with count := c.count / 2 }) s
  (List.range 36).foldl (fun s d => s.wr (MEMCH.DEV_HITS d) u (s.rd (MEMCH.DEV_HITS d) u / 2)) s

/-- CE_CLEAR (R380). -/
def State.ceEmpty (s : State) (u : Nat) : State :=
  let s := (List.range 32).foldl (fun s e =>
    let c := s.ce u e
    if c.valid && !c.retiring then s.setCe u e ⟨0, false, false, false, false, 0, 0, 0, 0⟩ else s) s
  (List.range 36).foldl (fun s d => s.wr (MEMCH.DEV_HITS d) u 0) s

/-! ### Queue levels (R363, R373) -/

/-- The unit serves requests now: ACTIVE and its domain not entering or below ACTIVE. -/
def State.unitActive (s : State) (u : Nat) : Bool := s.rd MEMCH.STATE u == 3

/-- The controller may issue commands: ACTIVE, its domain too, and no retraining pause (R370). -/
def State.mayIssue (s : State) (u : Nat) : Bool :=
  s.live && s.unitActive u && s.domActive (memUid u) && decide ((s.chan u).readyAt ≤ s.time.fclk)

end Sys2Proof.Machine
end

