-- ==== Sys2Proof/Machine/Sealing.lean ====
section
/-! DEFINITION. Raw DRAM lines with the controllers' queued writes, keystreams, counters, tags, slot
seals, the span merge buffer and the milestone tree (R311-R342, R361, R365, R367). -/
namespace Sys2Proof.Machine

/-! ### CRC-32C -/

/-- `n` bit steps of CRC-32C (reflected polynomial 0x82F63B78). -/
def crcBits : Nat → BitVec 32 → BitVec 32
  | 0, c => c
  | n + 1, c => crcBits n (if c.getLsbD 0 then (c >>> 1) ^^^ 0x82F63B78 else c >>> 1)

/-- CRC-32C register run over bytes. -/
def crcRun : BitVec 32 → List (BitVec 8) → BitVec 32
  | c, [] => c
  | c, b :: bs => crcRun (crcBits 8 (c ^^^ b.zeroExtend 32)) bs

/-- CRC-32C of bytes (initial and final inversion). -/
def crc32c (bs : List (BitVec 8)) : BitVec 32 := ~~~ crcRun 0xFFFFFFFF bs

/-! ### Raw lines -/

/-- Key of a line of a unit: line number within the unit (64 bytes each). -/
def lnKey (u l : Nat) : Nat := u * 2 ^ 34 + l

/-- Key of line `i` of a frame. -/
def frLine (k i : Nat) : Nat := lnKey (frUnit k) (k % 2 ^ 28 * 64 + i)

/-- A raw line as stored. -/
structure Raw where
  data : BitVec 512
  poison : Bool
  bad : Bool
deriving DecidableEq, Repr

/-- A line's raw contents: a queued write's when one is queued, else DRAM's (R365, R367). -/
def State.raw (s : State) (key : Nat) : Raw :=
  match (s.chan (key / 2 ^ 34)).wq.find? (fun w => w.addr == key % 2 ^ 34) with
  | some w => ⟨w.data, w.poison, false⟩
  | none => ⟨tget (fun _ => 0) s.dram.lines key, tget (fun _ => false) s.dram.poison key,
             tget (fun _ => false) s.dram.bad key⟩

/-- The lines of one write-queue entry: a twin of a channel, a line of a stack (R363). -/
def sameEntry (u a b : Nat) : Bool := if u < 24 then a / 2 == b / 2 else a == b

/-! ### Address maps (R355, R356) -/

/-- Bank (with rank, stack ID or pseudo-channel) and row of a line of a unit. -/
def State.rowKey (s : State) (u l : Nat) : Nat × Nat :=
  let a := l * 64
  if u < 24 then
    let c := if s.rd MEMCH.WIDTH u = 1 then 7 else 6
    let k := Nat.log2 (max 1 (s.rd MEMCH.RANKS u))
    let rank := bitsOf a (12 + c) k
    let row := a / 2 ^ (12 + c + k)
    let bg := (bitsOf a 7 3) ^^^ (row % 8)
    let bk := (bitsOf a 10 2) ^^^ (row / 8 % 4)
    ((rank * 8 + bg) * 4 + bk, row)
  else
    let pc := (bitsOf a 8 5) ^^^ (bitsOf a 13 5)
    (((bitsOf a 19 2 * 4 + bitsOf a 15 2) * 4 + bitsOf a 13 2) * 32 + pc, a / 2 ^ 21)

/-- A row is open: used within the last 200 ns (R364). -/
def Chan.rowOpen (c : Chan) (k : Nat × Nat) (now : Nat) : Bool :=
  c.openRows.any (fun x => x.1 == k.1 && x.2.1 == k.2 && decide (now < x.2.2 + 200))

/-- A row used. -/
def Chan.useRow (c : Chan) (k : Nat × Nat) (now : Nat) : Chan :=
  { c with openRows := (k.1, k.2, now) :: c.openRows.filter (fun x => x.1 ≠ k.1) }

/-! ### Write queues (R363-R368) -/

/-- Twins (lines of a stack) in a list of line numbers (R363). -/
def entriesOf (u : Nat) (ls : List Nat) : Nat := ((ls.map (fun l => if u < 24 then l / 2 else l)).dedup).length

/-- Capacity of a unit's write queue in its entries. -/
def State.wqCap (s : State) (u : Nat) : Nat := if 24 ≤ u then 1024 else if s.rd MEMCH.DIMMS u = 2 then 128 else 64

/-- Write-queue entries in use. -/
def State.wqUsed (s : State) (u : Nat) : Nat := entriesOf u ((s.chan u).wq.map (fun w => w.addr))

/-- A command issued to a row: a row hit counts (R471). -/
def State.rowUse (s : State) (u l : Nat) : State :=
  let k := s.rowKey u l
  let now := s.time.fclk
  let s := if (s.chan u).rowOpen k now then s.event (memUid u) 3 else s
  s.setChan u ((s.chan u).useRow k now)

/-- The write that issues next: the oldest, corrected write-backs last (R368). -/
def Chan.nextWrite (c : Chan) : Option Wr :=
  match c.wq.find? (fun w => !w.low) with
  | some w => some w
  | none => c.wq.head?

/-- A write-queue entry issued with every line it holds; an entry of one line of a twin first reads the twin (R365). -/
def State.issueWrite (s : State) (u : Nat) (w : Wr) : State :=
  let c := s.chan u
  let mine := c.wq.filter (fun x => sameEntry u x.addr w.addr)
  let s := s.rowUse u w.addr
  let s := if u < 24 ∧ mine.length = 1 then s.occur ⟨memUid u, 6, none, none, none⟩ else s
  let s := s.setChan u { (s.chan u) with wq := c.wq.filter (fun x => !sameEntry u x.addr w.addr), crcTries := [] }
  let d := mine.foldl (fun (d : Dram) x =>
    let k := u * 2 ^ 34 + x.addr
    { d with lines := tset (fun _ => 0) d.lines k x.data, poison := tset (fun _ => false) d.poison k x.poison,
             bad := tset (fun _ => false) d.bad k false }) s.dram
  ({ s with dram := d }).occur ⟨memUid u, 2, none, none, none⟩

/-- Room in a unit's write queue: no write is admitted while it is full, so the write that issues next issues first. A unit that
may not issue now (a pause, a lay-by) lets the write wait with those queued (R363, R364, log entry 38). -/
def State.makeRoom (s : State) (u a : Nat) : State :=
  let c := s.chan u
  if c.wq.any (fun x => sameEntry u x.addr a) || decide (s.wqUsed u < s.wqCap u) || !s.mayIssue u then s
  else match c.nextWrite with
    | some w => s.issueWrite u w
    | none => s

/-! ### Raw lines written -/

/-- A raw line put into its unit's write queue: it replaces a queued write of the line, discards a write-back of
its twin or line, and its twin-buffer copy goes (R365, R368). -/
def State.putRaw (s : State) (key : Nat) (data : BitVec 512) (poison : Bool) : State :=
  let u := key / 2 ^ 34
  let a := key % 2 ^ 34
  let s := s.makeRoom u a
  let c := s.chan u
  let w : Wr := ⟨a, data, poison, false⟩
  let q := c.wq.filter (fun x => ¬ (x.low = true ∧ sameEntry u x.addr a = true))
  s.setChan u { c with
    wq := if q.any (fun x => x.addr == a) then q.map (fun x => if x.addr = a then w else x) else q ++ [w]
    twin := c.twin.filter (fun l => l / 2 ≠ a / 2) }

/-! ### Modes, keystream (R311, R316) -/

/-- ACTIVE_MODE of a key slot: 0 NONE, 1 C, 2 CI, 3 CIR. -/
def State.mode (s : State) (key : Nat) : Nat := s.rd KEYSLOT.ACTIVE_MODE key

/-- A key slot's key. -/
def State.keyOf (s : State) (key : Nat) : BitVec 256 := tget (fun _ => 0) s.sealing.keys key

/-- The 16-byte chunk of number `j` put at its place in a line. -/
def chunkAt (j : Nat) (b : BitVec 128) : BitVec 512 := (b.zeroExtend 512) <<< (128 * j)

/-- Input block of a line's chunk (R316, form Line). `line` is DPA[45:6]. -/
def lineBlock (line : Nat) (minor : BitVec 7) (major : BitVec 64) (j : Nat) : BitVec 128 :=
  BitVec.ofNat 128 (j + line % 2 ^ 40 * 2 ^ 3 + minor.toNat * 2 ^ 43 + major.toNat * 2 ^ 50)

/-- Keystream of a line (R316). -/
def keystream (k : BitVec 256) (line : Nat) (minor : BitVec 7) (major : BitVec 64) : BitVec 512 :=
  (List.range 4).foldl (fun a j => a ||| chunkAt j (Config.aes256 k (lineBlock line minor major j))) 0

/-- Input block of a slot's chunk (R316, form Slot). -/
def slotBlock (page : Nat) (counter : BitVec 64) (c : Nat) : BitVec 128 :=
  BitVec.ofNat 128 (c + page % 2 ^ 34 * 2 ^ 7 + counter.toNat * 2 ^ 41 + 2 ^ 126)

/-- The 16 little-endian bytes of a block. -/
def blockBytes (b : BitVec 128) : List (BitVec 8) := leBytes 16 b.toNat

/-- Keystream bytes of a slot's first `n` chunks (R316). -/
def slotStream (k : BitVec 256) (page : Nat) (counter : BitVec 64) (n : Nat) : List (BitVec 8) :=
  (List.range n).flatMap (fun c => blockBytes (Config.aes256 k (slotBlock page counter c)))

/-- Bytes XORed position by position. -/
def xorBytes : List (BitVec 8) → List (BitVec 8) → List (BitVec 8)
  | a :: as, b :: bs => (a ^^^ b) :: xorBytes as bs
  | as, [] => as
  | [], _ => []

/-- The 64 little-endian bytes of a line. -/
def lineBytes (x : BitVec 512) : List (BitVec 8) := leBytes 64 x.toNat
/-- A line from its bytes. -/
def bytesLine (bs : List (BitVec 8)) : BitVec 512 := BitVec.ofNat 512 (leNat (bs.take 64))

/-! ### Counters (R318-R320) -/

/-- A frame's counter block. -/
def State.block (s : State) (k : Nat) : CBlock := tget (fun _ => CBlock.init) s.sealing.blocks k

/-- MINOR[i] of a counter block. -/
def CBlock.minor (b : CBlock) (i : Nat) : BitVec 7 := BitVec.ofNat 7 (bitsOf b.minors.toNat (7 * i) 7)

/-- A counter block with MINOR[i] replaced. -/
def CBlock.setMinor (b : CBlock) (i : Nat) (v : BitVec 7) : CBlock :=
  { b with minors := (b.minors &&& ~~~ BitVec.ofNat 448 (127 * 2 ^ (7 * i))) ||| BitVec.ofNat 448 (v.toNat * 2 ^ (7 * i)) }

/-- The seal clock after a MAJOR is set (R319). -/
def State.clockTo (s : State) (m : BitVec 64) : State :=
  { s with sealing := { s.sealing with clock := if s.sealing.clock.toNat < m.toNat then m else s.sealing.clock } }

/-- A fresh MAJOR: seal clock + 1 (R320). -/
def State.freshMajor (s : State) : BitVec 64 := s.sealing.clock + 1

/-! ### The milestone tree (R330-R338) -/

/-- Leaf index of a frame: UNIT × 2^28 + FRAME (R330), which is its frame key. -/
def leafIdx (k : Nat) : Nat := k

/-- Key of a tree node. -/
def nodeKey (level idx : Nat) : Nat := level * 2 ^ 34 + idx

/-- A tree node. -/
def State.node (s : State) (level idx : Nat) : Node := tget (fun _ => Node.init) s.sealing.nodes (nodeKey level idx)

/-- A tree node replaced. -/
def State.setNode (s : State) (level idx : Nat) (n : Node) : State :=
  { s with sealing := { s.sealing with nodes := tset (fun _ => Node.init) s.sealing.nodes (nodeKey level idx) n } }

/-- Version minor of child `k` (R331). -/
def Node.minorOf (n : Node) (k : Nat) : Nat := bitsOf n.minors.toNat (6 * k) 6

/-- A node with MINOR[k] replaced. -/
def Node.setMinor (n : Node) (k v : Nat) : Node :=
  { n with minors := (n.minors &&& ~~~ BitVec.ofNat 384 (63 * 2 ^ (6 * k))) ||| BitVec.ofNat 384 (v % 64 * 2 ^ (6 * k)) }

/-- The hash subkey of SE63 (R332). -/
def State.treeHash (s : State) : BitVec 128 := s.sealing.treeSub

/-- Seal of 64 bytes of content under a parent's version (R332). -/
def State.treeSeal (s : State) (content : List (BitVec 128)) (idx level : Nat) (major : BitVec 64) (minor : Nat) :
    BitVec 64 :=
  (Config.aes256 s.sealing.treeKey (Config.ghash s.treeHash (content ++
    [BitVec.ofNat 128 (idx % 2 ^ 33 + level * 2 ^ 33), BitVec.ofNat 128 (major.toNat + minor % 64 * 2 ^ 64)]))).truncate 64

/-- A frame's leaf content: its counter block, or its slot counter set (R339), as four blocks. -/
def State.leafContent (s : State) (k : Nat) : List (BitVec 128) :=
  let n : Nat := match (s.frame k).use with
    | .slots _ _ => ((List.range 8).map (fun i => (tget (fun _ => (0 : BitVec 64)) s.sealing.slotCtrs (k * 8 + i)).toNat * 2 ^ (64 * i))).sum
    | _ => (s.block k).major.toNat + (s.block k).minors.toNat * 2 ^ 64
  (List.range 4).map (fun i => BitVec.ofNat 128 (n / 2 ^ (128 * i)))

/-- Node content that its MAC covers: bytes 0-55 (R332). -/
def Node.content (n : Node) : List (BitVec 128) :=
  let v := n.major.toNat + n.minors.toNat * 2 ^ 64
  (List.range 4).map (fun i => BitVec.ofNat 128 (v / 2 ^ (128 * i)))

/-- A node changed in the tree cache is dirty until it is written back; levels 4 and up change in place (R336). -/
def State.markDirty (s : State) (level idx : Nat) : State :=
  if 4 ≤ level ∨ s.sealing.dirty.contains (level, idx) then s
  else { s with sealing := { s.sealing with dirty := s.sealing.dirty ++ [(level, idx)] } }

/-- The version of child `c` at a level advanced: MINOR + 1, or a re-base past 63 (R336, R337). -/
def State.advance (s : State) (level c : Nat) : State :=
  let idx := c / 64
  let k := c % 64
  let n := s.node level idx
  if n.minorOf k < 63 then (s.setNode level idx (n.setMinor k (n.minorOf k + 1))).markDirty level idx
  else
    let s := (s.setNode level idx { n with major := n.major + 1, minors := 0 }).markDirty level idx
    { s with sealing := { s.sealing with rebase := s.sealing.rebase ++ [(level, idx)] } }

/-- A leaf under the tree changed: its parent's version advances and its seal is recomputed (R333, R336). -/
def State.leafChanged (s : State) (k : Nat) : State :=
  let s := s.advance 1 (leafIdx k)
  let n := s.node 1 (leafIdx k / 64)
  { s with sealing := { s.sealing with
      seals := tset (fun _ => 0) s.sealing.seals k (s.treeSeal (s.leafContent k) (leafIdx k) 0 n.major (n.minorOf (leafIdx k % 64))) } }

/-- A leaf's seal is right under its parent's version (R335). -/
def State.leafOk (s : State) (k : Nat) : Bool :=
  let n := s.node 1 (leafIdx k / 64)
  tget (fun _ => 0) s.sealing.seals k ==
    s.treeSeal (s.leafContent k) (leafIdx k) 0 n.major (n.minorOf (leafIdx k % 64))

/-- A node's MAC recomputed under its parent's version (R332). -/
def State.remac (s : State) (level idx : Nat) : State :=
  let par := s.node (level + 1) (idx / 64)
  let n := s.node level idx
  s.setNode level idx { n with mac := s.treeSeal n.content idx level par.major (par.minorOf (idx % 64)) }

/-- A node of levels 1 to 3 verifies under its parent's version (R335): one that has been written back by its MAC; one that is
still as it was first written, or is kept verified in the tree cache, does. -/
def State.nodeOk (s : State) (level idx : Nat) : Bool :=
  let par := s.node (level + 1) (idx / 64)
  let n := s.node level idx
  !s.sealing.nodes.any (fun x => x.1 == nodeKey level idx) || s.sealing.dirty.contains (level, idx) ||
  n.mac == s.treeSeal n.content idx level par.major (par.minorOf (idx % 64))

/-- Every node between a leaf and the levels on die verifies (R335). -/
def State.pathOk (s : State) (k : Nat) : Bool := [1, 2, 3].all (fun l => s.nodeOk l (leafIdx k / 64 ^ l))

/-- A counter block set, with the seal clock, and the tree when the page is CIR (R319, R336). -/
def State.setBlock (s : State) (k key : Nat) (b : CBlock) : State :=
  if s.mode key = 0 then s
  else
    let s := (s.clockTo b.major)
    let s := { s with sealing := { s.sealing with blocks := tset (fun _ => CBlock.init) s.sealing.blocks k b } }
    if s.mode key = 3 then s.leafChanged k else s

/-! ### Tags (R322-R325) -/

/-- Hash subkey H of a key slot (R323). -/
def State.hashKey (s : State) (key : Nat) : BitVec 128 := Config.aes256 (s.keyOf key) (BitVec.ofNat 128 (1 + 3 * 2 ^ 126))
/-- Tag subkey K_T of a key slot (R323). -/
def State.tagKey (s : State) (key : Nat) : BitVec 256 :=
  (Config.aes256 (s.keyOf key) (BitVec.ofNat 128 (2 + 3 * 2 ^ 126))) ++
  (Config.aes256 (s.keyOf key) (BitVec.ofNat 128 (3 + 3 * 2 ^ 126)))

/-- The four 16-byte blocks of a line. -/
def lineBlocks (x : BitVec 512) : List (BitVec 128) := (List.range 4).map (fun j => (x >>> (128 * j)).truncate 128)

/-- A span's tag over the given ciphertext lines (R323). `page` is DPA[45:12]. -/
def State.spanTag (s : State) (key page span : Nat) (b : CBlock) (lines : List (BitVec 512)) : BitVec 64 :=
  let minors := ((List.range 4).map (fun k => (b.minor (4 * span + k)).toNat * 2 ^ (64 + 7 * k))).sum
  (Config.aes256 (s.tagKey key) (Config.ghash (s.hashKey key)
    (lines.flatMap lineBlocks ++
     [BitVec.ofNat 128 ((page * 16 + span) % 2 ^ 38 + key * 2 ^ 38 + 2 * 2 ^ 126),
      BitVec.ofNat 128 (b.major.toNat + minors)]))).truncate 64

/-- The stored ciphertext lines of a span. -/
def State.spanLines (s : State) (k span : Nat) : List (BitVec 512) :=
  (List.range 4).map (fun i => (s.raw (frLine k (4 * span + i))).data)

/-- A span's stored tag. -/
def State.tagAt (s : State) (k span : Nat) : BitVec 64 := tget (fun _ => 0) s.sealing.tags (k * 16 + span)

/-- A span's tag computed anew over what is stored (R328). -/
def State.retag (s : State) (k key page span : Nat) : State :=
  if s.mode key < 2 then s
  else { s with sealing := { s.sealing with
    tags := tset (fun _ => 0) s.sealing.tags (k * 16 + span) (s.spanTag key page span (s.block k) (s.spanLines k span))
    spans := s.sealing.spans.filter (· ≠ k * 16 + span) } }

/-- Does a span verify: its tag, and in CIR its leaf and the nodes above it (R325, R335)? `lines` is what was read. -/
def State.spanOk (s : State) (k key page span : Nat) (lines : List (BitVec 512)) : Bool :=
  if s.mode key < 2 then true
  else (s.tagAt k span == s.spanTag key page span (s.block k) lines) && (s.mode key != 3 || (s.leafOk k && s.pathOk k))

/-- A span that failed its check (R21, R335, R345): a memory error where its decode corrected an error, else an integrity failure
of the leaf, of a node above it, or of the span. -/
def State.spanFault (s : State) (k key page span : Nat) (corrected : Bool) : State :=
  let dpa := (page * 16 + span) * 256
  let su := sealUid (frUnit k)
  if corrected then s.report su 0x35 1 (dpa + key * 2 ^ 46)
  else if s.mode key = 3 && !s.leafOk k then s.integrity treeUid dpa key 2
  else if s.mode key = 3 && !s.pathOk k then s.integrity treeUid dpa key 3
  else s.integrity su dpa key 0

/-! ### Lines through sealing -/

/-- A line decrypted: ciphertext to plaintext or back (R311, R316). -/
def State.crypt (s : State) (key line k : Nat) (x : BitVec 512) : BitVec 512 :=
  if s.mode key = 0 then x
  else x ^^^ keystream (s.keyOf key) line ((s.block k).minor (line % 64)) (s.block k).major

/-- Every line of a span stored as poisoned (R21, R329). -/
def State.poisonSpan (s : State) (k span : Nat) : State :=
  (List.range 4).foldl (fun s i =>
    let key := frLine k (4 * span + i)
    s.putRaw key (s.raw key).data true) s

/-- A whole frame sealed with plaintext lines under a fresh counter block (R250, R297, R321, R341, R342). -/
def State.sealFrame (s : State) (k key page : Nat) (major : BitVec 64) (lines : List (BitVec 512 × Bool)) : State :=
  let s := s.setBlock k key ⟨major, 0⟩
  let s := (lines.zipIdx).foldl (fun s x =>
    s.putRaw (frLine k x.2) (s.crypt key (page * 64 + x.2) k x.1.1) x.1.2) s
  (List.range 16).foldl (fun s sp => s.retag k key page sp) s

/-- Merge entries of a frame. -/
def State.mergesOf (s : State) (k : Nat) : List Merge :=
  s.sealing.merges.filter (fun m => frKey m.unit m.frame == k)

/-- Bytes of `new` under a byte mask over `old`. -/
def maskBytes (old new : BitVec 512) (mask : BitVec 64) : BitVec 512 :=
  let m := (List.range 64).foldl (fun (a : BitVec 512) i =>
    if mask.getLsbD i then a ||| (0xFF#512 <<< (8 * i)) else a) 0
  (old &&& ~~~ m) ||| (new &&& m)

/-- The plaintext of line `i` of a page frame, as stored, with poison or an uncorrectable error (merge
entries' bytes over it, R326). -/
def State.plain (s : State) (k key page i : Nat) : BitVec 512 × Bool :=
  let r := s.raw (frLine k i)
  let p := s.crypt key (page * 64 + i) k r.data
  match (s.mergesOf k).find? (fun m => m.span == i / 4) with
  | some m => match m.lines[i % 4]? with
    | some (d, mask, poi) =>
      if mask = 0 then (p, r.poison || r.bad)
      else if mask = BitVec.allOnes 64 then (d, poi)
      else (maskBytes p d mask, poi || r.poison || r.bad)
    | none => (p, r.poison || r.bad)
  | none => (p, r.poison || r.bad)

/-- All 64 plaintext lines of a page frame. -/
def State.plainPage (s : State) (k key page : Nat) : List (BitVec 512 × Bool) :=
  (List.range 64).map (s.plain k key page)

/-- The first span of a page frame that does not verify, if any (R321 step 3, R341 step 5, R294 step 3). -/
def State.badSpan (s : State) (k key page : Nat) : Option Nat :=
  (List.range 16).find? (fun sp => !s.spanOk k key page sp (s.spanLines k sp))

/-- The minor counters incremented for the lines of `mask`, or none when one would pass 127 (R320). -/
def CBlock.bump (b : CBlock) (span : Nat) (present : List Bool) : Option CBlock :=
  (present.zipIdx).foldl (fun ob x =>
    match ob with
    | none => none
    | some b =>
      if x.1 then
        if (b.minor (4 * span + x.2)).toNat = 127 then none
        else some (b.setMinor (4 * span + x.2) (b.minor (4 * span + x.2) + 1))
      else some b) (some b)

/-- Minor-overflow re-encryption (R321): merge entries folded in, every line sealed anew under MAJOR + 1, new
accesses held until `REENCRYPTION_COMPLETE`. A span that does not verify is poisoned. -/
def State.reencrypt (s : State) (k key page : Nat) : State :=
  let bad := (List.range 16).filter (fun sp => !s.spanOk k key page sp (s.spanLines k sp))
  let lines := s.plainPage k key page
  let lines := (lines.zipIdx).map (fun x => (x.1.1, x.1.2 || bad.contains (x.2 / 4)))
  let s := { s with sealing := { s.sealing with
    merges := s.sealing.merges.filter (fun m => frKey m.unit m.frame ≠ k), reenc := s.sealing.reenc ++ [page] } }
  let s := bad.foldl (fun s sp => s.spanFault k key page sp false) s
  let s := (s.event (sealUid (frUnit k)) 5).fixed 532
  s.sealFrame k key page ((s.block k).major + 1) lines

/-- A closed merge entry sealed (R328, R329). `dec` is how the read-verify's read decoded. -/
def State.sealMerge (s : State) (m : Merge) (dec : Decode) : State :=
  let k := frKey m.unit m.frame
  let full := m.lines.all (fun x => x.2.1 == BitVec.allOnes 64)
  let s1 := { s with sealing := { s.sealing with merges := s.sealing.merges.filter (· ≠ m) } }
  let su := sealUid m.unit
  let stored := s.spanLines k m.span
  let read := match dec with
    | .wrong flip _ => match stored with | x :: t => (x ^^^ flip) :: t | [] => []
    | _ => stored
  let ok := s.spanOk k m.key m.page m.span read
  let corrected := match dec with | .corrected _ => true | .wrong _ c => !c | _ => false
  let unread := !full && (dec == .uncorrectable || (List.range 4).any (fun i => (s.raw (frLine k (4 * m.span + i))).bad))
  if unread then s1.poisonSpan k m.span
  else if !full && !ok then (s1.poisonSpan k m.span).spanFault k m.key m.page m.span corrected
  else
    let present := m.lines.map (fun x => x.2.1 != 0)
    let plain := (List.range 4).map (fun i => s.plain k m.key m.page (4 * m.span + i))
    match (s.block k).bump m.span present with
    | none => s.reencrypt k m.key m.page
    | some b =>
      let s1 := s1.setBlock k m.key b
      let s1 := (plain.zipIdx).foldl (fun s' x =>
        if present.getD x.2 false then
          s'.putRaw (frLine k (4 * m.span + x.2)) (s'.crypt m.key (m.page * 64 + 4 * m.span + x.2) k x.1.1) x.1.2
        else s') s1
      let s1 := s1.retag k m.key m.page m.span
      if full then s1.event su 3 else (s1.event su 4).fixed 531

/-- Merge entries closed (R327). A closed entry is read-verified and sealed by `MERGE_ENTRY_SEAL`; a write that reaches it before
that is merged into it (R328). -/
def State.closeMerges (s : State) (sel : Merge → Bool) : State :=
  { s with sealing := { s.sealing with merges := s.sealing.merges.map (fun m =>
      if sel m then { m with until_ := min m.until_ s.time.fclk } else m) } }

/-- The merge entries of a frame closed (R327: a move's hold, a stow). -/
def State.closeFrame (s : State) (k : Nat) : State := s.closeMerges (fun m => frKey m.unit m.frame == k)

/-- The unit's oldest open entry closed, when its buffer is full (R326, R327). -/
def State.closeOldest (s : State) (u : Nat) : State :=
  let mine := s.sealing.merges.filter (fun m => m.unit == u)
  if mine.length < (if u < 24 then 128 else 512) then s
  else match mine.find? (fun m => decide (s.time.fclk < m.until_)) with
    | some o => s.closeMerges (fun m => m == o)
    | none => s

/-- A write put into the span merge buffer (R326, R327): an entry is opened or added to. With all four lines present in full it
is sealed at once, without a read (R328). -/
def State.mergeWrite (s : State) (k key page i : Nat) (data : BitVec 512) (mask : BitVec 64) (poison : Bool) : State :=
  let span := i / 4
  let s := match (s.mergesOf k).find? (fun m => m.span == span) with
    | some _ => s
    | none =>
      let s := s.closeOldest (frUnit k)
      let m : Merge :=
        { unit := frUnit k, frame := k % 2 ^ 28, span := span, page := page, key := key,
          lines := [(0, 0, false), (0, 0, false), (0, 0, false), (0, 0, false)],
          until_ := s.time.fclk + 16 * s.inf KEYSLOT.MERGE_WINDOW key }
      { s with sealing := { s.sealing with merges := s.sealing.merges ++ [m] } }
  match (s.mergesOf k).find? (fun m => m.span == span) with
  | none => s
  | some m =>
    let m' := { m with lines := (m.lines.zipIdx).map (fun x =>
      if x.2 = i % 4 then
        (maskBytes x.1.1 data mask, x.1.2.1 ||| mask, (if mask = BitVec.allOnes 64 then poison else x.1.2.2 || poison))
      else x.1) }
    let s := { s with sealing := { s.sealing with
      merges := s.sealing.merges.map (fun n => if n = m then m' else n)
      spans := s.sealing.spans.filter (· ≠ k * 16 + span) } }
    if m'.lines.all (fun x => x.2.1 == BitVec.allOnes 64) then s.sealMerge m' .clean
    else s

/-- How the read that a byte-masked write needs decodes: a line whose write is still queued is not read from DRAM, and a line
known bad stays uncorrectable (R19, R362). -/
def State.rmwDecode (s : State) (k i : Nat) (mask : BitVec 64) (dec : Decode) : Decode :=
  let ln := frLine k i
  if mask = BitVec.allOnes 64 ∨ (s.chan (frUnit k)).wq.any (fun w => w.addr == ln % 2 ^ 34) = true then .clean
  else if (s.raw ln).bad then .uncorrectable else dec

/-- A line write through sealing (R19, R320, R326): modes NONE and C write the line, CI and CIR go to the merge buffer. A
byte-masked write in NONE or C reads the line first, which decodes as `dec`: its faults are recorded, and where it is
uncorrectable the write is dropped and the line poisoned. -/
def State.writeLine (s : State) (k key page i : Nat) (data : BitVec 512) (mask : BitVec 64) (poison : Bool) (dec : Decode) :
    State :=
  if 2 ≤ s.mode key then s.mergeWrite k key page i data mask poison
  else
    let ln := frLine k i
    let dec := s.rmwDecode k i mask dec
    let r := s.raw ln
    let s := s.decodeFaults (frUnit k) (ln % 2 ^ 34) dec
    if dec = .uncorrectable then s.putRaw ln r.data true
    else
      let read := match dec with | .wrong flip _ => r.data ^^^ flip | _ => r.data
      let old := s.crypt key (page * 64 + i) k read
      let new := maskBytes old data mask
      let poison := poison || ((r.poison || dec == .poisoned) && mask != BitVec.allOnes 64)
      if s.mode key = 0 then s.putRaw ln new poison
      else
        let b := s.block k
        if (b.minor i).toNat = 127 then
          (s.putRaw ln (s.crypt key (page * 64 + i) k new) poison).reencrypt k key page
        else
          let s := s.setBlock k key (b.setMinor i (b.minor i + 1))
          s.putRaw ln (s.crypt key (page * 64 + i) k new) poison

end Sys2Proof.Machine
end

