-- ==== Sys2Proof/Machine/Deflate.lean ====
section
/-! DEFINITION. The DEFLATE subset of RFC 1951 that slots and streams use (R288, R289, R303): the fixed
Huffman code, LZ77 matching by effort level, and decoders. Bits are lists in stream order. -/
namespace Sys2Proof.Machine

/-- `n` bits of a number, least significant first. -/
def bitsLsb : Nat → Nat → List Bool
  | 0, _ => []
  | n + 1, v => (v % 2 == 1) :: bitsLsb n (v / 2)

/-- `n` bits of a number, most significant first (Huffman codes). -/
def bitsMsb (n v : Nat) : List Bool := (bitsLsb n v).reverse

/-- The number of bits given least significant first. -/
def natLsb : List Bool → Nat
  | [] => 0
  | b :: bs => (if b then 1 else 0) + 2 * natLsb bs

/-- The number of bits given most significant first. -/
def natMsb (bs : List Bool) : Nat := natLsb bs.reverse

/-- Bytes from bits, eight at a time, a last group padded with zeros. -/
def packBits : Nat → List Bool → List (BitVec 8)
  | 0, _ => []
  | _, [] => []
  | fuel + 1, bs => BitVec.ofNat 8 (natLsb (bs.take 8)) :: packBits fuel (bs.drop 8)

/-- Bits of bytes. -/
def unpackBits (bs : List (BitVec 8)) : List Bool := bs.flatMap (fun b => bitsLsb 8 b.toNat)

/-- A literal, or a match of a length at a distance. -/
inductive Tok where
  | lit (b : BitVec 8)
  | copy (len dist : Nat)
deriving DecidableEq, Repr

/-- The fixed code of a literal/length symbol (RFC 1951, 3.2.6). -/
def litCode (v : Nat) : List Bool :=
  if v < 144 then bitsMsb 8 (0x30 + v)
  else if v < 256 then bitsMsb 9 (0x190 + (v - 144))
  else if v < 280 then bitsMsb 7 (v - 256)
  else bitsMsb 8 (0xC0 + (v - 280))

/-- Length symbols: (symbol, extra bits, first length) (RFC 1951, 3.2.5). -/
def lenRows : List (Nat × Nat × Nat) :=
  [(257, 0, 3), (258, 0, 4), (259, 0, 5), (260, 0, 6), (261, 0, 7), (262, 0, 8), (263, 0, 9), (264, 0, 10),
   (265, 1, 11), (266, 1, 13), (267, 1, 15), (268, 1, 17), (269, 2, 19), (270, 2, 23), (271, 2, 27),
   (272, 2, 31), (273, 3, 35), (274, 3, 43), (275, 3, 51), (276, 3, 59), (277, 4, 67), (278, 4, 83),
   (279, 4, 99), (280, 4, 115), (281, 5, 131), (282, 5, 163), (283, 5, 195), (284, 5, 227), (285, 0, 258)]

/-- Distance symbols: (symbol, extra bits, first distance) (RFC 1951, 3.2.5). -/
def distRows : List (Nat × Nat × Nat) :=
  [(0, 0, 1), (1, 0, 2), (2, 0, 3), (3, 0, 4), (4, 1, 5), (5, 1, 7), (6, 2, 9), (7, 2, 13), (8, 3, 17),
   (9, 3, 25), (10, 4, 33), (11, 4, 49), (12, 5, 65), (13, 5, 97), (14, 6, 129), (15, 6, 193), (16, 7, 257),
   (17, 7, 385), (18, 8, 513), (19, 8, 769), (20, 9, 1025), (21, 9, 1537), (22, 10, 2049), (23, 10, 3073),
   (24, 11, 4097), (25, 11, 6145), (26, 12, 8193), (27, 12, 12289), (28, 13, 16385), (29, 13, 24577)]

/-- The last row whose first value does not exceed `v`. -/
def rowFor (rows : List (Nat × Nat × Nat)) (v : Nat) : Nat × Nat × Nat :=
  ((rows.filter (fun r => r.2.2 ≤ v)).getLast?).getD (0, 0, 0)

/-- Bits of a token. -/
def Tok.bits : Tok → List Bool
  | .lit b => litCode b.toNat
  | .copy len dist =>
    let r := rowFor lenRows len
    let q := rowFor distRows dist
    litCode r.1 ++ bitsLsb r.2.1 (len - r.2.2) ++ bitsMsb 5 q.1 ++ bitsLsb q.2.1 (dist - q.2.2)

/-- Length of the match of positions `p` and `q`, at most the fuel. -/
def matchLen (a : Array (BitVec 8)) : Nat → Nat → Nat → Nat
  | 0, _, _ => 0
  | fuel + 1, p, q =>
    if p < a.size ∧ a.getD p 0 = a.getD q 0 then 1 + matchLen a fuel (p + 1) (q + 1) else 0

/-- The best match at `p` among the `n` newest earlier positions with the same three bytes, scanning down
from `q - 1`: the longest, the nearest among equals (R289). -/
def bestMatch (a : Array (BitVec 8)) (p maxDist : Nat) : Nat → Nat → Nat × Nat → Nat × Nat
  | 0, _, best => best
  | q + 1, n, best =>
    if n = 0 ∨ maxDist < p - q then best
    else
      let l := matchLen a 258 p q
      if 3 ≤ l then bestMatch a p maxDist q (n - 1) (if best.1 < l then (l, p - q) else best)
      else bestMatch a p maxDist q n best

/-- Tokens of the bytes from `p` on (R289): no lazy matching. -/
def tokens (a : Array (BitVec 8)) (n maxDist : Nat) : Nat → Nat → List Tok
  | 0, _ => []
  | fuel + 1, p =>
    if a.size ≤ p then []
    else
      let m := if p + 3 ≤ a.size then bestMatch a p maxDist p n (0, 0) else (0, 0)
      if 3 ≤ m.1 then .copy m.1 m.2 :: tokens a n maxDist fuel (p + m.1)
      else .lit (a.getD p 0) :: tokens a n maxDist fuel (p + 1)

/-- Candidates examined at an effort level (R290). -/
def effort (level : Nat) : Nat := 2 ^ (level % 8)

/-- A fixed Huffman block. -/
def fixedBlock (final : Bool) (ts : List Tok) : List Bool :=
  final :: bitsLsb 2 1 ++ ts.flatMap Tok.bits ++ litCode 256

/-- A stored block after `pos` bits of the stream (RFC 1951, 3.2.4). -/
def storedBlock (pos : Nat) (bytes : List (BitVec 8)) : List Bool :=
  [false, false, false] ++ List.replicate ((8 - (pos + 3) % 8) % 8) false ++
  bitsLsb 16 bytes.length ++ bitsLsb 16 (65535 - bytes.length) ++ unpackBits bytes

/-- The coded payload of a page (R288, R289). -/
def codePage (page : List (BitVec 8)) (level : Nat) : List (BitVec 8) :=
  let a := page.toArray
  let bits := fixedBlock true (tokens a (effort level) 4096 a.size 0)
  packBits bits.length bits

/-- What reading one symbol of a block gives. -/
inductive Sym where
  | tok (t : Tok) (rest : List Bool)
  | eob (rest : List Bool)
  /-- The bits end within the symbol. -/
  | more
  | bad
deriving DecidableEq, Repr

/-- `n` bits taken, when there are as many. -/
def takeBits (n : Nat) (bs : List Bool) : Option (List Bool × List Bool) :=
  if bs.length < n then none else some (bs.take n, bs.drop n)

/-- A distance after a length (RFC 1951). -/
def readDist (len : Nat) (bs : List Bool) : Sym :=
  match takeBits 5 bs with
  | none => .more
  | some (c, r) =>
    match distRows[natMsb c]? with
    | none => .bad
    | some (_, e, d) =>
      match takeBits e r with
      | none => .more
      | some (x, r) => .tok (.copy len (d + natLsb x)) r

/-- One symbol of a fixed Huffman block. -/
def readSym (bs : List Bool) : Sym :=
  let len := fun (v : Nat) (r : List Bool) =>
    if v = 256 then Sym.eob r
    else match lenRows[v - 257]? with
      | none => .bad
      | some (_, e, l) =>
        match takeBits e r with
        | none => .more
        | some (x, r) => readDist (l + natLsb x) r
  match takeBits 7 bs with
  | none => .more
  | some (c, r) =>
    if natMsb c < 24 then len (256 + natMsb c) r
    else match takeBits 8 bs with
      | none => .more
      | some (c, r) =>
        let v := natMsb c
        if v < 192 then .tok (.lit (BitVec.ofNat 8 (v - 48))) r
        else if v < 200 then len (280 + (v - 192)) r
        else match takeBits 9 bs with
          | none => .more
          | some (c, r) => .tok (.lit (BitVec.ofNat 8 (natMsb c - 400 + 144))) r

/-- `n` bytes copied from `dist` back. -/
def copyBack : Nat → Nat → Array (BitVec 8) → Array (BitVec 8)
  | 0, _, out => out
  | n + 1, dist, out => copyBack n dist (out.push (out.getD (out.size - dist) 0))

/-- A fixed Huffman block decoded to its end (a slot's; R288): the output and the bits after it. -/
def decodeFixed (maxDist limit : Nat) : Nat → List Bool → Array (BitVec 8) → Option (Array (BitVec 8) × List Bool)
  | 0, _, _ => none
  | fuel + 1, bs, out =>
    match readSym bs with
    | .eob r => some (out, r)
    | .tok (.lit b) r => if limit ≤ out.size then none else decodeFixed maxDist limit fuel r (out.push b)
    | .tok (.copy l d) r =>
      if out.size < d ∨ maxDist < d ∨ limit < out.size + l then none
      else decodeFixed maxDist limit fuel r (copyBack l d out)
    | _ => none

/-- A slot's payload decoded, when it meets R288. -/
def decodePage (payload : List (BitVec 8)) : Option (List (BitVec 8)) :=
  match unpackBits payload with
  | true :: true :: false :: bs =>
    match decodeFixed 4096 4096 bs.length bs #[] with
    | some (out, rest) =>
      if out.size = 4096 ∧ (rest.take (rest.length % 8)).all (! ·) then some out.toList else none
    | none => none
  | _ => none

end Sys2Proof.Machine
end

