-- ==== Sys2Proof/Machine/Pages.lean ====
section
/-! DEFINITION. Pages: slots and their sealing, allocation and freeing, loss, the switch of a move, stowing
and decoding (R240-R259, R285-R297, R339-R342). -/
namespace Sys2Proof.Machine

/-! ### Slots (R285, R291, R292, R339) -/

/-- Bytes of a slot of a class: 2,048, 1,024 or 512. -/
def slotBytes (cls : Nat) : Nat := 4096 / 2 ^ cls
/-- Slots in a slot frame of a class. -/
def slotsPer (cls : Nat) : Nat := 2 ^ cls
/-- Index of a slot in its frame. -/
def slotIdx (loc cls : Nat) : Nat := locPos loc * 512 / slotBytes cls
/-- LOC of slot `i` of a slot frame. -/
def slotLoc (k cls i : Nat) : Nat := frLoc k + i * slotBytes cls / 512
/-- DRAM line keys of a slot. -/
def slotLines (loc cls : Nat) : List Nat :=
  (List.range (slotBytes cls / 64)).map (fun i => frLine (locFrame loc) (locPos loc * 8 + i))

/-- The stored bytes of a slot. -/
def State.slotRaw (s : State) (loc cls : Nat) : List (BitVec 8) :=
  (slotLines loc cls).flatMap (fun k => lineBytes (s.raw k).data)

/-- A line of a slot is uncorrectable or stored as poisoned. -/
def State.slotBad (s : State) (loc cls : Nat) : Bool :=
  (slotLines loc cls).any (fun k => (s.raw k).bad || (s.raw k).poison)

/-- A slot's bytes written. -/
def State.putSlot (s : State) (loc cls : Nat) (bs : List (BitVec 8)) : State :=
  ((slotLines loc cls).zipIdx).foldl (fun s x => s.putRaw x.1 (bytesLine (bs.drop (64 * x.2))) false) s

/-- The page-level counter of a slot (R339). -/
def State.slotCtr (s : State) (loc cls : Nat) : BitVec 64 :=
  tget (fun _ => (0 : BitVec 64)) s.sealing.slotCtrs (locFrame loc * 8 + slotIdx loc cls)

/-- A slot frame holds a slot of a CIR page, so its leaf is under the tree (R333). -/
def State.cirFrame (s : State) (k : Nat) : Bool :=
  match (s.frame k).use with
  | .slots _ ps => ps.any (fun p => match p with | some q => s.mode (s.page q).key == 3 | none => false)
  | .page q => s.mode (s.page q).key == 3
  | _ => false

/-- The frames whose leaves lie under a level-1 node and under the tree (R333). -/
def State.leavesUnder (s : State) (idx : Nat) : List Nat :=
  ((s.plc.frames.map Prod.fst).filter (fun k => leafIdx k / 64 == idx)).filter s.cirFrame

/-- A leaf sealed under its parent's version as it stands. -/
def State.reseal (s : State) (k : Nat) : State :=
  let n := s.node 1 (leafIdx k / 64)
  { s with sealing := { s.sealing with
      seals := tset (fun _ => 0) s.sealing.seals k (s.treeSeal (s.leafContent k) (leafIdx k) 0 n.major (n.minorOf (leafIdx k % 64))) } }

/-- The children of a node sealed anew: leaves under level 1, nodes that carry a MAC under levels 2 to 4. -/
def State.resealChildren (s : State) (level idx : Nat) : State :=
  if level = 1 then (s.leavesUnder idx).foldl (fun s k => s.reseal k) s
  else if level ≤ 4 then
    ((s.sealing.nodes.map (fun n => n.1)).filter (fun k => k / 2 ^ 34 == level - 1 && k % 2 ^ 34 / 64 == idx)).foldl
      (fun s k => s.remac (level - 1) (k % 2 ^ 34)) s
  else s

/-- A slot's counter set; the leaf follows when it is under the tree (R339, R340). -/
def State.setSlotCtr (s : State) (loc cls key : Nat) (c : BitVec 64) : State :=
  let k := locFrame loc
  let sl : Seal := { s.sealing with
    slotCtrs := tset (fun _ => 0) s.sealing.slotCtrs (k * 8 + slotIdx loc cls) c }
  let s : State := { s with sealing := sl }
  if s.mode key = 3 ∨ s.cirFrame k then s.leafChanged k else s

/-- The 16-byte blocks of a byte string whose length is a multiple of 16. -/
def blocks16 : Nat → List (BitVec 8) → List (BitVec 128)
  | 0, _ => []
  | n + 1, bs => BitVec.ofNat 128 (leNat (bs.take 16)) :: blocks16 n (bs.drop 16)

/-- A slot's tag (R323): header bytes 0-7, the rest of the slot as stored, page, key slot and counter. -/
def State.slotTag (s : State) (key page : Nat) (counter : BitVec 64) (hdr body : List (BitVec 8)) : BitVec 64 :=
  (Config.aes256 (s.tagKey key) (Config.ghash (s.hashKey key)
    (blocks16 1 (hdr ++ zeros 8) ++ blocks16 (body.length / 16) body ++
     [BitVec.ofNat 128 (page % 2 ^ 34 + key * 2 ^ 34 + 2 ^ 126), BitVec.ofNat 128 counter.toNat]))).truncate 64

/-- The first eight header bytes (R291). -/
def slotHdr (cls level mode : Nat) (counter : BitVec 64) (crc : BitVec 32) : List (BitVec 8) :=
  leBytes 8 (1 + cls * 2 ^ 4 + level * 2 ^ 6 + mode * 2 ^ 9 +
    (if mode = 0 then 0 else counter.toNat % 2 ^ 16) * 2 ^ 16 + crc.toNat * 2 ^ 32)

/-- A slot's bytes encrypted or decrypted (R292). -/
def State.slotCrypt (s : State) (key page : Nat) (counter : BitVec 64) (body : List (BitVec 8)) : List (BitVec 8) :=
  if s.mode key = 0 then body
  else xorBytes body (slotStream (s.keyOf key) page counter ((body.length + 15) / 16))

/-- A slot formed from a plaintext body (payload and padding), sealed and written (R292, R294 step 6). -/
def State.sealSlot (s : State) (page key loc cls level : Nat) (counter : BitVec 64) (crc : BitVec 32)
    (body : List (BitVec 8)) : State :=
  let m := s.mode key
  let hdr := slotHdr cls level m counter crc
  let cipher := s.slotCrypt key page counter body
  let tag := if m < 2 then 0 else s.slotTag key page counter hdr cipher
  (s.putSlot loc cls (hdr ++ leBytes 8 tag.toNat ++ cipher)).setSlotCtr loc cls key (if m = 0 then 0 else counter)

/-- What a slot's opening finds (R296). -/
inductive Opened where
  /-- Header, and body in plaintext. -/
  | ok (hdr body : List (BitVec 8))
  | memory
  | integrity (kind : Nat)
deriving DecidableEq, Repr

/-- A slot read, verified and decrypted: orders 1 to 3 of R296. `page` is DPA[45:12]. -/
def State.openSlot (s : State) (page key loc cls : Nat) : Opened :=
  if s.slotBad loc cls then .memory
  else
    let m := s.mode key
    let bs := s.slotRaw loc cls
    let hdr := bs.take 8
    let body := bs.drop 16
    let c := s.slotCtr loc cls
    if m = 3 && !s.leafOk (locFrame loc) then .integrity 2
    else if m = 3 && !s.pathOk (locFrame loc) then .integrity 3
    else if leAt bs 2 2 ≠ (if m = 0 then 0 else c.toNat % 2 ^ 16) then .integrity 1
    else if 2 ≤ m ∧ leAt bs 8 8 ≠ (s.slotTag key page c hdr body).toNat then .integrity 1
    else .ok hdr (s.slotCrypt key page c body)

/-- The plaintext bytes of a page frame's lines. -/
def linesBytes (ls : List (BitVec 512 × Bool)) : List (BitVec 8) := ls.flatMap (fun x => lineBytes x.1)

/-- 64 clean lines from 4,096 bytes. -/
def bytesLines (bs : List (BitVec 8)) : List (BitVec 512 × Bool) :=
  (List.range 64).map (fun i => (bytesLine (bs.drop (64 * i)), false))

/-- What a decode gives (R296). -/
inductive Decoded where
  | ok (bytes : List (BitVec 8))
  | memory
  | integrity (kind : Nat)
deriving DecidableEq, Repr

/-- A stowed page decoded through the checks of R296. -/
def State.decodeStowed (s : State) (p : Nat) : Decoded :=
  let x := s.page p
  match s.openSlot p x.key x.loc x.slotClass with
  | .memory => .memory
  | .integrity k => .integrity k
  | .ok hdr body =>
    match decodePage body with
    | some out => if (crc32c out).toNat = leAt hdr 4 4 then .ok out else .memory
    | none => .memory

/-! ### Freeing (R253 step 7, R258, R259) -/

/-- A slot freed: an empty slot frame returns to the pool; a slot freed in a full slot frame that is not
pending retirement is noted for compaction (R258). -/
def State.freeSlot (s : State) (loc cls : Nat) : State :=
  let k := locFrame loc
  let s := { s with sealing := { s.sealing with
    slotCtrs := tset (fun _ => 0) s.sealing.slotCtrs (k * 8 + slotIdx loc cls) 0 } }
  match (s.frame k).use with
  | .slots c ps =>
    let full := ps.all Option.isSome
    let ps := setAt ps (slotIdx loc cls) none
    if ps.all Option.isNone then
      { (s.setFrame k { s.frame k with use := .slots c ps }).release k with plc :=
        { ((s.setFrame k { s.frame k with use := .slots c ps }).release k).plc with
          compact := s.plc.compact.filter (fun l => locFrame l ≠ k) } }
    else
      let s := s.setFrame k { s.frame k with use := .slots c ps }
      let s := if s.cirFrame k then s.leafChanged k else s
      if full && !(s.frame k).retiring then
        { s with plc := { s.plc with compact := s.plc.compact ++ [loc] } }
      else s
  | _ => s

/-- The slot class of a page's storage: the slot's for STOWED and for MOVING from STOWED, else 0. -/
def Page.slot (x : Page) : Nat :=
  if x.st = .stowed ∨ (x.st = .moving ∧ x.src = .stowed) then x.slotClass else 0

/-- A LOC freed, a frame's (class 0) or a slot's. -/
def State.freeLoc (s : State) (loc cls : Nat) : State :=
  if cls = 0 then s.release (locFrame loc) else s.freeSlot loc cls

/-- Merge entries of a page's frame dropped with it. -/
def State.dropMerges (s : State) (k : Nat) : State :=
  { s with sealing := { s.sealing with merges := s.sealing.merges.filter (fun m => frKey m.unit m.frame ≠ k) } }

/-- A page's storage freed, with a move's target. -/
def State.freeStorage (s : State) (p : Nat) : State :=
  let x := s.page p
  let s := match s.plc.moves.find? (fun m => m.page == p) with
    | some m =>
      let s := if m.target = 0 then s else s.freeLoc m.target m.tgtClass
      { s with plc := { s.plc with moves := s.plc.moves.filter (fun n => n.page ≠ p) } }
    | none => s
  match x.st with
  | .near => (s.dropMerges (locFrame x.loc)).freeLoc x.loc 0
  | .far => (s.dropMerges (locFrame x.loc)).freeLoc x.loc 0
  | .stowed => s.freeLoc x.loc x.slotClass
  | .moving => (if x.slot = 0 then s.dropMerges (locFrame x.loc) else s).freeLoc x.loc x.slot
  | _ => s

/-- A page goes BLANK: its frame or slot is freed, its key slot cleared; its PIN stands (R245). -/
def State.blankPage (s : State) (p : Nat) : State :=
  let x := s.page p
  s.withMarks (fun s => (s.freeStorage p).putPage p { Page.init with pin := x.pin })

/-- Pages go LOST with a code: their frames and slots are freed, their PINs stand (R245, R247). A WHOLE region lost whole stays
WHOLE (R239). -/
def State.losePages (s : State) (ps : List Nat) (code : Nat) : State :=
  s.withMarks (fun s => (ps.foldl (fun s p => s.freeStorage p) s).putPages
    (ps.map (fun p => (p, { Page.init with st := .lost, code := code, pin := (s.page p).pin }))))

/-- A page goes LOST with a code (R245, R247). -/
def State.losePage (s : State) (p code : Nat) : State := s.losePages [p] code

/-- The unit of a page's storage, when it has any. -/
def Page.unit (x : Page) : Option Nat :=
  match x.st with
  | .near => some (x.loc / 2 ^ 31)
  | .far => some (x.loc / 2 ^ 31)
  | .stowed => some (x.loc / 2 ^ 31)
  | .moving => some (x.loc / 2 ^ 31)
  | _ => none

/-- The pages with a frame or slot on a unit, MOVING pages by their source. -/
def State.pagesOn (s : State) (u : Nat) : List Nat :=
  (s.plc.pages.filter (fun q => q.2.unit == some u)).map Prod.fst

/-- The pages whose leaf is a frame (R338). -/
def State.pagesAt (s : State) (k : Nat) : List Nat :=
  (s.plc.pages.filter (fun q => q.2.unit.isSome && locFrame q.2.loc == k)).map Prod.fst

/-! ### Allocation (R249, R250, R266) -/

/-- A page's first frame taken, sealed with the given lines under a fresh counter; none when the frame, or a map frame that its
region's sub-table needs, is refused (R241, R266). -/
def State.allocate (s : State) (p key : Nat) (lines : List (BitVec 512 × Bool)) : Option State :=
  let t := s.mixed (p / 512)
  if !s.canSplit (p / 512) || !t.grantable (p / 512) then none
  else match t.unitFor (t.firstTier p) with
    | none => none
    | some u =>
      let k := t.pickFrame u
      let x := t.page p
      some (t.withMarks (fun s =>
        let s := s.take k (.page p)
        let s := s.putPage p { Page.init with st := if 24 ≤ u then .near else .far, key := key, pin := x.pin, loc := frLoc k }
        s.sealFrame k key p s.freshMajor lines))

/-- 64 zero lines. -/
def zeroLines : List (BitVec 512 × Bool) := List.replicate 64 (0, false)

/-- A page's frame rewritten with lines under another key slot and a fresh counter (R185 ADOPT, R341, R342). -/
def State.rekeyFrame (s : State) (p key : Nat) (lines : List (BitVec 512 × Bool)) : State :=
  let x := s.page p
  let k := locFrame x.loc
  let s := (s.dropMerges k).withMarks (fun s => s.putPage p { x with key := key })
  let sl : Seal := { s.sealing with
    blocks := terase s.sealing.blocks k
    tags := s.sealing.tags.filter (fun q => q.1 / 16 ≠ k) }
  let s : State := { s with sealing := sl }
  s.sealFrame k key p s.freshMajor lines

/-! ### The switch and the end of a move (R253, R255, R257, R259) -/

/-- The move of a page. -/
def State.moveOf (s : State) (p : Nat) : Option Move := s.plc.moves.find? (fun m => m.page == p)

/-- A move's record replaced. -/
def State.setMove (s : State) (m : Move) : State :=
  { s with plc := { s.plc with moves := s.plc.moves.map (fun n => if n.page = m.page then m else n) } }

/-- A page goes MOVING from its present state (R253 step 2); its region's entry follows. -/
def State.goMoving (s : State) (p : Nat) (m : Move) : State :=
  let x := s.page p
  let s := s.putPage p { x with st := .moving, src := x.st }
  { s with plc := { s.plc with moves := s.plc.moves ++ [m] } }

/-- A page returns to its source state, and its target is freed (R255). -/
def State.moveFails (s : State) (p : Nat) : State :=
  match s.moveOf p with
  | none => s
  | some m =>
    let x := s.page p
    s.withMarks (fun s =>
      let s := if m.target = 0 then s else s.freeLoc m.target m.tgtClass
      let s := { s with plc := { s.plc with moves := s.plc.moves.filter (fun n => n.page ≠ p) } }
      s.putPage p { x with st := x.src, src := .blank })

/-- A frame's contents and companion copied unchanged, line for line; an uncorrectable line is copied as
poisoned (R253, R255, R318). -/
def State.copyFrame (s : State) (a b : Nat) (lines : List Nat) : State :=
  let s := lines.foldl (fun s i =>
    let r := s.raw (frLine a i)
    s.putRaw (frLine b i) r.data (r.poison || r.bad)) s
  let blk := tget (fun _ => CBlock.init) s.sealing.blocks a
  let sl : Seal := { s.sealing with
    blocks := tset (fun _ => CBlock.init) s.sealing.blocks b blk
    tags := (List.range 16).foldl (fun t sp =>
      tset (fun _ => 0) t (b * 16 + sp) (tget (fun _ => (0 : BitVec 64)) s.sealing.tags (a * 16 + sp))) s.sealing.tags }
  { s with sealing := sl }

/-- The page that now holds a frame pending retirement gets RETIRE (R259). -/
def State.retireMark (s : State) (p : Nat) : State :=
  let x := s.page p
  if x.unit.isSome && (s.frame (locFrame x.loc)).retiring then s.setPage p { x with retire := true } else s

/-- The region can be a WHOLE region: 512 pages NEAR or FAR on one aligned run, one key slot and PIN, RETIRE
clear (R239, R244). -/
def State.isWhole (s : State) (r : Nat) : Bool :=
  s.alike r && (s.page (r * 512)).st != .lost && (List.range 512).all (fun i => !(s.page (r * 512 + i)).retire)

/-- A run's last page moved: the region becomes WHOLE again where it may (R239, R244). -/
def State.unsplitMoved (s : State) (p : Nat) (m : Move) : State :=
  if p % 512 = 511 && m.kind == .run && (s.region (p / 512)).kind = 2 && s.isWhole (p / 512) then
    s.unsplit (p / 512) 1
  else s

/-- A leaf under the tree changed where its key slot's mode keeps one (R336). -/
def State.leafMoved (s : State) (key k : Nat) : State := if s.mode key = 3 then s.leafChanged k else s

/-- A frame or slot frame whose page has RETIRE set is pending retirement from the switch on: it is retired when it is
released (R253 step 7, R259, R294). -/
def State.retireOld (s : State) (k : Nat) (retire : Bool) : State :=
  if retire then s.setFrame k { s.frame k with retiring := true } else s

/-- The switch of a frame move (R253 step 7): the map entry changes to the target, the source is freed. -/
def State.switchFrame (s : State) (p : Nat) (m : Move) : State :=
  let x := s.page p
  let src := locFrame x.loc
  let dst := locFrame m.target
  s.withMarks (fun s =>
    let s := s.copyFrame src dst (List.range 64)
    let s := s.setFrame dst { s.frame dst with use := .page p }
    let s := { s with plc := { s.plc with moves := s.plc.moves.filter (fun n => n.page ≠ p) } }
    let s := s.putPage p { x with st := if m.near then .near else .far, src := .blank, slotClass := 0,
                                  loc := m.target, retire := false }
    ((((s.leafMoved x.key dst).retireOld src x.retire).release src).retireMark p).unsplitMoved p m)

/-! ### Slot places (R258, R286, R287) -/

/-- The partly filled slot frame of a class on a channel, not pending retirement. -/
def State.partly (s : State) (u cls : Nat) : Option Nat :=
  ((s.plc.frames.find? (fun f => f.1 / 2 ^ 28 == u && !f.2.retiring &&
    (match f.2.use with | .slots c ps => c == cls && ps.any Option.isNone && ps.any Option.isSome | _ => false)))).map Prod.fst

/-- A slot taken in a slot frame for a page: the lowest free one. -/
def State.takeSlot (s : State) (k cls p : Nat) : Option (State × Nat) :=
  match (s.frame k).use with
  | .slots c ps =>
    match (ps.zipIdx).find? (fun x => x.1.isNone) with
    | some (_, i) => some (s.setFrame k { s.frame k with use := .slots c (setAt ps i (some p)) }, slotLoc k cls i)
    | none => none
  | _ => none

/-- A slot for a page (R287): on the far channel with the most free frames, in its partly filled frame or a new
one; with no far frame free, in a partly filled frame of an eligible channel. `avoid` is a frame not to use. -/
def State.placeSlot (s : State) (cls p : Nat) (avoid : Option Nat) : Option (State × Nat) :=
  let fit := fun u => match s.partly u cls with
    | some k => if avoid = some k then none else some k
    | none => none
  match s.bestUnit (tierUnits false) with
  | some u =>
    match fit u with
    | some k => s.takeSlot k cls p
    | none =>
      let k := s.pickFrame u
      (s.take k (.slots cls (List.replicate (slotsPer cls) none))).takeSlot k cls p
  | none =>
    match (List.range 24).find? (fun u => s.allocatable u && (fit u).isSome) with
    | some u => match fit u with
      | some k => s.takeSlot k cls p
      | none => none
    | none => none

/-- The smallest class that holds a payload, at MIN_CLASS or better (R286). -/
def State.fitClass (s : State) (n : Nat) : Option Nat :=
  let cls := if n ≤ 496 then 3 else if n ≤ 1008 then 2 else if n ≤ 2032 then 1 else 0
  if cls = 0 ∨ cls < s.inf STOW.MIN_CLASS 0 then none else some cls

/-- The switch of a stow (R294 step 7): STOWED in its slot, the source frame freed. -/
def State.switchStow (s : State) (p loc cls : Nat) : State :=
  let x := s.page p
  s.withMarks (fun s =>
    let s := { s with plc := { s.plc with moves := s.plc.moves.filter (fun n => n.page ≠ p) } }
    let s := s.putPage p { x with st := .stowed, src := .blank, slotClass := cls, loc := loc, retire := false }
    let s := ((s.retireOld (locFrame x.loc) x.retire).release (locFrame x.loc)).retireMark p
    if s.mode x.key = 3 then s.leafChanged (locFrame loc) else s)

/-- The switch of a promotion (R297): the plaintext sealed into the target frame under MAJOR + 1, the slot freed. -/
def State.switchPromote (s : State) (p : Nat) (m : Move) (bytes : List (BitVec 8)) : State :=
  let x := s.page p
  let dst := locFrame m.target
  let c := s.slotCtr x.loc x.slotClass
  s.withMarks (fun s =>
    let s := { s with plc := { s.plc with moves := s.plc.moves.filter (fun n => n.page ≠ p) } }
    let s := s.setFrame dst { s.frame dst with use := .page p }
    let s := s.putPage p { x with st := if m.near then .near else .far, src := .blank, slotClass := 0,
                                  loc := m.target, retire := false }
    let s := s.sealFrame dst x.key p (c + 1) (bytesLines bytes)
    ((s.retireOld (locFrame x.loc) x.retire).freeSlot x.loc x.slotClass).retireMark p)

/-- The switch of a slot relocation (R257, R340): slot, header and counter unchanged in the new place. -/
def State.switchRelocate (s : State) (p : Nat) (m : Move) : State :=
  let x := s.page p
  let bs := s.slotRaw x.loc x.slotClass
  let c := s.slotCtr x.loc x.slotClass
  s.withMarks (fun s =>
    let s := { s with plc := { s.plc with moves := s.plc.moves.filter (fun n => n.page ≠ p) } }
    let s := (s.putSlot m.target x.slotClass bs).setSlotCtr m.target x.slotClass x.key c
    let s := s.putPage p { x with st := .stowed, src := .blank, loc := m.target, retire := false }
    ((s.retireOld (locFrame x.loc) x.retire).freeSlot x.loc x.slotClass).retireMark p)

/-- A decode answered as a CRC-32C mismatch (R296 order 5): the page is LOST with code STOW_CRC. -/
def State.stowCrc (s : State) (p : Nat) : State :=
  let x := s.page p
  let s := s.incSat STOW.CRC_FAILS 0 1
  (s.report (memUid (x.loc / 2 ^ 31)) 0x13 1 (p * 4096)).losePage p 2

/-- An integrity failure of a stowed page (R296 order 3, R345): a slot's under its SE unit, a leaf's under SE63. -/
def State.slotIntegrity (s : State) (p kind : Nat) : State :=
  let x := s.page p
  s.integrity (if kind = 1 then sealUid (x.loc / 2 ^ 31) else treeUid) (p * 4096) x.key kind

/-! ### Units lost (R245, R274, R376) -/

/-- Moves whose target lies on a unit fail (R255, R274). -/
def State.failTargets (s : State) (u : Nat) : State :=
  ((s.plc.moves.filter (fun m => m.target ≠ 0 && m.target / 2 ^ 31 == u && (s.page m.page).unit ≠ some u)).map
    (fun m => m.page)).foldl (fun s p => s.moveFails p) s

/-- Map frames on a lost unit restored from the remaining copy elsewhere (R274). -/
def State.moveMaps (s : State) (u : Nat) : State :=
  ((s.plc.frames.filter (fun f => f.1 / 2 ^ 28 == u && f.2.use == .map)).map Prod.fst).foldl
    (fun s k => s.remap k) s

/-- A unit is lost: its moves' targets fail, every page with a frame or slot on it goes LOST with the code, its
frames leave the pool. Answers the pages made LOST. -/
def State.loseUnit (s : State) (u code : Nat) : State × Nat :=
  let s := s.setPool u { s.pool u with inPool := false, present := false, filled := false }
  let s := s.failTargets u
  let ps := s.pagesOn u
  let s := s.losePages ps code
  let s := s.moveMaps u
  let pl : Plc := { s.plc with
    frames := s.plc.frames.filter (fun f => f.1 / 2 ^ 28 ≠ u)
    compact := s.plc.compact.filter (fun l => l / 2 ^ 31 ≠ u) }
  let dr : Dram := { s.dram with
    lines := s.dram.lines.filter (fun l => l.1 / 2 ^ 34 ≠ u)
    poison := s.dram.poison.filter (fun l => l.1 / 2 ^ 34 ≠ u)
    bad := s.dram.bad.filter (fun l => l.1 / 2 ^ 34 ≠ u) }
  ({ s with plc := pl, dram := dr }, ps.length)

end Sys2Proof.Machine
end

