-- ==== Sys2Proof/Machine/Faults.lean ====
section
/-! DEFINITION. The fault collector: records, latches, acknowledgement, unit resets, HEARTBEAT (R414-R435). -/
namespace Sys2Proof.Machine

/-- A table submission counted as admitted or refused (R471, R472). -/
def State.submitted (s : State) (w status : Nat) : State :=
  if status = 0 then (s.event (uid 8 w) 2).fixed 540 else (s.event (uid 8 w) 3).fixed 541

/-- A store to a device table that an owner or base program makes with a row of its own: PRIVILEGE in a tenant
(R162), else admission and commit at once, with g[d] the status (R126, R169). -/
def ownerStore (w t : Nat) (d : Reg) (f : State → Nat × State) : State → State :=
  issue w t (storeForm d).fits (fun s =>
    if (s.tenant w t).isSome then .raise 2 0
    else
      let r := f s
      .next ((r.2.submitted w r.1).setG w t d (BitVec.ofNat 64 r.1)))

/-- The words of FAULT entry 0 as they read: RECORDS counts the log (R434). -/
def State.faultWord (s : State) (w : Nat) : BitVec 64 :=
  let x := s.wordAt 0x0E 0 w
  if w = 0 then FAULT.RECORDS.put x s.records.length else x

/-- A class 2 or 3 record is in handling from its making (R421), but for the codes whose loss actions are complete
when the report is made (R427: MAP and TREE). -/
def handlingOf (cls code : Nat) : Bool := decide (2 ≤ cls) && code != 0x14 && code != 0x11

/-- The next SEQ: NEXT_SEQ, past the values held by records still in the log (R420). -/
def State.nextSeqFrom (s : State) : Nat → Nat → Nat
  | 0, q => q
  | n + 1, q => if s.records.any (fun i => s.rd RECORD.SEQ (i + 1) == q) then s.nextSeqFrom n ((q + 1) % 65536) else q

/-- A first-source latch loaded, or its OVERFLOW set (R419). -/
def State.latch (s : State) (r : Report) (seq : Nat) : State :=
  if s.rdB (FAULT.VALID r.cls) 0 then s.setW1c (FAULT.OVERFLOW r.cls) 0 1
  else ((((s.setW1c (FAULT.VALID r.cls) 0 1).wr (FAULT.UNIT r.cls) 0 r.unit).wr (FAULT.CODE r.cls) 0 r.code).wr
    (FAULT.SEQ r.cls) 0 seq)

/-- A record slot emptied: it reads zero (R435). -/
def State.dropRecord (s : State) (i : Nat) : State :=
  (List.range 4).foldl (fun s w => s.setWord 0x0E (i + 1) w 0) s

/-- A record made in a slot (R417 step 3): LAST_T waits for a merge (log entry 10). -/
def State.makeRecord (s : State) (i : Nat) (r : Report) : State :=
  let q := s.nextSeqFrom 256 (s.rd FAULT.NEXT_SEQ 0)
  let s := s.dropRecord i
  let fs : List (Fld × Nat) :=
    [(RECORD.SEQ, q), (RECORD.CLASS, r.cls), (RECORD.ALARM, if r.alarm then 1 else 0),
     (RECORD.HANDLING, if handlingOf r.cls r.code then 1 else 0), (RECORD.VALID, 1), (RECORD.UNIT, r.unit),
     (RECORD.CODE, r.code), (RECORD.COUNT, min r.count 0xFFFF), (RECORD.FIRST_T, r.at_),
     (RECORD.DETAIL, r.detail.toNat)]
  let s := fs.foldl (fun s f => s.wr f.1 (i + 1) f.2) s
  (((s.wr FAULT.NEXT_SEQ 0 ((q + 1) % 65536)).latch r q).raiseOwners 5).fixed 543

/-- The oldest record of class 0. -/
def State.oldestClass0 (s : State) : Option Nat :=
  (s.records.filter (fun i => s.rd RECORD.CLASS (i + 1) == 0)).foldl (fun b i => match b with
    | none => some i
    | some j => if s.rd RECORD.FIRST_T (i + 1) < s.rd RECORD.FIRST_T (j + 1) then some i else some j) none

/-- A report applied (R417, R418). -/
def State.applyReport (s : State) (r : Report) : State :=
  match s.records.find? (fun i => s.rd RECORD.UNIT (i + 1) == r.unit && s.rdB RECORD.HANDLING (i + 1) &&
      decide (r.cls ≤ s.rd RECORD.CLASS (i + 1))) with
  | some i => s.incSat RECORD.COUNT (i + 1) r.count
  | none =>
    match s.records.find? (fun i => s.rd RECORD.UNIT (i + 1) == r.unit && s.rd RECORD.CODE (i + 1) == r.code &&
        s.rd RECORD.CLASS (i + 1) == r.cls) with
    | some i => (s.incSat RECORD.COUNT (i + 1) r.count).wr RECORD.LAST_T (i + 1) s.time.aon
    | none =>
      match (List.range 256).find? (fun i => !s.rdB RECORD.VALID (i + 1)) with
      | some i => s.makeRecord i r
      | none =>
        let s := s.incSat FAULT.DROPPED 0 1
        match (if 2 ≤ r.cls then s.oldestClass0 else none) with
        | some i => s.makeRecord i r
        | none => s.latch r 0

/-- `a` is taken before `b` (R417): higher class, then lower unit, then lower code. -/
def reportBefore (a b : Report) : Bool :=
  decide (b.cls < a.cls) || (a.cls == b.cls && (decide (a.unit < b.unit) || (a.unit == b.unit && decide (a.code < b.code))))

/-- The pending report the collector takes next. -/
def nextReport (l : List Report) : Option Report :=
  l.foldl (fun b r => match b with
    | none => some r
    | some q => if reportBefore r q then some r else some q) none

/-- COLLECTOR_TAKE (R417): one pending report taken in an AON clock cycle. -/
def execCollectorTake (s : State) : Host.Outcome State Fault Refusal :=
  .next (if s.board.power == .unpowered then s
    else match nextReport s.aon.reports with
    | none => s
    | some r => ({ s with aon := { s.aon with reports := s.aon.reports.filter (· ≠ r) } }).applyReport r)

/-- A record acknowledged: it leaves the log, but not while in handling (R422). -/
def State.ackRecord (s : State) (i : Nat) : State :=
  if s.rdB RECORD.VALID (i + 1) && !s.rdB RECORD.HANDLING (i + 1) then s.dropRecord i else s

/-- May a candidate act on the collector now: it is the owner, and its path works (R422, R426, R432, R433)? -/
def State.ownerActs (s : State) (c : Nat) : Bool :=
  s.own.owner == some c && (c == 1 || !s.board.halted)

/-- OWNER_STATUS as a candidate reads it (R86). -/
def State.ownerStatus (s : State) (c : Nat) : BitVec 64 :=
  let o := s.own
  let st : Nat := match o.st with | .closed => 0 | .open => 1 | .owned => 2 | .handover => 3 | .lapsing => 4
  let m := s.board.straps.ownMode
  let el := if m = 0 then c == 0 else if m = 1 then decide (c ≤ 1) else if m = 2 then true else c == 1
  BitVec.ofNat 64 (o.owner.getD 0x3F + o.successor.getD 0x3F * 2 ^ 8 + st * 2 ^ 16 + (if el then 1 else 0) * 2 ^ 19 +
    o.epoch.toNat * 2 ^ 20 + o.word.toNat * 2 ^ 32)

/-- The owner's function is back before its lapse timer expires (R84). -/
def State.ownerBack (s : State) (c : Nat) : State :=
  if s.own.st = .lapsing ∧ s.own.owner = some c then { s with own := { s.own with st := .owned } } else s

/-- A request arrives from a candidate: one from the BMC shows that its path is back (R83). -/
def State.from_ (s : State) (c : Nat) : State :=
  if c = 1 ∧ s.board.bmcDown = true then
    ({ s with board := { s.board with bmcDown := false } }).ownerBack 1
  else s

/-- RECORD_ACK (R422): by the owner; the BMC's is otherwise answered with OWNER_STATUS (R433). -/
def execRecordAck (c : Cand) (slot : BitVec 8) (s : State) : Host.Outcome State Fault Refusal :=
  .next (if s.board.power == .unpowered then s
    else
      let s := s.from_ c
      if s.ownerActs c then s.ackRecord slot.toNat
      else if c.val = 1 then s.send (.ownerStatus 1 (s.ownerStatus 1)) else s)

/-- A first-source latch cleared with its OVERFLOW; latch 3 is not (R419). -/
def State.clearLatch (s : State) (cls : Nat) : State :=
  if cls = 3 then s else (s.clearW1c (FAULT.VALID cls) 0 1).clearW1c (FAULT.OVERFLOW cls) 0 1

/-- LATCH_CLEAR (R419). -/
def execLatchClear (c : Cand) (cls : Fin 4) (s : State) : Host.Outcome State Fault Refusal :=
  .next (if s.board.power == .unpowered then s
    else
      let s := s.from_ c
      if s.ownerActs c then s.clearLatch cls
      else if c.val = 1 then s.send (.ownerStatus 1 (s.ownerStatus 1)) else s)

/-- The BMC sideband answers: from power-on step 2, in every phase and in a halt (R55, R426). -/
def State.bmcAnswers (s : State) : Bool :=
  s.board.power == .poweringOn || s.board.power == .running

/-- FAULT_STATUS_READ (R433, code 0x30): FAULT entry 0. -/
def execFaultStatusRead (s : State) : Host.Outcome State Fault Refusal :=
  .next (if s.bmcAnswers then
    (s.from_ 1).send (.answer ((List.range 8).flatMap (fun w => leBytes 8 (s.faultWord w).toNat))) else s)

/-- FAULT_RECORDS_READ (R433, code 0x31): record slots i to j. -/
def execFaultRecordsRead (i j : BitVec 8) (s : State) : Host.Outcome State Fault Refusal :=
  .next (if s.bmcAnswers then
    (s.from_ 1).send (.answer ((List.range (j.toNat + 1 - i.toNat)).flatMap (fun n =>
      (List.range 4).flatMap (fun w => leBytes 8 (s.wordAt 0x0E (i.toNat + n + 1) w).toNat)))) else s)

/-- Unit types a FAULT unit reset may name: PG, SC, MV, TH, and CK16-CK31 (R428). -/
def resettable (u : Nat) : Bool :=
  let t := u / 64
  let i := u % 64
  (t == 1 && decide (i < 16)) || t == 6 || t == 7 || (t == 0xA && decide (i ≤ 52)) || (t == 0xB && decide (16 ≤ i) && decide (i < 32))

/-- The unit is present and not excluded (R428). -/
def State.unitThere (s : State) (u : Nat) : Bool :=
  let t := u / 64
  if t = 1 then s.pgMode (u % 64) != 0
  else if t = 0xB then s.pgMode (u % 64 - 16) != 0
  else true

/-- A unit reset requested (R428): the status of its admission, and the reset started. -/
def State.resetGo (s : State) (u : Nat) : Nat × State :=
  if !resettable u then (5, s)
  else if !s.unitThere u then (9, s)
  else if !s.inHandling u then (5, s)
  else if s.aon.reset.isSome then (6, s)
  else (0, { (s.wr FAULT.RESET_STATUS 0 1) with aon := { s.aon with reset := some ⟨u⟩ } })

/-- RESET_GO (R428): a store of RESET_UNIT and RESET_GO together. -/
def execResetGo (w : WfNo) (t : ThrNo) (d : Reg) (uid : BitVec 10) (s : State) : Host.Outcome State Fault Refusal :=
  .next (ownerStore w t d (fun s =>
    let r := s.resetGo uid.toNat
    (r.1, if r.1 = 0 then r.2.wr FAULT.RESET_UNIT 0 uid.toNat else r.2)) s)

/-- The code a resettable unit reports (R427). -/
def resetCode (u : Nat) : Nat := if u / 64 = 0xA then 0x2B else if u / 64 = 0xB ∨ u / 64 = 1 then 0x2F else 0x22

/-- A unit returns to service after its reset (R308, R427, R443). A port group with its clock again leaves the shelf, and its
heads then train. -/
def State.unitReturns (s : State) (u : Nat) : State :=
  let s := { s with stow := { s.stow with stopped := s.stow.stopped.filter (· ≠ u) } }
  let s := if u / 64 = 0xA then s.wr THERMAL.FAILED (u % 64) 0 else s
  let s := s.endHandling u [0x22, 0x2B, 0x2F]
  if u / 64 = 0xB then s.wakeDom (u % 64 - 16) else s

/-- UNIT_RESET_COMPLETE (R428): done, or the unit reports its fault again. -/
def execUnitResetComplete (faulty : Bool) (s : State) : Host.Outcome State Fault Refusal :=
  .next (match s.aon.reset with
    | none => s
    | some r =>
      if s.board.halted then s
      else
        let s := { s with aon := { s.aon with reset := none } }
        if faulty then (s.wr FAULT.RESET_STATUS 0 3).report r.unit (resetCode r.unit) 2
          (if r.unit / 64 = 0xA then s.rd THERMAL.READING (r.unit % 64) else 0)
        else (s.unitReturns r.unit).wr FAULT.RESET_STATUS 0 2)

/-- A check-in admitted (R429): it ends a late state, and toggling restarts. -/
def State.checkin (s : State) : State :=
  let s := { s with aon := { s.aon with lastCheckin := s.time.aon } }
  let late := s.rdB FAULT.CHECKIN_LATE 0
  let s := s.wr FAULT.CHECKIN_LATE 0 0
  if late && !s.board.halted then { s with board := { s.board with heartOn := true } } else s

/-- CHECKIN (R429). -/
def execCheckin (w : WfNo) (t : ThrNo) (d : Reg) (s : State) : Host.Outcome State Fault Refusal :=
  .next (ownerStore w t d (fun s => (0, s.checkin)) s)

/-- CHECKIN_TIMEOUT (R429): 1 s without a check-in stops HEARTBEAT while CHECKIN_EN is 1. -/
def execCheckinTimeout (s : State) : Host.Outcome State Fault Refusal :=
  .next (if s.live && s.rdB FAULT.CHECKIN_EN 0 then
    { (s.wr FAULT.CHECKIN_LATE 0 1) with board := { s.board with heartOn := false } } else s)

/-- HEARTBEAT_TOGGLE (R429): every 500 µs from power-on step 2, unless stopped. -/
def execHeartbeatToggle (s : State) : Host.Outcome State Fault Refusal :=
  .next (if s.live && s.board.heartOn then { s with board := { s.board with heart := !s.board.heart } } else s)

end Sys2Proof.Machine
end

