-- ==== Sys2Proof/Machine/Violate.lean ====
section
/-! DEFINITION. Violations of the heads' protocols, their log, and isolation (R193-R196). -/
namespace Sys2Proof.Machine

/-- M2S opcode of a request as the CXL specification encodes it (PRESUMED, log entry 15). -/
def m2sCode : Req → Nat
  | .inv => 0 | .read => 1 | .readData => 2 | .readFwd => 3 | .specRd => 8 | .invNt => 9 | .write => 1 | .writePtl => 2

/-- Violations that count toward isolation (R193). -/
def countsIso (code : Nat) : Bool := [2, 3, 7, 8, 9, 0x0C, 0x0D, 0x0F, 0x10].contains code

/-- A violation logged at a head, merged into the newest entry when it has the same code and LD (R193-R196). -/
def State.violate (s : State) (h : Nat) (ld : BitVec 8) (code resp : Nat) (addr : BitVec 64) (detail : Nat) : State :=
  let k := s.link h
  let s := s.occur ⟨uid 0 h, 5, (if ld = 0xFF then none else some (16 * h + ld.toNat)), none, none⟩
  let merged := match k.log.getLast? with
    | some v => v.code == BitVec.ofNat 8 code && v.ld == ld
    | none => false
  let k := if merged then
      { k with log := (k.log.zipIdx).map (fun x =>
          if x.2 + 1 = k.log.length then { x.1 with count := if x.1.count = 255 then 255 else x.1.count + 1 } else x.1) }
    else
      let v : Violation := { seq := k.seq, code := BitVec.ofNat 8 code, response := BitVec.ofNat 8 resp, ld := ld,
                             count := 1, address := addr, time := s.time.fclk, detail := BitVec.ofNat 64 detail }
      let full := decide (64 ≤ k.log.length)
      { k with log := (if full then k.log.tail else k.log) ++ [v], seq := k.seq + 1,
               overwrites := if full then min 65535 (k.overwrites + 1) else k.overwrites }
  let k := if countsIso code then { k with counted := k.counted + 1 } else k
  let s := s.setLink h k
  let lim := s.inf PORT.ISO_LIMIT h
  if countsIso code && lim != 0 && decide (lim ≤ k.counted) && !s.rdB PORT.ISOLATED h then
    (s.setW1c PORT.ISOLATED h 1).report (uid 0 h) 0x19 2 k.counted
  else s

/-- A request's violation, with the fields its log entry takes (R194). -/
def State.violateReq (s : State) (r : MemReq) (code resp : Nat) : State :=
  match r.src with
  | .host h ld tag hpa =>
    s.violate h (BitVec.ofNat 8 (ld % 16)) code resp hpa
      (m2sCode r.kind + tag.toNat * 2 ^ 8 + r.cls * 2 ^ 24 + r.keyId * 2 ^ 27)
  | _ => s

end Sys2Proof.Machine
end

