-- ==== Sys2Proof/Machine/Slice.lean ====
section
/-! DEFINITION. The snoop filter and back-invalidate snoops (R201-R218, R224-R228, R231, R498). Lines are
DPA[45:6]. -/
namespace Sys2Proof.Machine

/-! ### Where a line is tracked (R13, R204) -/

/-- Home slice of a line. -/
def lineSlice (l : Nat) : Nat := l / 64 % 16
/-- Set index {DPA[23:16], DPA[11:6]}. -/
def lineSet (l : Nat) : Nat := l / 2 ^ 10 % 256 * 64 + l % 64
/-- Tag DPA[45:24]. -/
def lineTag (l : Nat) : Nat := l / 2 ^ 18
/-- Key of a way. -/
def sfKey (hs set way : Nat) : Nat := (hs * 16384 + set) * 16 + way
/-- The line that an entry of a set tracks. -/
def entryLine (hs set : Nat) (e : SfEntry) : Nat :=
  e.tag.toNat * 2 ^ 18 + set / 64 * 2 ^ 10 + hs * 64 + set % 64
/-- Unit ID of a line's home slice. -/
def sliceUid (l : Nat) : Nat := uid 2 (lineSlice l)

/-- A way's entry. -/
def State.way (s : State) (hs set way : Nat) : SfEntry := tget (fun _ => SfEntry.init) s.coh.sf (sfKey hs set way)
/-- A way's entry replaced. -/
def State.setWay (s : State) (hs set way : Nat) (e : SfEntry) : State :=
  { s with coh := { s.coh with sf := tset (fun _ => SfEntry.init) s.coh.sf (sfKey hs set way) e } }

/-- The way that tracks a line. -/
def State.wayOf (s : State) (l : Nat) : Option Nat :=
  (List.range 16).find? (fun w =>
    let e := s.way (lineSlice l) (lineSet l) w
    e.valid && e.tag.toNat == lineTag l)

/-- A line's entry; not VALID when none tracks it. -/
def State.entry (s : State) (l : Nat) : SfEntry :=
  match s.wayOf l with
  | some w => s.way (lineSlice l) (lineSet l) w
  | none => SfEntry.init

/-- A line's entry replaced; with no sharer left it is freed (R206, R211). -/
def State.setEntry (s : State) (l : Nat) (e : SfEntry) : State :=
  match s.wayOf l with
  | some w => s.setWay (lineSlice l) (lineSet l) w (if e.sharers = 0 then SfEntry.init else e)
  | none => s

/-- The heads of an entry. -/
def SfEntry.heads (e : SfEntry) : List Nat :=
  if e.valid then (List.range 32).filter (fun h => e.sharers.getLsbD h) else []

/-- The exclusive holder of an entry. -/
def SfEntry.holder (e : SfEntry) : Option Nat := if e.valid && e.excl then e.heads.head? else none

/-- The bit of a head. -/
def headBit (h : Nat) : BitVec 32 := BitVec.ofNat 32 (2 ^ h)

/-- Bits [55:0] of an entry as it is laid out (R205). -/
def SfEntry.body (e : SfEntry) : BitVec 56 :=
  BitVec.ofBool e.valid ++ BitVec.ofBool e.excl ++ e.sharers ++ e.tag

/-- The 70 bits of an entry, CHECK above the rest (R205). -/
def SfEntry.word (e : SfEntry) : BitVec 70 := Config.sfCheck e.body ++ e.body

/-- A head removed from an entry. -/
def SfEntry.without (e : SfEntry) (h : Nat) : SfEntry :=
  let v := e.sharers &&& ~~~ headBit h
  if v = 0 then SfEntry.init else { e with sharers := v, excl := false }

/-! ### Pseudo-LRU (R205, R217) -/

/-- The tree after a use of a way: each node on its path points away from it. Node n (1-15) is bit n - 1, and a
set bit points to the higher ways. -/
def plruUse (t : BitVec 15) (w : Nat) : BitVec 15 :=
  (List.range 4).foldl (fun t d =>
    let node := 2 ^ d + w / 2 ^ (4 - d)
    let up := bitOf w (3 - d)
    let bit := BitVec.ofNat 15 (2 ^ (node - 1))
    if up then t &&& ~~~ bit else t ||| bit) t

/-- The way the tree chooses within a subset that is not empty. -/
def plruPick (t : BitVec 15) (ok : Nat → Bool) : Nat → Nat → Nat → Nat
  | 0, _, w => w
  | d + 1, node, w =>
    let has := fun (hi : Bool) => (List.range (2 ^ d)).any (fun i => ok ((w * 2 + (if hi then 1 else 0)) * 2 ^ d + i))
    let want := t.getLsbD (node - 1)
    let go := if has want then want else !want
    plruPick t ok d (node * 2 + (if go then 1 else 0)) (w * 2 + (if go then 1 else 0))

/-- The tree of a set. -/
def State.plru (s : State) (hs set : Nat) : BitVec 15 := tget (fun _ => 0) s.coh.plru (hs * 16384 + set)

/-- A set's pseudo-LRU state with its parity (R205). -/
def State.plruWord (s : State) (hs set : Nat) : BitVec 16 :=
  BitVec.ofBool (Config.plruParity (s.plru hs set)) ++ s.plru hs set

/-- A set's pseudo-LRU state reset by a parity error (R205). -/
def State.plruReset (s : State) (hs set : Nat) : State :=
  { s with coh := { s.coh with plru := tset (fun _ => 0) s.coh.plru (hs * 16384 + set) 0 } }

/-- A use of the way that tracks a line. -/
def State.touch (s : State) (l : Nat) : State :=
  match s.wayOf l with
  | some w =>
    let k := lineSlice l * 16384 + lineSet l
    { s with coh := { s.coh with plru := tset (fun _ => 0) s.coh.plru k (plruUse (s.plru (lineSlice l) (lineSet l)) w) } }
  | none => s

/-! ### Groups of lines -/

/-- The shared group a line lies in, by its lowest member's WINDOW index (R201). -/
def State.lineGroup (s : State) (l : Nat) : Option Nat := s.groupAt (l / 2 ^ 15)

/-- A field of every member's SNOOP entry set to the group's value (R233). -/
def State.setGroup (s : State) (f : Fld) (g v : Nat) : State := (s.group g).foldl (fun s i => s.wr f i v) s

/-- The head's RECLAIMED bit is set: it is fenced (R228). -/
def State.fenced (s : State) (g h : Nat) : Bool := bitOf (s.rd SNOOP.RECLAIMED g) h

/-- The line's group is a closed road. -/
def State.lineClosed (s : State) (l : Nat) : Bool :=
  match s.lineGroup l with | some g => s.closedRoad g | none => false

/-- A dwell window runs on the line (R218). -/
def State.dwelling (s : State) (l : Nat) : Bool := s.coh.dwells.any (fun d => d.line == l)

/-- A tracker is active for the line. -/
def State.tracked (s : State) (l : Nat) : Bool := s.coh.trackers.any (fun t => t.line == l)

/-- Snoops are outstanding for the line. -/
def State.snooping (s : State) (l : Nat) : Bool := s.coh.snoops.any (fun n => n.line == l)

/-- The snoops that no response has completed yet: those that hold a slot (R215). -/
def State.bisnps (s : State) : List Snoop := s.coh.snoops.filter (fun n => n.done.isNone)

/-- An exclusive grant of the line is on its way to the junction (R218). -/
def State.grantPending (s : State) (l : Nat) : Bool := s.coh.granting.any (fun x => x.1 == l)

/-- Other heads' requests that must snoop the line wait: an exclusive grant of it is on its way, or its dwell window
runs (R218, R219). -/
def State.holdsLine (s : State) (l : Nat) : Bool := s.dwelling l || s.grantPending l

/-! ### The address a snoop carries (R498) -/

/-- A committed decoder with BI set maps an LD address. -/
def Decoder.maps (d : Decoder) (a : Nat) : Bool :=
  d.committed && d.bi && decide (d.ldBase ≤ a) && decide (a < d.ldBase + d.size / d.ways)

/-- The HPA of an LD address under a decoder, with the way bits the head has recorded. -/
def Decoder.hpa (d : Decoder) (a : Nat) : Nat :=
  let off := a - d.ldBase
  d.base + (off / d.gran * d.ways + d.way.getD 0) * d.gran + off % d.gran

/-- The lowest LD address of an LD DPA, over all tag values, that a decoder maps. -/
def Decoder.lowest (d : Decoder) (ldDpa s : Nat) : Option Nat :=
  let a := if ldDpa < d.ldBase then ldDpa + (d.ldBase - ldDpa + 2 ^ s - 1) / 2 ^ s * 2 ^ s else ldDpa
  if d.maps a then some a else none

/-- The HPA of the BISnp to a head for a line of a group. -/
def State.snoopHpa (s : State) (g h l : Nat) : Nat :=
  match (s.group g).find? (fun i => ldHead (winLd i) == h) with
  | none => 0
  | some i =>
    let ld := winLd i
    let ldDpa := s.inf WINDOW.LD_BASE i * 2 ^ 21 + (l * 64 - s.inf WINDOW.DEV_BASE i * 2 ^ 21)
    let sz := s.inf TAG.LD_SIZE_LOG2 ld
    let k := s.inf TAG.KEYID_WIDTH ld
    let c := s.inf TAG.CLASS_WIDTH ld
    let a := ldDpa + s.inf TAG.DEFAULT_KEYID ld % 2 ^ k * 2 ^ sz + s.inf TAG.DEFAULT_CLASS ld % 2 ^ c * 2 ^ (sz + k)
    let ds := (List.range 4).map (s.decoder ld)
    match ds.find? (fun d => d.maps a) with
    | some d => d.hpa a
    | none =>
      match (ds.filterMap (fun d => (d.lowest ldDpa sz).map (fun x => (x, d)))).foldl
          (fun (b : Option (Nat × Decoder)) x => match b with
            | none => some x
            | some y => if x.1 < y.1 then some x else some y) none with
      | some (x, d) => d.hpa x
      | none => 0

/-! ### Dwell windows (R218, R219) -/

/-- A dwell window started. -/
def State.startDwell (s : State) (l h : Nat) : State :=
  let n := match s.lineGroup l with | some g => s.inf SNOOP.DWELL g | none => 0
  if n = 0 then s
  else
    let d : Dwell := ⟨l, h, s.time.fclk + 8 * n⟩
    { s with coh := { s.coh with dwells := s.coh.dwells.filter (fun x => x.line ≠ l) ++ [d] } }

/-- An exclusive grant of a request's line is ordered: its window starts when it is handed to the junction. -/
def State.granting (s : State) (r : MemReq) : State :=
  match r.src with
  | .host h _ tag _ => { s with coh := { s.coh with granting := s.coh.granting ++ [(r.line, h, tag)] } }
  | _ => s

/-- A grant is handed to the junction: when it left its head an exclusive line the head still holds, the head's dwell
window starts now. -/
def State.handGrant (s : State) (r : MemReq) : State :=
  match r.src with
  | .host h _ tag _ =>
    if s.coh.granting.contains (r.line, h, tag) then
      let s := { s with coh := { s.coh with granting := s.coh.granting.filter (· ≠ (r.line, h, tag)) } }
      if (s.entry r.line).holder = some h then s.startDwell r.line h else s
    else s
  | _ => s

/-! ### Requests ordered and not answered (R223) -/

/-- The tag of a head's request for a line. -/
def MemReq.tagOf (r : MemReq) (h l : Nat) : Option (BitVec 16) :=
  match r.src with
  | .host x _ tag _ => if x = h ∧ r.line = l then some tag else none
  | _ => none

/-- Requests that their home slices have ordered and that are not answered: on their way to DRAM, waiting for a
promotion, held by a move, or parked at their page. -/
def State.ordered (s : State) : List MemReq :=
  (s.traffic.rbs.filter (fun b => 16 ≤ b.1)).flatMap (fun b => b.2.queue.map Prod.snd) ++
  s.dram.chans.flatMap (fun c => (c.2.rq ++ c.2.inflight.toList).map (fun x => x.req)) ++
  s.stow.promos.flatMap (fun q => q.reqs) ++ s.stow.decoding.flatMap (fun d => d.q.reqs) ++
  s.plc.moves.flatMap (fun m => m.held) ++ s.coh.parked

/-- Tags of a head's requests for a line that are ordered and not answered. -/
def State.tagsDue (s : State) (h l : Nat) : List (BitVec 16) := s.ordered.filterMap (fun r => r.tagOf h l)

/-! ### Snoops (R210, R215, R224) -/

/-- A snoop leaves on the head's link when the link can carry it and credit is held (R191, R203); a link in L1
wakes for it at once (R190). -/
def State.sendSnoop (s : State) (n : Snoop) : State :=
  let k := s.link n.head
  if !(k.up && k.cxl && k.flit256) then s
  else if k.crBisnp = 0 then (s.setLink n.head { k with l1 := false }).wakeUnit (uid 0 n.head)
  else
    let g := (s.lineGroup n.line).getD 0
    let s := s.setLink n.head { k with crBisnp := k.crBisnp - 1, l1 := false }
    let s := (s.wakeUnit (uid 0 n.head)).occur ⟨uid 0 n.head, 9, none, none, some (n.line * 64, n.head)⟩
    let s := s.send (.bisnp n.head k.biId (BitVec.ofNat 64 (s.snoopHpa g n.head n.line)) n.inv)
    { s with coh := { s.coh with snoops := s.coh.snoops.map (fun m =>
        if m.head = n.head ∧ m.line = n.line then { m with sent := true } else m) } }

/-- Snoop slots of a slice in use: unreserved and reserved (R215). -/
def State.slots (s : State) (hs : Nat) : Nat × Nat :=
  let l := s.bisnps.filter (fun n => lineSlice n.line == hs)
  ((l.filter (fun n => !n.reserved)).length, (l.filter (fun n => n.reserved)).length)

/-- Unreserved slots of a slice that are free (R215). -/
def State.freeSlots (s : State) (hs : Nat) : Nat :=
  min (256 - s.inf HSET.BI_RESERVE (4096 + hs) - (s.slots hs).1) (256 - (s.slots hs).1 - (s.slots hs).2)

/-- No snoop of the line goes to the head: its group is a closed road, or the head is fenced (R226, R228). -/
def State.noSnoop (s : State) (h l : Nat) : Bool :=
  match s.lineGroup l with | some g => s.closedRoad g || s.fenced g h | none => false

/-- A BISnp issued (R210); a conflict snoop may use a reserved slot. None when no slot is free, or none may go. -/
def State.issueSnoop (s : State) (h l : Nat) (inv : Bool) (why : Why) : Option State :=
  let hs := lineSlice l
  let u := s.slots hs
  let go := fun (reserved : Bool) =>
    let n : Snoop := { head := h, line := l, inv := inv, why := why, reserved := reserved, sent := false,
                       at_ := s.time.fclk, due := s.tagsDue h l }
    let s := ({ s with coh := { s.coh with snoops := s.coh.snoops ++ [n] } }).fixed 520
    s.sendSnoop n
  if s.noSnoop h l then none
  else if 0 < s.freeSlots hs then some (go false)
  else if why = .conflict ∧ u.1 + u.2 < 256 then some (go true)
  else none

/-- Snoops of a line to several heads, as far as slots are free. -/
def State.issueAll (s : State) (hs : List Nat) (l : Nat) (inv : Bool) (why : Why) : State :=
  hs.foldl (fun s h => if s.coh.snoops.any (fun n => n.head == h && n.line == l) then s
    else (s.issueSnoop h l inv why).getD s) s

/-! ### Internal invalidations (R231) -/

/-- The heads an internal invalidation must still take the line from, or ask for its data. -/
def State.invalHeads (s : State) (l : Nat) (why : Why) (inv : Bool) : List Nat :=
  let e := s.entry l
  match why with
  | .disable win => e.heads.filter (fun h => h == ldHead (winLd win))
  | _ => if inv then e.heads else e.holder.toList

/-- Sources that wait for dwell windows (R231). -/
def Why.waits : Why → Bool
  | .loss => false
  | .victim => false
  | _ => true

/-- Each internal invalidation in progress carried on as far as it can be; one that has nothing left to take, or
whose group has become a closed road, is over. -/
def State.pumpInvals (s : State) : State :=
  s.coh.invals.foldl (fun s x =>
    let l := x.1
    let why := x.2.1
    let inv := x.2.2
    let hs := s.invalHeads l why inv
    if hs.isEmpty ∨ s.lineClosed l = true then
      { s with coh := { s.coh with invals := s.coh.invals.filter (· ≠ x) } }
    else if why.waits && s.holdsLine l then s
    else if !inv && s.snooping l then s
    else s.issueAll hs l inv why) s

/-- Internal invalidations of lines begun; a parked slice wakes for them (R232). -/
def State.invalidate (s : State) (ls : List Nat) (why : Why) (inv : Bool) : State :=
  let need := ls.filter (fun l => !(s.invalHeads l why inv).isEmpty && !s.coh.invals.contains (l, why, inv))
  let s := ((need.map sliceUid).dedup).foldl (fun s u => s.wakeUnit u) s
  ({ s with coh := { s.coh with invals := s.coh.invals ++ need.map (fun l => (l, why, inv)) } }).pumpInvals

/-- Invalidations of a source are over: none is in progress, and none of its snoops is outstanding. -/
def State.invalsOver (s : State) (why : Why) : Bool :=
  !s.coh.invals.any (fun x => x.2.1 == why) && !s.coh.snoops.any (fun n => n.why == why)

/-- Lines of a page. -/
def pageLines (p : Nat) : List Nat := (List.range 64).map (fun i => p * 64 + i)

/-- A line of the page has a VALID entry (R208). -/
def State.pageTracked (s : State) (p : Nat) : Bool := (pageLines p).any (fun l => (s.entry l).valid)

/-- Lines tracked for a head in a range of regions. -/
def State.linesHeldIn (s : State) (base size h : Nat) : List Nat :=
  s.coh.sf.filterMap (fun x =>
    let set := x.1 / 16 % 16384
    let l := entryLine (x.1 / 16 / 16384) set x.2
    if x.2.valid && x.2.sharers.getLsbD h && decide (base ≤ l / 2 ^ 15) && decide (l / 2 ^ 15 < base + size) then some l
    else none)

/-! ### Allocation and victims (R216, R217) -/

/-- A way's victim record. -/
def State.isVictim (s : State) (hs set w : Nat) : Option Victim :=
  s.coh.victims.find? (fun v => v.slice == hs && v.set == set && v.way == w)

/-- A way that may be chosen as victim (R217). -/
def State.canEvict (s : State) (hs set w : Nat) : Bool :=
  let e := s.way hs set w
  let l := entryLine hs set e
  e.valid && !s.tracked l && !s.snooping l && !s.holdsLine l && !s.lineClosed l && (s.isVictim hs set w).isNone

/-- The victim's snoops issued together when unreserved slots are free for every head (R216), unless its road closed or
a head of it is fenced and its walk will free the entry (R226, R228). -/
def State.pumpVictims (s : State) (hs : Nat) : State :=
  s.coh.victims.foldl (fun s v =>
    if v.slice ≠ hs ∨ v.issued = true then s
    else
      let e := s.way v.slice v.set v.way
      let heads := e.heads
      let l := entryLine v.slice v.set e
      if s.freeSlots hs < heads.length ∨ heads.any (fun h => s.noSnoop h l) then s
      else
        let s := heads.foldl (fun s h => (s.issueSnoop h l true .victim).getD s) s
        { s with coh := { s.coh with victims := s.coh.victims.map (fun x => if x = v then { v with issued := true } else x) } }) s

/-- A line's allocation gives its victim up; one whose snoops are out keeps its way from reuse until they are
complete (R217). -/
def State.dropVictim (s : State) (l : Nat) : State :=
  { s with coh := { s.coh with victims := s.coh.victims.filter (fun v => v.forLine ≠ l || (v.issued && s.snooping v.old)) } }

/-- A way for a new entry of the line: `some` state with the entry made, or none with a victim chosen or still
awaited. The way is the lowest invalid one (DESIGN CHOICE, log entry 16); a victim's only when its snoops are
complete, and for the line it was chosen for (R217). -/
def State.allocEntry (s : State) (l : Nat) (e : SfEntry) : State × Bool :=
  let hs := lineSlice l
  let set := lineSet l
  let free := (List.range 16).find? (fun w => !(s.way hs set w).valid &&
    (match s.isVictim hs set w with | some v => v.forLine == l && !s.snooping v.old | none => true))
  match free with
  | some w =>
    let s := s.dropVictim l
    let s := (s.setWay hs set w { e with valid := true, tag := BitVec.ofNat 22 (lineTag l) }).touch l
    (s.occur ⟨uid 2 hs, 2, none, none, some (l * 64, 0)⟩, true)
  | none =>
    if s.coh.victims.any (fun v => v.forLine == l) then (s, false)
    else
      let ok := (List.range 16).filter (s.canEvict hs set)
      if ok.isEmpty then (s, false)
      else
        let size := fun w => (s.way hs set w).heads.length
        let fewest := ok.foldl (fun m w => min m (size w)) 32
        let sub := if s.infB HSET.VICTIM_POLICY (4096 + hs) then ok.filter (fun w => size w == fewest) else ok
        let w := plruPick (s.plru hs set) (fun i => sub.contains i) 4 1 0
        let old := entryLine hs set (s.way hs set w)
        let v : Victim := ⟨hs, set, w, l, old, false⟩
        let s := s.occur ⟨uid 2 hs, 3, none, none, some (old * 64, 0)⟩
        (({ s with coh := { s.coh with victims := s.coh.victims ++ [v] } }).pumpVictims hs, false)

end Sys2Proof.Machine
end

