-- ==== Sys2Proof/Machine/Access.lean ====
section
/-! DEFINITION. Violations and isolation, answers to hosts, heat, and what a request meets at its page: the key
check, page states, first allocation, promotion, loss, and the way to DRAM (R185, R186, R192-R196, R245-R254,
R264, R267, R325, R354, R365, R500). -/
namespace Sys2Proof.Machine

/-! ### Answers (R184, R192) -/

/-- The request writes. -/
def Req.isWrite : Req → Bool
  | .write => true | .writePtl => true | _ => false
/-- The request is a MemInv or MemInvNT. -/
def Req.isInv : Req → Bool
  | .inv => true | .invNt => true | _ => false

/-- A response handed to the junction (R218), and sent on its head's link with DevLoad of level `level` when the link
can carry it (R192, R197). -/
def State.respond (s : State) (r : MemReq) (data : Option (BitVec 512)) (poison : Bool) (level : Nat) : State :=
  let s := s.handGrant r
  match r.src with
  | .host h ld tag _ =>
    if (s.link h).up then
      let d := s.devLoad h level r.throttled
      let s := if 2 ≤ d.toNat then s.occur ⟨uid 0 h, 0x0A, some ld, some r.cls, none⟩ else s
      s.send (.s2m h tag data poison d)
    else s
  | _ => s

/-- The data bytes of a poisoned answer, which no rule states: eight free values (log entry 14). -/
def State.poisonData (s : State) : BitVec 512 :=
  (List.range 8).foldl (fun d i => (d <<< 64) ||| (Config.freeValue (s.freeUsed + i)).setWidth 512) 0

/-- Poison answered to a read. -/
def State.sendPoison (s : State) (r : MemReq) : State :=
  match r.src with
  | .host _ _ _ _ =>
    let d := s.poisonData
    ({ s with freeUsed := s.freeUsed + 8 }.fixed 518).respond r (some d) true 0
  | .debug => s.dbgDone 3
  | _ => s

/-- Poison answered to a read for what its memory holds, or has lost: a host's is entered in its LD's poison list (R186, log entry
84). -/
def State.answerPoison (s : State) (r : MemReq) : State :=
  let s := match r.src with
    | .host _ ld _ _ => if s.soft.poisonList.contains (ld, r.line) then s
      else { s with soft := { s.soft with poisonList := s.soft.poisonList ++ [(ld, r.line)] } }
    | _ => s
  s.sendPoison r

/-- The answer of a request that is refused: poison to a read, Cmp to a write or MemInv, nothing to MemSpecRd. -/
def State.refuse (s : State) (r : MemReq) : State :=
  if r.kind = .specRd then s
  else if r.kind.isInv then s.respond r none false 0
  else if r.kind.isWrite then
    match r.src with
    | .host _ _ _ _ => (s.fixed 519).respond r none false 0
    | _ => s
  else s.sendPoison r

/-- The answer of a request to a LOST page (R245). -/
def State.answerLost (s : State) (r : MemReq) : State :=
  if r.kind.isWrite || r.kind.isInv || r.kind == .specRd then s.refuse r else s.answerPoison r

/-- A write's completion, when its home slice has ordered it (R18). -/
def State.wrote (s : State) (r : MemReq) (level : Nat) : State :=
  match r.src with
  | .host _ _ _ _ => (s.fixed 514).respond r none false level
  | _ => s

/-- A read answered with data, poisoned or not. -/
def State.answerData (s : State) (r : MemReq) (data : BitVec 512) (poison : Bool) (level : Nat) : State :=
  match r.src with
  | .host _ _ _ _ => if poison then s.answerPoison r else (s.fixed 513).respond r (some data) false level
  | _ => s

/-! ### Heat (R251, R252) -/

/-- A sample of a page into the hot-page table (R252). -/
def State.heatSample (s : State) (p : Nat) : State :=
  let hs := p % 16
  let s := s.occur ⟨uid 2 hs, 9, none, none, some (p * 4096, 0)⟩
  let put := fun (l : List Hot) => { s with plc := { s.plc with hot := l } }
  if s.plc.hot.any (fun x => x.page == p) then
    put (s.plc.hot.map (fun x => if x.page = p then { x with count := min 0x7FFF (x.count + 1) } else x))
  else if s.plc.hot.length < 65536 then
    let s' := put (s.plc.hot ++ [⟨p, 1⟩])
    if s.plc.hot.length = 16384 then s'.raiseOwners 2 else s'
  else match s.plc.hot.find? (fun x => x.count == 1) with
    | some o => put (s.plc.hot.filter (fun x => x.page ≠ o.page) ++ [⟨p, 1⟩])
    | none => s.occur ⟨uid 2 hs, 0x0A, none, none, some (p * 4096, 0)⟩

/-- One host access counted by its slice's sampler: one of every 2^k is sampled, which one left free (R251,
log entry 2). -/
def State.heat (s : State) (p : Nat) : State :=
  let hs := p % 16
  let k := s.inf PLACE.SAMPLE_LOG2 (placeCtl 0)
  let n := tget (fun _ => 0) s.coh.heatTick (2 * hs)
  let start := decide (n % 2 ^ k = 0)
  let at_ := if start then s.fresh.toNat % 2 ^ k else tget (fun _ => 0) s.coh.heatTick (2 * hs + 1)
  let s := if start then s.took else s
  let t := tset (fun _ => 0) (tset (fun _ => 0) s.coh.heatTick (2 * hs) ((n + 1) % 2 ^ k)) (2 * hs + 1) at_
  let s := { s with coh := { s.coh with heatTick := t } }
  if n % 2 ^ k = at_ then s.heatSample p else s

/-- ACCESSED set by a host access, on the page or on its WHOLE region (R252). -/
def State.markAccessed (s : State) (p : Nat) : State :=
  if (s.region (p / 512)).kind = 1 then
    { s with plc := { s.plc with accessedRegions := tset (fun _ => false) s.plc.accessedRegions (p / 512) true } }
  else s.setPage p { s.page p with accessed := true }

/-! ### Capacity loss (R25, R231, R267) -/

/-- A page goes LOST with code CAPACITY; in a shared group its tracked lines are back-invalidated. -/
def State.capacityLoss (s : State) (p : Nat) : State :=
  let s := (s.losePage p 1).report (uid 2 (p % 16)) 0x16 1 (p * 4096)
  match s.groupAt (p / 512) with
  | some _ => s.invalidate (pageLines p) .loss true
  | none => s

/-! ### The way to DRAM (R326, R325, R354, R365) -/

/-- Logical controller of a unit at the roundabouts: 16 + unit. -/
def unitRb (u : Nat) : Nat := 16 + u

/-- The requester number of a request at a roundabout (R401). -/
def MemReq.requester (r : MemReq) : Nat :=
  match r.src with
  | .host h _ _ _ => h
  | .debug => 32
  | .internal _ => 35

/-- A line's counter looked up in its unit's counter cache, in the modes that keep one. Which lookups miss, and how many
tree nodes a missing leaf needs fetched, the rules leave open: free values (R335, R471, log entry 2). -/
def State.counterLookup (s : State) (u key : Nat) (r : MemReq) : State :=
  if s.mode key = 0 then s
  else
    let miss := s.fresh.getLsbD 0
    let nodes := s.fresh.toNat / 2 % 4
    let s := s.took
    if miss then
      let s := s.occur ⟨sealUid u, 1, none, none, some (r.line * 64, r.requester)⟩
      if s.mode key = 3 then (List.range nodes).foldl (fun (s : State) _ => s.event treeUid 6) s else s
    else s

/-- The placement cache's key of a page (R242): its region's entry, or its own in a MIXED region. -/
def State.placeKey (s : State) (p : Nat) : Nat :=
  if (s.region (p / 512)).kind = 2 then 2 * p + 1 else 2 * (p / 512)

/-- Sub-tables that the HBM verge caches: 4 KiB each, in the rest of the verge of the stacks in service beside 208 bytes per frame,
the stream context records and the program image copies (R346, R347). -/
def State.subCap (s : State) : Nat :=
  ((((tierUnits true).filter (fun u => (s.pool u).present)).map (fun u => 48 * 2 ^ 30 - 4304 * (s.pool u).frames)).sum -
    (135266304 + 16793280)) / 4096

/-- A key put into a cache of `cap` entries; a full one gives up its `n`-th entry. -/
def cachePut (l : List Nat) (cap k n : Nat) : List Nat :=
  if l.contains k ∨ cap = 0 then l
  else (if cap ≤ l.length then l.eraseIdx (n % l.length) else l) ++ [k]

/-- A page looked up in the placement cache, which a miss fills; in a MIXED region it goes through the HBM cache of sub-tables,
filled on use (R15, R241, R242, R471). Which entry a full cache gives up is a free value (log entry 2). -/
def State.placeLookup (s : State) (r : MemReq) : State :=
  let p := r.line / 64
  let key := s.placeKey p
  let hit := s.plc.cache.contains key
  let s := s.occur ⟨uid 2 (p % 16), if hit then 7 else 8, none, none, some (r.line * 64, r.requester)⟩
  if hit then s
  else
    let n := s.fresh.toNat
    let subs := if key % 2 = 1 then cachePut s.plc.subs s.subCap (p / 512) n else s.plc.subs
    { s.took with plc := { s.plc with cache := cachePut s.plc.cache 262144 key n, subs := subs } }

/-- A read of a page frame's line: answered by the merge buffer, the span read buffer, the write queue or the twin
buffer, or sent to its unit's roundabout, with the data as ordered here. -/
def State.readLine (s : State) (r : MemReq) (k : Nat) : State :=
  let p := r.line / 64
  let i := r.line % 64
  let u := frUnit k
  let key := (s.page p).key
  let d := s.plain k key p i
  let addr := frLine k i
  let level := s.rd MEMCH.QLEVEL u
  let inMerge := (s.mergesOf k).any (fun m => m.span == i / 4 &&
    (match m.lines[i % 4]? with | some x => x.2.1 == BitVec.allOnes 64 | none => false))
  let c := s.chan u
  let twoDpc := decide (u < 24) && s.rd MEMCH.DIMMS u == 2
  let inQueue := !twoDpc && c.wq.any (fun w => w.addr == addr % 2 ^ 34)
  let inTwin := decide (u < 24) && c.twin.contains (addr % 2 ^ 34)
  let inSpan := decide (2 ≤ s.mode key) && s.sealing.spans.contains (k * 16 + i / 4)
  let s := if 24 ≤ u then s.fixed 515 else s.fixed 516
  if inMerge then s.answerData r d.1 d.2 0
  else if inQueue then
    (s.occur ⟨memUid u, 4, none, none, some (r.line * 64, r.requester)⟩).answerData r d.1 d.2 level
  else if inTwin || inSpan then s.answerData r d.1 d.2 level
  else
    let ok := s.spanOk k key p (i / 4) (s.spanLines k (i / 4))
    let q := { r with data := d.1, poison := d.2, addr := addr, ok := ok, at_ := s.time.fclk }
    let s := s.counterLookup u key r
    let b := s.rb (unitRb u)
    (s.wakeDom (50 + u)).setRb (unitRb u) { b with queue := b.queue ++ [(r.requester, q)] }

/-- A debug read reaches its page, and waits for its data (R107). -/
def State.debugReady (s : State) : State := { s with svc := { s.svc with dbgReady := true } }

/-! ### Decoders in service (R299, R307) -/

/-- Decoders whose pair is in service: two per unit SC32-SC63 (R7). -/
def State.decodersOk (s : State) : List Nat :=
  (List.range 64).filter (fun d => !s.stow.stopped.contains (uid 6 (32 + d / 2)))

/-- A request put with the promotion of its page, which it starts when none is waiting (R297-R299). -/
def State.promote (s : State) (p : Nat) (buffer : Bool) (r : MemReq) : State :=
  let q := s.stow.promos
  let s := s.wakeDom (32 + (if s.stow.decoding.length < 32 then 0 else 1))
  match q.find? (fun x => x.page == p && x.buffer == buffer) with
  | some _ =>
    { s with stow := { s.stow with promos := q.map (fun x =>
        if x.page = p ∧ x.buffer = buffer then { x with reqs := x.reqs ++ [r], level := min x.level (if buffer then 1 else 0) } else x) } }
  | none =>
    let n : Queued := { page := p, level := if buffer then 1 else 0, force := false, target := 255, buffer := buffer,
                        cls := r.cls, reqs := [r] }
    { s with stow := { s.stow with promos := q ++ [n] } }

/-! ### Access to a page -/

/-- A request waits for a page-level operation at its home slice. -/
def State.park (s : State) (r : MemReq) : State :=
  { s with coh := { s.coh with parked := s.coh.parked ++ [r] } }

/-- A request held by the move of its page. -/
def State.holdReq (s : State) (p : Nat) (r : MemReq) : State :=
  match s.moveOf p with
  | some m => s.setMove { m with held := m.held ++ [r] }
  | none => s.park r

/-- A frame's leaf lies under a node that re-bases (R337). -/
def State.rebasing (s : State) (k : Nat) : Bool :=
  s.sealing.rebase.any (fun x => leafIdx k / 64 ^ x.1 == x.2)

/-- The page's accesses wait: it is re-encrypted, or its node re-bases (R321, R337). -/
def State.pageBusy (s : State) (p : Nat) : Bool :=
  s.sealing.reenc.contains p ||
  (s.mode (s.page p).key == 3 && (s.page p).unit.isSome && s.rebasing (locFrame (s.page p).loc))

/-- The window over a page is private, and its LD adopts (R185). -/
def State.adopts (s : State) (p ld : Nat) : Bool :=
  (s.groupAt (p / 512)).isNone && s.infB TAG.KEY_POLICY ld

/-- The LD a request acts for. -/
def MemReq.ld (r : MemReq) : Nat := match r.src with | .host _ ld _ _ => ld | .internal ld => ld | .debug => 0

/-- The request takes no key check: it is a debug read or a reclaim walk's write. -/
def MemReq.noCheck (r : MemReq) : Bool := match r.src with | .host _ _ _ _ => false | _ => true

/-- A write applied to a page frame, whose unit it wakes (R18-R20). -/
def State.writeFrame (s : State) (r : MemReq) (k : Nat) : State :=
  let p := r.line / 64
  let key := (s.page p).key
  ((s.wakeDom (50 + frUnit k)).counterLookup (frUnit k) key r).writeLine k key p (r.line % 64) r.data r.mask r.poison r.dec

/-- 64 lines with one of them written over zero (R250). -/
def firstLines (r : MemReq) : List (BitVec 512 × Bool) :=
  (List.range 64).map (fun i => if i = r.line % 64 then (maskBytes 0 r.data r.mask, r.poison) else (0, false))

/-- A write to a page without a frame takes its first one, whose unit it wakes, or the page goes LOST (R20, R249, R250, R267).
A write to a BLANK page is served without a memory access, one that adopts (`adopt`) by its new frame's unit (R192). -/
def State.firstWrite (s : State) (r : MemReq) (adopt : Bool) : State :=
  let p := r.line / 64
  match s.allocate p r.key (firstLines r) with
  | some s' =>
    let u := (s'.page p).loc / 2 ^ 31
    (s'.wakeDom (50 + u)).wrote r (if adopt then s'.rd MEMCH.QLEVEL u else 0)
  | none => (s.capacityLoss p).refuse r

/-- An access to a STOWED page whose key matches (R245, R267, R299). A reclaim walk's write promotes the page or loses
it, whatever decoders are in service (R500). -/
def State.accessStowed (s : State) (r : MemReq) : State :=
  let p := r.line / 64
  if s.decodersOk.isEmpty && !(r.noCheck && r.kind.isWrite) then s.answerLost r
  else if s.grantable (p / 512) then s.promote p false r
  else if r.kind.isWrite then (s.capacityLoss p).refuse r
  else s.promote p true r

/-- A request that has passed its home slice's ordering meets its page (R185, R245, R254, R500). -/
def State.access (s : State) (r : MemReq) : State :=
  let p := r.line / 64
  let x := s.page p
  if r.kind.isInv then s.respond r none false 0
  else if r.kind = .specRd then s
  else if r.src = .debug then s.debugReady
  else if s.pageBusy p then s.park r
  else
    let host := !r.noCheck
    let s := s.placeLookup r
    let touches := host && x.st != .blank && x.st != .lost
    let s := if touches then (if r.counted then s else s.heat p).markAccessed p else s
    let r := { r with counted := r.counted || touches }
    let x := s.page p
    let same := r.noCheck || r.key == x.key
    let w := r.kind.isWrite
    let adopt := w && s.adopts p r.ld
    match x.st with
    | .blank =>
      if w then s.firstWrite r false
      else ((s.fixed 513).fixed 517).respond r (some 0) false 0
    | .lost => s.answerLost r
    | .near => frameAccess s r x same w adopt
    | .far => frameAccess s r x same w adopt
    | .stowed =>
      if same then s.accessStowed r
      else if adopt then
        let s := s.violateReq r 5 7
        if s.grantable (p / 512) then
          (s.blankPage p).firstWrite r true
        else (s.capacityLoss p).refuse r
      else (s.violateReq r 5 (if w then 1 else 2)).refuse r
    | .moving =>
      if !same && !adopt then (s.violateReq r 5 (if w then 1 else 2)).refuse r
      else if !same then s.holdReq p r
      else if x.src = .stowed then s.holdReq p r
      else if !w then s.readLine r (locFrame x.loc)
      else match s.moveOf p with
        | some m =>
          if m.pass = 4 then s.holdReq p r
          else
            let s := s.setMove { m with redo := m.redo ||| BitVec.ofNat 64 (2 ^ (r.line % 64)) }
            (s.writeFrame r (locFrame x.loc)).wrote r (s.rd MEMCH.QLEVEL (x.loc / 2 ^ 31))
        | none => (s.writeFrame r (locFrame x.loc)).wrote r (s.rd MEMCH.QLEVEL (x.loc / 2 ^ 31))
where
  /-- A NEAR or FAR page (R185). -/
  frameAccess (s : State) (r : MemReq) (x : Page) (same w adopt : Bool) : State :=
    let k := locFrame x.loc
    let level := s.rd MEMCH.QLEVEL (frUnit k)
    if same then
      if w then (s.writeFrame r k).wrote r level else s.readLine r k
    else if adopt then
      (((s.violateReq r 5 7).rekeyFrame (r.line / 64) r.key zeroLines).writeFrame r k).wrote r level
    else (s.violateReq r 5 (if w then 1 else 2)).refuse r

/-- Requests served again in their order. -/
def State.accessAll (s : State) (rs : List MemReq) : State := rs.foldl (fun s r => s.access r) s

/-- Requests parked for pages that wait no longer are served. -/
def State.unpark (s : State) : State :=
  let rs := s.coh.parked
  ({ s with coh := { s.coh with parked := [] } }).accessAll rs

/-- Requests on their way to a unit's DRAM when it is lost meet their pages again (R245, R376). -/
def State.replayUnit (s : State) (u : Nat) : State :=
  let b := s.rb (unitRb u)
  let c := s.chan u
  let rs := b.queue.map Prod.snd ++ c.inflight.toList.map (fun x => x.req) ++ c.rq.map (fun x => x.req)
  let s := (s.setRb (unitRb u) { b with queue := [] }).setChan u { c with rq := [], wq := [], inflight := none, twin := [], openRows := [] }
  s.accessAll rs

/-- A unit is lost with its pages (R274, R376); the requests that waited for it are answered. -/
def State.dropUnit (s : State) (u code : Nat) : State × Nat :=
  let r := s.loseUnit u code
  let held := (s.plc.moves.filter (fun m => (r.1.moveOf m.page).isNone)).flatMap (fun m => m.held)
  ((r.1.replayUnit u).accessAll held, r.2)

end Sys2Proof.Machine
end

