-- ==== Sys2Proof/Machine/Order.lean ====
section
/-! DEFINITION. Ordering at the home slices: line states, trackers, dwell windows, snoop responses, dead agents
(R209-R229, R500). -/
namespace Sys2Proof.Machine

/-! ### What a request asks (R209) -/

/-- MetaValue as the slice reads it: No-Op reads as I, and MemRdData always asks for S. -/
def MemReq.meta_ (r : MemReq) : MetaVal :=
  if r.kind = .readData then .shared
  else match r.mv with | .any => .any | .shared => .shared | _ => .invalid

/-- The heads a request must snoop first, and whether they must give the line up (R211). -/
def State.toSnoop (s : State) (r : MemReq) : List Nat × Bool :=
  let e := s.entry r.line
  let m := r.meta_
  let takes := r.kind.isWrite || m == .any
  match e.holder with
  | some x =>
    if r.head = some x ∨ (r.kind.isInv = true ∧ m = .invalid) then ([], false) else ([x], takes)
  | none => if takes then (e.heads.filter (fun h => some h ≠ r.head), true) else ([], false)

/-- The entry that names a head as the only holder. -/
def soleEntry (h : Nat) (excl : Bool) : SfEntry := { valid := true, tag := 0, sharers := headBit h, excl := excl }

/-- A line's entry made or replaced, keeping its tag; false when no way is free yet. -/
def State.putEntry (s : State) (l : Nat) (e : SfEntry) : State × Bool :=
  match s.wayOf l with
  | some _ => ((s.setEntry l { e with valid := true, tag := (s.entry l).tag }).touch l, true)
  | none => s.allocEntry l e

/-- The line's state after a grant (R211); false when the grant waits for a way. -/
def State.grantEntry (s : State) (r : MemReq) : State × Bool :=
  let l := r.line
  let e := s.entry l
  let m := r.meta_
  match r.head with
  | none => (if r.kind.isWrite then s.setEntry l SfEntry.init else s, true)
  | some h =>
    if e.holder = some h then
      match m with
      | .any => s.putEntry l (soleEntry h true)
      | .shared => s.putEntry l (soleEntry h false)
      | _ => (s.setEntry l SfEntry.init, true)
    else if r.kind.isInv ∧ m = .invalid then
      (if e.excl then s else s.setEntry l (e.without h), true)
    else match m with
      | .any =>
        let x := s.putEntry l (soleEntry h true)
        (if x.2 then x.1.granting r else x.1, x.2)
      | .shared =>
        if r.kind.isWrite then s.putEntry l (soleEntry h false)
        else if e.valid then s.putEntry l { e with sharers := e.sharers ||| headBit h }
        else s.putEntry l (soleEntry h false)
      | _ => (if r.kind.isWrite then s.setEntry l SfEntry.init else s, true)

/-- Traffic of a recorded holder that needs no tracker: a write or MemInv I from the exclusive holder, and a MemInv I
that crosses a snoop to its head (R213, R221). -/
def State.holderTraffic (s : State) (r : MemReq) : Bool :=
  let release := r.kind.isInv && r.meta_ == .invalid
  (match (s.entry r.line).holder with
    | some x => r.head == some x && (r.kind.isWrite || release)
    | none => false) ||
  (release && s.coh.snoops.any (fun n => n.line == r.line && some n.head == r.head))

/-- Traffic of holders that a closed road or an isolated head still applies: writebacks and MemInv I from the
exclusive holder, MemInv I from a sharer (R184 step 9, R196, R226). -/
def State.keptTraffic (s : State) (r : MemReq) : Bool :=
  (s.holderTraffic r && r.meta_ == .invalid) ||
  (r.kind.isInv && r.meta_ == .invalid && (match r.head with
    | some h => (s.entry r.line).heads.contains h
    | none => false))

/-- A lookup that hit an entry (R471). -/
def State.lookup (s : State) (l : Nat) : State :=
  if (s.entry l).valid then (s.occur ⟨sliceUid l, 1, none, none, some (l * 64, 0)⟩).touch l else s

/-- A line of the range that a reclaim walk visits. -/
def Walk.covers (w : Walk) (l : Nat) : Bool := decide (w.base ≤ l / 2 ^ 15) && decide (l / 2 ^ 15 < w.base + w.size)

/-- The request's line waits for a reclaim walk of another head that its entry names (R227). -/
def State.walkWait (s : State) (r : MemReq) : Bool :=
  s.coh.walks.any (fun w => w.covers r.line && some w.head != r.head && (s.entry r.line).heads.contains w.head)

/-- The victim that a line's allocation awaits lies in a closed road (R231). -/
def State.victimClosed (s : State) (l : Nat) : Bool :=
  s.coh.victims.any (fun v =>
    let e := s.way v.slice v.set v.way
    v.forLine == l && e.valid && s.lineClosed (entryLine v.slice v.set e))

/-- The request is looked up when it is served now: it lies in an open shared group, from a head that is not fenced, and
its line is not busy. -/
def State.looksUp (s : State) (r : MemReq) : Bool :=
  match s.lineGroup r.line with
  | none => false
  | some g =>
    !(match r.head with | some h => s.fenced g h | none => false) && !s.closedRoad g && !s.walkWait r && !s.snooping r.line

/-- A request ordered now, or left waiting with its snoops issued as far as they can be (R211, R212, R226, R228). A
debug read's snoop uses the unreserved budget (R264). -/
def State.serve (s : State) (r : MemReq) : State × Bool :=
  let l := r.line
  match s.lineGroup l with
  | none => (s.access r, true)
  | some g =>
    let fenced := match r.head with | some h => s.fenced g h | none => false
    if fenced then (s.refuse r, true)
    else if s.closedRoad g then
      if s.keptTraffic r then (((s.grantEntry r).1).access r, true)
      else match r.head with
        | some _ => (s.refuse r, true)
        | none => (s.access r, true)
    else if s.walkWait r || s.snooping l then (s, false)
    else
      let s := if r.looked then s else s.lookup l
      let need := s.toSnoop r
      if !need.1.isEmpty then
        if s.holdsLine l then (s, false)
        else (s.issueAll need.1 l need.2 (if r.src = .debug then .debug else .conflict), false)
      else
        let x := s.grantEntry r
        if x.2 then (x.1.access r, true)
        else if x.1.victimClosed l then ((x.1.dropVictim l).refuse r, true)
        else (x.1, false)

/-- The queue of a line's tracker. -/
def State.trackQueue (s : State) (l : Nat) : List MemReq :=
  match s.coh.trackers.find? (fun t => t.line == l) with | some t => t.queue | none => []

/-- The queue of a line's tracker replaced; an empty one releases the tracker. -/
def State.setTrack (s : State) (l : Nat) (q : List MemReq) : State :=
  let rest := s.coh.trackers.filter (fun t => t.line ≠ l)
  let ts := if q.isEmpty then rest
    else if s.tracked l then s.coh.trackers.map (fun t => if t.line = l then { t with queue := q } else t)
    else rest ++ [⟨l, q⟩]
  { s with coh := { s.coh with trackers := ts } }

/-- The request comes from the exclusive holder of its line while the line is kept for that holder (R218). -/
def State.ofKeeper (s : State) (r : MemReq) : Bool :=
  s.holdsLine r.line && !s.snooping r.line && r.head.isSome && (s.entry r.line).holder == r.head

/-- A tracker's requests served in order of acceptance, as far as they can be (R214); while the line is kept for its
holder, the holder's requests are served before the others (R218). -/
def State.runTracker : Nat → State → Nat → State
  | 0, s, _ => s
  | n + 1, s, l =>
    match s.trackQueue l with
    | [] => s
    | r :: rest =>
      let seen := { r with looked := r.looked || s.looksUp r }
      let x := s.serve r
      if x.2 then State.runTracker n (x.1.setTrack l rest) l
      else
        let s := x.1.setTrack l (seen :: rest)
        match rest.zipIdx.find? (fun y => s.ofKeeper y.1) with
        | some (k, i) =>
          let y := s.serve k
          if y.2 then State.runTracker n (y.1.setTrack l (seen :: rest.eraseIdx i)) l else y.1
        | none => s

/-- An entry after a snoop's response; it may be left with no sharer until the request that snooped is granted. -/
def SfEntry.answered (e : SfEntry) (n : Snoop) : SfEntry :=
  if !e.valid || !e.sharers.getLsbD n.head then e
  else match n.done with
    | some true => { e with excl := false }
    | some false => { e with sharers := e.sharers &&& ~~~ headBit n.head, excl := false }
    | none => e

/-- An entry left with no sharer is freed (R206, R211). -/
def State.tidy (s : State) (l : Nat) : State := if (s.entry l).valid then s.setEntry l (s.entry l) else s

/-- A line whose snoops are all complete takes its new state, and only then do its waiting requests go on (R212). A
victim's entry is freed first, for the line it was chosen for (R217). -/
def State.finishLine (s : State) (l : Nat) : State :=
  let ns := s.coh.snoops.filter (fun n => n.line == l)
  if ns.isEmpty || ns.any (fun n => n.done.isNone) then s
  else
    let evicted := s.coh.victims.any (fun v => v.old == l && v.issued)
    let e := ns.foldl SfEntry.answered (s.entry l)
    let s := { s with
      coh := { s.coh with
        snoops := s.coh.snoops.filter (fun n => n.line ≠ l)
        victims := s.coh.victims.filter (fun v => !(v.old == l && v.issued && !s.tracked v.forLine))
        invals := s.coh.invals.filter (fun x => x.1 ≠ l || !(match x.2.1 with
          | .disable win => e.heads.filter (fun h => h == ldHead (winLd win))
          | _ => if x.2.2 then e.heads else e.holder.toList).isEmpty) } }
    let s := match s.wayOf l with | some w => s.setWay (lineSlice l) (lineSet l) w e | none => s
    let s := if evicted then s.tidy l else s
    (State.runTracker ((s.trackQueue l).length + 1) s l).tidy l

/-- Everything at the slices that a change may have released: lines whose snoops are complete, victims, internal
invalidations, trackers. -/
def State.pump (s : State) : State :=
  let s := ((s.coh.snoops.map (fun n => n.line)).dedup).foldl (fun s l => s.finishLine l) s
  let s := (List.range 16).foldl (fun s hs => s.pumpVictims hs) s
  let s := s.pumpInvals
  (s.coh.trackers.map (fun t => (t.line, t.queue.length))).foldl (fun s x => State.runTracker (x.2 + 1) s x.1) s

/-- A request accepted at its home slice (R213, R214): traffic of the line's holder is applied at once, a request
whose line is busy waits in its tracker, and one of a holder is served while the line is kept for it (R218). A MemSpecRd has no coherence effect (R209). -/
def State.order (s : State) (r : MemReq) : State :=
  let l := r.line
  if r.kind = .specRd then s.access r
  else if (s.lineGroup l).isSome && s.holderTraffic r && !(match s.lineGroup l, r.head with
      | some g, some h => s.fenced g h
      | _, _ => false) then
    ((s.lookup l).grantEntry r).1.access r |>.pump
  else if s.tracked l && !s.ofKeeper r then s.setTrack l (s.trackQueue l ++ [r])
  else
    let seen := { r with looked := r.looked || s.looksUp r }
    let x := s.serve r
    if x.2 then x.1 else x.1.setTrack l (x.1.trackQueue l ++ [seen])

/-! ### Snoop responses (R210, R221, R226, R228) -/

/-- A snoop released. -/
def State.dropSnoop (s : State) (h l : Nat) : State :=
  { s with coh := { s.coh with snoops := s.coh.snoops.filter (fun n => ¬ (n.head = h ∧ n.line = l ∧ n.done = none)) } }

/-- A head timed out in the group of a line (R226). -/
def State.timedOut (s : State) (h l : Nat) : Bool :=
  match s.lineGroup l with | some g => bitOf (s.rd SNOOP.TIMED_OUT g) h | none => false

/-- The snoop to a head for a line that no response has completed. -/
def State.bisnp (s : State) (h l : Nat) : Option Snoop := s.bisnps.find? (fun n => n.head == h && n.line == l)

/-- A message of a head about a snoop that is not outstanding: violation 0x09, but for a late one of a timed-out or
reclaimed head (R210, R226, R228). -/
def State.unmatched (s : State) (h l : Nat) (addr : BitVec 64) (detail : Nat) : State :=
  let late := match s.lineGroup l with | some g => s.fenced g h || s.timedOut h l | none => false
  if late then s else s.violate h 0xFF 0x09 1 addr detail

/-- DETAIL of a violation by a back-invalidate message: its opcode and its tag (R194). The opcodes are the CXL
specification's (PRESUMED, log entry 15). -/
def biDetail (opcode : Nat) (tag : BitVec 16) : Nat := opcode + tag.toNat * 2 ^ 8

/-- A snoop's accepted response (R210). -/
def State.respondSnoop (s : State) (h l : Nat) (shared : Bool) : State :=
  { s with coh := { s.coh with snoops := s.coh.snoops.map (fun n =>
      if n.head = h ∧ n.line = l ∧ n.done = none then { n with done := some shared } else n) } }

/-- A response to a back-invalidate snoop (R210): `shared` when it leaves the head a copy, `odd` for a BIRspE or a block
form. One that is not accepted for its snoop is violation 0x08 and leaves the snoop outstanding; a fenced head's is
dropped (R228). -/
def State.biRsp (s : State) (h l : Nat) (shared odd : Bool) (detail : Nat) : State :=
  match (if (match s.lineGroup l with | some g => s.fenced g h | none => false) then none else s.bisnp h l) with
  | none => s.unmatched h l 0 detail
  | some n =>
    if odd || (n.inv && shared) then s.violate h 0xFF 0x08 1 0 detail
    else (s.respondSnoop h l shared).pump

/-- The BIConflictAcks that wait for no response any more are sent (R223). -/
def State.pumpAcks (s : State) : State :=
  s.coh.acks.foldl (fun s x =>
    if x.2.2.any (fun t => (s.tagsDue x.1 x.2.1).contains t) then s
    else
      let s := { s with coh := { s.coh with acks := s.coh.acks.filter (· ≠ x) } }
      if (s.link x.1).up then s.send (.biConflictAck x.1 (x.2.1 * 64)) else s) s

/-- A BIConflict (R223): its ack waits for the responses to what was ordered before the snoop. -/
def State.biConflict (s : State) (h l : Nat) (hpa : BitVec 64) (detail : Nat) : State :=
  match s.bisnp h l with
  | some n => ({ s with coh := { s.coh with acks := s.coh.acks ++ [(h, l, n.due)] } }).pumpAcks
  | none => s.unmatched h l hpa detail

/-! ### Dead agents (R225-R229, R500) -/

/-- Snoops outstanding to a head for a group released (R226, R227). -/
def State.dropSnoops (s : State) (g h : Nat) : State :=
  { s with coh := { s.coh with snoops := s.coh.snoops.filter (fun n =>
      ¬ (n.head = h ∧ n.done = none ∧ s.lineGroup n.line = some g)) } }

/-- A reclaim walk of a head over a group's range is on. -/
def State.walking (s : State) (h g : Nat) : Bool := s.coh.walks.any (fun w => w.head == h && w.win == g)

/-- Reclaiming of a head begins: fenced at once, its snoops released, and a walk to come (R227). -/
def State.reclaim (s : State) (g h : Nat) : State :=
  let s := s.setGroup SNOOP.RECLAIMED g ((BitVec.ofNat 32 (s.rd SNOOP.RECLAIMED g) ||| headBit h).toNat)
  let s := (s.group g).foldl (fun (s : State) i => s.stamp 0x11 i SNOOP.RECLAIMED.word (SNOOP.RECLAIMED.put 0 (headBit h).toNat)) s
  let s := s.dropSnoops g h
  if s.walking h g then s
  else
    let w : Walk := { head := h, win := g, base := s.inf WINDOW.DEV_BASE g, size := s.inf WINDOW.SIZE g }
    { s with coh := { s.coh with walks := s.coh.walks ++ [w] } }

/-- WINDOW.STATE of every member that is not disabling. -/
def State.setGroupState (s : State) (g v : Nat) : State :=
  (s.group g).foldl (fun s i => if s.winState i = 3 then s else s.wr WINDOW.STATE i v) s

/-- A group becomes a closed road (R226): its internal invalidations are over. Members that are disabling complete
(`State.timeoutRow`). -/
def State.closeRoad (s : State) (g h : Nat) : State :=
  let s := (s.setGroupState g 2).dropSnoops g h
  { s with coh := { s.coh with invals := s.coh.invals.filter (fun x => s.lineGroup x.1 ≠ some g) } }

/-- A snoop timed out (R225). -/
def State.snoopTimeout (s : State) (h l : Nat) : State :=
  let s := s.dropSnoop h l
  match s.lineGroup l with
  | none => s.pump
  | some g =>
    if bitOf (s.rd SNOOP.TIMED_OUT g) h then s.pump
    else
      let s := s.setGroup SNOOP.TIMED_OUT g ((BitVec.ofNat 32 (s.rd SNOOP.TIMED_OUT g) ||| headBit h).toNat)
      if s.closedRoad g then (s.dropSnoops g h).pump
      else if s.infB SNOOP.DEAD_POLICY g then (s.reclaim g h).pump
      else ((s.closeRoad g h).report (uid 0 h) 0x17 1 g).pump

/-- The device key slot of an LD's KeyID, when it is mapped (R184). -/
def State.keySlot (s : State) (ld keyId : Nat) : Option Nat :=
  let i := 4096 * ld + keyId % 4096
  if s.infB KEYMAP.VALID i then some (s.inf KEYMAP.SLOT i) else none

/-- A line stored as poisoned by a reclaim walk, for a member LD (R500). -/
def State.poisonLine (s : State) (l ld : Nat) : State :=
  s.access { src := .internal ld, kind := .write, mv := .invalid, line := l,
             key := (s.keySlot ld (s.inf TAG.DEFAULT_KEYID ld)).getD 0, cls := 0, data := 0,
             mask := BitVec.allOnes 64, poison := true, throttled := false, at_ := s.time.fclk }

/-- A walk's writes that still wait: for a promotion, a move, or a page's re-encryption (R500). -/
def State.walkWrites (s : State) (ls : List Nat) : Bool :=
  s.ordered.any (fun r => (match r.src with | .internal _ => true | _ => false) && ls.contains r.line)

/-- A walk that has visited every entry and whose writes are done ends (R227): the head leaves every entry of the group,
and one record counts the lines stored as poisoned; a line of a LOST page is none of them (R500). -/
def State.walkOver (s : State) (w : Walk) (ls : List Nat) : State :=
  let s := (s.linesHeldIn w.base w.size w.head).foldl (fun s l => s.setEntry l ((s.entry l).without w.head)) s
  let s := { s with coh := { s.coh with walks := s.coh.walks.filter (· ≠ w) } }
  let n := (ls.filter (fun l => (s.page (l / 64)).st ≠ .lost)).length
  (s.report (uid 0 w.head) 0x18 1 (w.win + n * 2 ^ 16)).pump

/-- Walks whose writes are done end. -/
def State.endWalks (s : State) : State :=
  s.coh.walks.foldl (fun s w => match w.stored with
    | some ls => if s.walkWrites ls then s else s.walkOver w ls
    | none => s) s

/-- A reclaim walk has visited every entry (R227): the lines that the head held exclusively are stored as poisoned for
its member LD, and the walk ends when they are (R500). -/
def State.walkEnd (s : State) (h win : Nat) : State :=
  match s.coh.walks.find? (fun w => w.head == h && w.win == win && w.stored.isNone) with
  | none => s
  | some w =>
    let ld := match (s.group win).find? (fun i => ldHead (winLd i) == h) with | some i => winLd i | none => winLd win
    let excl := (s.linesHeldIn w.base w.size h).filter (fun l => (s.entry l).excl)
    let s := { s with coh := { s.coh with walks := s.coh.walks.map (fun x => if x = w then { x with stored := some excl } else x) } }
    (excl.foldl (fun s l => s.poisonLine l ld) s).endWalks

/-- REOPEN of a closed road (R229). -/
def State.reopen (s : State) (g : Nat) : State :=
  if !s.closedRoad g then s
  else
    let v := s.rd SNOOP.TIMED_OUT g
    let s := ((List.range 32).filter (fun h => bitOf v h)).foldl (fun s h => s.reclaim g h) s
    ((s.setGroup SNOOP.TIMED_OUT g 0).setGroupState g 1).pump

end Sys2Proof.Machine
end

