-- ==== Sys2Proof/Machine/Extents.lean ====
section
/-! DEFINITION. Extents of dynamic capacity: offers, answers of the heads, recall and release (R265-R270,
R283, R284). -/
namespace Sys2Proof.Machine

/-- The heads of an extent: the members of its window's group, or the head of a private window's LD. -/
def State.extHeads (s : State) (e : Nat) : List Nat :=
  let w := s.inf EXTENT.WINDOW e
  if s.infB WINDOW.TYPE w then ((s.group w).map (fun i => ldHead (winLd i))).dedup
  else if s.infB WINDOW.ENABLE w then [ldHead (winLd w)] else []

/-- A bit of a 32-bit head mask set or cleared. -/
def State.headMask (s : State) (f : Fld) (e h : Nat) (v : Bool) : State :=
  let m := BitVec.ofNat 32 (s.rd f e)
  s.wr f e (if v then m ||| headBit h else m &&& ~~~ headBit h).toNat

/-- Writes and reads of a page that were held or waiting when its extent went free: not served any more (R270). -/
def State.unserve (s : State) (rs : List MemReq) : State :=
  rs.foldl (fun s r => (s.violateReq r 3 (if r.kind.isWrite then 1 else 2)).refuse r) s

/-- Every page of an extent goes BLANK and frees its frame or slot (R270). -/
def State.blankExtent (s : State) (e : Nat) : State :=
  let ps := (s.plc.pages.filter (fun p => s.extHas e (p.1 / 512) && p.2.st != .blank)).map Prod.fst
  let held := (s.plc.moves.filter (fun m => ps.contains m.page)).flatMap (fun m => m.held)
  (s.withMarks (fun s => (ps.foldl (fun s p => s.freeStorage p) s).putPages
    (ps.map (fun p => (p, { Page.init with pin := (s.page p).pin }))))).unserve held

/-- An extent goes free (R270). -/
def State.extFree (s : State) (e : Nat) : State :=
  let s := s.blankExtent e
  s.withMarks (fun s => ((s.wr EXTENT.STATE e 0).wr EXTENT.ACCEPTED e 0).wr EXTENT.RELEASED e 0)

/-- An extent re-evaluated: heads that are members no longer count as released; an offered extent whose members
have all accepted is accepted; a releasing one with no member in ACCEPTED goes free (R270). -/
def State.extEval (s : State) (e : Nat) : State :=
  if s.rd EXTENT.STATE e = 0 then s
  else
    let hs := s.extHeads e
    let gone := (List.range 32).filter (fun h => bitOf (s.rd EXTENT.ACCEPTED e) h && !hs.contains h)
    let s := gone.foldl (fun s h => (s.headMask EXTENT.ACCEPTED e h false).headMask EXTENT.RELEASED e h true) s
    if s.rd EXTENT.STATE e = 1 ∧ hs ≠ [] ∧ hs.all (fun h => bitOf (s.rd EXTENT.ACCEPTED e) h) = true then
      s.wr EXTENT.STATE e 2
    else if s.rd EXTENT.STATE e = 3 ∧ s.rd EXTENT.ACCEPTED e = 0 then s.extFree e
    else s

/-- Every extent re-evaluated, after a window's change (R270). -/
def State.extEvalAll (s : State) : State := ((s.listed 0x09).filter (· ≠ 0)).foldl (fun s e => s.extEval e) s

/-- A release requested of every member in ACCEPTED (R270). -/
def State.extRecall (s : State) (e : Nat) : State :=
  let st := s.rd EXTENT.STATE e
  if st = 1 ∨ st = 2 then
    let s := s.wr EXTENT.STATE e 3
    let hs := (List.range 32).filter (fun h => bitOf (s.rd EXTENT.ACCEPTED e) h)
    (hs.foldl (fun s h => s.send (.capacityEvent h e false)) s).extEval e
  else s

/-- The status of a store of OFFER (R284). `taken` says which extents are not free, or have been offered by a store that is
admitted and not yet at its commit point. -/
def State.offerStatus (s : State) (taken : Nat → Bool) (e : Nat) : Nat :=
  let w := s.rd EXTENT.WINDOW e
  let n := s.rd EXTENT.COUNT e
  let lo := s.rd EXTENT.LD_BASE e
  let base := s.inf WINDOW.DEV_BASE w + lo - s.inf WINDOW.LD_BASE w
  let others := (s.listed 0x09).filter (fun x => x ≠ 0 && x != e && taken x && s.inf EXTENT.COUNT x != 0)
  let asked := ((others.filter (fun x => s.rd EXTENT.STATE x == 0 && !s.rdB EXTENT.CLASS x)).map (s.inf EXTENT.COUNT)).sum
  if taken e then 5
  else if !s.infB WINDOW.ENABLE w then 4
  else if n = 0 ∨ lo < s.inf WINDOW.LD_BASE w ∨ s.inf WINDOW.LD_BASE w + s.inf WINDOW.SIZE w < lo + n then 2
  else if others.any (fun x => decide (s.extBase x < base + n) && decide (base < s.extBase x + s.inf EXTENT.COUNT x)) then 4
  else if !s.rdB EXTENT.CLASS e ∧ s.usable < (s.committedRegions + asked + n) * 512 then 7
  else 0

/-- The extent is not free. -/
def State.extTaken (s : State) (e : Nat) : Bool := s.rd EXTENT.STATE e != 0

/-- The extent is not free, or an OFFER of it waits for its commit point. -/
def State.extAsked (s : State) (e : Nat) : Bool := s.extTaken e || s.onesIn EXTENT.OFFER e

/-- An extent offered: an Add Capacity event to every member head (R270). -/
def State.extOffer (s : State) (e : Nat) : State :=
  let s := s.withMarks (fun s => ((s.wr EXTENT.STATE e 1).wr EXTENT.ACCEPTED e 0).wr EXTENT.RELEASED e 0)
  (s.extHeads e).foldl (fun s h => s.send (.capacityEvent h e true)) s

/-- OFFER (R284, R270): a store of the bit alone. -/
def execOffer (w : WfNo) (t : ThrNo) (d : Reg) (e : BitVec 14) (s : State) : Host.Outcome State Fault Refusal :=
  .next (ownerStore w t d (fun s =>
    let st := s.offerStatus s.extAsked (e.toNat + 1)
    (st, if st = 0 then s.extOffer (e.toNat + 1) else s)) s)

/-- RECALL (R270, R284). -/
def execRecall (w : WfNo) (t : ThrNo) (d : Reg) (e : BitVec 14) (s : State) : Host.Outcome State Fault Refusal :=
  .next (ownerStore w t d (fun s => (0, s.extRecall (e.toNat + 1))) s)

/-- EXTENT_ACCEPT (R270): a member head accepts an offered extent. -/
def execExtentAccept (h : HeadNo) (e : BitVec 14) (s : State) : Host.Outcome State Fault Refusal :=
  let i := e.toNat + 1
  .next (if s.live && s.rd EXTENT.STATE i == 1 && (s.extHeads i).contains h.val then
    (s.headMask EXTENT.ACCEPTED i h true).extEval i else s)

/-- EXTENT_RELEASE (R270): a member head releases, asked or of its own accord. -/
def execExtentRelease (h : HeadNo) (e : BitVec 14) (s : State) : Host.Outcome State Fault Refusal :=
  let i := e.toNat + 1
  .next (if s.live && s.rd EXTENT.STATE i != 0 && (s.extHeads i).contains h.val then
    (((s.headMask EXTENT.ACCEPTED i h false).headMask EXTENT.RELEASED i h true).wr EXTENT.STATE i 3).extEval i
    else s)

/-- Eighths of a frame that an extent's pages hold. -/
def State.extHeld (s : State) (e : Nat) : Nat :=
  ((s.plc.pages.filter (fun p => s.extHas e (p.1 / 512))).map (fun p =>
    if p.2.unit.isNone then 0 else if p.2.slot = 0 then 8 else 8 - savedEighths p.2.slot)).sum

/-- The extents an automatic release asks, given (eighths held, extent) largest first, and what has been asked. -/
def askExtents (spare8 low8 : Nat) : Nat → List (Nat × Nat) → List Nat
  | _, [] => []
  | asked, (n, e) :: t => if low8 < spare8 + asked then [] else e :: askExtents spare8 low8 (asked + n) t

/-- A pair put at its place, larger first and the lower extent among equals. -/
def insHeld (x : Nat × Nat) : List (Nat × Nat) → List (Nat × Nat)
  | [] => [x]
  | y :: t => if y.1 < x.1 ∨ (y.1 = x.1 ∧ x.2 < y.2) then x :: y :: t else y :: insHeld x t

/-- The base program's release requests below RELEASE_WM (R269 step 3). -/
def State.autoRelease (s : State) : State :=
  if s.board.active && s.infB POOL.AUTO_RELEASE 0 && decide (s.spare < s.inf POOL.RELEASE_WM 0) then
    let es := s.extents.filter (fun e => s.infB EXTENT.CLASS e)
    let asked := ((es.filter (fun e => s.rd EXTENT.STATE e == 3)).map s.extHeld).sum
    let able := ((es.filter (fun e => s.rd EXTENT.STATE e == 2)).map (fun e => (s.extHeld e, e))).foldl
      (fun l x => insHeld x l) []
    (askExtents (8 * s.spare) (8 * s.inf POOL.LOW_WM 0) asked able).foldl (fun s e => s.extRecall e) s
  else s

end Sys2Proof.Machine
end

