-- ==== Sys2Proof/Machine/Jobs.lean ====
section
/-! DEFINITION. Reads and writes of device memory by the device's own agents, page operations, and the engine that
works range jobs (ring commands, MOVEs, STOW and UNSTOW instructions) through their pages (R93, R136-R139, R244,
R245, R253-R264, R293, R297, R341). Statuses are those of R96. -/
namespace Sys2Proof.Machine

/-! ### Lines ordered for accesses from no head (R264) -/

/-- What stands between an access from no head and lines: 0 nothing, 1 snoops, 2 a closed road. -/
def State.linesBlocked (s : State) (ls : List Nat) (write : Bool) : Nat :=
  if ls.any s.lineClosed then 2
  else if ls.any (fun l => (s.lineGroup l).isSome && (s.snooping l || !(s.invalHeads l .internal write).isEmpty)) then 1
  else 0

/-- The lines of a page from offset `lo` to `hi`, in bytes. -/
def spanOfLines (p lo hi : Nat) : List Nat := (List.range ((hi + 63) / 64 - lo / 64)).map (fun i => p * 64 + lo / 64 + i)

/-! ### Reading and writing through sealing (R139, R260, R298, R304) -/

/-- A decode for a reader that is not a host (R298): the page stays STOWED. -/
def State.readStowed (s : State) (p : Nat) : State × Option (List (BitVec 8)) :=
  match s.decodersOk with
  | [] => (s, none)
  | d :: _ =>
    let s := (s.wakeDom 32).occur ⟨uid 6 (32 + d / 2), 4, none, none, some (p * 4096, 0)⟩
    match s.decodeStowed p with
    | .ok bs => (s, some bs)
    | .memory => (s.stowCrc p, none)
    | .integrity k => (s.slotIntegrity p k, none)

/-- Lines of a frame read in plaintext under the recorded slot: what is poisoned, unreadable or not verified
reads as zero and answers POISON. -/
def State.readFrame (s : State) (p : Nat) (is : List Nat) : State × List (BitVec 512) × Nat :=
  let x := s.page p
  let k := locFrame x.loc
  let spans := (is.map (fun i => i / 4)).dedup
  let bad := spans.filter (fun sp => !s.spanOk k x.key p sp (s.spanLines k sp))
  let ue := is.filter (fun i => (s.raw (frLine k i)).bad)
  let ls := is.map (fun i => (i, s.plain k x.key p i))
  let s := s.wakeDom (50 + frUnit k)
  let s := ue.foldl (fun s i => s.ueFound (frUnit k) (frLine k i % 2 ^ 34) 0x02) s
  let s := bad.foldl (fun s sp => s.spanFault k x.key p sp false) s
  let out := ls.map (fun y => if y.2.2 || bad.contains (y.1 / 4) then (0 : BitVec 512) else y.2.1)
  (s, out, if ls.any (fun y => y.2.2) || !bad.isEmpty then 9 else 0)

/-- Lines of a page read in plaintext, whatever its state; a page MOVING from STOWED waits before this. -/
def State.readLines (s : State) (p : Nat) (is : List Nat) : State × List (BitVec 512) × Nat :=
  let x := s.page p
  let none_ := is.map (fun _ => (0 : BitVec 512))
  match x.st with
  | .blank => (s, none_, 0)
  | .lost => (s, none_, 9)
  | .stowed =>
    let r := s.readStowed p
    match r.2 with
    | some bs => (r.1, is.map (fun i => bytesLine (bs.drop (64 * i))), 0)
    | none => (r.1, none_, 9)
  | _ => s.readFrame p is

/-- What stands between a writer that is not a host and its page. -/
inductive Ready where
  /-- Its lines can be written now. -/
  | go
  | wait
  /-- It is STOWED and must be promoted first. -/
  | promote
  | fail (status : Nat)
deriving DecidableEq, Repr

/-- A page's readiness for a write under a key slot (R254, R260, R139). -/
def State.writeReady (s : State) (p key : Nat) : Ready :=
  let x := s.page p
  if s.pageBusy p then .wait
  else match x.st with
    | .blank => .go
    | .lost => .fail 9
    | .stowed => if x.key = key then .promote else .fail 5
    | .moving =>
      if x.key ≠ key then .fail 5
      else if x.src = .stowed then .wait
      else match s.moveOf p with
        | some m => if m.pass = 4 then .wait else .go
        | none => .go
    | _ => if x.key = key then .go else .fail 5

/-- Lines written under a key slot; a BLANK page takes its first frame (R245, R266). -/
def State.writeLines (s : State) (p key : Nat) (ls : List (Nat × BitVec 512)) : State × Nat :=
  let x := s.page p
  if x.st = .blank then
    let full := (List.range 64).map (fun i => match ls.find? (fun y => y.1 == i) with
      | some y => (y.2, false) | none => ((0 : BitVec 512), false))
    match s.allocate p key full with
    | some s' => (s'.wakeDom (50 + (s'.page p).loc / 2 ^ 31), 0)
    | none => (s, 8)
  else
    let k := locFrame x.loc
    let s := match s.moveOf p with
      | some m => s.setMove { m with redo := ls.foldl (fun (r : BitVec 64) (y : Nat × BitVec 512) => r ||| BitVec.ofNat 64 (2 ^ y.1)) m.redo }
      | none => s
    (ls.foldl (fun s y => s.writeLine k x.key p y.1 y.2 (BitVec.allOnes 64) false .clean) (s.wakeDom (50 + frUnit k)), 0)

/-! ### Page operations in progress -/

/-- A move, stow, promotion or relocation of the page is in progress or queued. -/
def State.opOn (s : State) (p : Nat) : Bool :=
  (s.moveOf p).isSome || s.stow.waiting.any (fun q => q.page == p) ||
  s.stow.promos.any (fun q => q.page == p && !q.buffer)

/-- A decode or promotion ends with a status: an MREAD or MWRITE that waits for it has it (R133, R139). -/
def State.stallDone (s : State) (p status : Nat) : State :=
  { s with soft := { s.soft with threads := s.soft.threads.map (fun (x : Nat × Thread) =>
      (x.1, if x.2.stall = some (p, none) then { x.2 with stall := some (p, some status) } else x.2)) } }

/-- A page operation ends with a status: what waits for it has it (0x106 does not fit, 0x206 engine fault). -/
def State.pageDone (s : State) (p status : Nat) : State :=
  ({ s with soft := { s.soft with jobs := s.soft.jobs.map (fun (j : Job) =>
      match j.busy with
      | some (q, none) => if q = p then { j with busy := some (p, some status) } else j
      | _ => j) } }).stallDone p status

/-- The job is a data-path instruction's, which a second engine fault ends with DATA_PATH (R133). -/
def Job.ofInstr (j : Job) : Bool := match j.origin with | .instr _ _ _ => true | .move _ _ _ => true | _ => false

/-- The decode of a page has met a second fault: the instructions that wait for it raise DATA_PATH (R133); ring commands and
host accesses keep waiting (R299). -/
def State.decodeTwice (s : State) (p : Nat) : State :=
  ({ s with soft := { s.soft with jobs := s.soft.jobs.map (fun (j : Job) =>
      if j.ofInstr ∧ j.busy = some (p, none) then { j with busy := some (p, some 0x206) } else j) } }).stallDone p 0x206

/-- A mover's fault has ended the move of a page (R427): the jobs that wait for it start it again once on another mover, and
a second time, or with no mover left, they have the engine's fault. -/
def State.moverRetry (s : State) (p : Nat) : State :=
  let last := !(List.range 64).any (fun m => !s.stow.stopped.contains (uid 7 m))
  { s with soft := { s.soft with jobs := s.soft.jobs.map (fun (j : Job) =>
      if j.busy = some (p, none) then
        (if last ∨ j.tried = some p then { j with busy := some (p, some 0x206) } else { j with busy := none, tried := some p })
      else j) } }

/-- Movers in service with room for a page (R256), lowest first. -/
def State.moverFor (s : State) : Option Nat :=
  (List.range 64).find? (fun m => !s.stow.stopped.contains (uid 7 m) &&
    decide ((s.plc.moves.filter (fun x => (x.kind == .tier || x.kind == .run || x.kind == .relocate) && x.mover == m)).length < 8))

/-- Some mover is in service. -/
def State.moversOk (s : State) : Bool := (List.range 64).any (fun m => !s.stow.stopped.contains (uid 7 m))

/-- The mover that counts a ring command (R471): the lowest in service. -/
def State.countMover (s : State) : Nat :=
  ((List.range 64).find? (fun m => !s.stow.stopped.contains (uid 7 m))).getD 0

/-- What a job's page does next. -/
inductive JobRes where
  /-- The page is complete. -/
  | done (s : State)
  /-- It waits: for page operations of its own when `busy`. -/
  | wait (s : State)
  | fail (s : State) (status : Nat)

/-- A job waits for an operation on a page. -/
def State.setBusy (s : State) (id p : Nat) : State :=
  { s with soft := { s.soft with jobs := s.soft.jobs.map (fun j => if j.id = id then { j with busy := some (p, none) } else j) } }

/-- The frame already taken for the page by a move of its whole region (R244). -/
def State.runFrame (s : State) (p : Nat) : Option Nat :=
  if (s.moveOf p).isSome then none
  else (s.plc.frames.find? (fun f => f.2.use == .target p)).map Prod.fst

/-- A frame move of a page started towards units (R253 steps 1 and 2). A MOVING page's region is MIXED: without a frame pair for
its sub-table the page completes with NO_CAPACITY (R241, R266). -/
def State.startMove (s : State) (id p : Nat) (us : List Nat) : JobRes :=
  if !s.canSplit (p / 512) then .fail s 8
  else match s.moverFor with
  | none => if s.moversOk then .wait s else .fail s 6
  | some mv =>
    let go := fun (s : State) (k : Nat) (kind : MoveKind) =>
      let m : Move := { page := p, kind := kind, mover := mv, target := frLoc k, tgtClass := 0, redo := 0, pass := 1,
                        retried := false, held := [], near := decide (24 ≤ frUnit k), force := false }
      JobRes.wait ((((s.goMoving p m).wakeDom (50 + (s.page p).loc / 2 ^ 31)).wakeDom (50 + frUnit k)).setBusy id p)
    match s.runFrame p with
    | some k => go s k .run
    | none =>
      let t := s.mixed (p / 512)
      match t.bestUnit us with
      | none => .fail s 8
      | some u =>
        let k := t.pickFrame u
        go (t.withMarks (fun s => s.take k (.target p))) k .tier

/-- A promotion queued for a page (R297, R299): `target` as `Queued.target`. -/
def State.queuePromo (s : State) (p target : Nat) : State :=
  if s.stow.promos.any (fun q => q.page == p && !q.buffer) then s
  else
    let q : Queued := { page := p, level := 2, force := false, target := target, buffer := false, cls := 6, reqs := [] }
    (s.wakeDom 32).withMarks (fun s => { s with stow := { s.stow with promos := s.stow.promos ++ [q] } })

/-- A promotion of a job's page started, when a frame may be granted (R257, R266, R267). -/
def State.startPromo (s : State) (id p target : Nat) : JobRes :=
  if !s.grantable (p / 512) then .fail s 8
  else if 16 ≤ target ∧ target < 255 ∧ s.freeOf (if target < 32 then 24 + (target - 16) else target - 32) = 0 then .fail s 8
  else .wait ((s.queuePromo p target).setBusy id p)

/-- A slot relocation to a channel, or to any when `c` is none (R245, R257). -/
def State.startRelocate (s : State) (id p : Nat) (c : Option Nat) : JobRes :=
  let x := s.page p
  match s.moverFor with
  | none => if s.moversOk then .wait s else .fail s 6
  | some mv =>
    let place : Option (State × Nat) := match c with
      | none => s.placeSlot x.slotClass p (some (locFrame x.loc))
      | some u =>
        match s.partly u x.slotClass with
        | some k => if s.allocatable u then s.takeSlot k x.slotClass p else none
        | none =>
          if s.freeOf u = 0 then none
          else
            let k := s.pickFrame u
            (s.take k (.slots x.slotClass (List.replicate (slotsPer x.slotClass) none))).takeSlot k x.slotClass p
    match place with
    | none => .fail s 8
    | some (s', loc) =>
      let m : Move := { page := p, kind := .relocate, mover := mv, target := loc, tgtClass := x.slotClass, redo := 0,
                        pass := 1, retried := false, held := [], near := false, force := false }
      .wait ((((s'.goMoving p m).wakeDom (50 + x.loc / 2 ^ 31)).wakeDom (50 + loc / 2 ^ 31)).setBusy id p)

/-! ### Whole regions (R244) -/

/-- Free runs of 512 aligned frames of a unit. -/
def State.freeRuns (s : State) (u : Nat) : List Nat :=
  (List.range ((s.pool u).frames / 512)).filter (fun i => !(s.taken u).any (fun f => f / 512 == i) &&
    decide (512 * (i + 1) + ((s.taken u).filter (512 * (i + 1) ≤ ·)).length + (s.pool u).subtree ≤ (s.pool u).frames))

/-- The target units a TARGET byte names (R136). -/
def targetUnits (t : Nat) : List Nat :=
  if t = 0 then tierUnits true else if t = 1 then tierUnits false
  else if t < 0x20 then [24 + (t - 0x10)] else [t - 0x20]

/-- A page with a frame lies in the target already (R136). -/
def inTarget (t : Nat) (x : Page) : Bool := (targetUnits t).contains (x.loc / 2 ^ 31)

/-- A TIER move takes the whole region into one run, when it meets R244: the run's frames are taken at once. -/
def State.takeRun (s : State) (r t : Nat) : State :=
  let ps := (List.range 512).map (fun i => s.page (r * 512 + i))
  let a := s.page (r * 512)
  let like := ps.all (fun x => (x.st == .near || x.st == .far) && x.key == a.key && x.pin == a.pin && !x.retire)
  let move := (s.region r).kind == 2 || !inTarget t a
  if !like || !move || !s.canSplit r then s
  else
    let m := s.mixed r
    match m.bestUnit (targetUnits t) with
    | none => s
    | some u =>
      let runs := m.freeRuns u
      match runs[m.fresh.toNat % runs.length]? with
      | none => s
      | some i => (m.took).withMarks (fun s => (List.range 512).foldl (fun s n =>
          s.take (frKey u (512 * i + n)) (.target (r * 512 + n))) s)

/-- Frames taken for pages of a region that no move uses released (R93). -/
def State.dropRun (s : State) (r : Nat) : State :=
  let ks := s.plc.frames.filterMap (fun f => match f.2.use with
    | .target p => if p / 512 = r ∧ (s.moveOf p).isNone then some f.1 else none
    | _ => none)
  if ks.isEmpty then s else s.withMarks (fun s => ks.foldl (fun s k => s.release k) s)

/-! ### The kinds of job -/

/-- One page of a TIER move (R136, R245, R253, R257). -/
def State.tierPage (s : State) (j : Job) (p : Nat) : JobRes :=
  let x := s.page p
  let t := j.arg
  match x.st with
  | .blank => .done s
  | .lost => .fail s 9
  | .moving => .wait s
  | .stowed =>
    if t = 0 then s.startPromo j.id p 0
    else if 0x10 ≤ t ∧ t < 0x20 then s.startPromo j.id p t
    else if x.retire = false ∧ (t = 1 ∨ x.loc / 2 ^ 31 = t - 0x20) then .done s
    else s.startRelocate j.id p (if t = 1 then none else some (t - 0x20))
  | _ =>
    let whole := p % 512 == 0 && j.a % 2 ^ 21 == 0 && j.len % 2 ^ 21 == 0 && (s.runFrame p).isNone
    let s := if whole then s.takeRun (p / 512) t else s
    if (s.runFrame p).isNone && inTarget t x && !x.retire then .done s
    else s.startMove j.id p (targetUnits t)

/-- The bytes of a job's page that lie in its range: [lo, hi) of the page at its position. -/
def Job.part (j : Job) : Nat × Nat :=
  let pos := j.a + j.done
  (pos % 4096, min 4096 (pos % 4096 + (j.len - j.done)))

/-- One source page of COPY (R260). `addr` maps an address of the job to device memory. -/
def State.copyPage (s : State) (j : Job) (p : Nat) (addr : Nat → Option Nat) : JobRes :=
  let x := s.page p
  let lo := j.part.1
  let n := j.part.2 - lo
  let src := spanOfLines p lo (lo + n)
  -- Destination lines with their device pages, in order.
  let dst := (List.range (n / 64)).map (fun i => addr (j.b + j.done + 64 * i))
  if dst.any Option.isNone then .fail s 3
  else
    let dl := dst.filterMap (fun a => a.map (· / 64))
    let dps := (dl.map (· / 64)).dedup
    if x.st = .lost then .fail s 9
    else if s.pageBusy p ∨ (x.st = .moving ∧ x.src = .stowed) then .wait s
    else
      let wr := dps.map (fun q => (q, s.writeReady q j.key))
      match wr.find? (fun y => match y.2 with | .fail _ => true | _ => false) with
      | some (_, .fail st) => .fail s st
      | _ =>
        if wr.any (fun y => y.2 == .wait) then .wait s
        else match wr.find? (fun y => y.2 == .promote) with
          | some (q, _) => s.startPromo j.id q 255
          | none =>
            let b := max (s.linesBlocked src false) (s.linesBlocked dl true)
            if b = 2 then .fail s 9
            else if b = 1 then .wait ((s.invalidate src .internal false).invalidate dl .internal true)
            else
              let r := s.readLines p (src.map (· % 64))
              if r.2.2 ≠ 0 then .fail r.1 r.2.2
              else
                let zipped := dl.zip r.2.1
                let res := dps.foldl (fun (a : State × Nat) q =>
                  if a.2 ≠ 0 then a
                  else a.1.writeLines q j.key ((zipped.filter (fun y => y.1 / 64 == q)).map (fun y => (y.1 % 64, y.2)))) (r.1, 0)
                if res.2 = 0 then .done res.1 else .fail res.1 res.2

/-- One page of ZERO (R261, R245). -/
def State.zeroPage (s : State) (j : Job) (p : Nat) : JobRes :=
  let x := s.page p
  let lo := j.part.1
  let hi := j.part.2
  if lo = 0 ∧ hi = 4096 then
    if x.st = .moving ∨ s.pageBusy p = true then .wait s
    else
      let b := s.linesBlocked (pageLines p) true
      if b = 2 then .fail s 9
      else if b = 1 then .wait (s.invalidate (pageLines p) .internal true)
      else if x.st ≠ .blank ∧ !s.canSplit (p / 512) then .fail s 8
      else .done (s.blankPage p)
  else match x.st with
    | .blank => .done s
    | .lost => .fail s 9
    | _ =>
      match s.writeReady p j.key with
      | .fail st => .fail s st
      | .wait => .wait s
      | .promote => s.startPromo j.id p 255
      | .go =>
        if x.st = .moving then .wait s
        else
          let ls := spanOfLines p lo hi
          let b := s.linesBlocked ls true
          if b = 2 then .fail s 9
          else if b = 1 then .wait (s.invalidate ls .internal true)
          else .done (s.writeLines p j.key (ls.map (fun l => (l % 64, 0)))).1

/-- One page of REKEY (R341). An unmapped new slot is 4096. -/
def State.rekeyPage (s : State) (j : Job) (p : Nat) : JobRes :=
  let x := s.page p
  match x.st with
  | .blank => .done s
  | .lost => .fail s 9
  | .moving => .wait s
  | st =>
    if x.key ≠ j.key then .fail s 5
    else if 4096 ≤ j.key2 then .fail s 4
    else if s.pageBusy p then .wait s
    else
      let b := s.linesBlocked (pageLines p) true
      if b = 2 then .fail s 9
      else if b = 1 then .wait (s.invalidate (pageLines p) .internal true)
      else if st = .stowed then
        match s.openSlot p x.key x.loc x.slotClass with
        | .memory => .fail s 9
        | .integrity k => .fail (s.slotIntegrity p k) 9
        | .ok hdr body =>
          let c := s.freshMajor
          let s := s.putPage p { x with key := j.key2 }
          .done ((s.sealSlot p j.key2 x.loc x.slotClass (bitsOf (leAt hdr 0 2) 6 3) c (BitVec.ofNat 32 (leAt hdr 4 4)) body).clockTo c)
      else
        let r := s.readFrame p (List.range 64)
        if r.2.2 ≠ 0 then .fail r.1 r.2.2
        else if j.key2 ≠ j.key ∧ !r.1.canSplit (p / 512) then .fail r.1 8
        else .done (r.1.rekeyFrame p j.key2 (r.2.1.map (fun l => (l, false))))

/-- The stow conditions of R293 that a page meets or fails: none, or a status (0x100 a ring command skips the page). A page
that is MOVING waits, and its other conditions are those of the state it comes to (R245). -/
def State.stowCheck (s : State) (p : Nat) (force : Bool) : Option Nat :=
  let x := s.page p
  let w := s.govern (p / 512)
  let pol := match w with | some i => s.inf WINDOW.POLICY i | none => 0
  let bit := match w with | some i => s.infB WINDOW.STOW i | none => false
  if !bit then some 6
  else if x.st = .moving then none
  else if x.st = .lost then some 9
  else if x.st = .blank ∨ x.st = .stowed then some 0
  else if pol = 1 ∧ ¬ (x.unit.any (fun u => decide (u < 24)) = true ∧ s.freeTier true = 0) then some 0x106
  else if x.pin ≠ 0 then some 0x106
  else if s.pageTracked p && !force then some 0x106
  else none

/-- One page of STOW (R24, R26, R293, R294). -/
def State.stowPage (s : State) (j : Job) (p : Nat) : JobRes :=
  match s.stowCheck p j.force with
  | some 0 => .done s
  | some st => .fail s st
  | none =>
    if (s.page p).st = .moving ∨ s.pageBusy p = true then .wait s
    else if s.pageTracked p then
      if (pageLines p).any s.lineClosed then .fail s 9
      else .wait (s.invalidate (pageLines p) (.stowForce p) true)
    else if !s.invalsOver (.stowForce p) then .wait s
    else
      let q : Queued := { page := p, level := j.arg, force := j.force, target := 255, buffer := false, cls := 6, reqs := [] }
      .wait (({ (s.wakeDom 32) with stow := { (s.wakeDom 32).stow with waiting := s.stow.waiting ++ [q] } }).setBusy j.id p)

/-- One page of UNSTOW (R245, R297). -/
def State.unstowPage (s : State) (j : Job) (p : Nat) : JobRes :=
  match (s.page p).st with
  | .lost => .fail s 9
  | .moving => .wait s
  | .stowed => s.startPromo j.id p j.arg
  | _ => .done s

/-- A page's PIN can be changed: a region it must split finds its map frames (R241, R244). -/
def State.canPin (s : State) (p pin : Nat) : Bool := (s.page p).pin == pin || s.canSplit (p / 512)

/-- One page of PIN (R262): `arg` 0 near, 1 far. -/
def State.pinPage (s : State) (j : Job) (p : Nat) : JobRes :=
  let x := s.page p
  let pin := fun (s : State) => s.withMarks (fun s => s.putPage p { s.page p with pin := j.arg + 1 })
  if x.st = .lost then .fail s 9
  else if x.st = .moving then .wait s
  else if !s.canPin p (j.arg + 1) then .fail s 8
  else match x.st with
  | .blank => .done (pin s)
  | .stowed =>
    if s.freeTier (j.arg == 0) = 0 then .done (pin s)
    else if !s.grantable (p / 512) then .fail s 8
    else (pin s).startPromo j.id p j.arg
  | _ =>
    if inTarget j.arg x then .done (pin s)
    else if s.freeTier (j.arg == 0) = 0 then .done (pin s)
    else (pin s).startMove j.id p (targetUnits j.arg)

/-- One page of UNPIN (R262). -/
def State.unpinPage (s : State) (p : Nat) : JobRes :=
  let x := s.page p
  match x.st with
  | .lost => .fail s 9
  | .moving => .wait s
  | _ => if s.canPin p 0 then .done (s.withMarks (fun s => s.putPage p { x with pin := 0 })) else .fail s 8

/-! ### The engine -/

/-- The device address of an address of a job; none outside the LD's windows or in an unoffered extent (R96, R270). -/
def State.jobAddr (s : State) (ld : Option Nat) (a : Nat) : Option Nat :=
  let d := match ld with
    | some l => (s.ldWindow l a).map Prod.snd
    | none => if a < 2 ^ 46 then some a else none
  match d with
  | some x => if s.pclass (x / 2 ^ 21) = .unoffered then none else some x
  | none => none

/-- A descriptor's command touches an LD page of device memory (R89). A HINT passes its range to the policy and touches no page:
what the policy then does is not in ring order (DESIGN CHOICE, log entry 71). -/
def RingCmd.touches (c : RingCmd) (pg : Nat) : Bool :=
  let within := fun (a n : Nat) => decide (a / 4096 ≤ pg) && decide (pg * 4096 < a + n)
  let op := c.opcode
  if op = 1 then within c.addrA c.len || within c.addrB c.len
  else if 2 ≤ op ∧ op ≤ 7 then within c.addrA c.len
  else if op = 9 then within c.addrA c.len
  else if op = 10 then decide (c.addrA / 4096 ≤ pg)
  else false

/-- An earlier command of the ring that has not completed touches the LD page (R89). -/
def State.earlier (s : State) (ld ring idx pg : Nat) : Bool :=
  let mine := s.soft.cmds.filter (fun c => c.ld == ld && c.ring == ring)
  (mine.takeWhile (fun c => c.idx ≠ idx)).any (fun c =>
    (match c.st with | .done _ _ => false | _ => true) && c.touches pg)

/-- The pages, by address of its invocation, that a job has still to work on. -/
def Job.covers (j : Job) (pg : Nat) : Bool :=
  let within := fun (a : Nat) => decide ((a + j.done) / 4096 ≤ pg) && decide (pg * 4096 < a + j.len)
  j.status.isNone && (within j.a || (j.kind == .copy && within j.b))

/-- The job is an operation of a thread. -/
def Job.ofThread (j : Job) (w t : Nat) : Bool :=
  match j.origin with
  | .move w' t' _ => w' == w && t' == t
  | .instr w' t' _ => w' == w && t' == t
  | _ => false

/-- An operation of a thread that began before another has still to work on a page (R145). -/
def State.threadCovers (s : State) (w t before pg : Nat) : Bool :=
  s.soft.jobs.any (fun k => decide (k.id < before) && k.ofThread w t && k.covers pg)

/-- A job whose next pages an earlier operation of its thread has still to work on waits (R145). -/
def State.threadBlocked (s : State) (w t : Nat) (j : Job) : Bool :=
  s.threadCovers w t j.id ((j.a + j.done) / 4096) ||
  (j.kind == .copy && s.threadCovers w t j.id ((j.b + j.done) / 4096))

/-- The pages of a job's step wait for an earlier command of its ring (R89), or for an earlier operation of its
thread (R145). -/
def State.jobBlocked (s : State) (j : Job) : Bool :=
  match j.origin with
  | .move w t _ => s.threadBlocked w t j
  | .instr w t _ => s.threadBlocked w t j
  | .ring ld r i =>
    s.earlier ld r i ((j.a + j.done) / 4096) ||
    (j.kind == .copy && (s.earlier ld r i ((j.b + j.done) / 4096) || s.earlier ld r i ((j.b + j.done + 4095) / 4096)))
  | _ => false

/-- The job's current page handled from its state. -/
def State.jobPage (s : State) (j : Job) : JobRes :=
  match s.jobAddr j.ld (j.a + j.done) with
  | none => .fail s 3
  | some a =>
    let p := a / 4096
    match j.kind with
    | .tier => s.tierPage j p
    | .copy => s.copyPage j p (s.jobAddr j.ld)
    | .zero => s.zeroPage j p
    | .rekey => s.rekeyPage j p
    | .stow => s.stowPage j p
    | .unstow => s.unstowPage j p
    | .pin => s.pinPage j p
    | .unpin => s.unpinPage p

/-- The job with a number. -/
def State.job (s : State) (id : Nat) : Option Job := s.soft.jobs.find? (fun j => j.id == id)

/-- A job's record replaced. -/
def State.setJob (s : State) (j : Job) : State :=
  { s with soft := { s.soft with jobs := s.soft.jobs.map (fun x => if x.id = j.id then j else x) } }

/-- A job taken off the list. -/
def State.dropJob (s : State) (id : Nat) : State :=
  { s with soft := { s.soft with jobs := s.soft.jobs.filter (fun x => x.id ≠ id) } }

/-- The status of R96 that a job's inner status is (0x106 a stow that does not fit or is skipped, 0x206 no engine). -/
def codeOf (status : Nat) : BitVec 8 := BitVec.ofNat 8 (status % 256)

/-- A MOVE's page could not be completed on another unit: DATA_PATH in the invocation that issued it, at the address of the
MOVE (R133, R427, log entry 61). -/
def State.moveRaises (s : State) (w t pc : Nat) : State :=
  let x := s.thread w t
  match x.wait with
  | .ending _ _ _ => s
  | _ => if x.st = .idle then s else s.takeException w t 6 0 pc

/-- A job ends with a status: a ring command awaits its completion entry, a MOVE its MOVE_DONE, an instruction's
thread gets its status, or DATA_PATH (R93, R133, R137). A MOVE whose invocation has ended is the device's own by then: it
writes no PAGES and no STATUS either (DESIGN CHOICE, log entry 75). -/
def State.endJob (s : State) (j : Job) (status : Nat) : State :=
  let s := if j.kind = .tier then
      (match s.jobAddr j.ld (j.a + min j.done (j.len - 1)) with | some a => s.dropRun (a / 2 ^ 21) | none => s)
    else s
  match j.origin with
  | .ring ld r i =>
    ((s.dropJob j.id).finishCmd ld r i (codeOf status) (BitVec.ofNat 64 j.done)).occur ⟨uid 7 s.countMover, 6, some ld, none, none⟩
  | .move w t _ =>
    let s := s.setJob { j with status := some (codeOf status), busy := none }
    if status = 0x206 then s.moveRaises w t j.pc else s
  | .instr w t d =>
    let s := s.dropJob j.id
    let x := s.thread w t
    match x.wait with
    | .op _ _ _ => s.setThread w t { x with wait := if status = 0x206 then .dataPath
                                                    else .status d ((codeOf status).zeroExtend 64) }
    | _ => s
  | .orphan => s.dropJob j.id

/-- A job's page is complete: its bytes count, and the job ends with the last (R93). -/
def State.jobAdvance (s : State) (j : Job) : State :=
  let n := j.done + (j.part.2 - j.part.1)
  let j := { j with done := n, busy := none }
  if j.len ≤ n then s.endJob j 0 else s.setJob j

/-- A page failed: a ring command skips a page that a stow does not take (R293, R295); else the job ends. -/
def State.jobFail (s : State) (j : Job) (status : Nat) : State :=
  match j.origin with
  | .ring _ _ _ => if status = 0x106 then s.jobAdvance j else s.endJob j status
  | _ => s.endJob j status

/-- A job worked on as far as it can be. -/
def State.runJob : Nat → State → Nat → State
  | 0, s, _ => s
  | n + 1, s, id =>
    match s.job id with
    | none => s
    | some j =>
      if j.status.isSome then s
      else match j.busy with
        | some (p, none) =>
          if s.opOn p then s
          else
            -- The operation went with its page (R245).
            let st := match (s.page p).st with | .lost => 9 | .blank => 0 | _ => 6
            State.runJob n (s.pageDone p st) id
        | some (_, some st) =>
          let again := j.kind = .copy ∨ j.kind = .zero
          if st = 0 ∧ again then State.runJob n (s.setJob { j with busy := none }) id
          else if st = 0 then State.runJob n (s.jobAdvance j) id
          else State.runJob n (s.jobFail { j with busy := none } st) id
        | none =>
          if s.jobBlocked j then s
          else match s.jobPage j with
            | .done s' => State.runJob n (s'.jobAdvance j) id
            | .fail s' st => State.runJob n (s'.jobFail j st) id
            | .wait s' => s'

/-- Every job worked on once, in order of starting. -/
def State.runJobs (s : State) : State :=
  (s.soft.jobs.map (fun j => (j.id, j.len))).foldl (fun s x => State.runJob (4 * (x.2 / 64 + 2)) s x.1) s

/-! ### What a step may have released -/

/-- A BINV of a thread over lines of two regions (or twice the same) is over (R134): SUCCESS, or POISON under a closed road. -/
def State.binvDone (s : State) (w t : Nat) : State :=
  let x := s.thread w t
  match x.wait with
  | .op 3 d rr =>
    if s.invalsOver (.binv w t) then
      let closed := [rr / 2 ^ 25, rr % 2 ^ 25].any (fun r => match s.groupAt r with | some g => s.closedRoad g | none => false)
      s.setThread w t { x with wait := .status d (if closed then 9 else 0) }
    else s
  | _ => s

/-- DRAINED set for a draining bay whose channels hold nothing allocated (R272). -/
def State.drainCheck (s : State) : State :=
  let dr := s.rd PLACE.DRAINING (placeCtl 0)
  if dr = 0 then s
  else (List.range 12).foldl (fun s b =>
    let us := [2 * b, 2 * b + 1]
    let empty := us.all (fun u => (s.pool u).subtree == 0 && !s.plc.frames.any (fun f => f.1 / 2 ^ 28 == u &&
      f.2.use != .free && f.2.use != .retired))
    if us.all (fun u => bitOf dr u) && empty then
      s.wr PLACE.DRAINED (placeCtl 0) (BitVec.ofNat 28 (s.rd PLACE.DRAINED (placeCtl 0)) ||| BitVec.ofNat 28 (3 * 2 ^ (2 * b))).toNat
    else s) s

/-- A region-table block is still needed (R238): a region of it lies in an enabled window, or holds a page that is not BLANK or is
pinned. -/
def State.blockUsed (s : State) (b : Nat) : Bool :=
  s.windows.any (fun i =>
    let lo := s.inf WINDOW.DEV_BASE i
    decide (lo / 256 ≤ b) && decide (b * 256 < lo + s.inf WINDOW.SIZE i)) ||
  s.plc.pages.any (fun p => p.1 / 512 / 256 == b && (p.2.st != .blank || p.2.pin != 0))

/-- Region-table blocks that nothing needs any more released (R238). -/
def State.dropBlocks (s : State) : State :=
  let bs := s.plc.blocks.filter (fun b => !s.blockUsed b.1)
  if bs.isEmpty then s
  else s.withMarks (fun s =>
    let s := (bs.flatMap (fun b => b.2)).foldl (fun s l => s.release (locFrame l)) s
    { s with plc := { s.plc with blocks := s.plc.blocks.filter (fun b => !bs.any (fun x => x.1 == b.1)) } })

/-- What follows a step's change at pages, slices and engines: automatic releases, jobs twice over (one may wait for
another), BINVs, region-table blocks, drained bays, reclaim walks, requests that wait at the slices, and the watermarks
that SPARE has crossed (R269). -/
def State.settle (s : State) : State :=
  let s := (s.autoRelease).runJobs.runJobs
  let s := (List.range 64).foldl (fun s k => s.binvDone (k / 4) (k % 4)) s
  s.dropBlocks.drainCheck.endWalks.pump.pumpAcks.watermarks

/-- A new job started, and worked on at once. -/
def State.startJob (s : State) (j : Job) : State :=
  let id := 1 + s.soft.jobs.foldl (fun m x => max m x.id) 0
  if j.len = 0 then ({ s with soft := { s.soft with jobs := s.soft.jobs ++ [{ j with id := id }] } }).endJob { j with id := id } 0
  else ({ s with soft := { s.soft with jobs := s.soft.jobs ++ [{ j with id := id }] } }).settle

/-- The status of a job's address operands before it starts (R92, R136): alignment and length. -/
def rangeOk (a len align : Nat) : Bool := a % align == 0 && len % align == 0 && decide (len ≤ 2 ^ 30)

end Sys2Proof.Machine
end

