-- ==== Sys2Proof/Machine/Engines.lean ====
section
/-! DEFINITION. Movers, coders and decoders at work, compaction, and the hot-page decay (R137, R252-R258,
R294-R299). -/
namespace Sys2Proof.Machine

/-- MOVE_DONE (R137): PAGES and STATUS written to scratch, then the event. An invocation that waited for its MOVEs
ends with the last (R144). -/
def execMoveDone (w : WfNo) (t : ThrNo) (desc : BitVec 18) (s : State) : Host.Outcome State Fault Refusal :=
  .next (match s.soft.jobs.find? (fun j => j.origin == .move w t desc.toNat && j.status.isSome) with
    | none => s
    | some j =>
      if !s.live then s
      else
        let s := s.setScr w (desc.toNat + 4) (leBytes 4 (j.done / 4096))
        let s := s.setScr w (desc.toNat + 0x1C) [j.status.getD 0]
        let s := s.dropJob j.id
        let s := if j.notify then s.raise w t 3 else s
        s.tryEnd w t)

/-- Set bits of a redo mask. -/
def redoCount (v : BitVec 64) : Nat := ((List.range 64).filter (fun i => v.getLsbD i)).length

/-- `n` redo lines recopied, counted by the mover (R471). -/
def State.redone (s : State) (m : Move) : State :=
  (List.range 64).foldl (fun s i => if m.redo.getLsbD i then
    s.occur ⟨uid 7 m.mover, 2, none, none, some ((m.page * 64 + i) * 64, 0)⟩ else s) s

/-- A mover's page fails: its source state again, the held writes served there, and the job told (R255). -/
def State.moverFails (s : State) (m : Move) : State :=
  let s := (s.moveFails m.page).occur ⟨uid 7 m.mover, 5, none, none, some (m.page * 4096, 0)⟩
  ((s.pageDone m.page 6).accessAll m.held).settle

/-- The frame of a move's target met an uncorrectable write: it is retired, and the move starts again on another
frame, once (R255). -/
def State.badTarget (s : State) (m : Move) : State :=
  let k := locFrame m.target
  let s := s.retireFrame k
  if m.retried then s.moverFails m
  else if m.kind = .relocate then
    match (s.withMarks (fun s => s.freeSlot m.target m.tgtClass)).placeSlot m.tgtClass m.page (some k) with
    | none => (s.setMove { m with target := 0 }).moverFails { m with target := 0 }
    | some (s, loc) => s.setMove { m with target := loc, redo := 0, pass := 1, retried := true }
  else
    let u := frUnit k
    let s := s.withMarks (fun s => s.release k)
    let us := if s.freeOf u = 0 then tierUnits (24 ≤ u) else [u]
    match s.bestUnit us with
    | none => (s.setMove { m with target := 0 }).moverFails { m with target := 0 }
    | some v =>
      let n := s.pickFrame v
      (s.withMarks (fun s => s.take n (.target m.page))).setMove
        { m with target := frLoc n, kind := .tier, redo := 0, pass := 1, retried := true, near := decide (24 ≤ v) }

/-- A move that a mover carries out. -/
def Move.byMover (m : Move) : Bool := m.kind == .tier || m.kind == .run || m.kind == .relocate

/-- A mover reports a class 2 fault and stops (R427): its page moves fail, each page back in its source state, and each is
started again once on another mover. -/
def State.moverStops (s : State) (mv : Nat) : State :=
  let ms := s.plc.moves.filter (fun m => m.byMover && m.mover == mv)
  let s := ({ s with stow := { s.stow with stopped := s.stow.stopped ++ [uid 7 mv] } }).report (uid 7 mv) 0x22 2 0
  (ms.foldl (fun s m =>
    let s := (s.moveFails m.page).occur ⟨uid 7 mv, 5, none, none, some (m.page * 4096, 0)⟩
    (s.moverRetry m.page).accessAll m.held) s).settle

/-- PAGE_MOVE_COPY_PASS_END (R253 steps 3, 5 and 6): a redo pass, or the hold. -/
def execPageMoveCopyPassEnd (p : BitVec 34) (ev : CopyEvent) (s : State) : Host.Outcome State Fault Refusal :=
  .next (match s.moveOf p.toNat with
    | none => s
    | some m =>
      if !s.live || !m.byMover || m.pass == 4 then s
      else if ev = .targetBad then s.badTarget m
      else if ev = .moverFault then s.moverStops m.mover
      else
        let n := redoCount m.redo
        let src := locFrame (s.page m.page).loc
        if m.pass = 1 ∧ n ≠ 0 then (s.redone m).setMove { m with redo := 0, pass := 2 }
        else if m.pass = 2 ∧ 8 < n then (s.redone m).setMove { m with redo := 0, pass := 3 }
        else ((s.redone m).setMove { m with pass := 4 }).closeFrame src)

/-- PAGE_MOVE_SWITCH (R253 step 7, R257): the map entry changes, and what was held is served, when the merge entries that the
hold closed have been sealed (step 6). -/
def execPageMoveSwitch (p : BitVec 34) (s : State) : Host.Outcome State Fault Refusal :=
  .next (match s.moveOf p.toNat with
    | none => s
    | some m =>
      if !s.live || !m.byMover || m.pass != 4 || !(s.mergesOf (locFrame (s.page m.page).loc)).isEmpty then s
      else
        let at_ : Option (Nat × Nat) := some (m.page * 4096, 0)
        let s := if m.kind = .relocate then (s.switchRelocate m.page m).occur ⟨uid 7 m.mover, 4, none, none, at_⟩
          else ((s.switchFrame m.page m).occur ⟨uid 7 m.mover, 1, none, none, at_⟩).fixed 525
        (((s.pageDone m.page 0).accessAll m.held).unpark).settle)

/-- SLOT_RELOCATION (R258): the last slot of the class's partly filled frame on the channel fills the freed slot,
once no operation holds its page; the freed slot is then no longer noted. -/
def execSlotRelocation (loc : BitVec 36) (s : State) : Host.Outcome State Fault Refusal :=
  let l := loc.toNat
  .next (if !s.live || !s.plc.compact.contains l || !s.moversOk then s
    else
      let k := locFrame l
      let forget := fun (s : State) => { s with plc := { s.plc with compact := s.plc.compact.filter (· ≠ l) } }
      match (s.frame k).use with
      | .slots cls ps =>
        let others := s.plc.frames.filter (fun f => f.1 / 2 ^ 28 == frUnit k && f.1 != k && !f.2.retiring &&
          (match f.2.use with | .slots c qs => c == cls && qs.any Option.isNone && qs.any Option.isSome | _ => false))
        if (s.frame k).retiring || (ps.getD (slotIdx l cls) none).isSome then forget s
        else match others with
          | [] => forget s
          | (f, fr) :: _ =>
            let qs := match fr.use with | .slots _ qs => qs | _ => []
            match ((qs.zipIdx).filter (fun x => x.1.isSome)).getLast? with
            | some (some q, _) =>
              let x := s.page q
              if x.st ≠ .stowed ∨ s.opOn q = true ∨ s.stow.decoding.any (fun d => d.q.page == q) = true ∨ locFrame x.loc ≠ f then s
              else
                let s := s.setFrame k { s.frame k with use := .slots cls (setAt ps (slotIdx l cls) (some q)) }
                let m : Move := { page := q, kind := .relocate, mover := s.countMover, target := l, tgtClass := cls,
                                  redo := 0, pass := 4, retried := false, held := [], near := false, force := false }
                ((forget (s.switchRelocate q m)).occur ⟨uid 7 m.mover, 4, none, none, some (q * 4096, 0)⟩).settle
            | _ => forget s
      | _ => forget s)

/-! ### Coders (R293-R295, R307, R308) -/

/-- The order in which halves of the stow cluster take work: active, parked, shelved; the lower first among equals. -/
def State.halves (s : State) : List Nat :=
  let rank := fun h => match s.rd POWER.STATE (32 + h) with | 0 => 0 | 1 => 1 | 2 => 2 | _ => (1 : Nat)
  if rank 1 < rank 0 then [1, 0] else [0, 1]

/-- A free coder for stows (R307). -/
def State.freeCoder (s : State) : Option Nat :=
  (s.halves.flatMap (fun h => (List.range 16).map (fun i => 16 * h + i))).find? (fun c =>
    decide (s.inf STOW.STREAM_CODERS 0 ≤ c) && !s.stow.stopped.contains (uid 6 c) && !s.stow.coding.any (fun x => x.1 == c))

/-- A coder for stows is in service. -/
def State.codersOk (s : State) : Bool :=
  (List.range 32).any (fun c => decide (s.inf STOW.STREAM_CODERS 0 ≤ c) && !s.stow.stopped.contains (uid 6 c))

/-- A waiting stow taken off its queue. -/
def State.dropStow (s : State) (p : Nat) : State :=
  { s with stow := { s.stow with waiting := s.stow.waiting.filter (fun q => q.page ≠ p) } }

/-- CODER_ASSIGN (R294 steps 1 and 2): the oldest stow whose page is not in motion gets a coder. -/
def execCoderAssign (s : State) : Host.Outcome State Fault Refusal :=
  .next (match (if s.live then s.stow.waiting.find? (fun q => (s.page q.page).st != .moving && !s.pageBusy q.page) else none) with
    | none => s
    | some q =>
      let p := q.page
      match s.stowCheck p q.force with
      | some st => ((s.dropStow p).pageDone p st).settle
      | none =>
        if s.pageTracked p then
          if (pageLines p).any s.lineClosed then ((s.dropStow p).pageDone p 9).settle
          else s.invalidate (pageLines p) (.stowForce p) true
        else if !s.invalsOver (.stowForce p) then s
        else if !s.canSplit (p / 512) then ((s.dropStow p).pageDone p 8).settle
        else if !s.codersOk then (if q.retried then ((s.dropStow p).pageDone p 0x206).settle else s)
        else match s.freeCoder with
          | none => s
          | some c =>
            let m : Move := { page := p, kind := .stow q.level c, mover := 0, target := 0, tgtClass := 0, redo := 0, pass := 1,
                              retried := q.retried, held := [], near := false, force := q.force }
            let u := (s.page p).loc / 2 ^ 31
            let s := ((((s.dropStow p).wakeDom (32 + c / 16)).goMoving p m).wakeDom (50 + u)).closeFrame (locFrame (s.page p).loc)
            { s with stow := { s.stow with coding := s.stow.coding ++ [(c, q)] } })

/-- A stow ends without a slot: the page is back in its source state, and the job told (R294, R295). -/
def State.stowEnds (s : State) (p status : Nat) : State :=
  let held := match s.moveOf p with | some m => m.held | none => []
  (((s.moveFails p).pageDone p status).accessAll held).settle

/-- A slot for a coded page, as its writes fail (0, 1 or 2 times): a frame whose write failed is retired, and one other is
tried (R295). No slot is answered when there is none, or after the second failure. -/
def State.slotFor : Nat → State → Nat → Nat → Option Nat → State × Option Nat
  | fails, s, cls, p, avoid =>
    match s.placeSlot cls p avoid with
    | none => (s, none)
    | some (s1, loc) =>
      let k := locFrame loc
      let bad := fun (_ : Unit) => (s1.retireFrame k).withMarks (fun s => s.freeSlot loc cls)
      match fails with
      | 0 => (s1, some loc)
      | n + 1 => if avoid.isSome then (bad (), none) else State.slotFor n (bad ()) cls p (some k)

/-- The class a coded payload takes: at the second coding that of the first, when it still fits (R257, R294 step 5). -/
def State.stowClass (s : State) (m : Move) (n : Nat) : Option Nat :=
  if m.pass = 4 then (if n + 16 ≤ slotBytes m.tgtClass then some m.tgtClass else none) else s.fitClass n

/-- The coding of a page and its slot written, as its writes fail (R294 steps 3 to 7). Where host writes set a redo bit
during the first coding, writes are held and the page is coded once more (step 5). -/
def State.stowCode (s : State) (c : Nat) (q : Queued) (p fails : Nat) (m : Move) : State :=
  let x := s.page p
  let k := locFrame x.loc
  let at_ : Option (Nat × Nat) := some (p * 4096, 0)
  let r := s.readFrame p (List.range 64)
  if r.2.2 ≠ 0 then r.1.stowEnds p 9
  else
    let s := r.1
    let bytes := r.2.1.flatMap lineBytes
    let pay := codePage bytes q.level
    match s.stowClass m pay.length with
    | none => (s.occur ⟨uid 6 c, 2, none, none, at_⟩).stowEnds p 0x106
    | some cls =>
      if m.pass = 1 ∧ m.redo ≠ 0 then
        let s := (s.setMove { m with redo := 0, pass := 4, tgtClass := cls }).closeFrame k
        { s with stow := { s.stow with coding := s.stow.coding ++ [(c, q)] } }
      else match s.slotFor fails cls p none with
      | (s, none) => s.stowEnds p 8
      | (s, some loc) =>
        let held := match s.moveOf p with | some m => m.held | none => []
        let body := pay ++ zeros (slotBytes cls - 16 - pay.length)
        let s := s.sealSlot p x.key loc cls q.level (s.block k).major (crc32c bytes) body
        let s := ((s.switchStow p loc cls).occur ⟨uid 6 c, 1, none, some (cls - 1), at_⟩).fixed 524
        (((s.pageDone p 0).accessAll held).unpark).settle

/-- STOW_COMPLETE (R294, R295). The coding that makes the slot ends when the merge entries that were closed for it have been
sealed (R327). -/
def execStowComplete (p : BitVec 34) (ev : StowEvent) (s : State) : Host.Outcome State Fault Refusal :=
  .next (match s.stow.coding.find? (fun x => x.2.page == p.toNat) with
    | none => s
    | some (c, q) =>
      if !s.live || !s.domActive (uid 6 c) then s
      else
        let started := s
        let s : State := { s with stow := { s.stow with coding := s.stow.coding.filter (fun x => x.1 ≠ c) } }
        match s.moveOf q.page with
        | none => s.settle
        | some m =>
          if ev ≠ .engineFault ∧ (m.pass = 4 ∨ m.redo = 0) ∧ s.mergesOf (locFrame (s.page q.page).loc) ≠ [] then started
          else match ev with
          | .engineFault =>
            let s : State := { s with stow := { s.stow with stopped := s.stow.stopped ++ [uid 6 c] } }
            let s := s.report (uid 6 c) 0x22 2 0
            if q.retried || !s.codersOk then s.stowEnds q.page 0x206
            else
              let held := match s.moveOf q.page with | some m => m.held | none => []
              let s := s.moveFails q.page
              ({ s with stow := { s.stow with waiting := { q with retried := true } :: s.stow.waiting } }).accessAll held
          | .written => s.stowCode c q q.page 0 m
          | .slotFault => s.stowCode c q q.page 1 m
          | .slotFaults => s.stowCode c q q.page 2 m)

/-! ### Decoders (R296-R299, R308) -/

/-- A free decoder (R307). -/
def State.freeDecoder (s : State) : Option Nat :=
  (s.halves.flatMap (fun h => (List.range 32).map (fun i => 32 * h + i))).find? (fun d =>
    s.decodersOk.contains d && !s.stow.decoding.any (fun x => x.dec == d))

/-- The decode that comes next: the highest priority, the oldest in it, whose page is not in motion (R299). -/
def State.nextDecode (s : State) : Option Queued :=
  let able := s.stow.promos.filter (fun q => (s.page q.page).st != .moving &&
    !s.stow.decoding.any (fun x => x.q.page == q.page))
  able.foldl (fun b q => match b with
    | none => some q
    | some x => if q.level < x.level then some q else some x) none

/-- A promotion or buffer read taken off its queue. -/
def State.dropPromo (s : State) (q : Queued) : State :=
  { s with stow := { s.stow with promos := s.stow.promos.filter (fun x => ¬ (x.page = q.page ∧ x.buffer = q.buffer)) } }

/-- The unit a promotion takes its frame on (R257). -/
def State.promoUnit (s : State) (q : Queued) : Option Nat :=
  let named := fun u => if s.freeOf u = 0 then none else some u
  if q.target = 255 then s.unitFor (s.promoteTier q.page)
  else if q.target = 0 then s.unitFor true
  else if q.target = 1 then s.unitFor false
  else if q.target < 32 then named (24 + (q.target - 16))
  else named (q.target - 32)

/-- DECODER_GRANT (R299): a promotion's page goes MOVING with its frame taken; a buffer read only decodes. -/
def execDecoderGrant (s : State) : Host.Outcome State Fault Refusal :=
  .next (if !s.live then s
    else match s.nextDecode with
    | none => s
    | some q =>
      let p := q.page
      if (s.page p).st ≠ .stowed then (((s.dropPromo q).pageDone p 0).accessAll q.reqs).settle
      else if s.decodersOk.isEmpty then
        let s := if q.buffer then (s.dropPromo q).stallDone p (if q.retried then 0x206 else 9)
          else (s.dropPromo q).pageDone p (if q.retried then 0x206 else 6)
        (s.accessAll q.reqs).settle
      else match s.freeDecoder with
        | none => s
        | some d =>
          let s := (s.dropPromo q).wakeDom (32 + d / 32)
          if q.buffer then { s with stow := { s.stow with decoding := s.stow.decoding ++ [⟨d, q⟩] } }
          else
            match (if s.grantable (p / 512) then s.promoUnit q else none) with
            | none =>
              let s := (s.pageDone p 8).accessAll q.reqs
              s.settle
            | some u =>
              let k := s.pickFrame u
              let m : Move := { page := p, kind := .promote d, mover := 0, target := frLoc k, tgtClass := 0, redo := 0, pass := 1,
                                retried := false, held := q.reqs, near := decide (24 ≤ u), force := false }
              let s := s.withMarks (fun s => (s.take k (.target p)).goMoving p m)
              { s with stow := { s.stow with decoding := s.stow.decoding ++ [⟨d, { q with reqs := [] }⟩] } })

/-- A decoder reports a class 2 fault (R299, R308): it stops. -/
def State.decoderFails (s : State) (d : Nat) : State :=
  let u := uid 6 (32 + d / 2)
  ({ s with stow := { s.stow with stopped := s.stow.stopped ++ [u] } }).report u 0x22 2 0

/-- Requests answered as those of a page that cannot be decoded: poison, or a dropped write. -/
def State.refuseAll (s : State) (rs : List MemReq) : State := rs.foldl (fun s r => s.answerLost r) s

/-- A decode's work is over. -/
def State.decoded (s : State) (d : Nat) : State :=
  { s with stow := { s.stow with decoding := s.stow.decoding.filter (fun x => x.dec ≠ d) } }

/-- PROMOTION_COMPLETE (R296, R297, R299). -/
def execPromotionComplete (p : BitVec 34) (engineFault : Bool) (s : State) : Host.Outcome State Fault Refusal :=
  .next (match s.stow.decoding.find? (fun x => x.q.page == p.toNat && !x.q.buffer) with
    | none => s
    | some x =>
      if !s.live || !s.domActive (uid 6 (32 + x.dec / 2)) then s
      else
        let pg := x.q.page
        let s := s.decoded x.dec
        match s.moveOf pg with
        | none => s.settle
        | some m =>
          if engineFault then
            let s := (s.decoderFails x.dec).moveFails pg
            if s.decodersOk.isEmpty then (((s.pageDone pg 0x206).refuseAll m.held)).settle
            else
              let s := if x.q.retried then s.decodeTwice pg else s
              let wanted := !m.held.isEmpty || !x.q.retried || s.soft.jobs.any (fun j => j.busy == some (pg, none))
              (if wanted then { s with stow := { s.stow with promos := { x.q with reqs := m.held, retried := true } :: s.stow.promos } }
               else s).settle
          else
            let at_ : Option (Nat × Nat) := some (pg * 4096, 0)
            let s := s.occur ⟨uid 6 (32 + x.dec / 2), 3, none, none, at_⟩
            match s.decodeStowed pg with
            | .ok bytes =>
              let s := (s.switchPromote pg m bytes).fixed 523
              (((s.pageDone pg 0).accessAll m.held).unpark).settle
            | .memory => (((s.stowCrc pg).pageDone pg 9).refuseAll m.held).settle
            | .integrity k => ((((s.slotIntegrity pg k).moveFails pg).pageDone pg 9).refuseAll m.held).settle)

/-- PROMOTION_BUFFER_READ (R298, R299): the reads that wait are served, and the page stays STOWED. -/
def execPromotionBufferRead (p : BitVec 34) (engineFault : Bool) (s : State) : Host.Outcome State Fault Refusal :=
  .next (match s.stow.decoding.find? (fun x => x.q.page == p.toNat && x.q.buffer) with
    | none => s
    | some x =>
      if !s.live || !s.domActive (uid 6 (32 + x.dec / 2)) then s
      else
        let pg := x.q.page
        let s := s.decoded x.dec
        if engineFault then
          let s := s.decoderFails x.dec
          if s.decodersOk.isEmpty then (s.stallDone pg 0x206).refuseAll x.q.reqs
          else
            let s := if x.q.retried then s.stallDone pg 0x206 else s
            if x.q.retried && x.q.reqs.isEmpty then s
            else { s with stow := { s.stow with promos := { x.q with retried := true } :: s.stow.promos } }
        else if (s.page pg).slot = 0 then ((s.stallDone pg 0).accessAll x.q.reqs).settle
        else
          let s := s.occur ⟨uid 6 (32 + x.dec / 2), 4, none, none, some (pg * 4096, 0)⟩
          match s.decodeStowed pg with
          | .ok bytes =>
            let level := s.rd MEMCH.QLEVEL ((s.page pg).loc / 2 ^ 31)
            x.q.reqs.foldl (fun s r => s.answerData r (bytesLine (bytes.drop (64 * (r.line % 64)))) false level) (s.stallDone pg 0)
          | .memory => (((s.stowCrc pg).pageDone pg 9).refuseAll x.q.reqs).settle
          | .integrity k => ((s.slotIntegrity pg k).stallDone pg 9).refuseAll x.q.reqs)

/-! ### Heat -/

/-- HEAT_DECAY (R129, R252): every COUNT is halved, and entries at zero go; HEAT while entries are left. -/
def execHeatDecay (s : State) : Host.Outcome State Fault Refusal :=
  .next (if s.live then
    let hot := (s.plc.hot.map (fun h => { h with count := h.count / 2 })).filter (fun h => h.count ≠ 0)
    let s : State := { s with plc := { s.plc with hot := hot } }
    if hot.isEmpty then s else s.raiseOwners 2
  else s)

end Sys2Proof.Machine
end

