-- ==== Sys2Proof/Machine/RamerEvent.lean ====
section
/-! DEFINITION. Events, mailboxes and doorbells as programs reach them, suspension and resumption, fences,
HALT and TIME (R97-R101, R129-R132, R141, R146, R157, R160). -/
namespace Sys2Proof.Machine

/-! ### Mailboxes (R97, R98) -/

/-- A word posted: stored in an empty mailbox, or dropped with REJECTS counted while FULL. -/
def Mailbox.post (m : Mailbox) (v : BitVec 64) : Mailbox :=
  if m.full then { m with rejects := if m.rejects = 0xFFFF then m.rejects else m.rejects + 1 }
  else { m with payload := v.truncate 63, full := true, posted := m.posted + 1 }

/-- An ACK: empties a FULL mailbox; no effect on an empty one. -/
def Mailbox.ack (m : Mailbox) : Mailbox :=
  if m.full then { m with full := false, acked := m.acked + 1 } else m

/-- PEEK: the last word posted, with FULL in bit 63. -/
def Mailbox.peek (m : Mailbox) : BitVec 64 := m.payload.zeroExtend 64 ||| (if m.full then 0x8000000000000000 else 0)

/-! ### WAIT, SLEEP and their ends -/

/-- Events a program may receive: a tenant only bits 0, 1, 3 and 31:16 (R129). -/
def State.eventMask (s : State) (w t : Nat) : BitVec 32 :=
  if (s.tenant w t).isSome then 0xFFFF000B else 0xFFFFFFFF

/-- Pending bits of a mask, and the thread with them cleared. -/
def State.takeEvents (s : State) (w t : Nat) (mask : BitVec 32) : BitVec 32 × State :=
  let x := s.thread w t
  let bits := x.pend &&& mask &&& s.eventMask w t
  (bits, s.setThread w t { x with pend := x.pend &&& ~~~ bits })

/-- WAIT (R131). -/
def execWait (w : WfNo) (t : ThrNo) (d a b : Reg) (s : State) : Host.Outcome State Fault Refusal :=
  .next (ramer w t (.wait w t d a b) (fun s =>
    let mask := (s.g w t a).truncate 32
    let lim := s.g w t b
    let r := s.takeEvents w t mask
    if r.1 ≠ 0 then .next (r.2.setG w t d (r.1.zeroExtend 64))
    else if lim = 0 then .next (s.setG w t d 0)
    else .suspend s (.event d mask
      (if lim = BitVec.allOnes 64 then none else some (s.time.fclk + lim.toNat)))) s)

/-- SLEEP (R131). -/
def execSleep (w : WfNo) (t : ThrNo) (a : Reg) (s : State) : Host.Outcome State Fault Refusal :=
  .next (ramer w t (.sleep w t a) (fun s => .suspend s (.sleep (s.time.fclk + (s.g w t a).toNat))) s)

/-- Steps that a tenant's suspension has counted: one for each 1,000 FCLK cycles (R160). -/
def Thread.countSusp (x : Thread) (now : Nat) : Thread :=
  match x.kind with
  | .tenant _ => { x with steps := x.steps + (now - x.suspAt) / 1000 }
  | _ => x

/-- A thread runs on after its suspension: in debug halt when that was a single step (R157). -/
def Thread.runOn (x : Thread) (now : Nat) : Thread :=
  { x.countSusp now with st := .running, wait := .none, dbg := x.dbg || x.single, single := false }

/-- A suspended thread runs again (R157), and its wayfinder's domain wakes (R436). -/
def State.wake (s : State) (w t : Nat) : State :=
  (s.setThread w t ((s.thread w t).runOn s.time.fclk)).wakeUnit (uid 8 w)

/-- The address of the instruction a thread is suspended in. -/
def Thread.suspAddr (x : Thread) : Nat :=
  match x.badTarget with
  | some a => (a - 4).toNat
  | none => (x.pc - 4).toNat

/-- Stores of a thread that FENCE T waits for: not at their commit point, and not of code L or an L0p
change (R146). -/
def State.storesOut (s : State) (w t : Nat) : Bool :=
  s.uncommitted.any (fun u => u.by_ == thKey w t && u.tbl != 0x01)

/-- A fence's condition holds (R146): scratch stores are visible at once here; T waits for commit points,
D for the thread's MOVEs. -/
def State.fenceMet (s : State) (w t : Nat) (tab mv : Bool) : Bool :=
  (!tab || !s.storesOut w t) && (!mv || s.movesOut w t == 0)

/-- A suspended thread's condition is met (R157, R131, R146, R144, R133): the thread runs on with its result.
`expired` says that the time it named has passed. -/
def State.resume (s : State) (w t : Nat) (expired : Bool) : State :=
  let x := s.thread w t
  match x.wait with
  | .event d mask u =>
    let r := s.takeEvents w t mask
    if r.1 ≠ 0 then (r.2.setG w t d (r.1.zeroExtend 64)).wake w t
    else match u with
      | some c => if expired || decide (c ≤ s.time.fclk) then (s.setG w t d 0).wake w t else s
      | none => s
  | .sleep c => if expired || decide (c ≤ s.time.fclk) then s.wake w t else s
  | .fence _ tab mv => if s.fenceMet w t tab mv then s.wake w t else s
  | .status d v => (s.setG w t d v).wake w t
  | .dataPath => s.takeException w t 6 0 x.suspAddr
  | .snap d g gen => if s.snapOut g gen then s else (s.setG w t d (gen.zeroExtend 64)).wake w t
  | .ending _ _ _ => s.tryEnd w t
  | .op _ _ _ => s
  | .none => s.wake w t

/-- THREAD_RESUME (R157). -/
def execThreadResume (w : WfNo) (t : ThrNo) (expired : Bool) (s : State) : Host.Outcome State Fault Refusal :=
  .next (if s.live && s.wfRuns w && (s.thread w t).st == .suspended && !(s.thread w t).dbg then
    s.resume w t expired else s)

/-- STEP_BUDGET_EXPIRY (R160): the suspension of a tenant thread ends, and its instruction raises STEP_BUDGET. -/
def execStepBudgetExpiry (w : WfNo) (t : ThrNo) (s : State) : Host.Outcome State Fault Refusal :=
  let x := s.thread w t
  let ends := match x.wait with | .ending _ _ _ => true | _ => false
  .next (if s.live && s.wfRuns w && x.st == .suspended && !x.dbg && (s.tenant w t).isSome && !ends then
    (s.wake w t).takeException w t 5 0 x.suspAddr else s)

/-! ### POST, MBRD, MBACK, DBTAKE (R130-R132) -/

/-- The selector's function is there: a thread, the management endpoint, or an LD that exists (R130, R171, R177). -/
def State.namesObject (s : State) (v : BitVec 64) : Bool :=
  pKind v == 0 || pFunc v == 256 || s.ldExists (pFunc v)

/-- The exception a selector raises, if any: PRIVILEGE in a tenant for another function or any thread, else
TABLE_BOUNDS (R130, R142). -/
def State.selectorFault (s : State) (w t : Nat) (v : BitVec 64) (kinds : List Nat) : Option Nat :=
  match s.tenant w t with
  | some ld =>
    if pKind v = 0 ∨ pFunc v ≠ ld then some 2 else if selectorOk v kinds && s.namesObject v then none else some 3
  | none => if selectorOk v kinds && s.namesObject v then none else some 3

/-- POST's effect on the object its selector names (R131). POSTs of one FCLK cycle take effect in ascending order of
4 * wayfinder + thread (R132): they wait in the queue in that order (log entry 68). -/
def State.post (s : State) (w t : Nat) (d : Reg) (sel v : BitVec 64) : State :=
  if pKind sel = 0 then
    (s.raise (pFunc sel / 4) (pFunc sel % 4) (16 + v.toNat % 16)).setG w t d 0
  else if pKind sel = 1 then
    let m := s.mailbox (pFunc sel) false (pIndex sel)
    let s := if m.full then s.fixed 542 else s
    (s.setMailbox (pFunc sel) false (pIndex sel) (m.post v)).setG w t d (flag m.full)
  else (s.setToHost (pFunc sel) (v.truncate 16)).setG w t d 0

/-- The instruction POST, with the selectors it accepts. -/
def postBody (w : WfNo) (t : ThrNo) (i : Instr) (d a b : Reg) : State → State :=
  ramer w t i (fun s =>
    match s.selectorFault w t (s.g w t a) [0, 1, 2] with
    | some c => .raise c 0
    | none => .next (s.post w t d (s.g w t a) (s.g w t b)))

/-- POST to a thread (R131, KIND 0b00). The selector in g[a] says which object is named. -/
def execPostThread (w : WfNo) (t : ThrNo) (d a b : Reg) (s : State) : Host.Outcome State Fault Refusal :=
  .next (postBody w t (.postThread w t d a b) d a b s)

/-- POST to a device-to-host mailbox (R131, KIND 0b01). -/
def execPostMailbox (w : WfNo) (t : ThrNo) (d a b : Reg) (s : State) : Host.Outcome State Fault Refusal :=
  .next (postBody w t (.postMailbox w t d a b) d a b s)

/-- POST to a doorbell block (R131, KIND 0b10). -/
def execPostDoorbell (w : WfNo) (t : ThrNo) (d a b : Reg) (s : State) : Host.Outcome State Fault Refusal :=
  .next (postBody w t (.postDoorbell w t d a b) d a b s)

/-- MBRD (R131). -/
def execMbrd (w : WfNo) (t : ThrNo) (d a : Reg) (s : State) : Host.Outcome State Fault Refusal :=
  .next (ramer w t (.mbrd w t d a) (fun s =>
    let sel := s.g w t a
    match s.selectorFault w t sel [1, 3] with
    | some c => .raise c 0
    | none => .next (s.setG w t d (s.mailbox (pFunc sel) (pKind sel == 3) (pIndex sel)).peek)) s)

/-- MBACK (R131). -/
def execMback (w : WfNo) (t : ThrNo) (d a : Reg) (s : State) : Host.Outcome State Fault Refusal :=
  .next (ramer w t (.mback w t d a) (fun s =>
    let sel := s.g w t a
    match s.selectorFault w t sel [3] with
    | some c => .raise c 0
    | none =>
      let m := s.mailbox (pFunc sel) true (pIndex sel)
      .next ((s.setMailbox (pFunc sel) true (pIndex sel) m.ack).setG w t d (flag m.full))) s)

/-- TO_DEV bits cleared by a DBTAKE: a bit that a host sets in this cycle stays set, and DOORBELL is raised again for it
(R132). -/
def State.bellTake (s : State) (f : Nat) (bits : BitVec 16) : State :=
  let kept := bits &&& (s.setNow (bellTbl true) f 0).truncate 16
  let s := s.setBell f { s.bell f with toDev := (s.bell f).toDev &&& ~~~ (bits &&& ~~~ kept) }
  if kept &&& ~~~ s.devMask f = 0 then s else s.raiseHandler f 1

/-- DBTAKE (R131). -/
def execDbtake (w : WfNo) (t : ThrNo) (d a b : Reg) (s : State) : Host.Outcome State Fault Refusal :=
  .next (ramer w t (.dbtake w t d a b) (fun s =>
    let sel := s.g w t a
    match s.selectorFault w t sel [2] with
    | some c => .raise c 0
    | none =>
      let bell := s.bell (pFunc sel)
      let bits := bell.toDev &&& (s.g w t b).truncate 16
      .next ((s.bellTake (pFunc sel) bits).setG w t d (bits.zeroExtend 64))) s)

/-! ### TIME, fences and HALT (R141, R146) -/

/-- TIME (R141). -/
def execTime (w : WfNo) (t : ThrNo) (d : Reg) (s : State) : Host.Outcome State Fault Refusal :=
  .next (ramer w t (.time w t d) (fun s => .next (s.setG w t d (BitVec.ofNat 64 s.time.fclk))) s)

/-- A fence: continues when its condition holds, else suspends the thread until it does (R146, R157). -/
def fence (w : WfNo) (t : ThrNo) (i : Instr) (scr tab mv : Bool) : State → State :=
  ramer w t i (fun s => if s.fenceMet w t tab mv then .next s else .suspend s (.fence scr tab mv))

/-- FENCE S (R146). -/
def execFenceS (w : WfNo) (t : ThrNo) (s : State) : Host.Outcome State Fault Refusal :=
  .next (fence w t (.fenceS w t) true false false s)
/-- FENCE T (R146). -/
def execFenceT (w : WfNo) (t : ThrNo) (s : State) : Host.Outcome State Fault Refusal :=
  .next (fence w t (.fenceT w t) false true false s)
/-- FENCE D (R146). -/
def execFenceD (w : WfNo) (t : ThrNo) (s : State) : Host.Outcome State Fault Refusal :=
  .next (fence w t (.fenceD w t) false false true s)
/-- FENCE A (R146). -/
def execFenceA (w : WfNo) (t : ThrNo) (s : State) : Host.Outcome State Fault Refusal :=
  .next (fence w t (.fenceA w t) true true true s)

/-- HALT (R141, R157): ends the invocation once its MOVEs complete, with return value g[a]. -/
def execHalt (w : WfNo) (t : ThrNo) (a : Reg) (s : State) : Host.Outcome State Fault Refusal :=
  .next (ramer w t (.halt w t a) (fun s =>
    let v := s.g w t a
    .stop (s.endWhenMoved w t 0b00 (v.truncate 16) 0x00 v)) s)

end Sys2Proof.Machine
end

