-- ==== Sys2Proof/Machine/Owner.lean ====
section
/-! DEFINITION. The owner election, word mailboxes and doorbells as hosts reach them, field service access
and debug (R79-R86, R97-R107, R51, R157). -/
namespace Sys2Proof.Machine

/-! ### Election (R79-R86) -/

/-- OWNMODE lets the candidate stand (R49, R79). -/
def State.eligible (s : State) (c : Nat) : Bool :=
  let m := s.board.straps.ownMode
  if m = 0 then c == 0 else if m = 1 then decide (c ≤ 1) else if m = 2 then decide (c < 34) else c == 1

/-- A function answers on its link: the device is up, the link is DL_Active, and the function exists and is out of reset
(R43, R50, R83, R171). -/
def State.funcUp (s : State) (f : Nat) : Bool :=
  s.live && (s.link (linkOf f)).up && !s.board.inReset.getLsbD f && (if f = 256 then true else s.ldExists f)

/-- The ownership paths carry requests (R79, R80): the endpoint's BAR2; the BMC sideband, which alone answers in a halt and
after illegal straps (R50, R426); the primary mailbox of a head's LD 0, once it is ready (R58). -/
def State.pathUp (s : State) (c : Nat) : Bool :=
  if c = 1 then s.bmcAnswers
  else if c = 0 then s.funcUp 256
  else s.funcUp (16 * (c - 2)) && s.board.mbReady

/-- A mailbox command or an MCTP message is answered with OWNER_STATUS as seen after it (R80). -/
def State.ownerReply (s : State) (c : Nat) : State :=
  if c = 0 then s else s.send (.ownerStatus c (s.ownerStatus c))

/-- A candidate becomes owner with its claim word (R84). -/
def Election.take (o : Election) (c : Nat) (word : BitVec 32) : Election :=
  { o with st := .owned, owner := some c, successor := none, epoch := o.epoch + 1, word := word }

/-- The device has no owner any more (R84). -/
def Election.drop (o : Election) : Election :=
  { o with st := .open, owner := none, successor := none, epoch := o.epoch + 1, word := 0 }

/-- A claim (R84). Claims of one FCLK cycle arrive in ascending order of candidate number (R81): they wait in the queue in that
order (log entry 68). -/
def State.claimBy (s : State) (c : Nat) (word : BitVec 32) : State :=
  let o := s.own
  match o.st with
  | .open => if word ≠ 0 ∧ s.eligible c = true then { s with own := o.take c word } else s
  | .handover => if word ≠ 0 ∧ o.successor = some c then { s with own := o.take c word } else s
  | _ => s

/-- An ownership operation on its path, with its answer. In a halt the election unit takes none (R426). -/
def State.ownerOp (s : State) (c : Nat) (f : State → State) : State :=
  if !s.pathUp c then s
  else
    let s := s.from_ c
    (if s.board.halted then s else f s).ownerReply c

/-- CLAIM (R84). -/
def execClaim (c : Cand) (word : BitVec 32) (s : State) : Host.Outcome State Fault Refusal :=
  .next (s.ownerOp c (fun s => s.claimBy c word))

/-- STATUS (R80): answered on every path. -/
def execStatus (c : Cand) (s : State) : Host.Outcome State Fault Refusal :=
  .next (if s.pathUp c then
      let s := s.from_ c
      s.send (.ownerStatus c (s.ownerStatus c))
    else s)

/-- A handover: the owner names an eligible successor other than itself (R84). -/
def State.handoverBy (s : State) (c successor : Nat) : State :=
  if s.own.owner = some c ∧ (s.own.st = .owned ∨ s.own.st = .handover) ∧ successor ≠ c ∧ s.eligible successor = true then
    { s with own := { s.own with st := .handover, successor := some successor } }
  else s

/-- HANDOVER (R84). -/
def execHandover (c : Cand) (successor : BitVec 6) (s : State) : Host.Outcome State Fault Refusal :=
  .next (s.ownerOp c (fun s => s.handoverBy c successor.toNat))

/-- A pending handover ends, and the owner stays (R84). -/
def State.handoverEnds (s : State) : State :=
  if s.own.st = .handover then { s with own := { s.own with st := .owned, successor := none } } else s

/-- The owner cancels a pending handover (R84). -/
def State.cancelBy (s : State) (c : Nat) : State := if s.own.owner = some c then s.handoverEnds else s

/-- HANDOVER_CANCEL (R84). -/
def execHandoverCancel (c : Cand) (s : State) : Host.Outcome State Fault Refusal :=
  .next (s.ownerOp c (fun s => s.cancelBy c))

/-- The owner releases its ownership (R84). -/
def State.releaseBy (s : State) (c : Nat) : State :=
  if s.own.owner = some c ∧ (s.own.st = .owned ∨ s.own.st = .handover) then { s with own := s.own.drop } else s

/-- RELEASE (R84). -/
def execRelease (c : Cand) (s : State) : Host.Outcome State Fault Refusal :=
  .next (s.ownerOp c (fun s => s.releaseBy c))

/-- HANDOVER_TIMER_EXPIRY (R84). -/
def execHandoverTimerExpiry (s : State) : Host.Outcome State Fault Refusal :=
  .next (if s.live then s.handoverEnds else s)

/-- LAPSE_TIMER_EXPIRY (R84). -/
def execLapseTimerExpiry (s : State) : Host.Outcome State Fault Refusal :=
  .next (if s.live && s.own.st == .lapsing then { s with own := s.own.drop } else s)

/-- Candidate 0's or a head's function is back (R83): reset pin high, out of reset, link DL_Active. -/
def State.funcBack (s : State) (l : Nat) : State :=
  let f := if l = 32 then 256 else 16 * l
  if s.board.perst.getLsbD l && !s.board.inReset.getLsbD f && (s.link l).up then
    s.ownerBack (if l = 32 then 0 else l + 2)
  else s

/-- The BMC sideband candidate resets (R83). -/
def State.bmcReset (s : State) : State :=
  if s.bmcAnswers then
    let s := { s with board := { s.board with bmcDown := true } }
    if s.board.halted then s else s.ownerDown 1
  else s

/-- BMC_SCL_LOW_TIMEOUT (R83). -/
def execBmcSclLowTimeout (s : State) : Host.Outcome State Fault Refusal := .next s.bmcReset

/-- I3C_TARGET_RESET (R83). -/
def execI3cTargetReset (s : State) : Host.Outcome State Fault Refusal := .next s.bmcReset

/-! ### Mailboxes and doorbells from the host side (R97-R101) -/

/-- Mailboxes per direction of a function (R103). -/
def mailboxes (f : Nat) : Nat := if f = 256 then 16 else 4

/-- DETAIL of a CXL.io packet's violation (R194): TLP type and request tag. -/
def tlpDetail (p : Tlp) : Nat := p.type.toNat + p.tag.toNat * 2 ^ 8

/-- A CXL.io violation of a memory request to a function's BAR, logged on an LD's head (R194). -/
def State.ioViolate (s : State) (f code resp : Nat) (p : Tlp) : State :=
  if f < 256 then s.violate (f / 16) (BitVec.ofNat 8 (f % 16)) code resp p.addr (tlpDetail p) else s

/-- A post by the host (R98); on a FULL mailbox it is dropped, with a Completer Abort recorded and ERR_COR signalled. -/
def State.hostPosts (s : State) (f m : Nat) (v : BitVec 64) (p : Tlp) : State :=
  let b := s.mailbox f true m
  let s := s.setMailbox f true m (b.post v)
  if b.full then (((s.ioViolate f 0x0E 4 p).send (.completerAbort f)).send (.errCor f)).fixed 542
  else s.raiseHandler f 0

/-- MAILBOX_SEND (R98). -/
def execMailboxSend (f : Func) (m : BitVec 4) (v : MailWord) (s : State) : Host.Outcome State Fault Refusal :=
  .next (if s.funcUp f && decide (m.toNat < mailboxes f) then s.hostPosts f m.toNat v.word v.tlp else s)

/-- The host empties a device-to-host mailbox (R98). -/
def State.hostAcks (s : State) (f m : Nat) : State := s.setMailbox f false m (s.mailbox f false m).ack

/-- MAILBOX_ACK (R98): the host empties a device-to-host mailbox. -/
def execMailboxAck (f : Func) (m : BitVec 4) (s : State) : Host.Outcome State Fault Refusal :=
  .next (if s.funcUp f && decide (m.toNat < mailboxes f) then s.hostAcks f m.toNat else s)

/-- DB_SET (R100): bits [15:0] set TO_DEV. -/
def execDbSet (f : Func) (v : BitVec 32) (s : State) : Host.Outcome State Fault Refusal :=
  .next (if s.funcUp f then s.setToDev f (v.truncate 16) else s)

/-- TO_HOST bits cleared by the host (R100). -/
def State.bellClear (s : State) (f : Nat) (m : BitVec 16) : State :=
  s.setBell f { s.bell f with toHost := (s.bell f).toHost &&& ~~~ (m &&& ~~~ (s.setNow (bellTbl false) f 0).truncate 16) }

/-- DB_STATUS_CLEAR (R100): TO_HOST is W1C in bits [31:16]. -/
def execDbStatusClear (f : Func) (v : BitVec 32) (s : State) : Host.Outcome State Fault Refusal :=
  .next (if s.funcUp f then s.bellClear f ((v >>> 16).truncate 16) else s)

/-- HOST_MASK written (R100, R101); a bit already set that loses its mask interrupts. -/
def State.bellMask (s : State) (f : Nat) (m : BitVec 16) : State :=
  let b := s.bell f
  let s := s.setBell f { b with hostMask := m }
  if b.toHost &&& b.hostMask &&& ~~~ m = 0 then s else s.send (.msix f 0)

/-- DB_MASK_WRITE (R100, R101): HOST_MASK from bits [31:16]. -/
def execDbMaskWrite (f : Func) (v : BitVec 32) (s : State) : Host.Outcome State Fault Refusal :=
  .next (if s.funcUp f then s.bellMask f ((v >>> 16).truncate 16) else s)

/-! ### Field service access (R104-R107, R51) -/

/-- A candidate may use the port: OWNMODE lets it stand, and its path is up (R106). -/
def State.mayService (s : State) (c : Nat) : Bool := s.eligible c && s.pathUp c

/-- A thread enters debug halt: the steps of its suspension so far count, and what is left of 1,000 cycles is kept in
`suspAt` (R157, R160). -/
def Thread.debug (x : Thread) (now : Nat) : Thread :=
  if x.dbg then { x with single := false }
  else if x.st = .suspended then { x.countSusp now with dbg := true, single := false, suspAt := (now - x.suspAt) % 1000 }
  else { x with dbg := true, single := false }

/-- A thread leaves debug halt for its previous state. -/
def Thread.undebug (x : Thread) (now : Nat) : Thread :=
  if x.dbg && x.st == .suspended then { x with dbg := false, single := false, suspAt := now - x.suspAt }
  else { x with dbg := false, single := false }

/-- A single step is allowed (R157): a thread whose previous state is running executes its next instruction; one whose
previous state is suspended goes on with that suspension until the instruction it stands in completes. -/
def Thread.singleStep (x : Thread) (now : Nat) : Thread :=
  if x.st = .suspended then { x.undebug now with single := true } else { x with single := true }

/-- Threads in debug halt return to their previous state when the port relocks (R157). -/
def State.dbgRelease (s : State) : State :=
  { s with soft := { s.soft with threads := s.soft.threads.map (fun p => (p.1, p.2.undebug s.time.fclk)) } }

/-- The port relocks (R105); a CLOSED port stays closed. -/
def State.relock (s : State) : State :=
  if s.svc.st = 2 then s else ({ s with svc := { s.svc with st := 0 } }).dbgRelease

/-- A new challenge (R104); its nonce is a free value (log entry 2). -/
def State.saNew (s : State) : State :=
  { (s.took) with svc := { s.svc with challenge := Config.deviceIdentity ++ s.fresh, hasChallenge := true } }

/-- SA_NEW (R104). -/
def execSaNew (c : Cand) (s : State) : Host.Outcome State Fault Refusal :=
  .next (if s.mayService c then (s.from_ c).saNew else s)

/-- The challenge as its 16 bytes. -/
def Service.bytes (v : Service) : List (BitVec 8) := leBytes 16 v.challenge.toNat

/-- The ASCII bytes "KZ-SA-OPEN" (R105). -/
def saOpen : List (BitVec 8) := [0x4B, 0x5A, 0x2D, 0x53, 0x41, 0x2D, 0x4F, 0x50, 0x45, 0x4E]

/-- SA_KEY in force (R108). -/
def State.saKey (s : State) : BitVec 256 :=
  s.wordInForce 0x12 1 3 ++ s.wordInForce 0x12 1 2 ++ s.wordInForce 0x12 1 1 ++ s.wordInForce 0x12 1 0

/-- SA_RESPONSE answers the challenge under a method (R105). -/
def State.saRight (s : State) (method : BitVec 2) : Bool :=
  let r := leBytes 128 s.svc.response.toNat
  if method = 0 then Config.ecdsaOk none (r.take 96) (s.svc.bytes ++ saOpen)
  else r == leBytes 32 (Config.hmacSha256 s.saKey s.svc.bytes).toNat ++ zeros 96

/-- A SUBMIT (R105). Reserved METHOD values have no effect (log entry 13). While the port is CLOSED a SUBMIT does nothing: the
challenge, LAST and FAILS stay (DESIGN CHOICE, log entry 69). -/
def State.saCheck (s : State) (method : BitVec 2) : State :=
  let v := s.svc
  if v.st = 2 ∨ 2 ≤ method.toNat then s
  else
    let v := { v with method := method }
    if !v.hasChallenge then { s with svc := { v with last := 3 } }
    else
      let v := { v with hasChallenge := false }
      if method = 1 ∧ s.infB OWNER.SA_KEY_SET 0 = false then { s with svc := { v with last := 4 } }
      else if method = 1 ∧ s.infB OWNER.SA_HMAC_OK 0 = false then { s with svc := { v with last := 5 } }
      else if s.saRight method then { s with svc := { v with st := 1, last := 1 } }
      else if v.fails = 2 then ({ s with svc := { v with fails := 3, last := 2, st := 2 } }).dbgRelease
      else { s with svc := { v with fails := v.fails + 1, last := 2 } }

/-- SA_SUBMIT (R105). -/
def execSaSubmit (c : Cand) (method : BitVec 2) (s : State) : Host.Outcome State Fault Refusal :=
  .next (if s.mayService c then (s.from_ c).saCheck method else s)

/-- SA_LOCK (R105). -/
def execSaLock (c : Cand) (s : State) : Host.Outcome State Fault Refusal :=
  .next (if s.mayService c then (s.from_ c).relock else s)

/-- GO (R107): the read enters the management endpoint's tollgate at route class 6. -/
def State.dbgGo (s : State) : State :=
  if s.svc.dbgBusy then s
  else if s.svc.st ≠ 1 then s.dbgDone 5
  else if s.board.halted then s.dbgDone 7
  else if s.svc.dbgAddr.toNat % 64 ≠ 0 then s.dbgDone 6
  else
    let line : BitVec 40 := BitVec.ofNat 40 (s.svc.dbgAddr.toNat / 64)
    let r : MemReq :=
      { src := .debug, kind := .read, mv := .invalid, line := line.toNat, key := 0, cls := 6,
        data := 0, mask := 0, poison := false, throttled := false, at_ := s.time.fclk }
    let s := { s with svc := { s.svc with dbgBusy := true, dbgReady := false, dbgLine := line } }
    s.setToll 32 { s.toll 32 with queue := (s.toll 32).queue ++ [r] }

/-- SA_DBG_GO (R107). -/
def execSaDbgGo (c : Cand) (s : State) : Host.Outcome State Fault Refusal :=
  .next (if s.mayService c then (s.from_ c).dbgGo else s)

/-! ### Debug of threads (R157) -/

/-- Debug acts on a thread: the port is OPEN and the thread's invocation exists. -/
def State.mayDebug (s : State) (w t : Nat) : Bool :=
  s.live && s.svc.st == 1 && (s.thread w t).st != .idle

/-- DEBUG_HALT (R157); a debug request wakes the wayfinder's domain (R436). -/
def execDebugHalt (w : WfNo) (t : ThrNo) (s : State) : Host.Outcome State Fault Refusal :=
  .next (if s.mayDebug w t then
      (s.setThread w t ((s.thread w t).debug s.time.fclk)).wakeUnit (uid 8 w)
    else s)

/-- DEBUG_RESUME (R157). -/
def execDebugResume (w : WfNo) (t : ThrNo) (s : State) : Host.Outcome State Fault Refusal :=
  .next (if s.mayDebug w t && (s.thread w t).dbg then
      (s.setThread w t ((s.thread w t).undebug s.time.fclk)).wakeUnit (uid 8 w)
    else s)

/-- DEBUG_SINGLE_STEP (R157): one instruction executes, and the thread is in debug halt again (log entry 60). -/
def execDebugSingleStep (w : WfNo) (t : ThrNo) (s : State) : Host.Outcome State Fault Refusal :=
  .next (if s.mayDebug w t && (s.thread w t).dbg then
      (s.setThread w t ((s.thread w t).singleStep s.time.fclk)).wakeUnit (uid 8 w)
    else s)

/-- TEST_ACCESS_PORT_INSTRUCTION (R51): boundary scan and BYPASS work always and reach no state of the device;
every other instruction executes as BYPASS until service access is unlocked, and what it does then the spec
does not say. TRST_N low holds the port in reset: no instruction executes. -/
def execTestAccessPortInstruction (p : TapDrive) (s : State) : Host.Outcome State Fault Refusal :=
  if p.trstLow then .next s
  else match p.ins with
  | .boundaryScan => .next s
  | .bypass => .next s
  | .other code => if s.svc.st = 1 then .fault (.testPortUndescribed code) else .next s

end Sys2Proof.Machine
end

