-- ==== Sys2Proof/Machine/Links.lean ====
section
/-! DEFINITION. Links, resets of functions and heads, HDM decoders, isolation and the violation log, link width,
L1 and credits (R43, R83, R102, R171-R178, R188-R191, R194-R198). -/
namespace Sys2Proof.Machine

/-! ### Commit points of PORT (R168, R173, R198) -/

/-- Bits of a word reach their commit point. -/
def State.commitBits (s : State) (tbl idx word : Nat) (bits : BitVec 64) : State :=
  { s with uncommitted := (s.uncommitted.map (fun u =>
      if u.tbl = tbl ∧ u.idx = idx ∧ u.word = word then { u with mask := u.mask &&& ~~~ bits } else u)).filter (fun u => u.mask ≠ 0 ∨ u.ones ≠ 0) }

/-- Fields of an entry reach their commit point. -/
def State.commitFlds (s : State) (idx : Nat) (fs : List Fld) : State :=
  fs.foldl (fun s f => s.commitBits f.lay.tbl idx f.word f.mask) s

/-- The other head of a port group. -/
def mateOf (h : Nat) : Nat := if h % 2 = 0 then h + 1 else h - 1

/-- Fields of code L of a head that begins to train (R198). -/
def State.commitL (s : State) (h : Nat) : State :=
  let s := s.commitFlds h [PORT.LD_COUNT, PORT.L1_ENABLE, PORT.MAXRATE]
  if (s.link (mateOf h)).up then s
  else (s.commitFlds h [PORT.CLOCK_MODE]).commitFlds (mateOf h) [PORT.CLOCK_MODE]

/-- The fields that commit at a link width change (R198). -/
def State.commitL0p (s : State) (h : Nat) : State :=
  s.commitFlds h [PORT.L0P_ENABLE, PORT.L0P_MIN_WIDTH, PORT.L0P_NARROW_PCT, PORT.L0P_WIDEN_PCT, PORT.L0P_HOLD]

/-! ### Resets of logical devices and of the endpoint (R83, R99, R102) -/

/-- A ring job of a reset LD stops at its next page boundary, and reports to no one (R102). -/
def State.stopJob (s : State) (j : Job) : State :=
  if j.busy.isNone then s.dropJob j.id
  else s.setJob { j with origin := .orphan, notify := false, len := j.done + (j.part.2 - j.part.1) }

/-- The rings of an LD stop and return to reset; its commands in flight are dropped (R102, R140). -/
def State.stopRings (s : State) (ld : Nat) : State :=
  let js := s.soft.jobs.filter (fun j => match j.origin with | .ring l _ _ => l == ld | _ => false)
  let s := js.foldl (fun s j => s.stopJob j) s
  { s with soft := { s.soft with
      rings := s.soft.rings.filter (fun r => r.1 / 128 ≠ ld)
      cmds := s.soft.cmds.filter (fun c => c.ld ≠ ld)
      ioReads := s.soft.ioReads.filter (fun r => r.ld ≠ ld)
      runQ := s.soft.runQ.filter (fun c => c.ld ≠ ld)
      policyQ := s.soft.policyQ.filter (fun c => c.ld ≠ ld) } }

/-- The tenant invocations of an LD end with no completion (R157). -/
def State.stopTenants (s : State) (ld : Nat) : State :=
  (List.range 64).foldl (fun s k =>
    let x := s.thread (k / 4) (k % 4)
    if x.st ≠ .idle ∧ x.kind = .tenant ld then
      ((s.orphanMoves (k / 4) (k % 4)).setThread (k / 4) (k % 4) { x with run := none }).endInvocation (k / 4) (k % 4) 0b10 0xFF 0 0
    else s) s

/-- The stream contexts an LD holds are free again (R302). -/
def State.freeCtxs (s : State) (ld : Nat) : State :=
  { s with stow := { s.stow with ctxs := s.stow.ctxs.filter (fun c => c.2.st = 0 ∨ c.2.holder ≠ ld) } }

/-- TO_HOST and HOST_MASK of a function at reset (R102). -/
def State.resetBell (s : State) (f : Nat) : State := s.setBell f { s.bell f with toHost := 0, hostMask := 0xFFFF }

/-- An LD reset, but for the function's own reset state and its ownership (R102). -/
def State.resetLd (s : State) (ld : Nat) : State :=
  ((((s.stopRings ld).stopTenants ld).freeCtxs ld).resetBell ld).settle

/-- A function is in reset, or out of it. -/
def State.setInReset (s : State) (f : Nat) (v : Bool) : State :=
  let b : BitVec 257 := BitVec.ofNat 257 (2 ^ f)
  { s with board := { s.board with inReset := if v then s.board.inReset ||| b else s.board.inReset &&& ~~~ b } }

/-- A function resets, with what that means for ownership (R83). -/
def State.functionReset (s : State) (f : Nat) : State :=
  let s := s.setInReset f true
  if f = 256 then (s.resetBell 256).ownerDown 0
  else
    let s := s.resetLd f
    if f % 16 = 0 then s.ownerDown (f / 16 + 2) else s

/-- FUNCTION_LEVEL_RESET (R83): of the endpoint, or of a single-LD head. -/
def execFunctionLevelReset (f : Func) (s : State) : Host.Outcome State Fault Refusal :=
  .next (if s.live && (f.val == 256 || (s.ldExists f && f.val % 16 == 0 && s.inf PORT.LD_COUNT (f / 16) == 1)) then
    s.functionReset f else s)

/-- LD_RESET (R102), through the fabric manager API. -/
def execLdReset (ld : LdNo) (s : State) : Host.Outcome State Fault Refusal :=
  .next (if s.live && s.ldExists ld then s.functionReset ld else s)

/-- FUNCTION_OUT_OF_RESET (R83). -/
def execFunctionOutOfReset (f : Func) (s : State) : Host.Outcome State Fault Refusal :=
  .next (if s.live && s.board.inReset.getLsbD f then
    (s.setInReset f false).funcBack (if f.val = 256 then 32 else f / 16) else s)

/-! ### Links (R43, R172-R175, R197) -/

/-- The highest rate a head advertises (R172). -/
def State.maxRate (s : State) (l : Nat) : Nat := if l = 32 then 4 else s.inf PORT.MAXRATE l

/-- The full width of a link (R172): x16 or x8 of a head, x4 of the endpoint. -/
def State.fullWidth (s : State) (l : Nat) : Nat := if l = 32 then 4 else if s.pgMode (l / 2) = 1 then 16 else 8

/-- CXL as a head offers it (R172): from 8 GT/s upward; in 68-byte flit mode at 8, 16 and 32 GT/s. -/
def cxlOffered (rate : Nat) (flit256 cxl : Bool) : Bool :=
  !cxl || (decide (3 ≤ rate) && (flit256 || decide (rate ≤ 5)))

/-- Link widths of the standard. -/
def widthOk (w : Nat) : Bool := [1, 2, 4, 8, 16].contains w

/-- Credits of a type that the host grants when a link trains: free, no rule states them (R191, log entry 17). -/
def State.granted (s : State) (type : Nat) : Nat := (Config.freeValue (s.freeUsed + type)).toNat

/-- LINK_TRAINING_COMPLETE (R172-R175): the link is DL_Active with what was negotiated, fields of code L commit,
and snoops that waited leave. Transmit credits: log entry 17. -/
def execLinkTrainingComplete (l : LinkNo) (rate : BitVec 4) (width : BitVec 5) (flit256 cxl : Bool) (s : State) :
    Host.Outcome State Fault Refusal :=
  .next (
    let s0 := if l.val < 32 then s.commitL l else s
    if s.mayTrain l && decide (1 ≤ rate.toNat) && decide (rate.toNat ≤ s0.maxRate l) && widthOk width.toNat &&
        decide (width.toNat ≤ s.fullWidth l) && cxlOffered rate.toNat flit256 cxl then
      let k := s0.link l
      let s := s0.setLink l { k with up := true, rate := rate.toNat, trained := width.toNat, width := width.toNat,
                                     flit256 := flit256, cxl := cxl && decide (l.val < 32), l1 := false, l0p := .stable, byHost := false,
                                     holdAt := s.time.fclk, lowSince := none, express := false, toFull := false, load := 0,
                                     crBisnp := s.granted 0, crPosted := s.granted 1, crNonPosted := s.granted 2 }
      let s := { s with freeUsed := s.freeUsed + 3 }
      let s := if l.val < 32 then
          (((s.wr PORT.LINK_RATE l rate.toNat).wr PORT.LINK_WIDTH l width.toNat).wr PORT.FLIT256 l
            (if flit256 then 1 else 0)).wr PORT.CXL l (if cxl then 1 else 0)
        else s
      let s := s.coh.snoops.foldl (fun s n => if n.head = l.val ∧ n.sent = false ∧ n.done = none then s.sendSnoop n else s) s
      s.funcBack l
    else s)

/-- LINK_DOWN (R197). -/
def execLinkDown (l : LinkNo) (s : State) : Host.Outcome State Fault Refusal := .next (s.linkLost l)

/-- A reset pin as a level (R43). -/
def State.setPerst (s : State) (l : Nat) (v : Bool) : State :=
  let b : BitVec 33 := BitVec.ofNat 33 (2 ^ l)
  { s with board := { s.board with perst := if v then s.board.perst ||| b else s.board.perst &&& ~~~ b } }

/-- HDPERST_N_FALL (R43, R102): the head's fundamental reset, an LD reset of every LD of the head. -/
def execHdperstNFall (h : HeadNo) (s : State) : Host.Outcome State Fault Refusal :=
  .next (
    let was := s.board.perst.getLsbD h
    let s := s.setPerst h false
    if was && s.live && s.headExists h then
      let s := s.linkLost h
      let s := (List.range 16).foldl (fun s i => if s.ldExists (16 * h + i) then s.resetLd (16 * h + i) else s) s
      s.ownerDown (h + 2)
    else s)

/-- HDPERST_N_RISE (R43): the head trains, once its port group is out of a low-power level (R436). -/
def execHdperstNRise (h : HeadNo) (s : State) : Host.Outcome State Fault Refusal :=
  .next (
    let s := s.setPerst h true
    if s.rd POWER.STATE (h / 2) = 0 then s.startTrain h
    else if s.live then s.wakeDom (h / 2) else s)

/-- MG_PERST_N_FALL (R43, R83). -/
def execMgPerstNFall (s : State) : Host.Outcome State Fault Refusal :=
  .next (
    let was := s.board.perst.getLsbD 32
    let s := s.setPerst 32 false
    if was && s.live then ((s.linkLost 32).resetBell 256).ownerDown 0 else s)

/-- MG_PERST_N_RISE (R43). -/
def execMgPerstNRise (s : State) : Host.Outcome State Fault Refusal :=
  .next (
    (s.setPerst 32 true).startTrain 32)

/-! ### HDM decoders (R178) -/

/-- The end of an LD address range of a committed decoder. -/
def Decoder.ldEnd (d : Decoder) : Nat := d.ldBase + d.size / d.ways

/-- HDM_DECODER_COMMIT (R178): placed by the DPA skip after the decoders below it; or Error Not Committed. A range overlaps another
where their LD addresses or their HPAs do, and a decoder that is committed again takes its new range (DESIGN CHOICE, log
entry 72). -/
def execHdmDecoderCommit (ld : LdNo) (n : Fin 4) (dec : DecoderSet) (s : State) : Host.Outcome State Fault Refusal :=
  .next (if !s.funcUp ld then s
    else
      let below := ((List.range n).map (s.decoder ld)).foldl (fun a d => if d.committed then max a d.ldEnd else a) 0
      let d : Decoder := { committed := true, base := dec.base.toNat, size := dec.size.toNat, ways := dec.ways, gran := dec.gran,
                           ldBase := below + dec.skip.toNat, bi := dec.bi, way := none, err := false }
      let others := ((List.range 4).filter (· ≠ n.val)).map (s.decoder ld)
      let space := 2 ^ (s.inf TAG.LD_SIZE_LOG2 ld + s.inf TAG.KEYID_WIDTH ld + s.inf TAG.CLASS_WIDTH ld)
      let hits := fun (e : Decoder) => e.committed &&
        ((decide (d.ldBase < e.ldEnd) && decide (e.ldBase < d.ldEnd)) ||
         (decide (d.base < e.base + e.size) && decide (e.base < d.base + d.size)))
      if s.inf TAG.LD_SIZE_LOG2 ld ≠ 0 ∧ widthOk d.ways = true ∧ [256, 512, 1024, 2048, 4096, 8192, 16384].contains d.gran = true ∧
          0 < d.size ∧ d.ldEnd ≤ space ∧ others.any hits = false then
        (s.setDecoder ld n d).wr TAG.DECODERS ld ((BitVec.ofNat 4 (s.rd TAG.DECODERS ld)) ||| BitVec.ofNat 4 (2 ^ n.val)).toNat
      else s.setDecoder ld n { s.decoder ld n with err := true })

/-! ### Configuration requests (R57, R58, R75, R176, R200, R202) -/

/-- The value of a capability that a head's function advertises (R176); none: not advertised. -/
def State.capability (s : State) (f : Nat) (c : Cap) : Option (List Nat) :=
  let h := f / 16
  match c with
  | .linkSpeeds => some ((List.range (s.maxRate h)).map (· + 1))
  | .linkWidth => some [s.fullWidth h]
  | .flitMode => some ((List.range (s.maxRate h)).map (· + 1))
  | .l0p => some ([16, 8, 4, 2, 1].filter (fun w => decide (w ≤ s.fullWidth h) && decide (2 ^ s.inf PORT.L0P_MIN_WIDTH h ≤ w)))
  | .aspmL1 => some [s.inf PORT.L1_ENABLE h]
  | .laneMargining => some [1, 1]
  | .retimers => some [2]
  | .aer => some []
  | .doe => some []
  | .msix => some [4]
  | .flr => if s.inf PORT.LD_COUNT h = 1 then some [] else none
  | .maxPayload => some [512]
  | .tenBitTags => some []
  | .maxReadRequest => some [4096]
  | .cxlIo => some []
  | .cxlMem => if (s.link h).cxl then some [] else none
  | .deviceType => some [3]
  | .hdmH => some []
  | .hdmDb => if (s.link h).flit256 then some [] else none
  | .m2sRequests => some []
  | .multiLd => some [s.inf PORT.LD_COUNT h]
  | .multiHead => some [32]
  | .hdmDecoders => some [4]
  | .interleaveWays => some [1, 2, 4, 8, 16]
  | .interleaveGran => some [256, 512, 1024, 2048, 4096, 8192, 16384]
  | .dynamicCapacity => some [1, 2 ^ 21]
  | .memoryActiveTimeout => some [3]
  | .qosTelemetry => some []
  | .mailbox => some []
  | .fmApi => some []
  | .aspmL0s | .l1Substates | .msiIntx | .atsPriPasidSriovPtm | .linkIdeTdisp | .cxlCache | .hdmD | .persistent | .viral
  | .cxlIde | .perLdQos | .portRouting => none

/-- The CDAT of an LD (R200): a memory range for each enabled window, flagged where it is shared. It is what the committed
WINDOW entries say, so every commit rebuilds it. -/
def State.cdat (s : State) (ld : Nat) : List (Nat × Nat × Bool) :=
  ((List.range 16).filter (fun w => s.winState (16 * ld + w) == 1 || s.winState (16 * ld + w) == 2)).map (fun w =>
    (s.inf WINDOW.LD_BASE (16 * ld + w) * 2 ^ 21, s.inf WINDOW.SIZE (16 * ld + w) * 2 ^ 21, s.infB WINDOW.TYPE (16 * ld + w)))

/-- A configuration read of a function. What the management endpoint advertises no rule states: a free value (log entry 2). -/
def State.cfgRead (s : State) (f : Nat) (r : CfgReg) : State :=
  match r with
  | .spdmPhase => s.send (.config f (some [s.phase]))
  | .mailboxReady => s.send (.config f (some [if s.board.mbReady then 1 else 0]))
  | .cap c => if f = 256 then s.took.send (.config f (some [s.fresh.toNat])) else s.send (.config f (s.capability f c))
  | .memoryActive => s.send (.config f (if f = 256 then none else some [if s.board.active then 1 else 0]))
  | .errorNotCommitted n => s.send (.config f (if f = 256 then none else some [if (s.decoder f n).err then 1 else 0]))
  | .cdat => if f = 256 then s.send (.config f none) else s.send (.cdat f (s.cdat f))

/-- CONFIGURATION_REQUEST (R58): completes normally from link-up on. -/
def execConfigurationRequest (r : CfgReq) (s : State) : Host.Outcome State Fault Refusal :=
  .next (if !s.funcUp r.func then s
    else match r.op with
    | .read c => s.cfgRead r.func c
    | .setBiId v =>
      (if r.func.val = 256 then s else s.setLink (r.func / 16) { s.link (r.func / 16) with biId := v }).send (.configDone r.func))

/-! ### Isolation and the violation log (R194-R196) -/

/-- ISOLATION_INTERVAL (R196): the 1 s interval ends. -/
def execIsolationInterval (h : HeadNo) (s : State) : Host.Outcome State Fault Refusal :=
  .next (if s.live then s.setLink h { s.link h with counted := 0 } else s)

/-- ISOLATED_CLEAR (R196). -/
def execIsolatedClear (w : WfNo) (t : ThrNo) (d : Reg) (h : HeadNo) (s : State) : Host.Outcome State Fault Refusal :=
  .next (ownerStore w t d (fun s =>
    if s.headExists h then (0, (s.clearW1c PORT.ISOLATED h 1).endHandling (uid 0 h) [0x19]) else (9, s)) s)

/-- The 32 bytes of a violation log entry (R194). -/
def Violation.bytes (v : Violation) : List (BitVec 8) :=
  leBytes 2 v.seq.toNat ++ [v.code, v.response, v.ld, v.count] ++ zeros 2 ++ leBytes 8 v.address.toNat ++
  leBytes 8 v.time ++ leBytes 8 v.detail.toNat

/-- The head an answer of the violation log is about: an LD is answered from its own head's log. -/
def logHead (snd : Sender) (h : Nat) : Nat := match snd with | .ld n => n / 16 | _ => h

/-- VIOLATION_LOG_READ (R195): the overwrite count, then the entries the sender may see, oldest first. -/
def execViolationLogRead (snd : Sender) (h : HeadNo) (s : State) : Host.Outcome State Fault Refusal :=
  let k := s.link (logHead snd h)
  let all := leBytes 2 k.overwrites ++ k.log.flatMap Violation.bytes
  .next (if !s.live then s
    else match snd with
    | .window => s
    | .ld n =>
      if n.val % 16 = 0 then s.send (.answer all)
      else s.send (.answer ((k.log.filter (fun v => v.ld.toNat == n.val % 16)).flatMap Violation.bytes))
    | _ => s.send (.answer all))

/-- The management candidate a sender is, if any. -/
def senderCand : Sender → Option Nat
  | .ep => some 0
  | .window => some 0
  | .bmc => some 1
  | .ld n => if n.val % 16 = 0 then some (n / 16 + 2) else none

/-- The sender is the owner. -/
def State.isOwner (s : State) (snd : Sender) : Bool := match senderCand snd with | some c => s.own.owner == some c | none => false

/-- VIOLATION_LOG_CLEAR (R195): from the owner, or LD 0 of the head; else NOT_OWNER. -/
def execViolationLogClear (snd : Sender) (h : HeadNo) (s : State) : Host.Outcome State Fault Refusal :=
  let own := match snd with | .ld n => n.val == 16 * h.val | _ => false
  .next (if !s.live then s
    else if s.isOwner snd || own then
      (s.setLink h { s.link h with log := [], overwrites := 0 }).send (.loader 0 0 [])
    else s.send (.loader 1 0 []))

/-! ### Link width (R188, R189) -/

/-- Lanes that an L0P_MIN_WIDTH code names. -/
def minLanes (v : Nat) : Nat := 2 ^ v

/-- The head asks for a width when no change is in progress (R189). -/
def State.askWidth (s : State) (h w : Nat) : State :=
  let k := s.link h
  if k.up ∧ k.l0p = .stable ∧ k.width ≠ w then
    (s.setLink h { k with l0p := .device w }).send (.l0pRequest h w)
  else s

/-- The policy stops (R188): the trained width is asked for, or noted where a width change is in progress (R189). -/
def State.stopWidth (s : State) (h : Nat) : State :=
  let k := s.link h
  if k.up ∧ k.l0p ≠ .stable then s.setLink h { k with toFull := true } else s.askWidth h k.trained

/-- L0P_HOLD in FCLK cycles. -/
def State.l0pHold (s : State) (h : Nat) : Nat := s.inf PORT.L0P_HOLD h * 100000

/-- L0P_SAMPLE (R188): one 10 µs sample of the head's load. With the policy stopped a sample only asks for a trained width that is
still due once L0P_HOLD is over (R189). -/
def execL0pSample (h : HeadNo) (load : BitVec 7) (s : State) : Host.Outcome State Fault Refusal :=
  .next (
    let k := s.link h
    let now := s.time.fclk
    if !s.live || !k.up then s
    else if !s.infB PORT.L0P_ENABLE h then
      (if k.toFull && k.l0p == .stable && decide (k.holdAt + s.l0pHold h ≤ now) then
        (s.setLink h { k with toFull := false }).askWidth h k.trained else s)
    else
      let low := if load.toNat < s.inf PORT.L0P_NARROW_PCT h then some (k.lowSince.getD now) else none
      let s := s.setLink h { k with lowSince := low, load := load.toNat, toFull := false }
      let held := decide (k.holdAt + s.l0pHold h ≤ now)
      if s.inf PORT.L0P_WIDEN_PCT h < load.toNat then
        if k.byHost && !held then s else s.askWidth h k.trained
      else match low with
        | some t0 =>
          if held && decide (t0 + s.l0pHold h ≤ now) && decide (2 ≤ k.width) &&
              decide (minLanes (s.inf PORT.L0P_MIN_WIDTH h) ≤ k.width / 2) then
            s.askWidth h (k.width / 2)
          else s
        | none => s)

/-- HOST_L0P_REQUEST (R188, R189): accepted when the standard allows the width; it withdraws the head's own. -/
def execHostL0pRequest (h : HeadNo) (width : BitVec 5) (s : State) : Host.Outcome State Fault Refusal :=
  .next (
    let k := s.link h
    if s.live && k.up && widthOk width.toNat && decide (width.toNat ≤ k.trained) then
      match k.l0p with
      | .host _ => s
      | _ => s.setLink h { k with l0p := .host width.toNat }
    else s)

/-- An express request that waits asks for the full width (R188). -/
def State.expressWidth (s : State) (h : Nat) : State :=
  let k := s.link h
  if k.express then
    if k.l0p ≠ .stable then s
    else if k.width = k.trained then s.setLink h { k with express := false } else s.askWidth h k.trained
  else s

/-- The policy evaluated when a change of the head's own completes (R189): a width still due after the policy stopped, or a
widening that the last sample asks for. L0P_HOLD restarts, so nothing narrows. -/
def State.reviewWidth (s : State) (h : Nat) : State :=
  let k := s.link h
  if s.infB PORT.L0P_ENABLE h then
    (if s.inf PORT.L0P_WIDEN_PCT h < k.load then s.askWidth h k.trained else s)
  else if k.toFull then (s.setLink h { k with toFull := false }).askWidth h k.trained
  else s

/-- L0P_CHANGE_COMPLETE (R189). -/
def execL0pChangeComplete (h : HeadNo) (s : State) : Host.Outcome State Fault Refusal :=
  .next (
    let k := s.link h
    let fin := fun (w : Nat) (byHost : Bool) =>
      let s := s.setLink h { k with width := w, l0p := .stable, byHost := byHost, holdAt := s.time.fclk, lowSince := none }
      let s := ((s.wr PORT.LINK_WIDTH h w).event (uid 0 h) 0x0B).commitL0p h
      let s := s.expressWidth h
      if byHost then s else s.reviewWidth h
    if !s.live || !k.up then s
    else match k.l0p with
      | .stable => s
      | .device w => fin w false
      | .host w => fin w true)

/-- L1_ENTRY (R190): only when L1_ENABLE is 1. -/
def execL1Entry (h : HeadNo) (s : State) : Host.Outcome State Fault Refusal :=
  .next (if s.live && (s.link h).up && s.infB PORT.L1_ENABLE h then s.setLink h { s.link h with l1 := true } else s)

/-- L1_EXIT (R190). -/
def execL1Exit (h : HeadNo) (s : State) : Host.Outcome State Fault Refusal :=
  .next (s.setLink h { s.link h with l1 := false })

/-! ### Credits (R191) -/

/-- FLOW_CONTROL_CREDIT_RETURN (R191): snoops that waited leave in the order of their issue. -/
def execFlowControlCreditReturn (h : HeadNo) (kind : CreditKind) (n : BitVec 16) (s : State) :
    Host.Outcome State Fault Refusal :=
  .next (
    let k := s.link h
    if !s.live || !k.up then s
    else match kind with
      | .bisnp =>
        let s := s.setLink h { k with crBisnp := k.crBisnp + n.toNat }
        s.coh.snoops.foldl (fun s m => if m.head = h.val ∧ m.sent = false ∧ m.done = none then s.sendSnoop m else s) s
      | .posted => s.setLink h { k with crPosted := k.crPosted + n.toNat }
      | .nonPosted => s.setLink h { k with crNonPosted := k.crNonPosted + n.toNat }
      | _ => s)

/-! ### Snoop responses (R210, R221-R229) -/

/-- A response of a head to a snoop (R210). -/
def State.biRspRow (s : State) (h l : Nat) (shared odd : Bool) (detail : Nat) : State :=
  if s.live && (s.link h).up then ((s.wakeUnit (sliceUid l)).biRsp h l shared odd detail).settle else s

/-- BI_RSP_I (R210): a BIRspI, or its block form. -/
def execBiRspI (h : HeadNo) (r : RspI) (s : State) :
    Host.Outcome State Fault Refusal :=
  .next (s.biRspRow h (r.dpa.toNat / 64) false r.block (biDetail (if r.block then 4 else 0) r.tag))

/-- Opcode of a response that leaves a head a copy, as the CXL specification encodes it (PRESUMED, log entry 15). -/
def rspCode : RspForm → Nat
  | .s => 1 | .e => 2 | .sBlk => 5 | .eBlk => 6

/-- BI_RSP_S (R210): a BIRspS; the table's rows name no BIRspE and no block form, so they come here (log entry 77). -/
def execBiRspS (h : HeadNo) (r : RspS) (s : State) :
    Host.Outcome State Fault Refusal :=
  .next (s.biRspRow h (r.dpa.toNat / 64) true (r.form ≠ .s) (biDetail (rspCode r.form) r.tag))

/-- BI_CONFLICT (R223). -/
def execBiConflict (h : HeadNo) (r : Conflict) (s : State) :
    Host.Outcome State Fault Refusal :=
  .next (if s.live && (s.link h).up then
      (s.wakeUnit (sliceUid (r.dpa.toNat / 64))).biConflict h (r.dpa.toNat / 64) r.hpa (biDetail 4 r.tag) else s)

/-- RECLAIM_WALK_END (R227). -/
def execReclaimWalkEnd (h : HeadNo) (win : BitVec 12) (s : State) : Host.Outcome State Fault Refusal :=
  .next (if s.live then (s.walkEnd h win.toNat).settle else s)

/-- DWELL_WINDOW_END (R218): requests and invalidations that waited for the window go on. -/
def execDwellWindowEnd (dpa : BitVec 46) (s : State) : Host.Outcome State Fault Refusal :=
  .next (let l := dpa.toNat / 64
    if s.live && s.dwelling l then
      (({ s with coh := { s.coh with dwells := s.coh.dwells.filter (fun d => d.line ≠ l) } }).pump).settle
    else s)

/-- VICTIM_SNOOP_ISSUE (R216). -/
def execVictimSnoopIssue (hs : SliceNo) (s : State) : Host.Outcome State Fault Refusal :=
  .next (if s.live then (s.pumpVictims hs).settle else s)

end Sys2Proof.Machine
end

