-- ==== Sys2Proof/Machine/Thermal.lean ====
section
/-! DEFINITION. The thermal supervisor and the life ledger (R442-R448, R458-R460). -/
namespace Sys2Proof.Machine

/-- A number of `w` bits as a two's complement integer. -/
def sint (w v : Nat) : Int := (BitVec.ofNat w v).toInt

/-- An integer as a field of `w` bits. -/
def unsint (w : Nat) (v : Int) : Nat := (BitVec.ofInt w v).toNat

/-- A quotient that the spec does not say how to round: a free value chooses between the two whole numbers
around it (log entry 2). -/
def State.roundFree (s : State) (num den : Nat) : Nat × State :=
  if num % den = 0 then (num / den, s) else (num / den + s.fresh.toNat % 2, s.took)

/-! ### Sensors (R442, R443) -/

/-- READING of a sensor, in 0.125 °C. -/
def State.temp (s : State) (th : Nat) : Int := sint 16 (s.rd THERMAL.READING th)

/-- The sensor defines a zone: enabled and in service (R444). -/
def State.zone (s : State) (th : Nat) : Bool := s.infB THERMAL.ENABLE th && !s.rdB THERMAL.FAILED th

/-- A threshold of a sensor, in 0.125 °C. -/
def State.limitC (s : State) (f : Fld) (th : Nat) : Int := 8 * sint 8 (s.inf f th)

/-- The hottest zone: the largest excess, the lowest index among equals (R444). -/
def State.hottest (s : State) : Option Nat :=
  ((List.range 52).filter s.zone).foldl (fun b th => match b with
    | none => some th
    | some x =>
      if s.temp x - s.limitC THERMAL.THROTTLE_C x < s.temp th - s.limitC THERMAL.THROTTLE_C th then some th
      else some x) none

/-- A number put at its place in an ascending list. -/
def insSorted (x : Int) : List Int → List Int
  | [] => [x]
  | y :: t => if x ≤ y then x :: y :: t else y :: insSorted x t

/-- Twice the median of a list of readings. -/
def median2 (l : List Int) : Int :=
  let a := l.foldr insSorted []
  a.getD ((a.length - 1) / 2) 0 + a.getD (a.length / 2) 0

/-- Does the reading of a sensor say that it has failed (R443)? -/
def State.sensorBad (s : State) (th : Nat) (v : Int) : Bool :=
  if th < 32 then
    let m := median2 (((List.range 32).filter (fun i => s.aon.seen.contains i && !s.rdB THERMAL.FAILED i)).map s.temp)
    decide (400 < 2 * v - m) || decide (400 < m - 2 * v)
  else if th < 40 then decide (v < -400) || decide (1200 < v)
  else if th < 48 then decide (v < -360) || decide (1200 < v)
  else false

/-- The sensor's input is not disabled: ENABLE 0 disables a remote diode or thermistor input (R52, R443). -/
def State.sensed (s : State) (th : Nat) : Bool := decide (th < 32) || decide (48 ≤ th) || s.infB THERMAL.ENABLE th

/-- A sensor fails (R443). -/
def State.sensorFails (s : State) (th : Nat) : State :=
  (s.wr THERMAL.FAILED th 1).report (uid 10 th) 0x2B 2 (s.rd THERMAL.READING th)

/-- The refresh rate of a unit changed, with its DELIVERABLE (R369, R372). -/
def State.refreshRate (s : State) (u : Nat) (twice : Bool) : State :=
  if s.rdB MEMCH.REFRESH_2X u = twice then s
  else (s.wr MEMCH.REFRESH_2X u (if twice then 1 else 0)).redeliver u

/-- The refresh rate of a stack from its sensor (R369, R443). -/
def State.stackRefresh (s : State) (st : Nat) : State :=
  if !s.unitPresent (24 + st) then s
  else if s.rdB THERMAL.FAILED (48 + st) then s.refreshRate (24 + st) true
  else if 680 ≤ s.temp (48 + st) then s.refreshRate (24 + st) true
  else if s.temp (48 + st) < 664 then s.refreshRate (24 + st) false
  else s

/-- A hard trip (R448): THERMTRIP_N and the class 3 halt. -/
def State.hardTrip (s : State) (th : Nat) : State :=
  ({ s with board := { s.board with thermtrip := true } }).fatal (uid 10 52) 0x2E th

/-- A zone reached its SHUTDOWN_C (R447 step 1). -/
def State.shutdown (s : State) (by_ : Nat) : State :=
  if s.aon.shutdown then s
  else { s with aon := { s.aon with shutdown := true, shutdownBy := by_ } }

/-- THERMAL_SAMPLE (R442): one reading, with failure, shutdown and hard trip. -/
def execThermalSample (th : ThNo) (raw : Option (BitVec 16)) (s : State) : Host.Outcome State Fault Refusal :=
  let n := th.val
  .next (if s.board.power == .unpowered then s
    else match raw with
    | none =>
      if 48 ≤ n && !s.rdB THERMAL.FAILED n then (s.sensorFails n).stackRefresh (n - 48) else s
    | some r =>
      let v := r.toInt + sint 8 (s.inf THERMAL.OFFSET n)
      let s := s.wr THERMAL.READING n (unsint 16 v)
      let v := s.temp n
      let first := !s.aon.seen.contains n
      let s := if first || decide (sint 16 (s.rd THERMAL.MAX_SEEN n) < v) then
          s.wr THERMAL.MAX_SEEN n (unsint 16 v) else s
      let s : State := { s with aon := { s.aon with seen := insUniq n s.aon.seen } }
      let s := s.wr THERMAL.HOT n (if s.limitC THERMAL.THROTTLE_C n < v then 1 else 0)
      let s := if s.sensed n && !s.rdB THERMAL.FAILED n && s.sensorBad n v then s.sensorFails n else s
      let s := if 48 ≤ n then s.stackRefresh (n - 48) else s
      if s.rdB THERMAL.FAILED n then s
      else
        let comp := decide (n < 32) || decide (48 ≤ n)
        if (comp || s.infB THERMAL.ENABLE n) && decide (s.limitC THERMAL.TRIP_C n ≤ v) then
          s.hardTrip (s.hottest.getD n)
        else if s.zone n && decide (s.limitC THERMAL.SHUTDOWN_C n ≤ v) && s.board.power != .aonOnly then
          s.shutdown (s.hottest.getD n)
        else s)

/-- HARD_TRIP (R448): a comparator of an on-die or HBM sensor, whatever ENABLE says. -/
def execHardTrip (th : ThNo) (s : State) : Host.Outcome State Fault Refusal :=
  .next (if s.board.power != .unpowered && (decide (th.val < 32) || decide (48 ≤ th.val)) &&
      !s.rdB THERMAL.FAILED th then s.hardTrip (s.hottest.getD th) else s)

/-- SHUTDOWN_GRACE_END (R447 steps 3 and 4). -/
def execShutdownGraceEnd (s : State) : Host.Outcome State Fault Refusal :=
  .next (if s.aon.shutdown then
      ({ s with board := { s.board with thermtrip := true }, aon := { s.aon with shutdown := false } }).fatal
        (uid 10 52) 0x2D s.aon.shutdownBy
    else s)

/-! ### Throttling (R444) -/

/-- CUT of the hottest zone in %, with how the fraction is rounded left free. -/
def State.cutNow (s : State) (hot : Option Nat) : Nat × State :=
  let inService := ((List.range 32).filter (fun i => !s.rdB THERMAL.FAILED i)).length
  let max_ := s.inf LEDGER.CUT_MAX 52
  if inService < 16 then (max_, s)
  else match hot with
    | none => (0, s)
    | some h =>
      let e := s.temp h - s.limitC THERMAL.THROTTLE_C h
      if e ≤ 0 then (0, s)
      else
        let r := s.roundFree (s.inf LEDGER.SLOPE 52 * e.toNat) 16
        (min max_ r.1, r.2)

/-- THROTTLE_UPDATE (R444): every 100 µs. -/
def execThrottleUpdate (s : State) : Host.Outcome State Fault Refusal :=
  .next (if s.board.power == .unpowered then s
    else
      let hot := s.hottest
      let old := s.rd LEDGER.CUT 52
      let r := s.cutNow hot
      let s := r.2.wr LEDGER.CUT 52 r.1
      let s := match hot with | some h => s.wr LEDGER.HOTTEST 52 h | none => s
      let s := if old = 0 ∧ 0 < r.1 then s.report (uid 10 52) 0x2C 0 (hot.getD 0) else s
      if r.1 = 0 then s
      else if s.aon.cutTicks = 9 then
        ({ s with aon := { s.aon with cutTicks := 0 } }).incSat LEDGER.THROTTLE_MS 52 1
      else { s with aon := { s.aon with cutTicks := s.aon.cutTicks + 1 } })

/-- DIMM_SENSOR_READ (R369, R443, R446): the hottest DIMM sensor of a channel, in 0.25 °C; none when it has
not answered for 1 s and so counts as DIMM_THROTTLE_C + 5 °C. -/
def execDimmSensorRead (c : ChanNo) (reading : Option (BitVec 16)) (dramHot : Bool) (s : State) :
    Host.Outcome State Fault Refusal :=
  .next (if s.live && s.unitPresent c then
      let s : State := { s with aon := { s.aon with dimm := tset (fun _ => none) s.aon.dimm c reading } }
      let v := match reading with
        | some r => r.toInt
        | none => 4 * (Int.ofNat (s.inf LEDGER.DIMM_THROTTLE_C 52) + 5)
      if dramHot || decide (340 ≤ v) then s.refreshRate c true
      else if v < 332 then s.refreshRate c false
      else s
    else s)

/-! ### The life ledger (R458-R460) -/

/-- 2^(i/80) × 2^32 for i = 0-79 (log entry 12). -/
def pow2Tab : List Nat :=
  [4294967296, 4332342032, 4370042002, 4408070037, 4446428991, 4485121744, 4524151200, 4563520291, 4603231970, 4643289220]
  ++ [4683695048, 4724452486, 4765564595, 4807034461, 4848865197, 4891059943, 4933621868, 4976554165, 5019860059, 5063542800]
  ++ [5107605667, 5152051969, 5196885042, 5242108251, 5287724992, 5333738689, 5380152797, 5426970799, 5474196211, 5521832578]
  ++ [5569883475, 5618352511, 5667243324, 5716559583, 5766304992, 5816483285, 5867098228, 5918153621, 5969653298, 6021601125]
  ++ [6074001000, 6126856858, 6180172667, 6233952430, 6288200183, 6342919999, 6398115986, 6453792287, 6509953083, 6566602589]
  ++ [6623745059, 6681384781, 6739526083, 6798173330, 6857330924, 6917003306, 6977194957, 7037910394, 7099154176, 7160930901]
  ++ [7223245206, 7286101768, 7349505308, 7413460584, 7477972398, 7543045592, 7608685053, 7674895707, 7741682525, 7809050521]
  ++ [7877004752, 7945550319, 8014692369, 8084436093, 8154786724, 8225749546, 8297329886, 8369533116, 8442364657, 8515829978]

/-- 2^((T - 85) / 10) × 2^32 for T in 0.125 °C (R458). -/
def ageRate (t : Int) : Nat :=
  let e := t - 680
  let k := e / 80
  let m := pow2Tab.getD (e % 80).toNat 0
  if 0 ≤ k then m * 2 ^ k.toNat else m / 2 ^ (-k).toNat

/-- One equivalent hour in the accrual's units: 1/(140 × 3,600 × 2^32) h (R458). -/
def equivUnit : Nat := 140 * 3600 * 2 ^ 32

/-- LIFE_USED and REMAIN_H brought up to date (R459). -/
def State.lifeUp (s : State) : State :=
  let used := min 10000 (max (s.rd LEDGER.EQUIV_H 52 * 10000 / 350640) (s.rd LEDGER.RO_DRIFT 52 * 20))
  let recent := s.rd LEDGER.RECENT_EQ 52
  let remain := if recent = 0 then 0xFFFFFFFF else min 0xFFFFFFFF ((10000 - used) * 350640 * 720 / (100 * recent))
  (s.wr LEDGER.LIFE_USED 52 used).wr LEDGER.REMAIN_H 52 remain

/-- The ledger runs: it has been loaded at power-on step 6 (R460). -/
def State.ledgerRuns (s : State) : Bool :=
  (s.board.power == .poweringOn || s.board.power == .running) && decide (6 ≤ s.board.step)

/-- The logic junction temperature (R442); with no on-die sensor in service the spec states none, and it is free. -/
def State.junction (s : State) : Int :=
  match (List.range 32).filter (fun i => !s.rdB THERMAL.FAILED i) with
  | [] => (s.fresh.truncate 16 : BitVec 16).toInt
  | h :: t => t.foldl (fun m i => max m (s.temp i)) (s.temp h)

/-- LEDGER_SECOND (R458). -/
def execLedgerSecond (util : BitVec 7) (s : State) : Host.Outcome State Fault Refusal :=
  .next (if s.ledgerRuns then
      let t := s.junction
      let s := if (List.range 32).all (fun i => s.rdB THERMAL.FAILED i) then s.took else s
      let b := (min 31 (max 0 ((t + 320) / 40))).toNat
      let n := tget (fun _ => 0) s.aon.binSec b + 1
      let s := if n = 3600 then s.incSat (LEDGER.BIN_H b) 52 1 else s
      let amt := ageRate t * (70 + util.toNat)
      let acc := s.aon.equivAcc + amt
      let s := s.incSat LEDGER.EQUIV_H 52 (acc / equivUnit)
      let hour := s.aon.hourAcc + amt
      let endHour := decide (s.aon.ledgerSec = 3599)
      let aon : Aon := { s.aon with
        binSec := tset (fun _ => 0) s.aon.binSec b (n % 3600)
        equivAcc := acc % equivUnit
        hourAcc := if endHour then 0 else hour
        ledgerSec := if endHour then 0 else s.aon.ledgerSec + 1
        recent := if endHour then (hour :: s.aon.recent).take 720 else s.aon.recent }
      let s : State := { s with aon := aon }
      (s.wr LEDGER.RECENT_EQ 52 (min 0xFFFFFFFF ((s.aon.recent.sum + s.aon.hourAcc) * 100 / equivUnit))).lifeUp
    else s)

/-- AGEING_READ (R458): once a day. -/
def execAgeingRead (drift : BitVec 16) (s : State) : Host.Outcome State Fault Refusal :=
  .next (if s.ledgerRuns then (s.wr LEDGER.RO_DRIFT 52 drift.toNat).lifeUp else s)

/-- LEDGER_WRITE (R460): the hourly record, or its failure. -/
def execLedgerWrite (ok : Bool) (s : State) : Host.Outcome State Fault Refusal :=
  .next (if s.ledgerRuns then
      if ok then
        let q := s.aon.ledgerSeq + 1
        (({ s with aon := { s.aon with ledgerSeq := q } }).wr LEDGER.LEDGER_OK 52 1).send (.flashWrite q)
      else s.wr LEDGER.LEDGER_OK 52 0
    else s)

end Sys2Proof.Machine
end

