-- ==== Sys2Proof/Machine/Traffic.lean ====
section
/-! DEFINITION. Tollgates and roundabouts (R386-R413). -/
namespace Sys2Proof.Machine

/-! ### Commit points -/

/-- Every store to entries of a table that satisfy a test reaches its commit point (R168). -/
def State.commitTbl (s : State) (tbl : Nat) (ok : Nat → Bool) : State :=
  { s with uncommitted := s.uncommitted.filter (fun u => ¬ (u.tbl = tbl ∧ ok u.idx = true)) }

/-! ### Tollgate settings (R410, R411) -/

/-- A TOLL field of a tollgate's class, and its INDEX: the internal tollgates are entries 1 to 3, shifted. -/
def tollFld (f : Fld) (g c : Nat) : Fld × Nat := if g < 32 then (f, 8 * g + c) else (f.internal, g - 31)

/-- A field of a tollgate's class. -/
def State.tollRd (s : State) (f : Fld) (g c : Nat) : Nat := s.rd (tollFld f g c).1 (tollFld f g c).2

/-- A field of a tollgate's class replaced. -/
def State.tollWr (s : State) (f : Fld) (g c v : Nat) : State := s.wr (tollFld f g c).1 (tollFld f g c).2 v

/-- Classes of a tollgate: all eight at a head; 6, 1 and 6 at the internal ports (R386). -/
def tollClasses (g : Nat) : List Nat := if g < 32 then List.range 8 else if g = 33 then [1] else [6]

/-- The tollgates there are: heads that exist and the internal ports (R389). -/
def State.tollgates (s : State) : List Nat := (List.range 35).filter (fun g => decide (32 ≤ g) || s.headExists g)

/-- 64 bytes, and one unit of 0.1 GB/s over 64 ns, as token counts. -/
def tok64 : Nat := 204800
/-- See `tok64`. -/
def tokRate : Nat := 20480

/-! ### One interval (R392-R395, R399) -/

/-- The level L (R392); how a mean's fraction is rounded is left open (log entry 2). -/
def State.tollLevel (s : State) : Nat × State :=
  let us := (List.range 28).filter (fun u => s.rd MEMCH.DELIVERABLE u ≠ 0)
  if s.infB TOLLDEV.LEVEL_MODE 0 then ((us.map (fun u => s.rd MEMCH.QLEVEL u)).foldl max 0, s)
  else
    let sum := fun (l : List Nat) => (l.map (fun u => s.rd MEMCH.QLEVEL u)).sum
    let h := us.filter (fun u => 24 ≤ u)
    let d := us.filter (fun u => u < 24)
    let a := (sum h, max 1 h.length)
    let b := (sum d, max 1 d.length)
    let m := if a.1 * b.2 < b.1 * a.2 then b else a
    s.roundFree m.1 m.2

/-- The throttle fraction at level L, in units of 0.5 % (R393). -/
def State.tollF (s : State) (l : Nat) : Nat :=
  let t := s.inf TOLLDEV.THROTTLE_LEVEL 0
  if l ≤ t then 0 else min (2 * s.inf TOLLDEV.FMAX 0) (s.inf TOLLDEV.SLOPE 0 * (l - t))

/-- Bytes admitted of a class in the last 16 intervals, the running one included. -/
def Toll.bytes (t : Toll) (c : Nat) : Nat := ((t.hist.take 16).map (fun h => h.getD c 0)).sum

/-- A list entry replaced, or added. -/
def putAt {α : Type} (l : List α) (i : Nat) (v : α) : List α := l.set i v

/-- A class of a tollgate over an interval (R393, R394). -/
def State.tollClass (s : State) (g f scale c : Nat) : State :=
  let t := s.toll g
  let bytes := t.bytes c
  let express := decide (g < 32) && c == 7
  let guar := s.tollRd TOLL.GUARANTEE g c
  let cap := s.tollRd TOLL.CAP g c
  let eff := (if express then cap else guar) * scale / 65536
  let above := decide (eff * 1024 < bytes * 10)
  let throttled := !express && decide (0 < f) && above
  let gain : Option Nat :=
    if express then some (eff * tokRate)
    else if throttled then
      let x := max (eff * tokRate) (bytes * (200 - f))
      some (if cap = 0 then x else min x (cap * tokRate))
    else if cap = 0 then none else some (cap * tokRate)
  let t := { t with
    tokens := putAt t.tokens c (match gain with
      | some x => min (t.tokens.getD c 0 + x) (max (2 * x) tok64)
      | none => t.tokens.getD c 0)
    noLimit := putAt t.noLimit c gain.isNone }
  let s := s.setToll g t
  let r := s.roundFree (bytes * 10) 1024
  let s := (r.2.tollWr TOLL.RATE g c (min 65535 r.1)).tollWr TOLL.G_EFF g c eff
  let s := match gain with
    | none => s.tollWr TOLL.LIMIT g c 0xFFFF
    | some x => let q := s.roundFree x tokRate
                q.2.tollWr TOLL.LIMIT g c (min 0xFFFF q.1)
  let s := s.tollWr TOLL.THROTTLED g c (if throttled then 1 else 0)
  if throttled then
    (if g < 32 then s.occur ⟨uid 0 g, 4, none, some c, none⟩ else s).fixed 533
  else s

/-- TOLL_INTERVAL (R392-R395, R399, R400): TOLL stores commit, and every class gets its limit. -/
def execTollInterval (s : State) : Host.Outcome State Fault Refusal :=
  .next (if !s.live || !s.time.locked then s
    else
      let clear := s.onesIn TOLLDEV.SHORTFALL 0
      let s := s.commitTbl 0x06 (fun _ => true)
      let s := if clear then s.clearW1c TOLLDEV.SHORTFALL 0 1 else s
      let booked := s.booked
      let old := s.rd TOLLDEV.SCALE 0
      let scale := scaleOf (s.rd TOLLDEV.BOOKABLE 0) booked
      let s := (s.wr TOLLDEV.BOOKED 0 booked).wr TOLLDEV.SCALE 0 scale
      let s := if old < 65536 ∧ scale = 65536 then s.report (memUid s.traffic.changed) 0x1C 0 0 else s
      let l := s.tollLevel
      let s := l.2.wr TOLLDEV.LEVEL 0 l.1
      let f := s.tollF l.1
      s.tollgates.foldl (fun s g =>
        let s := (tollClasses g).foldl (fun s c => s.tollClass g f scale c) s
        s.setToll g { s.toll g with hist := [0, 0, 0, 0, 0, 0, 0, 0] :: (s.toll g).hist.take 15 }) s)

/-- QUEUE_LEVEL_REPORT (R373). -/
def execQueueLevelReport (u : UnitNo) (level : BitVec 7) (s : State) : Host.Outcome State Fault Refusal :=
  .next (if s.live && s.rd MEMCH.DELIVERABLE u != 0 then
      s.wr MEMCH.QLEVEL u (if s.rd MEMCH.STATE u = 4 then 0 else min 100 level.toNat) else s)

/-! ### Admission (R389-R391, R394, R395) -/

/-- A request's admission counted in its class's measured rate. -/
def State.tollCount (s : State) (g c : Nat) : State :=
  let t := s.toll g
  let h := match t.hist with | a :: _ => a | [] => [0, 0, 0, 0, 0, 0, 0, 0]
  s.setToll g { t with hist := putAt h c (h.getD c 0 + 64) :: t.hist.drop 1 }

/-- A request of a head goes to its home slice: writebacks of the line's exclusive holder pass the roundabout
without a grant (R402), and while the slice is not ACTIVE they wait ahead of its requests (R213, R214). -/
def State.toSlice (s : State) (r : MemReq) : State :=
  let s := match r.src with
    | .host h ld _ _ =>
      if r.kind.isInv then s
      else s.occur ⟨uid 0 h, (if r.kind.isWrite then 2 else 1), some ld, some r.cls, some (r.line * 64, h)⟩
    | _ => s
  let hs := lineSlice r.line
  let s := s.wakeUnit (uid 2 hs)
  if s.holderTraffic r then
    if s.domActive (uid 2 hs) then (s.order r).settle else { s with coh := { s.coh with early := s.coh.early ++ [r] } }
  else s.setRb hs { s.rb hs with queue := (s.rb hs).queue ++ [(r.requester, { r with at_ := s.time.fclk })] }

/-- The first waiting request of a class, by place in the queue, when no earlier one is for its line. -/
def Toll.front (t : Toll) (c : Nat) : Option Nat :=
  match (t.queue.zipIdx).find? (fun x => x.1.cls == c) with
  | some x => if (t.queue.take x.2).any (fun y => y.line == x.1.line) then none else some x.2
  | none => none

/-- A class may admit now: no limit, tokens for 64 bytes, or 1,024 FCLK cycles of waiting (R394). -/
def Toll.may (t : Toll) (c now : Nat) : Bool :=
  t.noLimit.getD c true || decide (tok64 ≤ t.tokens.getD c 0) || decide (t.waitSince.getD c 0 + 1024 ≤ now)

/-- TOLLGATE_ADMIT (R390, R391, R394): one waiting request admitted, the highest class that may first. -/
def execTollgateAdmit (g : TollNo) (s : State) : Host.Outcome State Fault Refusal :=
  .next (
    let t := s.toll g
    let now := s.time.fclk
    let active := decide (32 ≤ g.val) || s.domActive (uid 0 g)
    if !s.live || !active || s.aon.shutdown then s
    else match ([7, 6, 5, 4, 3, 2, 1, 0].filter (fun c => t.may c now)).findSome? (fun c => (t.front c).map (fun i => (c, i))) with
      | none => s
      | some (c, i) =>
        match t.queue[i]? with
        | none => s
        | some r =>
          let q := t.queue.eraseIdx i
          let t := { t with
            queue := q
            tokens := if t.noLimit.getD c true then t.tokens else putAt t.tokens c (t.tokens.getD c 0 - tok64)
            waitSince := putAt t.waitSince c now }
          let s := (s.setToll g t).tollCount g c
          s.toSlice { r with throttled := s.tollRd TOLL.THROTTLED g c == 1 })

/-- A request arrives at its head's tollgate (R389, R390): writebacks and MemInv I of shared windows pass at once,
and the others wait, up to 256 of them. -/
def State.tollArrive (s : State) (h : Nat) (shared : Bool) (r : MemReq) : State :=
  let s := s.wakeUnit (uid 0 h)
  if shared && (r.kind.isWrite || r.kind.isInv) && r.meta_ == .invalid then (s.tollCount h r.cls).toSlice r
  else
    let t := s.toll h
    if 256 ≤ t.queue.length then s
    else
      let first := !t.queue.any (fun x => x.cls == r.cls)
      s.setToll h { t with
        queue := t.queue ++ [{ r with at_ := s.time.fclk }]
        waitSince := if first then putAt t.waitSince r.cls s.time.fclk else t.waitSince }

/-! ### Roundabouts (R401-R408) -/

/-- Unit ID of the unit behind a roundabout. -/
def rbUid (r : Nat) : Nat := if r < 16 then uid 2 r else memUid (r - 16)

/-- Window capacity (R403). -/
def State.rbCap (s : State) (r : Nat) : Nat :=
  if r < 16 then 2048 else if r < 40 then (if s.board.ckSlow then 819 else 1024) else 16384

/-- Requesters present at a roundabout (R401). -/
def State.present (s : State) (r : Nat) : List Nat :=
  (List.range 32).filter s.headExists ++ [32, 33, 34] ++ (if 16 ≤ r then [35] else [])

/-- INDEX of a requester's entry (R412). -/
def rbIdx (r q : Nat) : Nat := 64 * r + q

/-- CREDIT as an integer. -/
def State.credit (s : State) (r q : Nat) : Int := sint 32 (s.rd RB.CREDIT (rbIdx r q))

/-- One window boundary at a roundabout (R404). -/
def State.refillRb (s : State) (r : Nat) : State :=
  if !s.domActive (rbUid r) then s
  else
    let ps := s.present r
    let sum := (ps.map (fun q => s.rd RB.WEIGHT (rbIdx r q))).sum
    let cap := s.rbCap r
    let s := (s.wr RBOWN.CAP (rbIdx r 63) cap).wr RBOWN.WEIGHT_SUM (rbIdx r 63) sum
    ps.foldl (fun s q =>
      let i := rbIdx r q
      let f := if sum = 0 then 0 else cap * s.rd RB.WEIGHT i / sum
      ((s.wr RB.REFILL i f).wr RB.CEILING i (2 * f)).wr RB.CREDIT i
        (unsint 32 (min (s.credit r q + (f : Int)) ((2 * f : Nat) : Int)))) s

/-- ROUNDABOUT_REFILL (R404, R408): ROUNDABOUT stores commit at the window boundary, and credits are refilled. -/
def execRoundaboutRefill (s : State) : Host.Outcome State Fault Refusal :=
  .next (if s.live && s.time.locked then
      (List.range 44).foldl (fun s r => s.refillRb r) (s.commitTbl 0x07 (fun _ => true))
    else s)

/-- The request that a requester presents, by place in the queue (R405). -/
def Rb.presents (b : Rb) (q now : Nat) : Option Nat :=
  let mine := b.queue.zipIdx.filter (fun x => x.1.1 == q)
  let free := mine.filter (fun x => !mine.any (fun y => decide (y.2 < x.2) && y.1.2.line == x.1.2.line))
  match free.find? (fun x => decide (x.1.2.at_ + 2000 ≤ now)) with
  | some x => some x.2
  | none =>
    (free.foldl (fun b x => match b with
      | none => some x
      | some y => if y.1.2.cls < x.1.2.cls then some x else b) none).map Prod.snd

/-- Since when a requester has had a request raised and no grant. -/
def Rb.raised (b : Rb) (q : Nat) : Nat :=
  let first := (b.queue.filter (fun x => x.1 == q)).foldl (fun m x => min m x.2.at_) (2 ^ 64)
  max first (tget (fun _ => 0) b.lastGrant q)

/-- The place in the queue of the next grant, and whether it is a longest-wait grant (R405). -/
def State.rbPick (s : State) (r : Nat) : Option (Nat × Bool) :=
  let b := s.rb r
  let ps := ((s.present r).filterMap (fun q => (b.presents q s.time.fclk).map (fun i => (q, i))))
  let cls := fun (i : Nat) => match b.queue[i]? with | some x => x.2.cls | none => 0
  let best := fun (l : List (Nat × Nat)) (better : Nat → Nat → Bool) =>
    l.foldl (fun (m : Option (Nat × Nat)) x => match m with
      | none => some x
      | some y => if better x.1 y.1 then some x else m) none
  let full := fun (x y : Nat) => decide (s.credit r y < s.credit r x) ||
    (s.credit r y == s.credit r x && decide (b.raised x < b.raised y))
  if s.inf RBOWN.LONG_N (rbIdx r 63) ≤ b.since + 1 then
    (best ps (fun x y => decide (b.raised x < b.raised y))).map (fun x => (x.2, true))
  else
    let ex := ps.filter (fun x => cls x.2 == 7)
    (best (if ex.isEmpty then ps else ex) full).map (fun x => (x.2, false))

/-- The unit behind a roundabout can take a request (R403, R214, R363). -/
def State.rbTakes (s : State) (r : Nat) : Bool :=
  s.domActive (rbUid r) &&
  (if r < 16 then decide ((s.coh.trackers.filter (fun t => lineSlice t.line == r)).length < 1024)
   else
     let u := r - 16
     (s.rd MEMCH.STATE u == 3 || s.rd MEMCH.STATE u == 5) &&
     decide (entriesOf u ((s.chan u).rq.map (fun x => x.addr)) < (if u < 24 then 96 else 1024)))

/-- A granted request passes its roundabout (R405). -/
def State.rbPass (s : State) (r : Nat) (q : MemReq) : State :=
  if r < 16 then (s.order q).settle
  else
    let u := r - 16
    let c := s.chan u
    s.setChan u { c with rq := c.rq ++ [⟨q, q.addr % 2 ^ 34, s.time.fclk⟩] }

/-- ROUNDABOUT_GRANT (R403-R406): one grant, when some request is presented and the unit can take it. -/
def execRoundaboutGrant (r : RbNo) (s : State) : Host.Outcome State Fault Refusal :=
  .next (if !s.live || !s.rbTakes r then s
    else match s.rbPick r with
    | none => s
    | some (i, long) =>
      let b := s.rb r
      match b.queue[i]? with
      | none => s
      | some (q, req) =>
        let s := s.setRb r { queue := b.queue.eraseIdx i, since := if long then 0 else b.since + 1,
                             lastGrant := tset (fun _ => 0) b.lastGrant q s.time.fclk }
        let k := rbIdx r q
        let floor : Int := -(s.rbCap r : Int)
        let s := (s.wr RB.GRANTS k (s.rd RB.GRANTS k + 1)).wr RB.CREDIT k
          (unsint 32 (max floor (s.credit r q - 1)))
        let ld := match req.src with | .host _ ld _ _ => some ld | _ => none
        let s := s.occur ⟨rbUid r, 0x0B, ld, some req.cls, some (req.line * 64, q)⟩
        s.rbPass r req)

end Sys2Proof.Machine
end

