-- ==== Sys2Proof/Machine/HostMem.lean ====
section
/-! DEFINITION. CXL.mem requests of hosts and the head checks (R176-R187, R193, R196). -/
namespace Sys2Proof.Machine

/-- The decoder of an LD that an HPA falls in (R178, R184 step 4). -/
def State.decoderAt (s : State) (ld hpa : Nat) : Option Nat :=
  (List.range 4).find? (fun n =>
    let d := s.decoder ld n
    d.committed && decide (d.base ≤ hpa) && decide (hpa < d.base + d.size))

/-- The LD address of an HPA, with interleave removed (R178). -/
def Decoder.ldAddr (d : Decoder) (hpa : Nat) : Nat :=
  let off := hpa - d.base
  d.ldBase + off / d.gran / d.ways * d.gran + off % d.gran

/-- The interleave-way bits of an HPA (R498). -/
def Decoder.wayOf (d : Decoder) (hpa : Nat) : Nat := (hpa - d.base) / d.gran % d.ways

/-- RESPONSE of a request's violation (R194): poison to a read, drop otherwise. -/
def dropCode (k : Req) : Nat :=
  match k with
  | .read => 2 | .readData => 2 | .readFwd => 2 | _ => 1

/-- A request answered at the head with a violation (R184, R186). -/
def State.headRefuse (s : State) (r : MemReq) (code : Nat) : State :=
  (s.violateReq r code (dropCode r.kind)).refuse r

/-- The traffic an isolated head may still send for a line it is recorded for (R196). -/
def State.isoTraffic (s : State) (r : MemReq) : Bool := s.holderTraffic r || s.keptTraffic r

/-- A request's device line, class, KeyID and window by its decoders and tag, or the violation that stops it. -/
inductive Mapped where
  | ok (dec win line cls keyId : Nat) (badClass : Bool)
  | bad (code cls keyId : Nat) (badClass : Bool)
deriving DecidableEq, Repr

/-- Steps 4 to 7 of R184. -/
def State.mapReq (s : State) (ld hpa : Nat) : Mapped :=
  match s.decoderAt ld hpa with
  | none => .bad 2 0 0 false
  | some n =>
    let a := (s.decoder ld n).ldAddr hpa
    let sz := s.inf TAG.LD_SIZE_LOG2 ld
    let k := s.inf TAG.KEYID_WIDTH ld
    let c := s.inf TAG.CLASS_WIDTH ld
    let dflt := s.inf TAG.DEFAULT_CLASS ld
    let tagCls := bitsOf a (sz + k) c
    let allowed := c == 0 || bitOf (s.inf TAG.CLASS_ALLOW ld) tagCls
    let cls := if c ≠ 0 ∧ allowed = true then tagCls else dflt
    let keyId := if k = 0 then s.inf TAG.DEFAULT_KEYID ld else bitsOf a sz k
    if (s.keySlot ld keyId).isNone then .bad 4 cls keyId (!allowed)
    else match s.ldWindow ld (a % 2 ^ sz) with
      | none => .bad 3 cls keyId (!allowed)
      | some (w, d) =>
        if s.pclass (d / 2 ^ 21) = .unoffered then .bad 3 cls keyId (!allowed)
        else .ok n w (d / 64) cls keyId (!allowed)

/-- An express request arrives while the link is narrower, or is being made so (R188, R189). -/
def State.expressArrives (s : State) (h cls : Nat) : State :=
  if cls = 7 ∧ ((s.link h).width ≠ (s.link h).trained ∨ (s.link h).l0p ≠ .stable) then
    (s.setLink h { s.link h with express := true }).expressWidth h
  else s

/-- A CXL.mem request at its head: the checks of R184 in their order, then the tollgate. -/
def State.hostReq (s : State) (ld : Nat) (kind : Req) (mv : MetaVal) (hpa : BitVec 64) (tag : BitVec 16)
    (data : BitVec 512) (mask : BitVec 64) (poisoned : Bool) (dec : Decode := .clean) : State :=
  let h := ld / 16
  let k := s.link h
  if !s.live || !k.up || !k.cxl || !s.ldExists ld then s
  else
    let r0 : MemReq := { src := .host h ld tag hpa, kind := kind, mv := mv, line := 0, key := 0, cls := 0, data := data,
                         mask := mask, poison := poisoned, throttled := false, at_ := s.time.fclk, dec := dec }
    if !s.board.active then s.headRefuse r0 1
    else
      let iso := s.rdB PORT.ISOLATED h
      if mv = .reserved then s.headRefuse r0 (if iso then 0x0A else 8)
      else match s.mapReq ld hpa.toNat with
        | .bad code cls keyId badClass =>
          let r := { r0 with cls := cls, keyId := keyId }
          if iso then s.headRefuse r 0x0A
          else (if badClass then s.violateReq r 6 5 else s).headRefuse r code
        | .ok n w line cls keyId badClass =>
          let r := { r0 with cls := cls, keyId := keyId, line := line, key := (s.keySlot ld keyId).getD 0 }
          if iso && !s.isoTraffic r then s.headRefuse r 0x0A
          else
            let d := s.decoder ld n
            let s := if d.way.isNone then s.setDecoder ld n { d with way := some (d.wayOf hpa.toNat) } else s
            let s := if badClass then s.violateReq r 6 5 else s
            let shared := s.infB WINDOW.TYPE w
            if shared && !(k.flit256 && d.bi) then s.headRefuse r 7
            else if shared && s.lineClosed line && !s.keptTraffic r then s.refuse r
            else
              let s := if poisoned && kind.isWrite then s.violateReq r 0x0B 6 else s
              (s.expressArrives h cls).tollArrive h shared r

/-- MEM_RD (R209, R211): a read, held as its MetaValue asks in a shared group. -/
def execMemRd (ld : LdNo) (mv : MetaVal) (hpa : BitVec 64) (tag : BitVec 16) (s : State) :
    Host.Outcome State Fault Refusal := .next (s.hostReq ld .read mv hpa tag 0 0 false)

/-- MEM_RD_DATA (R209): a read to hold shared. -/
def execMemRdData (ld : LdNo) (mv : MetaVal) (hpa : BitVec 64) (tag : BitVec 16) (s : State) :
    Host.Outcome State Fault Refusal := .next (s.hostReq ld .readData mv hpa tag 0 0 false)

/-- MEM_RD_FWD (R209): a read by its MetaValue. -/
def execMemRdFwd (ld : LdNo) (mv : MetaVal) (hpa : BitVec 64) (tag : BitVec 16) (s : State) :
    Host.Outcome State Fault Refusal := .next (s.hostReq ld .readFwd mv hpa tag 0 0 false)

/-- MEM_SPEC_RD (R176): no response, and no coherence effect. -/
def execMemSpecRd (ld : LdNo) (mv : MetaVal) (hpa : BitVec 64) (tag : BitVec 16) (s : State) :
    Host.Outcome State Fault Refusal := .next (s.hostReq ld .specRd mv hpa tag 0 0 false)

/-- MEM_INV (R185, R209): ownership or release without data. -/
def execMemInv (ld : LdNo) (mv : MetaVal) (hpa : BitVec 64) (tag : BitVec 16) (s : State) :
    Host.Outcome State Fault Refusal := .next (s.hostReq ld .inv mv hpa tag 0 0 false)

/-- MEM_INV_NT (R185, R209). -/
def execMemInvNt (ld : LdNo) (mv : MetaVal) (hpa : BitVec 64) (tag : BitVec 16) (s : State) :
    Host.Outcome State Fault Refusal := .next (s.hostReq ld .invNt mv hpa tag 0 0 false)

/-- MEM_WR (R19, R209): a write of a whole line. -/
def execMemWr (ld : LdNo) (mv : MetaVal) (hpa : BitVec 64) (tag : BitVec 16) (data : BitVec 512) (poisoned : Bool)
    (s : State) : Host.Outcome State Fault Refusal :=
  .next (s.hostReq ld .write mv hpa tag data (BitVec.allOnes 64) poisoned)

/-- MEM_WR_PTL (R19, R209): a write of the bytes its mask names; `p.dec` is how the read it needs decodes. -/
def execMemWrPtl (ld : LdNo) (mv : MetaVal) (hpa : BitVec 64) (tag : BitVec 16) (data : BitVec 512) (mask : BitVec 64)
    (p : PtlWrite) (s : State) : Host.Outcome State Fault Refusal :=
  .next (s.hostReq ld .writePtl mv hpa tag data mask p.poisoned p.dec)

end Sys2Proof.Machine
end

