-- ==== Sys2Proof/Machine/Place.lean ====
section
/-! DEFINITION. Region-table blocks, subtree copies, evacuation of bays, and the store rows of shared windows
(R183, R207, R228, R229, R238, R241, R271-R275, R334). -/
namespace Sys2Proof.Machine

/-! ### Region-table blocks (R238) -/

/-- The units for a block's three copies, or none when they cannot all be placed. -/
def State.blockUnits (s : State) : Option (List Nat) :=
  s.mapPair.bind (fun (x : Nat × Nat) =>
    (s.bestUnit ((tierUnits true).filter (fun u => u ≠ x.1 ∧ u ≠ x.2))).map (fun c => [x.1, x.2, c]))

/-- A block's copies taken, when it is not held. -/
def State.takeBlock (s : State) (b : Nat) : Option State :=
  if s.plc.blocks.any (fun x => x.1 == b) then some s
  else match s.blockUnits with
    | none => none
    | some us =>
      let r := us.foldl (fun (a : State × List Nat) u => let m := a.1.takeMap u; (m.1, a.2 ++ [m.2])) (s, [])
      some { r.1 with plc := { r.1.plc with blocks := tset (fun _ => []) r.1.plc.blocks b r.2 } }

/-- The blocks of a device range of regions taken, or none when they cannot all be (R181). -/
def State.takeBlocks (s : State) (base size : Nat) : Option State :=
  (List.range ((base + size + 255) / 256 - base / 256)).foldl (fun (o : Option State) i => match o with
    | some s => s.takeBlock (base / 256 + i)
    | none => none) (some s)

/-! ### Subtree copies (R334) -/

/-- Frames of one copy of a unit's subtree (R241): its nodes of levels 1 to 3, 64 bytes each. -/
def subtreeFrames (frames : Nat) : Nat :=
  let n1 := (frames + 63) / 64
  let n2 := (n1 + 63) / 64
  let n3 := (n2 + 63) / 64
  (n1 + n2 + n3 + 63) / 64

/-- The two units that hold the copies of a unit's subtree, neither of them the unit itself (R241, R334). Where a single far
channel is left for them, the second copy takes a stack (DESIGN CHOICE, log entry 79). -/
def State.subtreeUnits (s : State) (u : Nat) : List Nat :=
  let n := subtreeFrames (s.pool u).frames
  let able := fun (l : List Nat) => l.filter (fun v => v != u && s.allocatable v && decide (n ≤ s.freeOf v))
  let far := fun (start : Nat) => able ((List.range 24).map (fun i => (start + i) % 24))
  let hbm := able ((List.range 4).map (fun i => 24 + (u - 24 + (if u < 24 then i else i + 1)) % 4))
  let own := fun (v : Nat) => decide (u < 24) && v / 2 == u / 2
  let first := fun (l : List Nat) (tests : List (Nat → Bool)) => tests.findSome? (fun t => l.find? t)
  match first (far (if u < 24 then (u + 2) % 24 else 6 * (u - 24))) [fun v => !own v, fun _ => true] with
  | none => hbm.take 2
  | some a =>
    match first (far ((a + 1) % 24)) [fun v => v / 2 != a / 2 && !own v, fun v => v / 2 != a / 2, fun v => v != a] with
    | some b => [a, b]
    | none => a :: hbm.take 1

/-- The subtree copies placed anew over the units in service (R334). Units that join do so in the same step, so a joining
unit's copies are in place before any of its frames is handed out (R241). -/
def State.placeSubtrees (s : State) : State :=
  let s := (List.range 28).foldl (fun s u => if (s.pool u).subtree = 0 then s else s.setPool u { s.pool u with subtree := 0 }) s
  (List.range 28).foldl (fun s u =>
    if (s.pool u).inPool then
      (s.subtreeUnits u).foldl (fun s v =>
        s.setPool v { s.pool v with subtree := (s.pool v).subtree + subtreeFrames (s.pool u).frames }) s
    else s) s

/-- Frames that hold subtree copies, device-wide. -/
def State.subtreeTotal (s : State) : Nat := ((List.range 28).map (fun u => (s.pool u).subtree)).sum

/-- The two copies of every subtree find their places with some units draining (R271). -/
def State.subtreesFit (s : State) (us : List Nat) : Bool :=
  let t := us.foldl (fun s u => s.setPool u { s.pool u with present := false }) s
  t.placeSubtrees.subtreeTotal == 2 * ((List.range 28).map (fun u =>
    if (s.pool u).inPool then subtreeFrames (s.pool u).frames else 0)).sum

/-! ### Evacuation (R271-R273, R455) -/

/-- The channels of a bay. -/
def bayUnits (b : Nat) : List Nat := [2 * b, 2 * b + 1]

/-- Frames allocated on a unit, retired ones not counted. -/
def State.allocatedOn (s : State) (u : Nat) : List Nat :=
  (s.plc.frames.filter (fun f => f.1 / 2 ^ 28 == u && f.2.use != .free && f.2.use != .retired)).map Prod.fst

/-- An evacuation may be admitted (R271): what the bay holds, map frames included, fits outside it beside RESERVE and FLOOR, and
every map frame copy finds a place on a unit that holds no other copy of its structure. -/
def State.evacOk (s : State) (b : Nat) : Bool :=
  let us := bayUnits b
  let outside := (((List.range 28).filter (fun u => ¬ us.contains u)).map s.freeOf).sum
  let held := us.flatMap s.allocatedOn
  let maps := held.filter (fun k => (s.frame k).use == .map)
  let trees := (us.map (fun u => (s.pool u).subtree)).sum
  decide (held.length + trees + s.reserve + s.inf POOL.FLOOR 0 ≤ outside) && s.subtreesFit us &&
  maps.all (fun k => (List.range 28).any (fun u => !us.contains u && !(s.mapSibs k).contains u && decide (0 < s.freeOf u)))

/-- A set of units as a word of 28 bits. -/
def unitBits (us : List Nat) : Nat := (us.map (fun u => 2 ^ u)).sum

/-- An evacuation begins (R271, R272): the channels drain, RETIRE is set on their pages, and their map frames are
placed elsewhere. -/
def State.evacuateBay (s : State) (b : Nat) : State :=
  let us := bayUnits b
  let s := s.withMarks (fun s => s.wr PLACE.DRAINING (placeCtl 0)
    (BitVec.ofNat 28 (s.rd PLACE.DRAINING (placeCtl 0)) ||| BitVec.ofNat 28 (unitBits us)).toNat)
  let ps := (us.flatMap s.pagesOn).filter (fun p => !(s.page p).retire)
  let s := ps.foldl (fun s p => s.setPage p { s.page p with retire := true }) s
  let s := { s with aon := { s.aon with evac := tset (fun _ => []) s.aon.evac b ps } }
  let maps := (us.flatMap s.allocatedOn).filter (fun k => (s.frame k).use == .map)
  let s := s.withMarks (fun s => maps.foldl (fun s k => s.remap k) s)
  ((s.wr BAY.STATE b 7).placeSubtrees).settle

/-- EVACUATE of the BAY table (R271, R455): its status, and its effect. -/
def State.evacuate (s : State) (b : Nat) : Nat × State :=
  if s.rd BAY.STATE b ≠ 6 then (5, s)
  else if !s.evacOk b then (7, s)
  else (0, s.evacuateBay b)

/-- CANCEL of the BAY table (R273, R455). -/
def State.cancelEvac (s : State) (b : Nat) : State :=
  if s.rd BAY.STATE b ≠ 7 then s
  else
    let us := bayUnits b
    let mask := BitVec.ofNat 28 (2 ^ 28 - 1 - unitBits us)
    let s := s.withMarks (fun s => (s.wr PLACE.DRAINING (placeCtl 0)
      (BitVec.ofNat 28 (s.rd PLACE.DRAINING (placeCtl 0)) &&& mask).toNat).wr PLACE.DRAINED (placeCtl 0)
      (BitVec.ofNat 28 (s.rd PLACE.DRAINED (placeCtl 0)) &&& mask).toNat)
    let ps := tget (fun _ => []) s.aon.evac b
    let s := ps.foldl (fun s p =>
      let x := s.page p
      if x.unit.any (fun u => us.contains u) && !(s.frame (locFrame x.loc)).retiring then s.setPage p { x with retire := false }
      else s) s
    let s := { s with aon := { s.aon with evac := tset (fun _ => []) s.aon.evac b [] } }
    ((s.wr BAY.STATE b 6).placeSubtrees).settle

/-- EVACUATE (R271). -/
def execEvacuate (w : WfNo) (t : ThrNo) (d : Reg) (b : BayNo) (s : State) : Host.Outcome State Fault Refusal :=
  .next (ownerStore w t d (fun s => s.evacuate b) s)

/-- CANCEL (R273): admitted in every state. -/
def execCancel (w : WfNo) (t : ThrNo) (d : Reg) (b : BayNo) (s : State) : Host.Outcome State Fault Refusal :=
  .next (ownerStore w t d (fun s => (0, s.cancelEvac b)) s)

/-! ### Shared windows: REOPEN, RECLAIMED, disabling (R183, R228, R229, R233) -/

/-- The group a SNOOP entry's store acts on: its lowest member. -/
def State.snoopGroup (s : State) (win : Nat) : Option Nat := (s.group win).head?

/-- A store of REOPEN to a SNOOP entry (R229, R233). -/
def State.reopenStore (s : State) (win : Nat) : State :=
  if s.infB WINDOW.ENABLE win then
    match s.snoopGroup win with
    | some g => (s.reopen g).settle
    | none => s
  else s

/-- REOPEN (R229). -/
def execReopen (w : WfNo) (t : ThrNo) (d : Reg) (win : BitVec 12) (s : State) : Host.Outcome State Fault Refusal :=
  .next (ownerStore w t d (fun s => (0, s.reopenStore win.toNat)) s)

/-- RECLAIMED bits cleared by the owner, with the heads' TIMED_OUT bits (R228). -/
def State.clearReclaimed (s : State) (win : Nat) (mask : BitVec 32) : State :=
  if s.infB WINDOW.ENABLE win then
    match s.snoopGroup win with
    | some g =>
      let now := BitVec.ofNat 32 (SNOOP.RECLAIMED.get (s.setNow 0x11 g SNOOP.RECLAIMED.word))
      let m := mask &&& BitVec.ofNat 32 (s.rd SNOOP.RECLAIMED g) &&& ~~~ now
      ((s.setGroup SNOOP.RECLAIMED g (BitVec.ofNat 32 (s.rd SNOOP.RECLAIMED g) &&& ~~~ m).toNat).setGroup
        SNOOP.TIMED_OUT g (BitVec.ofNat 32 (s.rd SNOOP.TIMED_OUT g) &&& ~~~ m).toNat).pump.settle
    | none => s
  else s

/-- RECLAIMED_CLEAR (R228). -/
def execReclaimedClear (w : WfNo) (t : ThrNo) (d : Reg) (win : BitVec 12) (mask : BitVec 32) (s : State) :
    Host.Outcome State Fault Refusal :=
  .next (ownerStore w t d (fun s => (0, s.clearReclaimed win.toNat mask)) s)

/-- What a read of a snoop-filter entry finds, by the scrub or by a request (R207). How DETAIL packs set and way is a
free value (log entry 2). -/
def State.sfRead (s : State) (hs : Nat) (dec : Decode) : State :=
  match dec with
  | .corrected _ => ((s.incSat HSET.CORRECTED (4096 + hs) 1).took).report (uid 2 hs) 0x01 0 s.fresh.toNat
  | .uncorrectable => s.took.fatal (uid 2 hs) 0x1A s.fresh.toNat
  | _ => s

/-- One more entry read in a slice's scrub pass, which starts again when every entry has been read (R207). -/
def State.scrubStep (s : State) (hs : Nat) : State :=
  let n := (tget (fun _ => 0) s.coh.scrubbed hs + 1) % 262144
  { s with coh := { s.coh with scrubbed := tset (fun _ => 0) s.coh.scrubbed hs n } }

/-- SNOOP_FILTER_SCRUB (R205, R207): what a read at the snoop filter finds. A request's read that finds an error, and a
parity error of a set's pseudo-LRU state, come with this row too, as the table has none for them (log entry 78). -/
def execSnoopFilterScrub (hs : SliceNo) (set : BitVec 14) (_way : BitVec 4) (ev : SfRead) (s : State) :
    Host.Outcome State Fault Refusal :=
  .next (if !s.live || !s.domActive (uid 2 hs) then s
    else match ev with
    | .scrub dec => (s.scrubStep hs).sfRead hs dec
    | .request dec => s.sfRead hs dec
    | .treeParity => s.plruReset hs set.toNat)

/-- A window's ENABLE goes to 0 for good (R183). -/
def State.windowOff (s : State) (win : Nat) : State :=
  (((s.wr WINDOW.ENABLE win 0).wr WINDOW.STATE win 0).extEvalAll).settle

/-- A head leaves the entries of a range without snoops (R229). -/
def State.leaveRange (s : State) (win h : Nat) : State :=
  (s.linesHeldIn (s.inf WINDOW.DEV_BASE win) (s.inf WINDOW.SIZE win) h).foldl
    (fun s l => s.setEntry l ((s.entry l).without h)) s

/-- A store of ENABLE 0 begins to take effect (R183): a private window's at once, a shared group's member's when
its lines have been given up. -/
def State.disableWindow (s : State) (win : Nat) : State :=
  if !s.infB WINDOW.ENABLE win then s.wr WINDOW.ENABLE win 0
  else match s.snoopGroup win with
  | none => s.windowOff win
  | some g =>
    let h := ldHead (winLd win)
    let s' := s.wr WINDOW.STATE win 3
    if s.closedRoad g then s'.leaveRange win h
    else
      s'.invalidate (s'.linesHeldIn (s'.inf WINDOW.DEV_BASE win) (s'.inf WINDOW.SIZE win) h) (.disable win) true

/-- The status of a store to a WINDOW entry before its own checks (R171, R181): BUSY while it is disabling, ABSENT under
a head that does not exist. -/
def State.winStatus (s : State) (win : Nat) : Nat :=
  if s.winState win = 3 then 6 else if !s.headExists (ldHead (winLd win)) then 9 else 0

/-- WINDOW_DISABLE (R183). -/
def execWindowDisable (w : WfNo) (t : ThrNo) (d : Reg) (win : BitVec 12) (s : State) : Host.Outcome State Fault Refusal :=
  .next (ownerStore w t d (fun s =>
    let st := s.winStatus win.toNat
    (st, if st = 0 then s.disableWindow win.toNat else s)) s)

/-- A disabling that is over takes effect; the entry of a window that leaves its group shows no TIMED_OUT bit any more
(R183, R225). -/
def State.disableDone (s : State) (win : Nat) : State :=
  let h := ldHead (winLd win)
  let s := s.wr SNOOP.TIMED_OUT win 0
  ((s.leaveRange win h).windowOff win).pump.settle

/-- WINDOW_DISABLE_COMPLETE (R183). -/
def execWindowDisableComplete (win : BitVec 12) (s : State) : Host.Outcome State Fault Refusal :=
  .next (let i := win.toNat
    if s.live && s.winState i == 3 && s.invalsOver (.disable i) then s.disableDone i else s)

/-- A snoop timed out (R224-R226); when that closes the road, the members that were disabling are done (R183, R226). -/
def State.timeoutRow (s : State) (h l : Nat) : State :=
  let first := !s.lineClosed l && !s.timedOut h l
  let t := (s.snoopTimeout h l).fixed 521
  match t.lineGroup l with
  | none => t.settle
  | some g =>
    if first && !t.infB SNOOP.DEAD_POLICY g then
      (((t.group g).filter (fun i => t.winState i == 3)).foldl (fun t i => t.disableDone i) t).settle
    else t.settle

/-- SNOOP_TIMEOUT (R224, R225). -/
def execSnoopTimeout (h : HeadNo) (dpa : BitVec 46) (s : State) : Host.Outcome State Fault Refusal :=
  .next (if s.live && (s.bisnp h (dpa.toNat / 64)).isSome then s.timeoutRow h (dpa.toNat / 64) else s)

end Sys2Proof.Machine
end

