-- ==== Sys2Proof/Machine/Memch.lean ====
section
/-! DEFINITION. Channel and stack controllers: command issue, reads and how they decode, refresh, retraining,
alerts, scrub, the correctable-error table's rows (R354-R385). -/
namespace Sys2Proof.Machine

/-! ### Queues (R363-R368) -/

/-- The write queue drains from WQ_HIGH until WQ_LOW (R364). -/
def State.drainNow (s : State) (u : Nat) : Bool :=
  let n := s.wqUsed u * 100
  if s.inf MEMCH.WQ_HIGH u * s.wqCap u ≤ n then true
  else if n ≤ s.inf MEMCH.WQ_LOW u * s.wqCap u then false
  else (s.chan u).draining

/-- The read that issues next (R364): in the oldest read's bank, one that waited 2 µs, else a row hit, else the
oldest. -/
def State.nextRead (s : State) (u : Nat) : Option Rd :=
  let c := s.chan u
  let now := s.time.fclk
  match c.rq with
  | [] => none
  | r :: _ =>
    let bank := (s.rowKey u r.addr).1
    let mine := c.rq.filter (fun x => (s.rowKey u x.addr).1 == bank)
    match mine.find? (fun x => decide (x.at_ + 2000 ≤ now)) with
    | some x => some x
    | none => match mine.find? (fun x => c.rowOpen (s.rowKey u x.addr) now) with
      | some x => some x
      | none => some r

/-- A read issued to DRAM. -/
def State.issueRead (s : State) (u : Nat) (r : Rd) : State :=
  let s := s.rowUse u r.addr
  let c := s.chan u
  let s := s.setChan u { c with rq := c.rq.erase r, inflight := some r }
  s.occur ⟨memUid u, 1, none, none, some (r.req.line * 64, r.req.requester)⟩

/-- DRAM_COMMAND_ISSUE (R364-R366): reads before writes, but for a draining write queue; in a 2DPC channel the
writes queued for the read's row issue before it. -/
def execDramCommandIssue (u : UnitNo) (s : State) : Host.Outcome State Fault Refusal :=
  .next (if !s.mayIssue u || (s.chan u).inflight.isSome then s
    else
      let s := s.setChan u { s.chan u with draining := s.drainNow u }
      let c := s.chan u
      let write := fun (s : State) => match c.nextWrite with | some w => s.issueWrite u w | none => s
      if c.draining then write s
      else match s.nextRead u with
        | some r =>
          let row := s.rowKey u r.addr
          let ordered := decide (u.val < 24) && s.rd MEMCH.DIMMS u == 2
          match (if ordered then c.wq.find? (fun w => !w.low && s.rowKey u w.addr == row) else none) with
          | some w => s.issueWrite u w
          | none => s.issueRead u r
        | none => write s)

/-! ### How a read decodes (R359-R362, R497, R21) -/

/-- A span that failed its check on a read (R21). -/
def State.spanFails (s : State) (r : MemReq) (k : Nat) (corrected : Bool) : State :=
  s.spanFault k (s.page (r.line / 64)).key (r.line / 64) (r.line % 64 / 4) corrected

/-- A line kept in the twin buffer, when it decoded: 128 lines, the oldest replaced (R354). -/
def State.keepTwin (s : State) (u l : Nat) : State :=
  let c := s.chan u
  if decide (24 ≤ u) || (s.raw (u * 2 ^ 34 + l)).bad then s
  else
    let q := c.twin.filter (· ≠ l) ++ [l]
    s.setChan u { c with twin := q.drop (q.length - 128) }

/-- A span kept in its unit's span read buffer: 64 of a channel, 256 of a stack (R325). -/
def State.keepSpan (s : State) (k span : Nat) : State :=
  let n := if frUnit k < 24 then 64 else 256
  let key := k * 16 + span
  let q := s.sealing.spans.filter (· ≠ key) ++ [key]
  let mine := q.filter (fun x => x / 16 / 2 ^ 28 == frUnit k)
  let q := if n < mine.length then (match mine.head? with | some o => q.filter (· ≠ o) | none => q) else q
  { s with sealing := { s.sealing with spans := q } }

/-- The outcome of a read of a page's line, for its requester (R362, R21). -/
def State.readDone (s : State) (u : Nat) (r : MemReq) (dec : Decode) : State :=
  let k := locFrame (r.addr / 2 ^ 34 * 2 ^ 31 + r.addr % 2 ^ 34 / 64 * 8)
  let l := r.addr % 2 ^ 34
  let p := r.line / 64
  let key := (s.page p).key
  let level := s.rd MEMCH.QLEVEL u
  let tagged := decide (2 ≤ s.mode key)
  let good := fun (s : State) (data : BitVec 512) =>
    let s := if tagged then (s.occur ⟨sealUid u, 2, none, none, some (r.line * 64, r.requester)⟩).keepSpan k (r.line % 64 / 4) else s
    (s.keepTwin u (if l % 2 = 0 then l + 1 else l - 1)).answerData r data false level
  match dec with
  | .uncorrectable => (s.ueFound u l 0x02).answerPoison r
  | .poisoned => s.answerPoison r
  | .clean =>
    if r.poison then s.answerPoison r
    else if r.ok then good s r.data
    else (s.spanFails r k false).answerPoison r
  | .corrected ds =>
    let s := s.ceFound u l (ds.map BitVec.toNat)
    if r.poison then s.answerPoison r
    else if r.ok then good s r.data
    else (s.spanFails r k true).answerPoison r
  | .wrong flip asClean =>
    let s := if asClean then s else s.miscorrect u l flip
    if r.poison then s.answerPoison r
    else if tagged then (s.spanFails r k (!asClean)).answerPoison r
    else good s (r.data ^^^ flip)

/-! ### What reads of metadata find (R21, R243, R335, R338) -/

/-- The reads on their way to DRAM or in flight that meet a condition answer poison. -/
def State.poisonReads (s : State) (hit : MemReq → Bool) : State :=
  let mark := fun (r : MemReq) => if hit r then { r with poison := true } else r
  let rd := fun (x : Rd) => { x with req := mark x.req }
  { s with
    traffic := { s.traffic with rbs := s.traffic.rbs.map (fun (x : Nat × Rb) =>
      (x.1, if x.1 < 16 then x.2 else { x.2 with queue := x.2.queue.map (fun y => (y.1, mark y.2)) })) }
    dram := { s.dram with chans := s.dram.chans.map (fun (x : Nat × Chan) =>
      (x.1, { x.2 with rq := x.2.rq.map rd, inflight := x.2.inflight.map rd })) } }

/-- The request reads a line of a frame. -/
def MemReq.ofFrame (r : MemReq) (k : Nat) : Bool := r.addr / 64 == frLine k 0 / 64

/-- Pages lost to a metadata error (R247, R338): reads of them on their way answer poison. -/
def State.losePagesTo (s : State) (ps : List Nat) (code : Nat) : State :=
  (s.poisonReads (fun r => ps.contains (r.line / 64))).losePages ps code

/-- The pages under a node of the tree: CIR pages whose leaf it covers (R333, R338). -/
def State.pagesUnder (s : State) (level idx : Nat) : List Nat :=
  (s.plc.pages.filter (fun q => q.2.unit.isSome && s.mode q.2.key == 3 &&
    leafIdx (locFrame q.2.loc) / 64 ^ level == idx)).map Prod.fst

/-- A counter block, slot counter set or leaf seal is uncorrectable (R21, R338): every page using it whose slot keeps a counter
is LOST, with one record. In mode NONE the block is rewritten as zero, which it is. -/
def State.leafLost (s : State) (k : Nat) (sealWord : Bool) : State :=
  let ps := (s.pagesAt k).filter (fun p => s.mode (s.page p).key != 0)
  let s := s.incSat MEMCH.UE_TOTAL (frUnit k) 1
  if ps.isEmpty ∨ (sealWord = true ∧ s.cirFrame k = false) then s
  else (s.losePagesTo ps 3).report treeUid 0x11 2 ps.length

/-- Both copies of a node are bad (R338): every CIR page under it is LOST with one record, and the node is rebuilt with zero
counters under its parent's version, incremented. Nodes below it are sealed anew under it (DESIGN CHOICE, log entry 83). -/
def State.nodeLost (s : State) (level idx : Nat) : State :=
  let ps := s.pagesUnder level idx
  let s := (s.losePagesTo ps 3).report treeUid 0x11 2 ps.length
  let s : State := { s with sealing := { s.sealing with
    dirty := s.sealing.dirty.filter (· ≠ (level, idx)), rebase := s.sealing.rebase.filter (· ≠ (level, idx)) } }
  (((s.setNode level idx Node.init).advance (level + 1) idx).remac level idx).resealChildren level idx

/-- A node fails its MAC on clean data (R338): an integrity failure of the access that needed it, the first under the node; its
reads answer poison, and the node is not kept. -/
def State.nodeFails (s : State) (level idx : Nat) : State :=
  let ps := s.pagesUnder level idx
  match ps with
  | [] => s
  | p :: _ => (s.poisonReads (fun r => ps.contains (r.line / 64))).integrity treeUid (p * 4096) (s.page p).key 3

/-- A leaf fails its seal on clean data (R338). -/
def State.leafFails (s : State) (k : Nat) : State :=
  match (s.pagesAt k).filter (fun p => s.mode (s.page p).key == 3) with
  | [] => s
  | p :: _ => (s.poisonReads (fun r => r.ofFrame k)).integrity treeUid (p * 4096) (s.page p).key 2

/-- An uncorrectable span tag word is as an uncorrectable line of its span (R338, R329). Where the verge holds it is not laid out,
so its LOC is a free value (log entry 2). -/
def State.tagLost (s : State) (k span : Nat) : State :=
  match (s.frame k).use with
  | .page p =>
    if s.mode (s.page p).key < 2 then s
    else ((s.took.incSat MEMCH.UE_TOTAL (frUnit k) 1).report (memUid (frUnit k)) 0x02 1 s.fresh.toNat).poisonReads
      (fun r => r.ofFrame k && r.line % 64 / 4 == span)
  | _ => s

/-- One copy of a node or of a map entry is uncorrectable (R243, R338): it is answered from another copy, and rewritten, off the
frame that the error retires (R379). -/
def State.copyBad (s : State) (unit code loc : Nat) : State :=
  let u := loc / 2 ^ 31
  ((s.incSat MEMCH.UE_TOTAL u 1).report unit code 0 loc).ueTable u (loc % 2 ^ 31 * 8)

/-- Every copy of a region's entry or sub-table is uncorrectable (R243): every page of the region goes LOST with code MAP. -/
def State.mapLost (s : State) (u r : Nat) : State :=
  (s.losePagesTo ((List.range 512).map (fun i => r * 512 + i)) 6).report (memUid u) 0x14 2 r

/-- What a read of metadata on a unit finds. -/
def State.metaRead (s : State) (u : Nat) (m : MetaRead) : State :=
  match m with
  | .leaf f sealWord => s.leafLost (frKey u f.toNat) sealWord
  | .leafSeal f => s.leafFails (frKey u f.toNat)
  | .tag f sp => s.tagLost (frKey u f.toNat) sp.toNat
  | .nodeCopy off => s.copyBad treeUid 0x12 (u * 2 ^ 31 + off.toNat)
  | .node l i => if 1 ≤ l.val then s.nodeLost l.val i.toNat else s
  | .nodeMac l i => if 1 ≤ l.val then s.nodeFails l.val i.toNat else s
  | .mapCopy off =>
    if (s.frame (locFrame (u * 2 ^ 31 + off.toNat))).use = .map then s.copyBad (memUid u) 0x15 (u * 2 ^ 31 + off.toNat) else s
  | .mapAll r => if s.plc.blocks.any (fun b => b.1 == r.toNat / 256) then s.mapLost u r.toNat else s

/-- DRAM_READ_COMPLETE (R362): the read in flight decodes, and its requester is answered with the data its slice ordered it for;
or a read of metadata finds an error (R21, R243, R338). -/
def execDramReadComplete (u : UnitNo) (ev : DramRead) (s : State) : Host.Outcome State Fault Refusal :=
  .next (if !s.live then s
    else match ev with
    | .metadata m => (s.metaRead u m).settle
    | .data dec =>
      match (s.chan u).inflight with
      | none => s
      | some r => ((s.setChan u { s.chan u with inflight := none }).readDone u r.req dec).settle)

/-! ### Unit states (R371, R376) -/

/-- A unit stops (R376): its pages go LOST with code CHANNEL, and it leaves the budget. -/
def State.stopUnit (s : State) (u cause : Nat) : State :=
  let s := s.setUnit u 6
  let r := s.dropUnit u 5
  let s := r.1.setPool u { r.1.pool u with present := true }
  ((s.report (memUid u) 0x07 2 (cause + r.2 * 2 ^ 8)).placeSubtrees).settle

/-- RESET of a STOPPED unit (R376, R427): training begins as at insertion. -/
def State.resetUnit (s : State) (u : Nat) : State :=
  ((s.setChan u Chan.init).setUnit u 1).endHandling (memUid u) [0x07]

/-- Recovery retraining begins (R371). -/
def State.recover (s : State) (u detail : Nat) : State :=
  if s.rd MEMCH.STATE u = 3 then
    let s := s.setChan u { s.chan u with alerts := [], crcTries := [] }
    let d := if u < 24 then (detail, s) else (s.fresh.toNat, s.took)
    ((d.2.setUnit u 5).incSat MEMCH.RECOVERIES u 1).report (memUid u) 0x06 0 d.1
  else s

/-- An alert counted; the 16th within 1 ms starts recovery (R371). -/
def State.alert (s : State) (u detail : Nat) : State :=
  let now := s.time.fclk
  let a := now :: (s.chan u).alerts.filter (fun t => now < t + 1000000)
  let s := s.setChan u { s.chan u with alerts := a }
  if 16 ≤ a.length then s.recover u detail else s

/-- The unit drives its DRAM: ACTIVE or RECOVERY. -/
def State.unitRuns (s : State) (u : Nat) : Bool := s.live && (s.rd MEMCH.STATE u == 3 || s.rd MEMCH.STATE u == 5)

/-- CA_PARITY_ALERT (R371): commands are replayed. -/
def execCaParityAlert (u : UnitNo) (slot : Bool) (s : State) : Host.Outcome State Fault Refusal :=
  .next (let n := if slot then 1 else 0
    if s.unitRuns u && decide (u.val < 24) then
      (((s.incSat MEMCH.ALERT_CA u 1).report (memUid u) 0x04 0 n).alert u n)
    else s)

/-- WRITE_CRC_ALERT (R371): the burst is written again, and a fifth failure starts recovery. -/
def execWriteCrcAlert (u : UnitNo) (place : BitVec 5) (s : State) : Host.Outcome State Fault Refusal :=
  .next (let n := place.toNat
    if s.unitRuns u then
      let s := (s.incSat MEMCH.ALERT_CRC u 1).report (memUid u) 0x05 0 n
      let c := s.chan u
      let tries := ((c.crcTries.find? (fun x => x.1 == n)).map Prod.snd).getD 0 + 1
      let s := s.setChan u { c with crcTries := (n, tries) :: c.crcTries.filter (fun x => x.1 ≠ n) }
      if 5 ≤ tries then s.recover u n else s.alert u n
    else s)

/-- RECOVERY_RETRAINING_END (R371, R376). -/
def execRecoveryRetrainingEnd (u : UnitNo) (ok : Bool) (s : State) : Host.Outcome State Fault Refusal :=
  .next (if s.live && s.rd MEMCH.STATE u == 5 then
      if ok then s.setUnit u 3 else s.stopUnit u 1
    else s)

/-- PMIC_FAULT (R371). -/
def execPmicFault (u : UnitNo) (s : State) : Host.Outcome State Fault Refusal :=
  .next (if s.unitRuns u && decide (u.val < 24) then s.stopUnit u 2 else s)

/-! ### Refresh, commit, retraining (R369, R370, R384) -/

/-- MEMCH stores of a unit reach their commit point (R376, R379, R380, R384). -/
def State.commitMemch (s : State) (u : Nat) : State :=
  let reset := s.onesIn MEMCH.RESET u
  let clear := s.onesIn MEMCH.CE_CLEAR u
  let ack := s.onesIn MEMCH.RETIRE_LIMIT_REACHED u
  let s := s.commitTbl 0x0B (· == u)
  let s := if ack then s.clearW1c MEMCH.RETIRE_LIMIT_REACHED u 1 else s
  let s := if clear then s.ceEmpty u else s
  let s := if reset && s.rd MEMCH.STATE u == 6 then s.resetUnit u else s
  s.redeliver u

/-- Every DIMM sensor of a channel reads below 83 °C (R369). -/
def State.dimmsCool (s : State) (u : Nat) : Bool :=
  match tget (fun _ => none) s.aon.dimm u with
  | some t => decide (sint 16 t.toNat < 332)
  | none => true

/-- REFRESH (R369, R384): a refresh slot, at which MEMCH stores commit; up to four are postponed in a pause or a lay-by
entry and made up afterwards. -/
def execRefresh (u : UnitNo) (hot postpone : Bool) (s : State) : Host.Outcome State Fault Refusal :=
  .next (if !s.unitRuns u then s
    else
      let c := s.chan u
      let may := decide (s.time.fclk < c.readyAt) || s.rd POWER.STATE (50 + u) == 4
      if postpone && may && decide (c.postponed < 4) then
        let s := s.setChan u { c with postponed := c.postponed + 1 }
        if 0 < c.postponed then s.commitMemch u else s
      else
        let s := s.setChan u { c with postponed := 0 }
        let s := if 24 ≤ u.val then s.stackRefresh (u - 24)
          else if hot then s.refreshRate u true
          else if s.dimmsCool u then s.refreshRate u false else s
        s.commitMemch u)

/-- RETRAINING_PAUSE (R370): a pause of at most 1.5 µs, whose length within that is a free value (log entry 2). -/
def execRetrainingPause (u : UnitNo) (s : State) : Host.Outcome State Fault Refusal :=
  .next (if s.live && s.unitActive u && decide (u.val < 24) && s.domActive (memUid u) then
      (s.took).setChan u { s.chan u with readyAt := s.time.fclk + s.fresh.toNat % 1501 }
    else s)

/-! ### Scrub and the correctable-error table (R377, R380, R381) -/

/-- Lines of a unit's raw capacity. -/
def State.unitLines (s : State) (u : Nat) : Nat := s.rd MEMCH.CAPACITY_GIB u * 2 ^ 24

/-- Scrub progress after one more read (R381, R384). -/
def State.scrubbed (s : State) (u : Nat) : State :=
  let c := s.chan u
  let total := max 1 (if u < 24 then s.unitLines u / 2 else s.unitLines u)
  if total ≤ c.scrub + 1 then
    let m := s.roundFree (s.time.fclk - c.scrubAt) 60000000000
    let s := m.2.setChan u { c with scrub := 0, scrubAt := s.time.fclk }
    ((s.wr MEMCH.SCRUB_PCT u 0).wr MEMCH.LAST_PASS_MIN u (min 65535 m.1)).inc MEMCH.SCRUB_PASSES u
  else
    let q := s.roundFree ((c.scrub + 1) * 100) total
    (q.2.setChan u { c with scrub := c.scrub + 1 }).wr MEMCH.SCRUB_PCT u q.1

/-- PATROL_SCRUB_READ (R381). -/
def execPatrolScrubRead (u : UnitNo) (line : BitVec 34) (dec : Decode) (s : State) : Host.Outcome State Fault Refusal :=
  .next (let l := line.toNat
    if !s.mayIssue u || decide (s.unitLines u ≤ l) then s
    else
      let s := (s.event (memUid u) 0x0A).scrubbed u
      (match dec with
      | .corrected ds => s.ceFound u l (ds.map BitVec.toNat)
      | .uncorrectable => s.ueFound u l 0x03
      | .wrong flip false => s.miscorrect u l flip
      | _ => s).settle)

/-- CE_DECAY (R377). -/
def execCeDecay (u : UnitNo) (s : State) : Host.Outcome State Fault Refusal :=
  .next (if s.live && s.unitPresent u then s.ceDecay u else s)

/-- CE_CLEAR (R380). -/
def execCeClear (w : WfNo) (t : ThrNo) (d : Reg) (u : UnitNo) (s : State) : Host.Outcome State Fault Refusal :=
  .next (ownerStore w t d (fun s => if s.unitPresent u then (0, s.ceEmpty u) else (9, s)) s)

/-- MEMCH_RESET (R376, R384): a STOPPED unit resets in the cycle after admission. -/
def execMemchReset (w : WfNo) (t : ThrNo) (d : Reg) (u : UnitNo) (s : State) : Host.Outcome State Fault Refusal :=
  .next (ownerStore w t d (fun s =>
    if !s.unitPresent u then (9, s)
    else if s.rd MEMCH.STATE u ≠ 6 then (5, s)
    else (0, s.resetUnit u)) s)

end Sys2Proof.Machine
end

