-- ==== Sys2Proof/Machine/Power.lean ====
section
/-! DEFINITION. Power domains: evaluation, entry, wake and ready (R374, R436-R441, R409). -/
namespace Sys2Proof.Machine

/-- A domain of a channel or stack, and its unit. -/
def domUnit (d : Nat) : Option Nat := if 50 ≤ d then some (d - 50) else none

/-- The first failing entry condition of a level: unit ID and CAUSE (R436, R440, R232, R374). -/
def State.entryFails (s : State) (d level : Nat) : Option (Nat × Nat) :=
  if d < 16 then
    let hs := [2 * d, 2 * d + 1].filter s.headExists
    match hs.find? (fun h => (s.link h).up && !((s.link h).l1 && level == 1)) with
    | some h => some (uid 0 h, 7)
    | none => match hs.find? (fun h => !(s.toll h).queue.isEmpty) with
      | some h => some (uid 0 h, 1)
      | none => none
  else if d < 32 then
    let n := d - 16
    if s.coh.trackers.any (fun t => lineSlice t.line == n) || !(s.rb n).queue.isEmpty ||
        s.coh.early.any (fun r => lineSlice r.line == n) then some (uid 2 n, 1)
    else if s.coh.snoops.any (fun x => lineSlice x.line == n) then some (uid 2 n, 2)
    else if level = 2 ∧ s.coh.sf.any (fun x => x.1 / 16 / 16384 == n && x.2.valid) = true then some (uid 2 n, 3)
    else none
  else if d < 34 then
    let h := d - 32
    match (List.range 64).find? (fun i => i % 32 / 16 == h &&
        (if i < 32 then s.stow.coding.any (fun x => x.1 == i) else s.stow.decoding.any (fun x => 32 + x.dec / 2 == i))) with
    | some i => some (uid 6 i, 6)
    | none => none
  else if d < 50 then
    let w := d - 34
    if (List.range 4).any (fun t => (s.thread w t).st == .running || (s.thread w t).dbg) then some (uid 8 w, 5) else none
  else
    let u := d - 50
    let c := s.chan u
    if !c.rq.isEmpty || !c.wq.isEmpty || !c.twin.isEmpty || c.inflight.isSome || !(s.rb (unitRb u)).queue.isEmpty then some (memUid u, 1)
    else if s.plc.moves.any (fun m => (m.target != 0 && m.target / 2 ^ 31 == u) || (s.page m.page).unit == some u) then
      some (memUid u, 4)
    else if level = 1 ∧ (s.unitActive u = false ∨ s.time.fclk < c.readyAt) then some (memUid u, 8)
    else none

/-- A refusal counted (R440). -/
def State.refuseEntry (s : State) (d unit cause : Nat) : State :=
  ((((s.incSat POWER.REFUSALS d 1).wr POWER.LAST_REFUSER d unit).wr POWER.REFUSER_VALID d 1).wr POWER.CAUSE d cause).fixed 536

/-- Entry into a level begins: a unit's merge entries are closed (R374, R437). -/
def State.enterLevel (s : State) (d level : Nat) : State :=
  let s := (s.wr POWER.STATE d 4).setDom d { s.dom d with level := level, latched := false }
  match domUnit d with
  | some u => s.closeMerges (fun m => m.unit == u)
  | none => s

/-- An entry attempt (R437). -/
def State.tryLevel (s : State) (d level : Nat) : State :=
  match s.entryFails d level with
  | some (unit, cause) => s.refuseEntry d unit cause
  | none => s.enterLevel d level

/-- A domain is held ACTIVE (R437). -/
def State.held (s : State) (d : Nat) : Bool := s.inf POWER.POLICY d == 0 || s.infB POWERALL.GLOBAL_HOLD 78

/-- DOMAIN_EVALUATION (R437, R438): POWER stores commit, a hold wakes the domain, and an idle domain tries to enter a
level. `idle` is in µs since the last work or attempt. -/
def execDomainEvaluation (dom : DomNo) (idle : BitVec 32) (s : State) : Host.Outcome State Fault Refusal :=
  .next (let d := dom.val
    if !s.live || !s.time.locked then s
    else
      let s := s.commitTbl 0x10 (· == d)
      let st := s.rd POWER.STATE d
      if st = 6 ∨ s.pgDead d = true then s
      else if s.held d then s.wakeDom d
      else if s.inf POWER.POLICY d ≠ 1 then s
      else if st = 0 then (if s.inf POWER.IDLE1 d ≤ idle.toNat then s.tryLevel d 1 else s)
      else if (st = 1 ∨ st = 3) ∧ s.infB POWER.DEEP_EN d = true ∧ s.inf POWER.IDLE2 d * 100 ≤ idle.toNat then s.tryLevel d 2
      else s)

/-- Every queued write of a unit issues (R374 step 2). -/
def State.drainAll : Nat → State → Nat → State
  | 0, s, _ => s
  | n + 1, s, u => match (s.chan u).nextWrite with
    | some w => State.drainAll n (s.issueWrite u w) u
    | none => s

/-- A level has been reached (R437). -/
def State.reached (s : State) (d : Nat) : State :=
  let level := (s.dom d).level
  match domUnit d with
  | some u =>
    if level = 2 then s.wr POWER.STATE d 2
    else
      let s := s.drainAll ((s.chan u).wq.length + 1) u
      ((s.setChan u { s.chan u with openRows := [], alerts := [] }).wr POWER.STATE d 3).setUnit u 4
  | none => s.wr POWER.STATE d level

/-- An entry ends (R437, R439, R440); a unit's when its closed merge entries have been sealed (R374 step 1). -/
def State.entryEnds (s : State) (d : Nat) (error : Bool) : State :=
  if !s.live || s.rd POWER.STATE d != 4 then s
  else if !error && s.sealing.merges.any (fun m => domUnit d == some m.unit) then s
  else if error then (s.incSat POWER.ABORTS d 1).wr POWER.STATE d 5
  else
    let wake := (s.dom d).latched
    let s := s.reached d
    if wake then s.wakeDom d else s

/-- Writebacks and releases that reached a home slice before it was ACTIVE are applied first (R213). -/
def State.orderEarly (s : State) (hs : Nat) : State :=
  let rs := s.coh.early.filter (fun r => lineSlice r.line == hs)
  rs.foldl (fun s r => s.order r) { s with coh := { s.coh with early := s.coh.early.filter (fun r => lineSlice r.line ≠ hs) } }

/-- A woken domain is ready (R437, R409). -/
def State.domReady (s : State) (d : Nat) : State :=
  if !s.live || s.rd POWER.STATE d != 5 then s
  else
    let level := (s.dom d).level
    let s := (s.wr POWER.STATE d 0).setDom d { s.dom d with level := 0, latched := false }
    let zero := fun (s : State) (r : Nat) => (s.present r).foldl (fun s q => s.wr RB.CREDIT (rbIdx r q) 0) s
    let s := match domUnit d with
      | some u => if s.rd MEMCH.STATE u = 4 then (zero s (unitRb u)).setUnit u 3 else s
      | none =>
        if d < 16 then
          let s := [2 * d, 2 * d + 1].foldl (fun (s : State) h => s.setToll h { s.toll h with hist := [] }) s
          [2 * d, 2 * d + 1].foldl (fun (s : State) h => s.startTrain h) s
        else if d < 32 then (if level = 2 then zero s (d - 16) else s).orderEarly (d - 16)
        else s
    s.settle

/-- DOMAIN_ENTRY_COMPLETE (R437, R439, R440). -/
def execDomainEntryComplete (dom : DomNo) (error : Bool) (s : State) : Host.Outcome State Fault Refusal :=
  .next (s.entryEnds dom error)

/-- DOMAIN_WAKE (R437, R439): a wake event of the domain. -/
def execDomainWake (dom : DomNo) (s : State) : Host.Outcome State Fault Refusal :=
  .next (if s.live && !s.pgDead dom then s.wakeDom dom else s)

/-- DOMAIN_READY (R437). -/
def execDomainReady (dom : DomNo) (s : State) : Host.Outcome State Fault Refusal := .next (s.domReady dom)

/-- LAY_BY_ENTRY_COMPLETE (R374, R376): a unit's domain reaches level 1. -/
def execLayByEntryComplete (u : UnitNo) (s : State) : Host.Outcome State Fault Refusal :=
  .next (if (s.dom (50 + u)).level = 1 then s.entryEnds (50 + u) false else s)

/-- LAY_BY_EXIT_COMPLETE (R374, R376): the unit is ACTIVE again. -/
def execLayByExitComplete (u : UnitNo) (s : State) : Host.Outcome State Fault Refusal :=
  .next (if s.rd MEMCH.STATE u = 4 then s.domReady (50 + u) else s)

end Sys2Proof.Machine
end

