-- ==== Sys2Proof/Machine/Images.lean ====
section
/-! DEFINITION. Program images and boot images: headers, signature blocks and what verifies (R70, R71, R148-R150). -/
namespace Sys2Proof.Machine

/-- A program image's header (R148). -/
structure Hdr where
  kind : Nat
  code : Nat
  base : Nat
  entry : Nat
  scratch : Nat
  steps : Nat
  ld : Nat
deriving DecidableEq, Repr

/-- The header of an image. -/
def hdrOf (img : List (BitVec 8)) : Hdr :=
  { kind := leAt img 4 1, code := leAt img 8 4, base := leAt img 0x0C 4, entry := leAt img 0x10 4,
    scratch := leAt img 0x14 4, steps := leAt img 0x18 4, ld := leAt img 0x1C 2 }

/-- Bytes of the signature block of a kind (R149). -/
def sigBytes (kind : Nat) : Nat := if kind = 3 then 320 else 112

/-- Every header field holds a permitted value, and the length is right (R148, R150). -/
def hdrOk (img : List (BitVec 8)) : Bool :=
  let h := hdrOf img
  leAt img 0 4 == 0x4B5A5250 && decide (1 ≤ h.kind) && decide (h.kind ≤ 3) && leAt img 5 1 == 0 && leAt img 6 2 == 1 &&
  h.code % 4 == 0 && decide (4 ≤ h.code) && decide (h.code ≤ 65472) &&
  h.base % 256 == 0 && decide (h.base + h.code ≤ 65536) && h.entry % 4 == 0 && decide (h.entry < h.code) &&
  (if h.kind = 3 then [4096, 8192, 12288, 16384].contains h.scratch else h.scratch == 0) &&
  (if h.kind = 3 then h.steps == 0 || (decide (1024 ≤ h.steps) && decide (h.steps ≤ 1048576)) else true) &&
  (if h.kind = 3 then decide (h.ld < 256) else h.ld == 0xFFFF) &&
  leAt img 0x1E 34 == 0 && img.length == 64 + h.code + sigBytes h.kind

/-- Header and code, which a signature covers. -/
def signedPart (img : List (BitVec 8)) : List (BitVec 8) := img.take (64 + (hdrOf img).code)

/-- The signature block. -/
def sigPart (img : List (BitVec 8)) : List (BitVec 8) := img.drop (64 + (hdrOf img).code)

/-- PROG_KEY in force, as its 96 bytes (R108). -/
def State.progKey (s : State) : List (BitVec 8) :=
  (List.range 12).flatMap (fun w => leBytes 8 (s.wordInForce 0x12 2 w).toNat)

/-- The signatures of an image verify (R149, R150). -/
def State.sigOk (s : State) (img : List (BitVec 8)) : Bool :=
  let b := sigPart img
  let signer := leAt b 0 1
  let body := signedPart img
  let kind := (hdrOf img).kind
  leAt b 1 15 == 0 &&
  (if kind = 1 then signer == 1 && Config.ecdsaOk none ((b.drop 16).take 96) body
   else if kind = 2 then
     (signer == 1 && Config.ecdsaOk none ((b.drop 16).take 96) body) ||
     (signer == 2 && Config.ecdsaOk (some s.progKey) ((b.drop 16).take 96) body)
   else
     let cert := (b.drop 16).take 112
     signer == 3 && leAt cert 2 14 == 0 && leAt cert 0 2 == (hdrOf img).ld &&
     Config.ecdsaOk (some s.progKey) ((b.drop 128).take 96) cert &&
     Config.ecdsaOk (some (cert.drop 16)) ((b.drop 224).take 96) body)

/-- The image is signed under the owner key, directly or through a certificate, and none is installed (R152). -/
def State.noKey (s : State) (img : List (BitVec 8)) : Bool :=
  ((hdrOf img).kind == 3 || ((hdrOf img).kind == 2 && leAt (sigPart img) 0 1 == 2)) && leNat s.progKey == 0

/-- The program that an image of a kind becomes. -/
def programOf (img : List (BitVec 8)) (mask : BitVec 16) : Program :=
  let h := hdrOf img
  { kind := if h.kind = 1 then .base else if h.kind = 2 then .owner else .tenant h.ld, base := h.base, len := h.code,
    entry := h.entry, scratch := h.scratch, steps := h.steps, mask := mask, image := img }

/-! ### Boot records (R70, R71) -/

/-- A port group's mode and rate in a boot record, and a bay's parameters: permitted values. -/
def bootFieldsOk (r : List (BitVec 8)) : Bool :=
  let f := fun off n => leAt r off n
  (List.range 16).all (fun n => bitsOf (f 0x008 4) (2 * n) 2 != 3) &&
  (List.range 16).all (fun n => decide (1 ≤ bitsOf (f 0x00C 8) (4 * n) 4) && decide (bitsOf (f 0x00C 8) (4 * n) 4 ≤ 6)) &&
  f 0x017 1 == 0 && decide (f 0x018 2 < 4096) && f 0x01A 6 == 0 &&
  (List.range 12).all (fun n =>
    let o := 0x020 + 16 * n
    decide (10 ≤ f o 2) && decide (f o 2 ≤ 400) && decide (1 ≤ f (o + 2) 2) && decide (f (o + 2) 2 ≤ 1000) &&
    decide (10 ≤ f (o + 4) 2) && decide (f (o + 4) 2 ≤ 1000) && decide (10 ≤ f (o + 6) 2) && decide (f (o + 6) 2 ≤ 1000) &&
    decide (f (o + 8) 2 ≤ 60000) && f (o + 10) 6 == 0) &&
  f 0x0E0 8 % 4096 == 0 && decide (1 ≤ f 0x0E8 4) && decide (f 0x0E8 4 ≤ 65536 + 112) && f 0x0EC 272 == 0

/-- A boot image verifies (R71): the record, and a base program image that Krezel signed. A record received under R72
has its image at 0x1000 (R153). -/
def State.bootOk (s : State) (fl : Flash) (received : Bool) : Bool :=
  let r := fl.record
  r.length == 512 && leAt r 0 4 == 0x4B5A0160 && leAt r 4 2 == 1 && leAt r 6 2 == 0x0200 &&
  leAt r 0x1FC 4 == (crc32c (r.take 0x1FC)).toNat && bootFieldsOk r &&
  (!received || leAt r 0x0E0 8 == 0x1000) && fl.image.length == leAt r 0x0E8 4 && hdrOk fl.image &&
  (hdrOf fl.image).kind == 1 && (hdrOf fl.image).base == 0 && s.sigOk fl.image

end Sys2Proof.Machine
end

