-- ==== Sys2Proof/Machine/Steps.lean ====
section
/-! DEFINITION. The steps of power-on as they end: what is recorded of them, the release of the wayfinders, and the end of
steps 5 and 8 (R55, R56, R73, R78). -/
namespace Sys2Proof.Machine

/-- A step is complete: LAST_STEP (R56). -/
def State.stepDone (s : State) (n : Nat) : State :=
  ({ s with board := { s.board with step := n } }).wr PHASE.LAST_STEP 0 n

/-- The first step that failed (R56, R73). -/
def State.stepFailed (s : State) (n : Nat) : State :=
  if s.rd PHASE.FAILED_STEP 0 = 0 then s.wr PHASE.FAILED_STEP 0 n else s

/-- Step 9 and the start of step 10 (R55): wayfinders released with their stores cleared, the base program loaded and
started on thread 0 of each. -/
def State.startWayfinders (s : State) : State :=
  let s := { s with soft := { s.soft with istore := [] } }
  let s := (List.range 16).foldl (fun s w =>
    if (s.wf w).stopped then s else s.setWf w { s.wf w with released := true, restarting := false }) s
  let mask : BitVec 16 := BitVec.ofNat 16 (((List.range 16).map (fun w => if (s.wf w).released then 2 ^ w else 0)).sum)
  let p := programOf s.board.image mask
  let s := s.setProgram 0 (some p)
  (List.range 16).foldl (fun s w =>
    if (s.wf w).released then
      (({ s with soft := { s.soft with istore := s.soft.istore.writeN (isAddr w 0) p.code } }).startBase w)
    else s) s

/-- Step 5 ends with the last unit's self-test; step 8 ends with the last unit's fill, and the wayfinders are released (R55).
`ms` is the duration of step 8. -/
def State.stepEnds (s : State) (ms : Nat) : State :=
  if !s.live || s.board.hold != .none then s
  else if s.board.step = 4 ∧ (List.range 28).all (fun u => s.rd MEMCH.STATE u != 1) = true then s.stepDone 5
  else if s.board.step = 6 ∧ (List.range 28).all (fun u => s.rd MEMCH.STATE u != 2) = true then
    ((s.stepDone 9).wr PHASE.FILL_MS 0 ms).startWayfinders
  else s

/-- A step that waited for units which are gone may end (R63, R64). No command says how long step 8 then took: FILL_MS is a
free value (log entry 64). -/
def State.stepLoses (s : State) : State :=
  if s.board.step = 4 ∨ s.board.step = 6 then s.took.stepEnds (s.fresh.toNat % 2 ^ 32) else s

end Sys2Proof.Machine
end

