-- ==== Sys2Proof/Machine/Bays.lean ====
section
/-! DEFINITION. Bay power, presence, trips, and what the SPD of a bay's DIMMs says (R46, R60-R63, R351-R353, R376,
R427, R449-R457, R487). -/
namespace Sys2Proof.Machine

/-! ### DIMMs (R351, R352) -/

/-- A DIMM is one of R351 in every respect but its speed rating. -/
def dimmOk (d : Dimm) : Bool :=
  d.rdimm && d.checksumOk && (d.width == .x4 || d.width == .x8) &&
  (d.densityGb == 16 || d.densityGb == 24 || d.densityGb == 32) && (d.pkgRanks == 1 || d.pkgRanks == 2) &&
  (d.stack == 1 || ((d.stack == 2 || d.stack == 4) && d.width == .x4)) &&
  decide (16 ≤ d.capGiB) && decide (d.capGiB ≤ 512)

/-- Two DIMMs of a channel agree in width, density, package ranks and stack height (R352). -/
def dimmsAlike (a b : Dimm) : Bool :=
  a.width == b.width && a.densityGb == b.densityGb && a.pkgRanks == b.pkgRanks && a.stack == b.stack

/-- Speed rating that the DRAM CK in use asks for (R11, R351). -/
def State.speedNeeded (s : State) : Nat := if s.board.ckSlow then 6400 else 8000

/-- The codes of R352 that a channel's DIMMs meet, each with the slots at fault. -/
def State.spdFaults (s : State) (ds : List Dimm) (inService : Bool) : List (Nat × List Nat) :=
  let slots := fun (p : Dimm → Bool) => (ds.filter p).map (fun d => d.slot.val)
  let lone := if ds.any (fun d => d.slot.val == 0) then [] else slots (fun _ => true)
  let unlike := match ds with
    | [a, b] => if dimmsAlike a b then [] else [a.slot.val, b.slot.val]
    | _ => []
  let bad := slots (fun d => !dimmOk d)
  let slow := slots (fun d => decide (d.speed < s.speedNeeded))
  let two := if inService && ds.length == 2 && !s.board.ckSlow then [0, 1] else []
  ([(0x0B, lone ++ unlike), (0x0C, bad), (0x0D, if slow.isEmpty then two else slow)]).filter (fun x => !x.2.isEmpty)

/-- Frames of a unit of a raw capacity in GiB (R353). -/
def framesOf (gib : Nat) : Nat := 95 * gib * 262144 / 100

/-- What a unit's controller reports of what it found (R384), and its frames (R353). -/
def State.describe (s : State) (u width dimms ranks gib speed : Nat) : State :=
  let fs : List (Fld × Nat) :=
    [(MEMCH.WIDTH, width), (MEMCH.DIMMS, dimms), (MEMCH.RANKS, ranks), (MEMCH.CAPACITY_GIB, gib), (MEMCH.SPEED, speed)]
  (fs.foldl (fun s f => s.wr f.1 u f.2) s).setPool u
    { frames := framesOf gib, inPool := false, excluded := false, present := true, filled := false, subtree := (s.pool u).subtree }

/-- The boot record enables a channel (R70): every one until it has been applied; a stack always. -/
def State.mcEnabled (s : State) (u : Nat) : Bool :=
  decide (24 ≤ u) || decide (s.board.step < 6) || bitOf (leAt s.board.record 0x014 4) u

/-- A channel's SPD applied: its DIMMs described, or the channel excluded under every code that R352 gives; a channel that the
boot record does not enable is left out. A fault that both slots share names either one: a free value (log entry 2). -/
def State.applySpd (s : State) (u : Nat) (dimms : List Dimm) (inService : Bool) : State :=
  let ds := if s.mcEnabled u then dimms.filter (fun d => d.chan.val == u) else []
  match ds with
  | [] => s.setPool u { Pool.init with subtree := (s.pool u).subtree }
  | d :: _ =>
    let s := s.describe u (if d.width = .x4 then 1 else 2) ds.length
      ((ds.map (fun d => d.pkgRanks * d.stack)).sum) ((ds.map (fun d => d.capGiB)).sum) (if s.board.ckSlow then 1 else 2)
    (s.spdFaults ds inService).foldl (fun s f =>
      let slot := f.2.getD (s.fresh.toNat % f.2.length) 0
      s.took.exclude u f.1 slot) s

/-- A unit whose DIMMs or dies are there and not excluded begins training (R376). -/
def State.train (s : State) (u : Nat) : State :=
  if (s.pool u).present && !(s.pool u).excluded && s.mcEnabled u then
    ((s.setChan u Chan.init).setUnit u 1).wr POWER.STATE (50 + u) 0
  else (s.setUnit u 0).wr POWER.STATE (50 + u) 6

/-! ### Power of a bay -/

/-- A bit of a word of twelve bays set or cleared. -/
def bayBit (m : BitVec 12) (b : Nat) (v : Bool) : BitVec 12 :=
  let x : BitVec 12 := BitVec.ofNat 12 (2 ^ b)
  if v then m ||| x else m &&& ~~~ x

/-- The bay is powered: PRECHARGE, RAMP, ON or DRAINING. -/
def State.bayPowered (s : State) (b : Nat) : Bool := 4 ≤ s.rd BAY.STATE b && s.rd BAY.STATE b ≤ 7

/-- BAYPG deasserts, and BAYGATE and BAYPRE go low (R452, R454). -/
def State.gatesLow (s : State) (b : Nat) : State :=
  { s with
    board := { s.board with baypg := bayBit s.board.baypg b false, baygate := bayBit s.board.baygate b false,
                            baypre := bayBit s.board.baypre b false }
    aon := { s.aon with inserting := bayBit s.aon.inserting b false } }

/-- BAYVIN is in the range of R451, in mV. -/
def bayvinOk (mv : Nat) : Bool := decide (10800 ≤ mv) && decide (mv ≤ 13200)

/-- A bay that did not start, or was forced off, records a class 2 fault (R450). At power-on its fault is noted (R62). -/
def State.bayFault (s : State) (b code detail : Nat) : State :=
  let s := s.report (uid 9 b) code 2 detail
  if s.board.step < 6 then { s with board := { s.board with reported := bayBit s.board.reported b true } } else s

/-- A bay starts pre-charge, or goes OFF where VBAYDRV or BAYVIN does not allow it (R450, R451, R487). -/
def State.startBay (s : State) (b : Nat) (insertion : Bool) : State :=
  let mv := s.rd BAY.BAYVIN_MV b
  if s.board.vbaydrvLow || (s.board.vbayFail && decide (s.board.step < 6)) then
    let s := s.wr BAY.STATE b 3
    if s.board.step < 6 then s else s.bayFault b 0x27 s.board.vbaydrvMv
  else if !bayvinOk mv then (s.wr BAY.STATE b 3).bayFault b 0x34 mv
  else
    let s := (s.wr BAY.STATE b 4).wr BAY.PEAK b 0
    let s := if insertion then s.inc BAY.INSERTIONS b else s
    { s with board := { s.board with baypre := bayBit s.board.baypre b true }
             aon := { s.aon with inserting := bayBit s.aon.inserting b insertion } }

/-- The channels of a bay are gone: their pages lost, their state ABSENT, and what drained them over (R274, R376,
R454), and a power-on step that waited for them may end. Answers the pages made LOST. In a halt only the AON units act (R425). -/
def State.bayUnitsGone (s : State) (b : Nat) : State × Nat :=
  if s.board.halted then (s, 0)
  else
    let r := (bayUnits b).foldl (fun (a : State × Nat) u =>
      let x := a.1.dropUnit u 4
      let s := ((x.1.setChan u Chan.init).setUnit u 0).wr POWER.STATE (50 + u) 6
      (s.setPool u { Pool.init with subtree := (s.pool u).subtree }, a.2 + x.2)) (s, 0)
    let mask := BitVec.ofNat 28 (2 ^ 28 - 1 - unitBits (bayUnits b))
    let s := r.1
    let s := (s.wr PLACE.DRAINING (placeCtl 0) (BitVec.ofNat 28 (s.rd PLACE.DRAINING (placeCtl 0)) &&& mask).toNat).wr
      PLACE.DRAINED (placeCtl 0) (BitVec.ofNat 28 (s.rd PLACE.DRAINED (placeCtl 0)) &&& mask).toNat
    let s := { s with aon := { s.aon with evac := tset (fun _ => []) s.aon.evac b [] } }
    (s.placeSubtrees.settle.stepLoses, r.2)

/-- A powered bay forced off (R454, R456): its pages, its records, and the state it goes to. -/
def State.forceOff (s : State) (b st : Nat) (byPresence : Bool) : State :=
  let on := decide (6 ≤ s.rd BAY.STATE b)
  let s := (s.gatesLow b).wr BAY.STATE b st
  let r := if on then s.bayUnitsGone b else (s, 0)
  if r.2 ≠ 0 then r.1.bayFault b 0x2A r.2
  else if byPresence then r.1.bayFault b 0x29 0 else r.1

/-- A trip (R452): the bay latches off. -/
def State.tripBay (s : State) (b cause code detail : Nat) : State :=
  let s := (s.forceOff b 9 false).bayFault b code detail
  ((s.wr BAY.LATCH b 1).wr BAY.TRIP b cause).incSat BAY.TRIPS b 1

/-- The current limit in force: 15.0 A until step 6 (R60). -/
def State.bayLimit (s : State) (b : Nat) : Nat := if s.board.step < 6 then 150 else s.inf BAY.LIMIT b

/-- The bay supervisor runs: AON has its clock (R55). -/
def State.supplied (s : State) : Bool := s.board.power != .unpowered

/-! ### Presence and timers -/

/-- BAY_PRESENCE_VALID (R450, R453). -/
def execBayPresenceValid (b : BayNo) (s : State) : Host.Outcome State Fault Refusal :=
  .next (if !s.supplied then s
    else
      let s := { s with aon := { s.aon with present := bayBit s.aon.present b true } }
      if s.rd BAY.STATE b = 0 then s.wr BAY.STATE b 1 else s)

/-- BAY_PRESENCE_LOST (R450, R456). -/
def execBayPresenceLost (b : BayNo) (s : State) : Host.Outcome State Fault Refusal :=
  .next (if !s.supplied then s
    else
      let s := { s with aon := { s.aon with present := bayBit s.aon.present b false } }
      if s.bayPowered b then s.forceOff b 0 true else s.wr BAY.STATE b 0)

/-- DEBOUNCE_EXPIRY (R450, R63): debounce is timed once step 6 has applied the boot record. -/
def execDebounceExpiry (b : BayNo) (s : State) : Host.Outcome State Fault Refusal :=
  .next (if s.supplied && decide (6 ≤ s.board.step) && s.rd BAY.STATE b == 1 then s.wr BAY.STATE b 2 else s)

/-- HOLDOFF_EXPIRY (R450): given again when step 10 completes, where it came before. -/
def execHoldoffExpiry (b : BayNo) (bayvinMv : BitVec 16) (s : State) : Host.Outcome State Fault Refusal :=
  .next (if !s.supplied || s.rd BAY.STATE b != 2 then s
    else
      let s := s.wr BAY.BAYVIN_MV b bayvinMv.toNat
      if s.rdB BAY.LATCH b then s.wr BAY.STATE b 9
      else if !s.infB BAY.ENABLE b then s.wr BAY.STATE b 3
      else if s.board.step < 10 then s
      else s.startBay b true)

/-- BAY_TURN (R60, R61, R451): at step 3 the next present bay starts pre-charge, one bay at a time. -/
def execBayTurn (b : BayNo) (bayvinMv : BitVec 16) (s : State) : Host.Outcome State Fault Refusal :=
  .next (if s.live && s.board.hold == .none && s.board.step == 2 && decide (s.board.turn ≤ b.val) && s.rd BAY.STATE b == 1 &&
      !(List.range 12).any (fun c => s.rd BAY.STATE c == 4 || s.rd BAY.STATE c == 5) then
      let s := { s with board := { s.board with turn := b.val + 1 } }
      (s.wr BAY.BAYVIN_MV b bayvinMv.toNat).startBay b false
    else s)

/-- PRECHARGE_COMPLETE (R450): BAYVS reaches 90% of BAYVIN. -/
def execPrechargeComplete (b : BayNo) (bayvsMv : BitVec 16) (s : State) : Host.Outcome State Fault Refusal :=
  .next (if s.supplied && s.rd BAY.STATE b == 4 && decide (9 * s.rd BAY.BAYVIN_MV b ≤ 10 * bayvsMv.toNat) then
      let s := (s.wr BAY.BAYVS_MV b bayvsMv.toNat).wr BAY.STATE b 5
      { s with board := { s.board with baygate := bayBit s.board.baygate b true } }
    else s)

/-- PRECHARGE_TIMEOUT (R450, R452). -/
def execPrechargeTimeout (b : BayNo) (bayvsMv : BitVec 16) (s : State) : Host.Outcome State Fault Refusal :=
  .next (if s.supplied && s.rd BAY.STATE b == 4 then
      (s.wr BAY.BAYVS_MV b bayvsMv.toNat).tripBay b 3 0x26 bayvsMv.toNat else s)

/-- RAMP_TIMEOUT (R450): a PRECHARGE trip. -/
def execRampTimeout (b : BayNo) (bayvsMv : BitVec 16) (s : State) : Host.Outcome State Fault Refusal :=
  .next (if s.supplied && s.rd BAY.STATE b == 5 then
      (s.wr BAY.BAYVS_MV b bayvsMv.toNat).tripBay b 3 0x26 bayvsMv.toNat else s)

/-- What an insertion that completes ends: the bay's and its channels' records in handling (R427). -/
def State.insertionDone (s : State) (b : Nat) : State :=
  if s.aon.inserting.getLsbD b then
    let s := s.endHandling (uid 9 b) [0x27, 0x28, 0x29, 0x2A, 0x34]
    (bayUnits b).foldl (fun s u => s.endHandling (memUid u) [0x07, 0x0B, 0x0C, 0x0D, 0x0E, 0x0F]) s
  else s

/-- GATE_FULLY_ON (R450): ON, BAYPG asserted; in service the SPD is read and the channels enter TRAINING. -/
def execGateFullyOn (b : BayNo) (bayvsMv : BitVec 16) (dimms : List Dimm) (s : State) : Host.Outcome State Fault Refusal :=
  .next (if s.supplied && s.rd BAY.STATE b == 5 then
      let s := ((s.wr BAY.BAYVS_MV b bayvsMv.toNat).wr BAY.STATE b 6).insertionDone b
      let s := { s with board := { s.board with baypg := bayBit s.board.baypg b true, baypre := bayBit s.board.baypre b false }
                        aon := { s.aon with inserting := bayBit s.aon.inserting b false } }
      if s.board.step < 6 ∨ s.board.halted = true then s
      else (bayUnits b).foldl (fun s u => (s.applySpd u dimms true).train u) s
    else s)

/-! ### Trips and losses -/

/-- A bay's current as measured. -/
def State.current (s : State) (b : Nat) (c : BitVec 16) : State :=
  let s := s.wr BAY.CURRENT b c.toNat
  if s.rd BAY.PEAK b < c.toNat then s.wr BAY.PEAK b c.toNat else s

/-- FAST_TRIP (R452). -/
def execFastTrip (b : BayNo) (current : BitVec 16) (s : State) : Host.Outcome State Fault Refusal :=
  .next (if s.supplied && s.bayPowered b then
      let s := s.current b current
      if 2 * s.bayLimit b ≤ current.toNat then s.tripBay b 1 0x24 current.toNat else s
    else s)

/-- SLOW_TRIP (R452): above LIMIT for longer than SLOW_MS. -/
def execSlowTrip (b : BayNo) (current : BitVec 16) (s : State) : Host.Outcome State Fault Refusal :=
  .next (if s.supplied && s.bayPowered b then
      let s := s.current b current
      if s.bayLimit b < current.toNat then s.tripBay b 2 0x25 current.toNat else s
    else s)

/-- VBAYDRV_LOSS (R450, R487): every powered bay is forced off. -/
def execVbaydrvLoss (mv : BitVec 16) (s : State) : Host.Outcome State Fault Refusal :=
  .next (if !s.supplied then s
    else
      let s := { s with board := { s.board with vbaydrvLow := true, vbaydrvMv := mv.toNat } }
      (List.range 12).foldl (fun s b =>
        if s.bayPowered b then (s.forceOff b 3 false).bayFault b 0x27 mv.toNat else s) s)

/-- VBAYDRV_PASSES_AGAIN (R487). -/
def execVbaydrvPassesAgain (s : State) : Host.Outcome State Fault Refusal :=
  .next (if s.supplied then { s with board := { s.board with vbaydrvLow := false } } else s)

/-- BAYVIN_EXCURSION (R450, R451): out of range for the time the bay's state asks. -/
def execBayvinExcursion (b : BayNo) (mv : BitVec 16) (s : State) : Host.Outcome State Fault Refusal :=
  .next (if s.supplied && !bayvinOk mv.toNat then
      let s := s.wr BAY.BAYVIN_MV b mv.toNat
      if s.bayPowered b then (s.forceOff b 3 false).bayFault b 0x34 mv.toNat else s
    else s)

/-! ### Stores of ENABLE (R455) and the end of an evacuation (R454) -/

/-- A store of ENABLE: its status, and its effect when it changes the field (R455). -/
def State.enableBay (s : State) (b : Nat) (on : Bool) : Nat × State :=
  let st := s.rd BAY.STATE b
  if s.rdB BAY.ENABLE b == on then (0, s)
  else if on then
    let s := (s.wr BAY.ENABLE b 1).endHandling (uid 9 b) [0x24, 0x25, 0x26]
    let s := if bayvinOk (s.rd BAY.BAYVIN_MV b) then s.endHandling (uid 9 b) [0x34] else s
    (0, if st = 3 ∨ st = 8 then s.startBay b false else s)
  else if st = 6 ∨ st = 7 then (5, s)
  else
    let s := s.wr BAY.ENABLE b 0
    if st = 4 ∨ st = 5 then (0, (s.gatesLow b).wr BAY.STATE b 3)
    else
      let s := (s.wr BAY.LATCH b 0).wr BAY.TRIP b 0
      (0, if st = 9 then s.wr BAY.STATE b 3 else s)

/-- BAY_ENABLE (R455): a store that leaves ENABLE 1. -/
def execBayEnable (w : WfNo) (t : ThrNo) (d : Reg) (b : BayNo) (s : State) : Host.Outcome State Fault Refusal :=
  .next (ownerStore w t d (fun s => s.enableBay b true) s)

/-- BAY_DISABLE (R455). -/
def execBayDisable (w : WfNo) (t : ThrNo) (d : Reg) (b : BayNo) (s : State) : Host.Outcome State Fault Refusal :=
  .next (ownerStore w t d (fun s => s.enableBay b false) s)

/-- Both channels of a bay are DRAINED (R272). -/
def State.bayDrained (s : State) (b : Nat) : Bool :=
  (bayUnits b).all (fun u => bitOf (s.rd PLACE.DRAINED (placeCtl 0)) u)

/-- BAY_POWER_DOWN (R454): a drained bay goes DOWN, and its channels read ABSENT. -/
def execBayPowerDown (b : BayNo) (s : State) : Host.Outcome State Fault Refusal :=
  .next (if s.live && s.rd BAY.STATE b == 7 && s.bayDrained b then
      (((s.gatesLow b).wr BAY.STATE b 8).bayUnitsGone b).1
    else s)

end Sys2Proof.Machine
end

