-- ==== Sys2Proof/Machine/PowerOn.lean ====
section
/-! DEFINITION. Power, straps, the power-on sequence, and the phase (R42-R78, R381, R382, R460). -/
namespace Sys2Proof.Machine

/-! ### Resets (R42) -/

/-- The tables that AON keeps through SYSRST_N: THERMAL and FAULT, but for what counts since device reset. -/
def keptWord (k : Nat) : Bool := k / 2 ^ 56 == 0x0D || k / 2 ^ 56 == 0x0E

/-- Records in handling whose return is a device reset, SYSRST_N or a link loss (R427). -/
def State.resetReturns (s : State) : State :=
  s.records.foldl (fun s i =>
    if [0x0B, 0x0C, 0x0D, 0x0E, 0x0F, 0x19, 0x20, 0x27, 0x28, 0x29, 0x2A, 0x31, 0x32, 0x34].contains (s.rd RECORD.CODE (i + 1)) then
      s.wr RECORD.HANDLING (i + 1) 0 else s) s

/-- SYSRST_N low (R42): all state outside AON is at reset; bays are off, and their latches cleared (R450). -/
def State.deviceReset (s : State) : State :=
  let r := State.reset
  let svc := if s.svc.st = 2 then { r.svc with st := 2, fails := s.svc.fails } else { r.svc with fails := s.svc.fails }
  let aon : Aon := { r.aon with reports := s.aon.reports, nextSeq := s.aon.nextSeq, present := s.aon.present,
                                reset := s.aon.reset, lastCheckin := s.aon.lastCheckin,
                                dimm := [], shutdown := false }
  let board : Board := { r.board with power := .aonOnly, perst := s.board.perst, thermtrip := s.board.thermtrip,
                                      vbaydrvLow := s.board.vbaydrvLow, vbaydrvMv := s.board.vbaydrvMv }
  let s' : State := { r with board := board, time := { r.time with aon := s.time.aon, sub := s.time.sub }, svc := svc, aon := aon,
                             tab := s.tab.filter (fun p => keptWord p.1), freeUsed := s.freeUsed, out := s.out,
                             pending := s.pending }
  let s' := (List.range 53).foldl (fun (s : State) i => if i < 52 then s.wr THERMAL.MAX_SEEN i 0 else s.wr LEDGER.THROTTLE_MS i 0) s'
  ((List.range 12).foldl (fun (s : State) b => if s.aon.present.getLsbD b then s.wr BAY.STATE b 1 else s) s').resetReturns

/-- Random bits of a length drawn from the on-die generator: free values, 64 bits each (log entry 2). -/
def State.draw : Nat → State → Nat × State
  | 0, s => (0, s)
  | n + 1, s =>
    let r := State.draw n s.took
    (s.fresh.toNat + 2 ^ 64 * r.1, r.2)

/-- Power-on starts at t0 (R42, R49, R50, R55): straps sampled, VBAYDRV checked (R46), HEARTBEAT toggling, and the random draws
(R306, R319, R332). Straps that R50 names stop it. R424 has the STRAP record's DETAIL show the straps as sampled: their order
there, OWNMODE in [1:0], BOOTSRC in [3:2], BMCADDR in [5:4] and TESTEN in [6], is the model's (DESIGN CHOICE, log entry 65). -/
def State.powerOn (s : State) (st : Straps) : State :=
  let c := State.draw 1 s
  let k := State.draw 4 c.2
  let h := State.draw 2 k.2
  let m := State.draw 4 h.2
  let s := m.2
  let s : State := { s with sealing := { s.sealing with clock := BitVec.ofNat 64 (2 ^ 40 * (c.1 % 2 ^ 23)),
                                                        treeKey := BitVec.ofNat 256 k.1, treeSub := BitVec.ofNat 128 h.1,
                                                        imageKey := BitVec.ofNat 256 m.1 } }
  let s := { s with board := { s.board with power := .poweringOn, riseTimer := false, straps := st, heartOn := true, turn := 0,
                                            reported := 0, hold := .none, vbayFail := s.board.vbaydrvLow } }
  if st.bootSrc = 3 ∨ st.testEn = true then
    let detail := st.ownMode.toNat + 4 * st.bootSrc.toNat + 16 * st.bmcAddr.toNat + (if st.testEn then 64 else 0)
    let s := ((s.stepDone 1).stepFailed 2).report (uid 12 4) 0x31 2 detail
    { s with board := { s.board with hold := .strapStop } }
  else s.stepDone 2

/-- PWRGOOD_RISE (R42). -/
def execPwrgoodRise (sysrstHigh : Bool) (s : State) : Host.Outcome State Fault Refusal :=
  .next (if s.board.power = .unpowered then
    { s with board := { s.board with power := .aonOnly, riseTimer := sysrstHigh } } else s)

/-- SYSRST_N_TAKEN_AS_RISING (R42): 1 ms after PWRGOOD rose with SYSRST_N already high. -/
def execSysrstNTakenAsRising (st : Straps) (s : State) : Host.Outcome State Fault Refusal :=
  .next (if s.board.power = .aonOnly ∧ s.board.riseTimer = true ∧ s.board.halted = false then s.powerOn st else s)

/-- SYSRST_N_RISE (R42). -/
def execSysrstNRise (st : Straps) (s : State) : Host.Outcome State Fault Refusal :=
  .next (if s.board.power = .aonOnly ∧ s.board.riseTimer = false ∧ s.board.halted = false then s.powerOn st else s)

/-- SYSRST_N_FALL (R42): no effect while a class 3 halt stands. -/
def execSysrstNFall (s : State) : Host.Outcome State Fault Refusal :=
  .next (if s.board.halted then s
    else match s.board.power with
    | .unpowered => s
    | .aonOnly => { s with board := { s.board with riseTimer := false } }
    | _ => s.deviceReset)

/-- PWRGOOD_FALL (R42): unpowered, the halt cleared, THERMTRIP_N released. The reset pins are the board's. -/
def execPwrgoodFall (s : State) : Host.Outcome State Fault Refusal :=
  .next { State.reset with board := { Board.init with perst := s.board.perst }, freeUsed := s.freeUsed, out := s.out,
                           pending := s.pending }

/-! ### Steps 3 to 5 -/

/-- No bay is in PRECHARGE or RAMP. -/
def State.baysSettled (s : State) : Bool := !(List.range 12).any (fun b => s.rd BAY.STATE b == 4 || s.rd BAY.STATE b == 5)

/-- SPD_READS_COMPLETE (R55, R11): step 3 ends, and DRAM CK is chosen. -/
def execSpdReadsComplete (dimms : List Dimm) (s : State) : Host.Outcome State Fault Refusal :=
  .next (if s.live && s.board.hold == .none && s.board.step == 2 && s.baysSettled then
      let us := (List.range 24).filter (fun u => s.rd BAY.STATE (u / 2) == 6)
      let two := us.any (fun u => (dimms.filter (fun d => d.chan.val == u)).length == 2)
      let s := { s with board := { s.board with ckSlow := two, turn := 12 } }
      (us.foldl (fun s u => s.applySpd u dimms false) s).stepDone 3
    else s)

/-- ROOT_PLL_LOCK (R55): the clocks start, and every powered channel and every stack begins training. -/
def execRootPllLock (s : State) : Host.Outcome State Fault Refusal :=
  .next (if s.live && s.board.hold == .none && s.board.step == 3 then
      let s : State := { s with time := { s.time with locked := true, fclk := 0 } }
      let s := [24, 25, 26, 27].foldl (fun s u => s.describe u 3 0 0 48 3) s
      ((List.range 28).foldl (fun s u => s.train u) s).stepDone 4
    else s)

/-- PLL_LOCK_TIMEOUT (R73). -/
def execPllLockTimeout (s : State) : Host.Outcome State Fault Refusal :=
  .next (if s.live && s.board.hold == .none && s.board.step == 3 then (s.stepFailed 4).fatal (uid 0xB 0) 0x30 0 else s)

/-- The units of a unit's bay; a stack alone. -/
def bayMates (u : Nat) : List Nat := if u < 24 then bayUnits (u / 2) else [u]

/-- In service a bay's channels join the pool in one step, once neither trains nor fills (R275). -/
def State.joinPool (s : State) (u : Nat) : State :=
  let us := bayMates u
  if s.board.step < 10 ∨ us.any (fun v => s.rd MEMCH.STATE v == 1 || s.rd MEMCH.STATE v == 2) = true then s
  else
    (us.foldl (fun s v =>
      if (s.pool v).filled && !(s.pool v).inPool then s.setPool v { s.pool v with inPool := true } else s) s).placeSubtrees.settle

/-- What an SRAM array's unrepaired failure does (R65); its array number is a free value (log entry 2). The unit that holds it
is a listed one (R8). -/
def State.sramFails (s : State) (u : Nat) : State :=
  let n := s.fresh.toNat
  let s := s.took
  if !unitListed u then s
  else if u / 64 = 8 ∧ u ≠ uid 8 0 then
    (s.setWf (u % 64) { s.wf (u % 64) with stopped := true }).report u 0x23 2 n
  else (s.stepFailed 5).fatal u 0x23 n

/-- SELF_TEST_COMPLETE (R64, R65, R376, R382). -/
def execSelfTestComplete (u : UnitNo) (res : TestResult) (s : State) : Host.Outcome State Fault Refusal :=
  .next (if !s.live then s
    else match res with
    | .sram v spare => if s.board.step = 4 ∧ spare = false then s.sramFails v.toNat else s
    | .pass =>
      if s.rd MEMCH.STATE u = 1 then
        let s := s.setUnit u 2
        (if 10 ≤ s.board.step then s.send (.fillStart u) else s).stepEnds 0
      else s
    | .fail a =>
      if s.rd MEMCH.STATE u = 1 then ((s.exclude u 0x0E a.toNat).joinPool u).stepEnds 0 else s
    | .trainFail =>
      if s.rd MEMCH.STATE u = 1 then ((s.exclude u 0x0E (2 ^ 64 - 1)).joinPool u).stepEnds 0 else s)

/-! ### Step 6 (R49, R62, R70-R73, R460) -/

/-- The life ledger loaded (R460). -/
def State.loadLedger (s : State) (l : LedgerRec) : State :=
  let fs : List (Fld × Nat) :=
    [(LEDGER.EQUIV_H, l.equivH.toNat), (LEDGER.RECENT_EQ, l.recentEq.toNat), (LEDGER.RO_DRIFT, l.roDrift.toNat),
     (LEDGER.REMAIN_H, l.remainH.toNat)]
  let s := (List.range 32).foldl (fun s i => s.wr (LEDGER.BIN_H i) 52 ((l.bins.getD i 0).toNat)) (fs.foldl (fun s f => s.wr f.1 52 f.2) s)
  let s : State := { s with aon := { s.aon with ledgerSeq := l.seq, recent := [l.recentEq.toNat * equivUnit / 100] } }
  (s.wr LEDGER.LEDGER_OK 52 1).lifeUp

/-- A bay at step 6 (R62). -/
def State.bayAtStep6 (s : State) (b : Nat) : State :=
  if s.rd BAY.STATE b = 6 then
    if s.rdB BAY.ENABLE b then s else (((s.gatesLow b).wr BAY.STATE b 3).bayUnitsGone b).1
  else if s.rdB BAY.ENABLE b && !s.board.reported.getLsbD b then
    if s.board.vbaydrvLow || s.board.vbayFail then s.report (uid 9 b) 0x27 2 s.board.vbaydrvMv else s.report (uid 9 b) 0x28 2 0
  else s

/-- The BAY and PORT fields that a boot record sets (R62, R70, R198, R466). -/
def State.bootFields (s : State) (r : List (BitVec 8)) : State :=
  let s := (List.range 12).foldl (fun s b =>
    let o := 0x020 + 16 * b
    let fs : List (Fld × Nat) :=
      [(BAY.ENABLE, bitsOf (leAt r 0x018 2) b 1), (BAY.LIMIT, leAt r o 2), (BAY.SLOW_MS, leAt r (o + 2) 2),
       (BAY.PRECHARGE_MS, leAt r (o + 4) 2), (BAY.DEBOUNCE_MS, leAt r (o + 6) 2), (BAY.HOLDOFF_MS, leAt r (o + 8) 2)]
    fs.foldl (fun s f => s.wr f.1 b f.2) s) s
  (List.range 32).foldl (fun s h => s.wr PORT.MAXRATE h (bitsOf (leAt r 0x00C 8) (4 * (h / 2)) 4)) s

/-- Link training begins on every link that may train (R55 step 7, R72). -/
def State.startTraining (s : State) : State :=
  let s := { s with board := { s.board with training := true } }
  (List.range 33).foldl (fun s l => s.startTrain l) s

/-- A port group at step 6: shelved when disabled, or without its reference clock (R54, R441). -/
def State.groupAtStep6 (s : State) (n : Nat) (clock : Bool) : State :=
  if s.pgMode n = 0 then s.shelve n
  else if !clock then (s.shelve n).report (uid 0xB (16 + n)) 0x2F 2 0
  else (s.wr POWER.STATE n 0).setDom n Dom.init

/-- A verified boot image applied (R62, R70, R73): bays, channels and port groups, then training and fill. -/
def State.applyBoot (s : State) (fl : Flash) (n : Nat) : State :=
  let s := { s with board := { s.board with record := fl.record, image := fl.image, hold := .none } }
  let s := (s.wr PHASE.BOOT_IMAGE 0 n).bootFields fl.record
  let s := (List.range 12).foldl (fun s b => s.bayAtStep6 b) s
  let s := (List.range 24).foldl (fun s u =>
    if bitOf (leAt fl.record 0x014 4) u then s
    else ((s.setUnit u 0).wr POWER.STATE (50 + u) 6).setPool u { s.pool u with present := false }) s
  let s := (List.range 16).foldl (fun s g => s.groupAtStep6 g (s.board.refclk.getLsbD g)) s
  if (List.range 28).all (fun u => s.rd MEMCH.STATE u != 2) then (s.stepFailed 6).fatal (uid 12 4) 0x33 0
  else
    let s := (s.stepDone 6).startTraining
    (List.range 28).foldl (fun s u => if s.rd MEMCH.STATE u = 2 then s.send (.fillStart u) else s) s

/-- No image was taken (R49, R72, R73): phase RECOVERY, which waits; the host port groups are shelved, and only the management
endpoint trains. -/
def State.bootWaits (s : State) (cause detail : Nat) : State :=
  let s := ((s.wr PHASE.CURRENT 0 3).wr PHASE.ENTRY_CAUSE 0 cause).report (uid 12 4) 0x32 2 detail
  let s := (List.range 16).foldl (fun s n => s.shelve n) s
  ({ s with board := { s.board with hold := .recovery6 } }).startTraining

/-- BOOT_IMAGE_VERIFY (R49, R71-R73, R460): step 6. `refclk` has a bit per port group whose reference clock is present. -/
def execBootImageVerify (f0 f1 : Option Flash) (ledger : Option LedgerRec) (refclk : BitVec 16) (s : State) :
    Host.Outcome State Fault Refusal :=
  .next (if s.live && s.board.hold == .none && s.board.step == 5 then
      let s := { s with board := { s.board with refclk := refclk } }
      let s := match ledger with | some l => s.loadLedger l | none => s
      let order : List (Nat × Option Flash) := if s.board.straps.bootSrc.toNat = 0 then [(0, f0), (1, f1)] else [(1, f1), (0, f0)]
      if s.board.straps.bootSrc.toNat = 2 then s.bootWaits 3 2
      else match order.find? (fun x => match x.2 with | some fl => s.bootOk fl false | none => false) with
        | some (n, some fl) => s.applyBoot fl n
        | _ => (s.bootWaits 2 1).stepFailed 6
    else s)

/-- An image received under R72 is verified, and power-on goes on: from step 7, or from step 10 after a base program
that failed there (R72, R73). -/
def State.recoveryImage (s : State) (fl : Flash) : Bool × State :=
  if s.board.hold = .recovery6 ∧ s.bootOk fl true = true then
    (true, (s.endHandling (uid 12 4) [0x32]).applyBoot fl 2)
  else if s.board.hold = .recovery10 ∧ s.bootOk fl true = true then
    let s := { s with board := { s.board with image := fl.image, hold := .none } }
    (true, ((s.wr PHASE.BOOT_IMAGE 0 2).endHandling (uid 8 0) [0x1F]).startWayfinders)
  else (false, s)

/-- RECOVERY_IMAGE_SUBMIT (R72). -/
def execRecoveryImageSubmit (c : Cand) (image : Flash) (s : State) : Host.Outcome State Fault Refusal :=
  .next (if s.live && s.eligible c then ((s.from_ c).recoveryImage image).2 else s)

/-! ### Steps 8 to 12 -/

/-- FILL_COMPLETE (R64, R275, R382): a unit is ACTIVE or excluded; step 8 ends with the last, and the wayfinders are
released. `ms` is the duration of step 8. Step 7 has no completion of its own, and step 9 is over with the release: LAST_STEP
goes from 6 to 9 (DESIGN CHOICE, log entry 66). -/
def execFillComplete (u : UnitNo) (failedAt : Option (BitVec 64)) (ms : BitVec 32) (s : State) :
    Host.Outcome State Fault Refusal :=
  .next (if !s.live || s.rd MEMCH.STATE u != 2 || decide (s.board.step < 6) then s
    else
      let s := match failedAt with
        | some a => s.exclude u 0x0F a.toNat
        | none => (s.setPool u { s.pool u with filled := true }).setUnit u 3
      (s.joinPool u).stepEnds ms.toNat)

/-- Step 11 completes: the election opens from CLOSED (R84). -/
def Election.opens (o : Election) : Election := if o.st = .closed then { o with st := .open } else o

/-- BASE_PROGRAM_READY (R55): steps 10 to 12. `ms` is the time from t0. -/
def execBaseProgramReady (ms : BitVec 32) (s : State) : Host.Outcome State Fault Refusal :=
  .next (if s.live && s.board.hold == .none && s.board.step == 9 then
      let s := (List.range 28).foldl (fun s u =>
        if (s.pool u).filled then s.setPool u { s.pool u with inPool := true } else s) s
      let s := (s.placeSubtrees.settle.stepDone 12).wr PHASE.ACTIVE_MS 0 ms.toNat
      { s with board := { s.board with power := .running, mbReady := true, active := true }, own := s.own.opens }
    else s)

/-- BASE_PROGRAM_TIMEOUT (R73): the base program traps or fails to start. -/
def execBaseProgramTimeout (code : BitVec 8) (s : State) : Host.Outcome State Fault Refusal :=
  .next (if s.live && s.board.hold == .none && s.board.step == 9 then s.baseFails code.toNat else s)

/-! ### The phase (R75-R78) -/

/-- A key slot in mode CI or CIR is installed. -/
def State.sealedKeys (s : State) : Bool :=
  (s.listed 0x05).any (fun k => s.rdB KEYSLOT.INSTALLED k && decide (2 ≤ s.mode k))

/-- The base program runs: on thread 0 of some running wayfinder. -/
def State.baseRuns (s : State) : Bool := (List.range 16).any (fun w => s.wfRuns w && (s.thread w 0).st != .idle)

/-- R76 allows the change. -/
def State.phaseAllowed (s : State) (v : Nat) : Bool :=
  match s.rd PHASE.CURRENT 0, v with
  | 0, 1 => decide (11 ≤ s.board.step)
  | 0, 2 => true
  | 0, 3 => true
  | 1, 2 => !s.sealedKeys
  | 1, 3 => true
  | 2, 1 => s.rd PHASE.ALARM_COUNT 0 == 0
  | 3, 1 => decide (11 ≤ s.board.step) && s.baseRuns
  | _, _ => false

/-- A store of PHASE (R76-R78): its status, and its effect. In the cycle of its commit the phase before still answers integrity
checks (R77). The record of RECOVERY from SERVICE has a unit, a code and a DETAIL that no rule states: free values among the
listed units and codes (R8, R424, log entry 2). -/
def State.phaseStore (s : State) (v : Nat) : Nat × State :=
  let old := s.rd PHASE.CURRENT 0
  if v = old then (0, s)
  else if !s.phaseAllowed v then (5, s)
  else
    let was := (s.phase, s.time.fclk)
    let s := ((s.wr PHASE.CURRENT 0 v).wr PHASE.ENTRY_CAUSE 0 1).wr PHASE.ALARM_COUNT 0 0
    let s := { s with board := { s.board with phaseWas := some was } }
    let s := if v = 1 ∧ s.board.step = 12 then s.stepDone 13 else s
    if old = 1 ∧ v = 3 then
      let d := State.draw 2 s
      let unit := listedUnits.getD (d.1 % listedUnits.length) 0
      let code := faultCodes.getD (d.1 / 1024 % faultCodes.length) 0
      (0, (d.2.wr PHASE.ALARM_COUNT 0 1).report unit code 1 (d.1 / 2 ^ 64) true)
    else (0, s)

/-- PHASE_STORE (R76). -/
def execPhaseStore (w : WfNo) (t : ThrNo) (d : Reg) (v : BitVec 2) (s : State) : Host.Outcome State Fault Refusal :=
  .next (ownerStore w t d (fun s => s.phaseStore v.toNat) s)

end Sys2Proof.Machine
end

