-- ==== Sys2Proof/Machine/Milepost.lean ====
section
/-! DEFINITION. Mileposts: wraps, snapshots, reads, and what a tenant sees (R141, R467-R484). -/
namespace Sys2Proof.Machine

/-- Counter `n` lies in the milepost window of LD `ld` (R481). -/
def State.inWindow (s : State) (ld n : Nat) : Bool :=
  s.rdB ACCESS.MILEPOST_WINDOW ld && (s.rd MILEPOST.VIEW n == ld || s.rd MILEPOST.VIEW n == 0x100)

/-- The counters of a group (R474). -/
def groupCounters (g : Nat) : List Nat := (List.range 32).map (fun k => 32 * g + k)

/-- A group holds a counter of the LD's window. -/
def State.groupSeen (s : State) (ld g : Nat) : Bool := (groupCounters g).any (s.inWindow ld)

/-- The counters of a group captured (R475): TIME is counter 512's cycle. -/
def State.capture (s : State) (g : Nat) : State :=
  let b : Bank := { gen := 0, frozen := s.rdB MPALL.FREEZE 544, time := s.time.fclk,
                    vals := (groupCounters g).map (fun n => BitVec.ofNat 48 (s.rd MILEPOST.VALUE n)) }
  { s with mile := { s.mile with inProgress := s.mile.inProgress ++ [(g, b)] } }

/-- A snapshot of a group requested, and the generation it takes (R475): one at a time, the next after the one in
progress. -/
def State.snapAsk (s : State) (g : Nat) : State × BitVec 32 :=
  let cur := (s.bank g).gen
  if s.mile.inProgress.any (fun p => p.1 == g) then
    (if s.mile.again.contains g then s else { s with mile := { s.mile with again := s.mile.again ++ [g] } }, nextGen (nextGen cur))
  else (s.capture g, nextGen cur)

/-- SNAP_REQ by the management endpoint, which acts only while it is the owner (R482). -/
def State.snapReq (s : State) (mask : BitVec 17) : State :=
  if s.live && s.own.owner == some 0 then
    (List.range 17).foldl (fun s g => if mask.getLsbD g then (s.snapAsk g).1 else s) s
  else s

/-- SNAP_REQ (R475, R482). -/
def execSnapReq (c : Cand) (mask : BitVec 17) (s : State) : Host.Outcome State Fault Refusal :=
  .next (if c.val == 0 then s.snapReq mask else s)

/-- SNAPSHOT_COMPLETE (R475): the bank becomes current under the next generation, and a request that waited is
captured. -/
def execSnapshotComplete (g : Fin 17) (s : State) : Host.Outcome State Fault Refusal :=
  .next (match (if s.live then s.mile.inProgress.find? (fun p => p.1 == g.val) else none) with
    | none => s
    | some (_, b) =>
      let gen := nextGen (s.bank g).gen
      let s : State := { s with mile := { s.mile with
        banks := tset (fun _ => Bank.init) s.mile.banks g { b with gen := gen }
        inProgress := s.mile.inProgress.filter (fun p => p.1 ≠ g.val) } }
      let s := s.wr (MPALL.GEN g) 544 gen.toNat
      if s.mile.again.contains g.val then
        ({ s with mile := { s.mile with again := s.mile.again.filter (· ≠ g.val) } }).capture g
      else s)

/-- The image of a group as a reader sees it: an LD, or the owner's side (R476). -/
def State.snapImage (s : State) (g : Nat) (ld : Option Nat) : List (BitVec 8) :=
  let b := s.bank g
  let seen := fun n => match ld with | some l => s.inWindow l n | none => true
  let vis := (((List.range 32).filter (fun k => seen (32 * g + k))).map (fun k => 2 ^ k)).sum
  leBytes 4 b.gen.toNat ++ leBytes 2 (if b.gen = 0 then 0 else g) ++ leBytes 2 (if b.frozen then 1 else 0) ++ leBytes 8 b.time ++
  leBytes 4 (if b.gen = 0 then 0 else vis) ++ zeros 44 ++
  (List.range 32).flatMap (fun k => if seen (32 * g + k) then leBytes 8 (b.vals.getD k 0).toNat else zeros 8) ++
  leBytes 4 b.gen.toNat ++ zeros 4

/-- COUNTER_WRAP (R473, R478): the occurrence that carries a counter past its last value. -/
def execCounterWrap (n : Fin 544) (occ : Occurrence) (s : State) : Host.Outcome State Fault Refusal :=
  let o : Occ := { unit := occ.unit.toNat, event := occ.event.toNat, ld := if occ.ld.toNat < 256 then some occ.ld.toNat else none,
                   qual := (List.range 8).find? (fun i => occ.qual.getLsbD i), addr := none }
  .next (if s.live && s.time.locked && s.rd MILEPOST.VALUE n == 2 ^ 48 - 1 then
      if n.val < 512 then
        if s.rdB MILEPOST.ENABLE n && !s.rdB MPALL.FREEZE 544 && s.domActive o.unit && s.counts n o then s.addOcc n o else s
      else s.addOne n o
    else s)

/-- Every programmable counter set to zero (R473). -/
def State.clearAll (s : State) : State :=
  (List.range 512).foldl (fun (s : State) n => if s.rd MILEPOST.VALUE n = 0 then s else s.wr MILEPOST.VALUE n 0) s

/-- CLEAR_ALL (R473, R484). -/
def execClearAll (w : WfNo) (t : ThrNo) (d : Reg) (s : State) : Host.Outcome State Fault Refusal :=
  .next (ownerStore w t d (fun s => (0, s.clearAll)) s)

/-- MPRD (R141, R481): the live value of a counter. -/
def execMprd (w : WfNo) (t : ThrNo) (d a : Reg) (s : State) : Host.Outcome State Fault Refusal :=
  .next (ramer w t (.mprd w t d a) (fun s =>
    let n := (s.g w t a).toNat
    if 543 < n then .raise 3 0
    else match s.tenant w t with
      | some ld => if s.inWindow ld n then .next (s.setG w t d (BitVec.ofNat 64 (s.rd MILEPOST.VALUE n))) else .raise 2 0
      | none => .next (s.setG w t d (BitVec.ofNat 64 (s.rd MILEPOST.VALUE n)))) s)

/-- MPSNAP (R141, R477): waits for its snapshot, whose generation goes to g[d]. -/
def execMpsnap (w : WfNo) (t : ThrNo) (d a : Reg) (s : State) : Host.Outcome State Fault Refusal :=
  .next (ramer w t (.mpsnap w t d a) (fun s =>
    let g := (s.g w t a).toNat
    if (match s.tenant w t with | some ld => !s.rdB ACCESS.SNAP_OK ld | none => false) then .raise 2 0
    else if 16 < g then .raise 3 0
    else if (match s.tenant w t with | some ld => !s.groupSeen ld g | none => false) then .raise 2 0
    else
      let r := s.snapAsk g
      .suspend r.1 (.snap d g r.2)) s)

end Sys2Proof.Machine
end

