-- ==== Sys2Proof/Machine/Policy.lean ====
section
/-! DEFINITION. The policy queue, the hot-page table's drain, and the default placement policy that the base program
runs at each TICK (R23, R129, R135, R140, R166, R252, R259, R262, R263, R269, R272, R279). -/
namespace Sys2Proof.Machine

/-- The entry that HEAT pops: the highest COUNT, the oldest among equals (R252). -/
def State.hottestPage (s : State) : Option Hot :=
  s.plc.hot.foldl (fun b h => match b with
    | none => some h
    | some x => if x.count < h.count then some h else some x) none

/-- An entry popped. -/
def State.dropHot (s : State) (p : Nat) : State :=
  { s with plc := { s.plc with hot := s.plc.hot.filter (fun h => h.page ≠ p) } }

/-- The default policy runs: DEFAULT_POLICY is 1, and so does the base program on WF01 or its substitute (R165, R166). -/
def State.policyRuns (s : State) : Bool :=
  let w := s.serving 1
  s.infB PLACE.DEFAULT_POLICY (placeCtl 0) && s.wfRuns w && (s.thread w 0).st != .idle && s.board.active

/-- One page operation of the default policy, unless the page is busy with one. -/
def State.policyJob (s : State) (kind : JobKind) (p arg : Nat) : State :=
  if s.opOn p || s.soft.jobs.any (fun j => j.origin == .orphan && j.a == p * 4096) then s
  else s.startJob { id := 0, origin := .orphan, kind := kind, a := p * 4096, b := 0, len := 4096, done := 0, key := 0, key2 := 0,
                    arg := arg, force := false, notify := false, ld := none, status := none, busy := none }

/-- The tier that a page's PIN or its window's policy holds it in (R23, R262): 0 near, 1 far, or none by heat. -/
def State.heldTier (s : State) (p : Nat) : Option Nat :=
  let x := s.page p
  let pol := match s.govern (p / 512) with | some i => s.inf WINDOW.POLICY i | none => 0
  if x.pin = 1 then some 0 else if x.pin = 2 then some 1
  else if pol = 1 then some 0 else if pol = 2 then some 1 else none

/-- Hot entries popped from the highest COUNT down to PROMOTE_COUNT, their pages moved near where heat decides. -/
def State.drainHeat : Nat → State → State
  | 0, s => s
  | n + 1, s => match s.hottestPage with
    | some h =>
      if h.count < s.inf POLICY.PROMOTE_COUNT (placeCtl 1) then s
      else
        let s := s.dropHot h.page
        State.drainHeat n (if s.heldTier h.page = some 1 then s else s.policyJob .tier h.page 0)
    | none => s

/-- ACCESSED of a page: its own, or its WHOLE region's (R252). -/
def State.accessedPage (s : State) (p : Nat) : Bool :=
  (s.page p).accessed || tget (fun _ => false) s.plc.accessedRegions (p / 512)

/-- The policy clears ACCESSED, and notes since when each page has stayed untouched (R252, R279). -/
def State.noteTouched (s : State) : State :=
  let now := s.time.fclk
  let ps := s.plc.pages.filter (fun p => p.2.unit.isSome)
  let un := ps.map (fun p =>
    (p.1, if s.accessedPage p.1 then now + 1 else let t := tget (fun _ => 0) s.plc.untouched p.1; if t = 0 then now + 1 else t))
  { s with plc := { s.plc with untouched := un, accessedRegions := [],
                               pages := s.plc.pages.map (fun p => (p.1, { p.2 with accessed := false })) } }

/-- Whole seconds for which the policy has found a page untouched. -/
def State.coldFor (s : State) (p : Nat) : Nat := (s.time.fclk + 1 - tget (fun _ => 0) s.plc.untouched p) / 10 ^ 9

/-- Frames to be retired or drained are emptied, and pages brought to the tier that holds them (R23, R259, R262, R272). -/
def State.placePages (s : State) : State :=
  s.plc.pages.foldl (fun s q =>
    let p := q.1
    let x := s.page p
    if ¬ (x.st = .near ∨ x.st = .far ∨ x.st = .stowed) then s
    else if x.retire then s.policyJob .tier p (if x.st = .near ∧ s.draining (x.loc / 2 ^ 31) = false then 0 else 1)
    else match s.heldTier p with
      | some t =>
        if s.freeTier (t == 0) = 0 then s
        else if x.st = .stowed then (if x.pin = 0 then s else s.policyJob .unstow p t)
        else if inTarget t x then s else s.policyJob .tier p t
      | none => s) s

/-- Cold pages moved far, and colder ones stowed: harder below LOW_WM, elastic pages first (R269, R279). -/
def State.coolPages (s : State) : State :=
  let low := decide (s.spare < s.inf POOL.LOW_WM 0)
  let ps := s.plc.pages.map Prod.fst
  let s := ps.foldl (fun s p =>
    if (s.page p).st = .near ∧ s.heldTier p = none ∧ s.inf POLICY.DEMOTE_S (placeCtl 1) ≤ s.coldFor p then s.policyJob .tier p 1 else s) s
  let level := s.inf (if low then POLICY.PRESSURE_LEVEL else POLICY.STOW_LEVEL) (placeCtl 1)
  let age := s.inf (if low then POLICY.PRESSURE_AGE_S else POLICY.STOW_AGE_S) (placeCtl 1)
  let stow := fun (s : State) p =>
    if (s.page p).st = .far ∧ s.stowCheck p false = none ∧ age ≤ s.coldFor p then s.policyJob .stow p level else s
  let first := ps.filter (fun p => low && s.pclass (p / 512) == .elastic)
  ((first ++ ps.filter (fun p => !first.contains p)).foldl stow s)

/-- The default policy on one HINT item (R263): a job of the ring command. -/
def State.hintJob (s : State) (c : RingCmd) : State :=
  let job := fun (kind : JobKind) (arg : Nat) =>
    s.startJob { id := 0, origin := .ring c.ld c.ring c.idx, kind := kind, a := c.addrA, b := 0, len := c.len, done := 0, key := 0,
                 key2 := 0, arg := arg, force := false, notify := false, ld := some c.ld, status := none, busy := none }
  if c.arg0 = 0 then job .tier 0
  else if c.arg0 = 1 then job .tier 1
  else if c.arg0 = 2 then job .stow (s.inf POLICY.STOW_LEVEL (placeCtl 1))
  else s.finishCmd c.ld c.ring c.idx 0 0

/-- HINT items that no owner policy claims are taken (R166). -/
def State.takeHints (s : State) : State :=
  if s.infB PLACE.POLICY_CLAIM (placeCtl 0) then s
  else (s.soft.policyQ).foldl (fun s c => s.hintJob c) { s with soft := { s.soft with policyQ := [] } }

/-- The default policy at a TICK (R166, R279). -/
def State.runPolicy (s : State) : State :=
  if s.policyRuns then
    (((s.drainHeat s.plc.hot.length).takeHints).noteTouched.placePages).coolPages
  else s

/-- The base program on WF00, or its substitute, checks in every 100 ms while CHECKIN_EN is 1 (R166, R429). -/
def State.baseCheckin (s : State) : State :=
  let w := s.serving 0
  if s.rdB FAULT.CHECKIN_EN 0 && s.wfRuns w && (s.thread w 0).st != .idle && s.board.active then
    if 99 ≤ s.soft.checkTicks then { s.checkin with soft := { s.soft with checkTicks := 0 } }
    else { s with soft := { s.soft with checkTicks := s.soft.checkTicks + 1 } }
  else s

/-- TICK (R129, R279): every 1 ms of device time, to every thread that runs an owner program, and to the base program,
which checks in (R166) and runs the default policy. -/
def execTick (s : State) : Host.Outcome State Fault Refusal :=
  .next (if s.live then ((s.raiseOwners 7).baseCheckin).runPolicy else s)

/-! ### The policy queue and HEAT as owner programs reach them (R134, R135, R140) -/

/-- HEAT (R135). -/
def execHeat (w : WfNo) (t : ThrNo) (d : Reg) (s : State) : Host.Outcome State Fault Refusal :=
  .next (ramer w t (.heat w t d) (fun s =>
    if (s.tenant w t).isSome then .raise 2 0
    else match s.hottestPage with
      | none => .next (s.setG w t d 0)
      | some h => .next ((s.dropHot h.page).setG w t d (BitVec.ofNat 64 (h.page * 2 ^ 12 + h.count * 2 ^ 48 + 2 ^ 63)))) s)

/-- The routing word of an item (R140). -/
def RingCmd.route (c : RingCmd) : Nat := c.ring + c.ld * 2 ^ 8 + c.idx * 2 ^ 16

/-- RGET (R134, R140). -/
def execRget (w : WfNo) (t : ThrNo) (d a : Reg) (s : State) : Host.Outcome State Fault Refusal :=
  .next (ramer w t (.rget w t d a) (fun s =>
    if (s.tenant w t).isSome then .raise 2 0
    else match s.scratchAt w t (s.g w t a) 72 8 with
      | none => .raise 4 0
      | some p => match s.soft.policyQ with
        | [] => .next (s.setG w t d 1)
        | c :: rest =>
          let s := { s with soft := { s.soft with policyQ := rest } }
          .next ((s.setScr w p (c.desc ++ leBytes 8 c.route)).setG w t d 0)) s)

/-- RPUT (R134, R140): completes a HINT in flight that its item names; a completed one is left as it is. -/
def execRput (w : WfNo) (t : ThrNo) (d a b : Reg) (s : State) : Host.Outcome State Fault Refusal :=
  .next (ramer w t (.rput w t d a b) (fun s =>
    if (s.tenant w t).isSome then .raise 2 0
    else match s.scratchAt w t (s.g w t a) 72 8 with
      | none => .raise 4 0
      | some p =>
        let r := leNat (s.scr w (p + 64) 8)
        let ring := r % 128
        let ld := r / 2 ^ 8 % 256
        let i := r / 2 ^ 16 % 2 ^ 16
        let live := s.soft.cmds.any (fun c => c.ld == ld && c.ring == ring && c.idx == i && c.opcode == 8 && c.st == .working &&
          !s.soft.policyQ.contains c)
        .next (if live then s.finishCmd ld ring i ((s.g w t b).truncate 8) (s.g w t d) else s)) s)

end Sys2Proof.Machine
end

