-- ==== Sys2Proof/Machine/Rings.lean ====
section
/-! DEFINITION. Command rings: their registers, fetch, completion, and the ring commands that work a range of device
memory (R87-R96, R102, R140, R193, R260-R263, R293, R297, R341). -/
namespace Sys2Proof.Machine

/-! ### Host memory (R191, R193) -/

/-- The device may send a posted write to an LD's host now: its link is up and a posted credit is held. -/
def State.canPost (s : State) (ld : Nat) : Bool := (s.link (ldHead ld)).up && decide (0 < (s.link (ldHead ld)).crPosted)

/-- A posted write to an LD's host memory. -/
def State.hostPost (s : State) (ld : Nat) (addr : Nat) (bytes : List (BitVec 8)) : State :=
  let h := ldHead ld
  (s.setLink h { s.link h with crPosted := (s.link h).crPosted - 1 }).send (.hostWrite ld (BitVec.ofNat 64 addr) bytes)

/-- A read request may be sent to an LD's host now. -/
def State.canAsk (s : State) (ld : Nat) : Bool := (s.link (ldHead ld)).up && decide (0 < (s.link (ldHead ld)).crNonPosted)

/-- A read request to an LD's host memory; one that is not answered within the command is noted under its tag (R193). -/
def State.hostAsk (s : State) (ld ring : Nat) (idx : Option Nat) (addr n : Nat) (resp : HostResp) : State :=
  let h := ldHead ld
  let tag := s.soft.nextTag
  let s := (s.setLink h { s.link h with crNonPosted := (s.link h).crNonPosted - 1 }).send
    (.hostRead ld (BitVec.ofNat 64 addr) n tag)
  let q : IoRead := { head := h, tag := tag, ld := ld, ring := ring, idx := idx }
  { s with soft := { s.soft with nextTag := tag + 1, ioReads := if resp = .outstanding then s.soft.ioReads ++ [q] else s.soft.ioReads } }

/-! ### Ring state (R87-R90) -/

/-- Entries of the command ring. -/
def Ring.cmdSize (x : Ring) : Nat := 2 ^ x.cmdLog2.toNat
/-- Entries of the completion ring. -/
def Ring.cplSize (x : Ring) : Nat := 2 ^ x.cplLog2.toNat

/-- The commands of a ring that are fetched and not completed, in ring order. -/
def State.flight (s : State) (ld r : Nat) : List RingCmd := s.soft.cmds.filter (fun c => c.ld == ld && c.ring == r)

/-- IN_FLIGHT (R87). -/
def State.inFlight (s : State) (ld r : Nat) : Nat := ((s.flight ld r).filter (fun c => c.st != .held)).length

/-- RING_STATUS as it reads (R87). -/
def State.ringStatus (s : State) (ld r : Nat) : Nat :=
  let x := s.ring ld r
  let running := (x.enable && !x.error) || !(s.flight ld r).isEmpty
  (if running then 1 else 0) + (if x.error then 2 else 0) + x.cause.toNat * 2 ^ 4 + x.cmdHead.toNat * 2 ^ 16 +
    x.cplTail.toNat * 2 ^ 32 + s.inFlight ld r % 64 * 2 ^ 48

/-- Fetching stops: a fetched command that has not started is dropped, and a descriptor on its way starts nothing (R88). -/
def State.fetchStops (s : State) (ld r : Nat) : State :=
  let s := s.setRing ld r { s.ring ld r with fetching := false }
  { s with soft := { s.soft with
      cmds := s.soft.cmds.filter (fun c => ¬ (c.ld = ld ∧ c.ring = r ∧ c.st = .held))
      ioReads := s.soft.ioReads.map (fun q => if q.ld = ld ∧ q.ring = r ∧ q.idx = none then { q with ring := 128 } else q) } }

/-- A ring stops with an error (R88). A later error of a ring that one has stopped replaces CAUSE (DESIGN CHOICE, log entry 70). -/
def State.ringError (s : State) (ld r cause : Nat) : State :=
  (s.setRing ld r { s.ring ld r with error := true, cause := BitVec.ofNat 4 cause }).fetchStops ld r

/-- ENABLE goes from 0 to 1 (R87, R88). -/
def State.ringStart (s : State) (ld r : Nat) : State :=
  let x := { s.ring ld r with enable := true, error := false, cause := 0, cmdHead := 0, cplTail := 0, cmdTail := 0,
                              cplHead := 0, phase := true, fetching := false, unread := 0 }
  let s := s.setRing ld r x
  let bad := fun (n : BitVec 5) => decide (n.toNat < 4) || decide (16 < n.toNat)
  if x.cmdBase.toNat % 4096 ≠ 0 ∨ x.cplBase.toNat % 4096 ≠ 0 ∨ bad x.cmdLog2 = true ∨ bad x.cplLog2 = true then s.ringError ld r 1
  else if s.inf ACCESS.RINGS ld ≤ r then s.ringError ld r 2
  else s

/-- RING_ENABLE (R88). -/
def execRingEnable (ld : LdNo) (r : RingNo) (s : State) : Host.Outcome State Fault Refusal :=
  .next (if s.funcUp ld && !(s.ring ld r).enable then s.ringStart ld r else s)

/-- ENABLE goes to 0 (R88). -/
def State.ringStop (s : State) (ld r : Nat) : State :=
  (s.setRing ld r { s.ring ld r with enable := false }).fetchStops ld r

/-- RING_DISABLE (R88). -/
def execRingDisable (ld : LdNo) (r : RingNo) (s : State) : Host.Outcome State Fault Refusal :=
  .next (if s.funcUp ld && (s.ring ld r).enable then s.ringStop ld r else s)

/-- A ring takes part in fetching: enabled, with no error. -/
def Ring.on (x : Ring) : Bool := x.enable && !x.error

/-- A write of CMD_TAIL (R87, R89). -/
def State.tailWrite (s : State) (ld r : Nat) (v : BitVec 16) : State :=
  let x := s.ring ld r
  let s := s.setRing ld r { x with cmdTail := v }
  if x.on && decide (x.cmdSize ≤ v.toNat) then s.ringError ld r 3 else s

/-- CMD_TAIL_WRITE (R89). -/
def execCmdTailWrite (ld : LdNo) (r : RingNo) (v : BitVec 16) (s : State) : Host.Outcome State Fault Refusal :=
  .next (if s.funcUp ld then s.tailWrite ld r v else s)

/-- Entries that a write of CPL_HEAD consumes: on a full ring an unchanged index consumes them all. -/
def Ring.consumed (x : Ring) (v : Nat) : Nat :=
  let n := x.cplSize
  let adv := (v + n - x.cplHead.toNat % n) % n
  if adv = 0 ∧ x.unread = n then n else adv

/-- A write of CPL_HEAD (R87, R95). -/
def State.headWrite (s : State) (ld r : Nat) (v : BitVec 16) : State :=
  let x := s.ring ld r
  let s := s.setRing ld r { x with cplHead := v }
  if !x.enable then s
  else if decide (x.cplSize ≤ v.toNat) || decide (x.unread < x.consumed v.toNat) then s.ringError ld r 4
  else s.setRing ld r { x with cplHead := v, unread := x.unread - x.consumed v.toNat }

/-- CPL_HEAD_WRITE (R95). -/
def execCplHeadWrite (ld : LdNo) (r : RingNo) (v : BitVec 16) (s : State) : Host.Outcome State Fault Refusal :=
  .next (if s.funcUp ld then s.headWrite ld r v else s)

/-! ### Fetch (R89, R90, R193) -/

/-- A ring has a descriptor to fetch: at most 32 commands in flight, none held by a FENCE, and a free
completion entry beyond those that commands in flight reserve (R89, R90). -/
def State.wantsFetch (s : State) (ld r : Nat) : Bool :=
  let x := s.ring ld r
  let fl := s.flight ld r
  x.on && !x.fetching && x.cmdHead != x.cmdTail && decide (fl.length < 32) && !fl.any (fun c => c.st == .held) &&
  decide (x.unread + fl.length < x.cplSize) && !fl.any (fun c => c.idx == x.cmdHead.toNat)

/-- The next descriptor of a ring may be fetched now (R89, R191). -/
def State.mayFetch (s : State) (ld r : Nat) : Bool := s.wantsFetch ld r && s.canAsk ld

/-- A fetched command starts: an opcode outside R92 completes at once with BAD_OPCODE. -/
def RingCmd.start (c : RingCmd) : RingCmd :=
  { c with st := if 1 ≤ c.opcode ∧ c.opcode ≤ 12 then .started else .done 1 0 }

/-- A descriptor has arrived: CMD_HEAD moves on, and the command starts unless its FENCE holds it (R89). -/
def State.fetched (s : State) (ld r : Nat) (desc : List (BitVec 8)) : State :=
  let x := s.ring ld r
  let c : RingCmd := { ld := ld, ring := r, idx := x.cmdHead.toNat, desc := (desc ++ zeros 64).take 64, st := .held, data := [],
                       at_ := s.time.fclk }
  let c := if c.flags % 2 = 1 ∧ s.flight ld r ≠ [] then c else c.start
  let s := s.setRing ld r { x with cmdHead := BitVec.ofNat 16 ((x.cmdHead.toNat + 1) % x.cmdSize), fetching := false }
  { s with soft := { s.soft with cmds := s.soft.cmds ++ [c] } }

/-- A descriptor's read is answered (R87 cause 5). -/
def State.fetchAnswer (s : State) (ld r : Nat) (resp : HostResp) : State :=
  match resp with
  | .ok bytes => s.fetched ld r bytes
  | .failed => s.ringError ld r 5
  | .outstanding => s.setRing ld r { s.ring ld r with fetching := true }

/-- COMMAND_FETCH (R89, R90). -/
def execCommandFetch (ld : LdNo) (r : RingNo) (resp : HostResp) (s : State) : Host.Outcome State Fault Refusal :=
  .next (if s.funcUp ld && s.mayFetch ld r then
      let x := s.ring ld r
      (s.hostAsk ld r none (x.cmdBase.toNat + 64 * x.cmdHead.toNat) 64 resp).fetchAnswer ld r resp
    else s)

/-! ### Completion (R94, R95, R101) -/

/-- The command of a ring with an index. -/
def State.cmdAt (s : State) (ld r i : Nat) : Option RingCmd :=
  s.soft.cmds.find? (fun c => c.ld == ld && c.ring == r && c.idx == i)

/-- A command's record changed. -/
def State.setCmd (s : State) (c : RingCmd) : State :=
  { s with soft := { s.soft with cmds := s.soft.cmds.map (fun x => if x.ld = c.ld ∧ x.ring = c.ring ∧ x.idx = c.idx then c else x) } }

/-- A command that a FENCE holds starts once every earlier command of its ring has completed (R89). -/
def State.releaseFence (s : State) (ld r : Nat) : State :=
  match s.flight ld r with
  | c :: _ => if c.st = .held then s.setCmd c.start else s
  | [] => s

/-- The completion entry of R94. -/
def cplEntry (c : RingCmd) (x : Ring) (status : BitVec 8) (result : BitVec 64) : List (BitVec 8) :=
  leBytes 2 c.cmdId ++ [status, if x.phase then 1 else 0] ++ leBytes 2 x.cmdHead.toNat ++ zeros 2 ++ leBytes 8 result.toNat

/-- A completion entry written, or the ring's error when host memory refuses it (R87 cause 6). -/
def State.complete (s : State) (c : RingCmd) (status : BitVec 8) (result : BitVec 64) (ok : Bool) : State :=
  let x := s.ring c.ld c.ring
  let s : State := { s with soft := { s.soft with cmds := s.soft.cmds.filter (fun d => ¬ (d.ld = c.ld ∧ d.ring = c.ring ∧ d.idx = c.idx)) } }
  let s := (if ok then
      let n := (x.cplTail.toNat + 1) % x.cplSize
      let s := (s.hostPost c.ld (x.cplBase.toNat + 16 * x.cplTail.toNat) (cplEntry c x status result)).setRing c.ld c.ring
        { x with cplTail := BitVec.ofNat 16 n, phase := if n = 0 then !x.phase else x.phase, unread := x.unread + 1 }
      if c.flags / 2 % 2 = 1 then s.setToHost c.ld (BitVec.ofNat 16 (2 ^ (c.ring % 16))) else s
    else s.ringError c.ld c.ring 6)
  ((s.fixed 537).releaseFence c.ld c.ring).settle

/-- COMMAND_COMPLETE (R94). -/
def execCommandComplete (ld : LdNo) (r : RingNo) (i : BitVec 16) (hostOk : Bool) (s : State) :
    Host.Outcome State Fault Refusal :=
  .next (match (if s.live then s.cmdAt ld r i.toNat else none) with
    | some c => match c.st with
      | .done status result =>
        let up := (s.link (ldHead ld)).up
        if up && !s.canPost ld then s else s.complete c status result (hostOk && up)
      | _ => s
    | none => s)

/-! ### Commands over a range (R92, R93, R110) -/

/-- A command ends at once with a status and RESULT 0. -/
def State.fail (s : State) (c : RingCmd) (status : Nat) : State := s.finishCmd c.ld c.ring c.idx (BitVec.ofNat 8 status) 0

/-- The device slot of a KeyID operand, or none (R92). -/
def State.operandKey (s : State) (ld keyId : Nat) : Option Nat := if keyId < 4096 then s.keySlot ld keyId else none

/-- A range command's job. -/
def RingCmd.job (c : RingCmd) (kind : JobKind) (key key2 arg : Nat) : Job :=
  { id := 0, origin := .ring c.ld c.ring c.idx, kind := kind, a := c.addrA, b := c.addrB, len := c.len, done := 0, key := key,
    key2 := key2, arg := arg, force := c.flags / 4 % 2 == 1, notify := false, ld := some c.ld, status := none, busy := none }

/-- A command taken up, and its job started. -/
def State.work (s : State) (c : RingCmd) (j : Job) : State := (s.setCmd { c with st := .working }).startJob j

/-- A started command of an opcode is taken up by its row. -/
def State.takeUp (s : State) (ld r i op : Nat) (f : RingCmd → State) : State :=
  match (if s.live then s.cmdAt ld r i else none) with
  | some c => if c.st = .started ∧ c.opcode = op then f c else s
  | none => s

/-- COPY (R92, R260). -/
def execCopy (ld : LdNo) (r : RingNo) (i : BitVec 16) (s : State) : Host.Outcome State Fault Refusal :=
  .next (s.takeUp ld r i.toNat 1 (fun c =>
    if !rangeOk c.addrA c.len 64 || c.addrB % 64 != 0 then s.fail c 2
    else if decide (c.addrA < c.addrB + c.len) && decide (c.addrB < c.addrA + c.len) then s.fail c 2
    else match s.operandKey ld c.arg0 with
      | none => s.fail c 4
      | some k => s.work c (c.job .copy k 0 0)))

/-- ZERO (R92, R261). -/
def execZero (ld : LdNo) (r : RingNo) (i : BitVec 16) (s : State) : Host.Outcome State Fault Refusal :=
  .next (s.takeUp ld r i.toNat 2 (fun c =>
    if !rangeOk c.addrA c.len 64 then s.fail c 2
    else match s.operandKey ld c.arg0 with
      | none => s.fail c 4
      | some k => s.work c (c.job .zero k 0 0)))

/-- REKEY (R92, R110, R341): an unmapped old KeyID names no page's slot (4097), an unmapped new one is 4096. -/
def execRekey (ld : LdNo) (r : RingNo) (i : BitVec 16) (s : State) : Host.Outcome State Fault Refusal :=
  .next (s.takeUp ld r i.toNat 3 (fun c =>
    if !s.infB ACCESS.REKEY_OK ld then s.fail c 0xE
    else if !rangeOk c.addrA c.len 4096 then s.fail c 2
    else s.work c (c.job .rekey ((s.operandKey ld c.arg0).getD 4097) ((s.operandKey ld c.arg1).getD 4096) 0)))

/-- STOW (R92, R293). -/
def execStow (ld : LdNo) (r : RingNo) (i : BitVec 16) (s : State) : Host.Outcome State Fault Refusal :=
  .next (s.takeUp ld r i.toNat 4 (fun c =>
    if !rangeOk c.addrA c.len 4096 || decide (7 < c.arg0) then s.fail c 2 else s.work c (c.job .stow 0 0 c.arg0)))

/-- UNSTOW (R92, R297). -/
def execUnstow (ld : LdNo) (r : RingNo) (i : BitVec 16) (s : State) : Host.Outcome State Fault Refusal :=
  .next (s.takeUp ld r i.toNat 5 (fun c =>
    if !rangeOk c.addrA c.len 4096 || decide (1 < c.arg0) then s.fail c 2 else s.work c (c.job .unstow 0 0 c.arg0)))

/-- PIN (R92, R262). -/
def execPin (ld : LdNo) (r : RingNo) (i : BitVec 16) (s : State) : Host.Outcome State Fault Refusal :=
  .next (s.takeUp ld r i.toNat 6 (fun c =>
    if !rangeOk c.addrA c.len 4096 || decide (1 < c.arg0) then s.fail c 2 else s.work c (c.job .pin 0 0 c.arg0)))

/-- UNPIN (R92, R262). -/
def execUnpin (ld : LdNo) (r : RingNo) (i : BitVec 16) (s : State) : Host.Outcome State Fault Refusal :=
  .next (s.takeUp ld r i.toNat 7 (fun c => if !rangeOk c.addrA c.len 4096 then s.fail c 2 else s.work c (c.job .unpin 0 0 0)))

/-- HINT (R140, R263): into the policy queue, with the HINT event when it was empty (R129); at a full queue it completes at once. -/
def execHint (ld : LdNo) (r : RingNo) (i : BitVec 16) (s : State) : Host.Outcome State Fault Refusal :=
  .next (s.takeUp ld r i.toNat 8 (fun c =>
    if !rangeOk c.addrA c.len 4096 || decide (3 < c.arg0) then s.fail c 2
    else if 256 ≤ s.soft.policyQ.length then s.fail c 0
    else
      let c := { c with st := .working }
      let first := s.soft.policyQ.isEmpty
      let s := s.setCmd c
      let s : State := { s with soft := { s.soft with policyQ := s.soft.policyQ ++ [c] } }
      if first then s.raiseOwners 4 else s))

end Sys2Proof.Machine
end

