-- ==== Sys2Proof/Machine/Streams.lean ====
section
/-! DEFINITION. Stream mode: contexts, EXPORT, IMPORT, SAVE, RESTORE (R301-R306, R310). -/
namespace Sys2Proof.Machine

/-! ### Operands and contexts (R301, R302, R310) -/

/-- CONTEXT of ARG0. -/
def RingCmd.ctxNo (c : RingCmd) : Nat := c.arg0 % 4096
/-- OPEN of ARG0. -/
def RingCmd.opens (c : RingCmd) : Bool := bitOf c.arg0 12
/-- CLOSE of ARG0. -/
def RingCmd.closes (c : RingCmd) : Bool := bitOf c.arg0 13
/-- CTX_OP of ARG0. -/
def RingCmd.ctxOp (c : RingCmd) : Nat := bitsOf c.arg0 14 2
/-- KEYID of ARG0. -/
def RingCmd.streamKey (c : RingCmd) : Nat := bitsOf c.arg0 16 12

/-- ARG0 is laid out as R301 says. -/
def RingCmd.arg0Ok (c : RingCmd) : Bool :=
  decide (c.arg0 < 2 ^ 28) && c.ctxOp != 3 && (c.opcode == 10 || c.streamKey == 0)

/-- Contexts that an LD holds. -/
def State.ctxsHeld (s : State) (ld : Nat) : Nat := (s.stow.ctxs.filter (fun x => x.2.st != 0 && x.2.holder == ld)).length

/-- The LD may take one more context (ACCESS.CTX_QUOTA). -/
def State.underQuota (s : State) (ld : Nat) : Bool := decide (s.ctxsHeld ld < s.inf ACCESS.CTX_QUOTA ld)

/-- A context opened: history, counts and CRC cleared (R302). -/
def Ctx.opened (st ld : Nat) : Ctx := { Ctx.init with st := st, holder := ld }

/-- The context that a data command of kind `st` (1 export, 2 import) works on, or none where R302 says CONTEXT. -/
def State.ctxFor (s : State) (c : RingCmd) (st : Nat) : Option Ctx :=
  let x := s.ctx c.ctxNo
  if x.st = 0 then
    if c.opens && s.underQuota c.ld then some (Ctx.opened st c.ld) else none
  else if x.busy || x.holder != c.ld then none
  else if c.opens then some (Ctx.opened st c.ld)
  else if x.st = st then some x else none

/-- CONTEXT_RELEASE (R302, R310). -/
def execContextRelease (w : WfNo) (t : ThrNo) (d : Reg) (c : BitVec 12) (s : State) : Host.Outcome State Fault Refusal :=
  .next (ownerStore w t d (fun s =>
    if (s.ctx c.toNat).busy then (6, s) else (0, s.setCtx c.toNat Ctx.init)) s)

/-- A stream command ends: its context is idle again, free when `free`, broken when `broke`. -/
def State.streamEnds (s : State) (c : RingCmd) (status result : Nat) (free broke : Bool) : State :=
  let x := s.ctx c.ctxNo
  let y : Ctx := if free then Ctx.init else { x with busy := false, st := if broke then 3 else x.st }
  ((s.setCtx c.ctxNo y).finishCmd c.ld c.ring c.idx (BitVec.ofNat 8 status) (BitVec.ofNat 64 result)).settle

/-- Output bytes that matches may reach, kept to the last 32,768 (R303). -/
def clipHistory (h : List (BitVec 8)) : List (BitVec 8) := h.drop (h.length - 32768)

/-- The running CRC-32C extended. -/
def crcMore (crc : BitVec 32) (bs : List (BitVec 8)) : BitVec 32 := ~~~ crcRun (~~~ crc) bs

/-- A coder for streams (R307): the lowest in service. -/
def State.streamCoder (s : State) : Option Nat :=
  (s.halves.flatMap (fun h => (List.range 16).map (fun i => 16 * h + i))).find? (fun c => !s.stow.stopped.contains (uid 6 c))

/-! ### EXPORT (R304) -/

/-- The block of one page after a partial byte (R303): the shorter of fixed Huffman and stored. -/
def exportBlock (history page : List (BitVec 8)) (pending : List Bool) (level : Nat) : List Bool :=
  let a := (history ++ page).toArray
  let fixed := fixedBlock false (tokens a (effort level) 32768 page.length history.length)
  let stored := storedBlock pending.length page
  if fixed.length < stored.length then fixed else stored

/-- Bits put after a context's partial byte: the whole bytes, and the bits left over. -/
def wholeBytes (bits : List Bool) : List (BitVec 8) × List Bool :=
  let n := bits.length / 8
  (packBits n (bits.take (8 * n)), bits.drop (8 * n))

/-- Pages done and bytes written, as an export in progress notes them. -/
def RingCmd.progress (c : RingCmd) : Nat × Nat := (leAt c.data 0 8, leAt c.data 8 8)

/-- Output bytes of an export written to host memory. -/
def State.exportOut (s : State) (c : RingCmd) (bytes : List (BitVec 8)) : State :=
  if bytes = [] then s else s.hostPost c.ld (c.addrB + c.progress.2) bytes

/-- The end of an export whose pages are done: with CLOSE the final block, pad and trailer. -/
def State.exportEnd (s : State) (c : RingCmd) (hostOk : Bool) : State :=
  let x := s.ctx c.ctxNo
  if !c.closes then s.streamEnds c 0 c.progress.2 false false
  else
    let bits := x.bits ++ fixedBlock true []
    let bytes := packBits (bits.length + 8) bits ++ leBytes 4 x.crc.toNat ++ leBytes 4 x.inBytes
    let up := (s.link (ldHead c.ld)).up
    if !hostOk || !up then s.streamEnds c 0xB c.progress.2 false false
    else if !s.canPost c.ld then s
    else (s.exportOut c bytes).streamEnds c 0 (c.progress.2 + bytes.length) true false

/-- One page of an export, read and written; `none` while it waits, as `wait`. -/
def State.exportPage (s : State) (c : RingCmd) (hostOk : Bool) : JobRes :=
  let lda := c.addrA + 4096 * c.progress.1
  match s.jobAddr (some c.ld) lda with
  | none => .fail s 3
  | some a =>
    let p := a / 4096
    let x := s.page p
    let up := (s.link (ldHead c.ld)).up
    if s.earlier c.ld c.ring c.idx (lda / 4096) then .wait s
    else if x.st = .lost then .fail s 9
    else if s.pageBusy p ∨ (x.st = .moving ∧ x.src = .stowed) then .wait s
    else match s.streamCoder with
    | none => .fail s 6
    | some cd =>
      let b := s.linesBlocked (pageLines p) false
      if b = 2 then .fail s 9
      else if b = 1 then .wait (s.invalidate (pageLines p) .internal false)
      else if !hostOk || !up then .fail s 0xB
      else if !s.canPost c.ld then .wait s
      else
        let r := (s.wakeDom (32 + cd / 16)).readLines p (List.range 64)
        if r.2.2 ≠ 0 then .fail r.1 r.2.2
        else
          let s := r.1
          let page := r.2.1.flatMap lineBytes
          let k := s.ctx c.ctxNo
          let w := wholeBytes (k.bits ++ exportBlock k.history page k.bits (s.inf STOW.STREAM_LEVEL 0))
          let k' : Ctx := { k with history := clipHistory (k.history ++ page), bits := w.2, crc := crcMore k.crc page,
                                   inBytes := k.inBytes + 4096, outBytes := k.outBytes + w.1.length }
          let s := ((s.exportOut c w.1).setCtx c.ctxNo k').setCmd
            { c with data := leBytes 8 (c.progress.1 + 1) ++ leBytes 8 (c.progress.2 + w.1.length) }
          .done (s.event (uid 6 cd) 5)

/-- An export worked on as far as it can be. -/
def State.exportRun (ld r i : Nat) (hostOk : Bool) : Nat → State → State
  | 0, s => s
  | n + 1, s => match s.cmdAt ld r i with
    | none => s
    | some c =>
      if c.len ≤ 4096 * c.progress.1 then s.exportEnd c hostOk
      else match s.exportPage c hostOk with
        | .wait s' => s'
        | .fail s' st => s'.streamEnds c st c.progress.2 false false
        | .done s' => State.exportRun ld r i hostOk n s'

/-- EXPORT (R301-R304): taken up on its checks, and worked on each time it is given until it completes. -/
def execExportStream (ld : LdNo) (r : RingNo) (i : BitVec 16) (hostOk : Bool) (s : State) : Host.Outcome State Fault Refusal :=
  .next (match (if s.live then s.cmdAt ld r i.toNat else none) with
    | none => s
    | some c =>
      if c.opcode ≠ 9 ∨ c.ctxOp = 1 ∨ c.ctxOp = 2 then s
      else match c.st with
        | .started =>
          if !s.infB ACCESS.STREAM_OK ld then s.fail c 0xE
          else if !c.arg0Ok || !rangeOk c.addrA c.len 4096 || c.addrB % 64 != 0 ||
              decide (c.arg1 < 4101 * (c.len / 4096) + 10) then s.fail c 2
          else match s.ctxFor c 1 with
            | none => s.fail c 0xA
            | some k =>
              let c := { c with st := .working, data := zeros 16 }
              State.exportRun ld r i.toNat hostOk (c.len / 4096 + 1)
                ((s.setCtx c.ctxNo { k with busy := true }).setCmd c)
        | .working => State.exportRun ld r i.toNat hostOk (c.len / 4096 + 1) s
        | _ => s)

/-! ### IMPORT (R305) -/

/-- What decoding a stream's input comes to. -/
inductive Inflated where
  /-- All input is used, but for what does not make a whole symbol. -/
  | more
  /-- A whole page is decoded. -/
  | page
  | bad
deriving DecidableEq, Repr

/-- Decoded bytes taken into a context. -/
def Ctx.emit (x : Ctx) (bs : List (BitVec 8)) : Ctx :=
  { x with history := x.history ++ bs, part := x.part ++ bs, crc := crcMore x.crc bs, inBytes := x.inBytes + bs.length }

/-- One step of decoding: none when the input does not reach. -/
def Ctx.inflateStep (x : Ctx) : Option (Option Ctx) :=
  match x.blk with
  | 0 =>
    match takeBits 3 x.bits with
    | none => none
    | some (h, r) =>
      let fin := h.headD false
      match natLsb h.tail with
      | 0 =>
        match takeBits (r.length % 8 + 32) r with
        | none => none
        | some (b, r') =>
          let b := b.drop (r.length % 8)
          let n := natLsb (b.take 16)
          if n + natLsb (b.drop 16) = 65535 then some (some { x with bits := r', fin := fin, blk := if n = 0 then 0 else 2 + n })
          else some none
      | 1 => some (some { x with bits := r, fin := fin, blk := 1 })
      | _ => some none
  | 1 =>
    match readSym x.bits with
    | .more => none
    | .bad => some none
    | .eob r => some (some { x with bits := r, blk := 0 })
    | .tok (.lit b) r => some (some ({ x with bits := r }.emit [b]))
    | .tok (.copy l d) r =>
      if x.history.length < d ∨ 32768 < d then some none
      else some (some ({ x with bits := r }.emit ((copyBack l d x.history.toArray).toList.drop x.history.length)))
  | n =>
    match takeBits 8 x.bits with
    | none => none
    | some (b, r) => some (some ({ x with bits := r, blk := if n = 3 then 0 else n - 1 }.emit [BitVec.ofNat 8 (natLsb b)]))

/-- Decoding until a page is whole, the input is used, or the stream is bad. After the final block only the pad and the
trailer may follow. -/
def Ctx.inflate : Nat → Ctx → Ctx × Inflated
  | 0, x => (x, .more)
  | n + 1, x =>
    if 4096 ≤ x.part.length then (x, .page)
    else if x.fin && x.blk == 0 then (x, if 64 + 7 < x.bits.length then .bad else .more)
    else match x.inflateStep with
      | none => (x, .more)
      | some none => (x, .bad)
      | some (some y) => Ctx.inflate n y

/-- With CLOSE: the input ends with the final block, a zero pad and a trailer that matches, and no partial page is left. -/
def Ctx.ends (x : Ctx) : Bool :=
  let pad := x.bits.length % 8
  let tr := packBits 8 (x.bits.drop pad)
  x.fin && x.blk == 0 && x.part.isEmpty && (x.bits.take pad).all (! ·) &&
  tr == leBytes 4 x.crc.toNat ++ leBytes 4 x.inBytes

/-- Bytes that an import has written. -/
def RingCmd.imported (c : RingCmd) : Nat := 4096 * c.progress.1

/-- An import's first whole page written to its destination. -/
def State.importPage (s : State) (c : RingCmd) : JobRes :=
  let lda := c.addrA + c.imported
  match s.jobAddr (some c.ld) lda, s.operandKey c.ld c.streamKey with
  | none, _ => .fail s 3
  | _, none => .fail s 4
  | some a, some key =>
    let p := a / 4096
    if s.earlier c.ld c.ring c.idx (lda / 4096) then .wait s
    else match s.writeReady p key with
    | .fail st => .fail s st
    | .wait => .wait s
    | .promote =>
      if s.decodersOk.isEmpty then .fail s 6
      else if !s.grantable (p / 512) then .fail s 8
      else .wait (s.queuePromo p 255)
    | .go =>
      if (s.page p).st = .moving then .wait s
      else match s.decodersOk with
      | [] => .fail s 6
      | d :: _ =>
        let b := s.linesBlocked (pageLines p) true
        if b = 2 then .fail s 9
        else if b = 1 then .wait (s.invalidate (pageLines p) .internal true)
        else
          let k := s.ctx c.ctxNo
          let res := (s.wakeDom (32 + d / 32)).writeLines p key ((List.range 64).map (fun i => (i, bytesLine (k.part.drop (64 * i)))))
          if res.2 ≠ 0 then .fail res.1 res.2
          else
            let s := (res.1.setCtx c.ctxNo { k with part := k.part.drop 4096, history := clipHistory k.history }).setCmd
              { c with data := leBytes 8 (c.progress.1 + 1) }
            .done (s.occur ⟨uid 6 (32 + d / 2), 6, none, none, some (p * 4096, 0)⟩)

/-- An import's end at a status: what is left of its input is dropped, and what it decoded stays in the context. -/
def State.importStops (s : State) (c : RingCmd) (status : Nat) (broke : Bool) : State :=
  let x := s.ctx c.ctxNo
  (s.setCtx c.ctxNo { x with bits := [] }).streamEnds c status c.imported false broke

/-- An import worked on as far as it can be. -/
def State.importRun (ld r i : Nat) : Nat → State → State
  | 0, s => s
  | n + 1, s => match s.cmdAt ld r i with
    | none => s
    | some c =>
      let x := s.ctx c.ctxNo
      let y := x.inflate (x.bits.length + 1)
      let s := s.setCtx c.ctxNo y.1
      match y.2 with
      | .bad => s.importStops c 2 true
      | .more =>
        if !c.closes then s.streamEnds c 0 c.imported false false
        else if y.1.ends then s.streamEnds c 0 c.imported true false
        else s.importStops c 2 true
      | .page => match s.importPage c with
        | .wait s' => s'
        | .fail s' st => s'.importStops c st false
        | .done s' => State.importRun ld r i n s'

/-- Steps that may be left of an import: its input's bits bound its pages. -/
def State.importFuel (s : State) (c : RingCmd) : Nat :=
  258 * (s.ctx c.ctxNo).bits.length / 4096 + (s.ctx c.ctxNo).part.length / 4096 + 2

/-- An import's input arrives from the host (R305). -/
def State.importData (s : State) (c : RingCmd) (resp : HostResp) : State :=
  match resp with
  | .outstanding => s.setCmd { c with st := .reading }
  | .failed => s.streamEnds c 0xB 0 false false
  | .ok bytes =>
    let x := s.ctx c.ctxNo
    let bytes := bytes.take c.len
    let s := (s.setCtx c.ctxNo { x with bits := x.bits ++ unpackBits bytes, outBytes := x.outBytes + bytes.length }).setCmd
      { c with st := .working, data := zeros 8 }
    State.importRun c.ld c.ring c.idx (s.importFuel c) s

/-- A stream command's read of host memory: nothing is read for LENGTH 0. -/
def State.readHost (s : State) (c : RingCmd) (n : Nat) (resp : HostResp) (f : State → HostResp → State) : State :=
  if n = 0 then f s (.ok [])
  else if !(s.link (ldHead c.ld)).up then f s .failed
  else f (s.hostAsk c.ld c.ring (some c.idx) c.addrB n resp) resp

/-- IMPORT (R301-R303, R305): taken up on its checks with its host data, and worked on each time it is given until it
completes. -/
def execImportStream (ld : LdNo) (r : RingNo) (i : BitVec 16) (resp : HostResp) (s : State) :
    Host.Outcome State Fault Refusal :=
  .next (match (if s.live then s.cmdAt ld r i.toNat else none) with
    | none => s
    | some c =>
      if c.opcode ≠ 10 ∨ c.ctxOp = 1 ∨ c.ctxOp = 2 then s
      else match c.st with
        | .started =>
          if !s.infB ACCESS.STREAM_OK ld then s.fail c 0xE
          else if !c.arg0Ok || !rangeOk c.addrA 0 4096 || c.addrB % 64 != 0 || decide (2 ^ 30 < c.len) then s.fail c 2
          else match s.ctxFor c 2 with
            | none => s.fail c 0xA
            | some k =>
              if (s.operandKey ld c.streamKey).isNone then s.fail c 4
              else if (s.link (ldHead ld)).up && !s.canAsk ld && c.len != 0 then s
              else
                let s := s.setCtx c.ctxNo { k with busy := true }
                s.readHost c c.len resp (fun s x => s.importData c x)
        | .working => State.importRun ld r i.toNat (s.importFuel c) s
        | _ => s)

/-! ### SAVE and RESTORE (R306) -/

/-- The 240 bytes of state in a context image (its layout is the model's own: the image is opaque to hosts). -/
def Ctx.stateBytes (x : Ctx) (ld : Nat) : List (BitVec 8) :=
  let bs := leBytes 1 x.st ++ leBytes 1 ld ++ leBytes 4 x.history.length ++ leBytes 4 x.part.length ++ leBytes 8 x.inBytes ++
    leBytes 8 x.outBytes ++ leBytes 4 x.crc.toNat ++ leBytes 4 x.blk ++ leBytes 1 (if x.fin then 1 else 0) ++
    leBytes 1 x.bits.length ++ leBytes 16 (natLsb x.bits)
  bs ++ zeros (240 - bs.length)

/-- The tag of a context image: it binds the LD number in its state, under a key drawn at each device reset. -/
def State.imageTag (s : State) (body : List (BitVec 8)) : List (BitVec 8) :=
  leBytes 16 (Config.hmacSha256 s.sealing.imageKey body).toNat

/-- A context's image for an LD. -/
def State.ctxImage (s : State) (x : Ctx) (ld : Nat) : List (BitVec 8) :=
  let h := clipHistory x.history
  let body := zeros (32768 - h.length) ++ h ++ { x with history := h }.stateBytes ld
  body ++ s.imageTag body

/-- The context that an image holds, when its tag verifies and it names the LD. -/
def State.imageCtx (s : State) (img : List (BitVec 8)) (ld : Nat) : Option Ctx :=
  let body := img.take 33008
  let t := body.drop 32768
  if img.length = 33024 ∧ img.drop 33008 = s.imageTag body ∧ leAt t 1 1 = ld then
    let h := (body.take 32768).drop (32768 - leAt t 2 4)
    some { st := leAt t 0 1, busy := false, holder := ld, inBytes := leAt t 10 8, outBytes := leAt t 18 8,
           crc := BitVec.ofNat 32 (leAt t 26 4), history := h, bits := bitsLsb (leAt t 35 1) (leAt t 36 16),
           part := h.drop (h.length - leAt t 6 4), blk := leAt t 30 4, fin := leAt t 34 1 == 1 }
  else none

/-- The operands of SAVE and RESTORE are in range (R301, R306). -/
def RingCmd.imageOk (c : RingCmd) : Bool := c.arg0Ok && c.len == 0 && decide (33024 ≤ c.arg1) && c.addrB % 64 == 0

/-- A started command of EXPORT or IMPORT with a CTX_OP is taken up, when the LD may stream and its operands are in range. -/
def State.takeCtxOp (s : State) (ld r i op : Nat) (f : RingCmd → State) : State :=
  match (if s.live then s.cmdAt ld r i else none) with
  | some c =>
    if c.st ≠ .started ∨ ¬ (c.opcode = 9 ∨ c.opcode = 10) ∨ c.ctxOp ≠ op then s
    else if !s.infB ACCESS.STREAM_OK ld then s.fail c 0xE
    else if !c.imageOk then s.fail c 2
    else f c
  | none => s

/-- SAVE (R302, R306). -/
def execSave (ld : LdNo) (r : RingNo) (i : BitVec 16) (hostOk : Bool) (s : State) : Host.Outcome State Fault Refusal :=
  .next (s.takeCtxOp ld r i.toNat 1 (fun c =>
    let x := s.ctx c.ctxNo
    if ¬ (x.st = 1 ∨ x.st = 2) ∨ x.busy = true ∨ x.holder ≠ c.ld then s.fail c 0xA
    else
      let up := (s.link (ldHead ld)).up
      if !hostOk || !up then s.fail c 0xB
      else if !s.canPost ld then s
      else ((s.hostPost c.ld c.addrB (s.ctxImage x c.ld)).setCtx c.ctxNo Ctx.init).finishCmd c.ld c.ring c.idx 0 33024))

/-- A context may be loaded: it is free, and the LD below its quota (R302). -/
def State.mayLoadCtx (s : State) (c : RingCmd) : Bool := (s.ctx c.ctxNo).st == 0 && s.underQuota c.ld

/-- A context image arrives from the host (R306). The RESULT of a RESTORE that loads is a free value (log entry 2). -/
def State.restoreData (s : State) (c : RingCmd) (resp : HostResp) : State :=
  match resp with
  | .outstanding => s.setCmd { c with st := .reading }
  | .failed => s.fail c 0xB
  | .ok bytes =>
    match (if s.mayLoadCtx c then s.imageCtx bytes c.ld else none) with
    | none => s.fail c 0xA
    | some x => ((s.took).setCtx c.ctxNo x).finishCmd c.ld c.ring c.idx 0 s.fresh

/-- RESTORE (R302, R306). -/
def execRestore (ld : LdNo) (r : RingNo) (i : BitVec 16) (resp : HostResp) (s : State) : Host.Outcome State Fault Refusal :=
  .next (s.takeCtxOp ld r i.toNat 2 (fun c =>
    if !s.mayLoadCtx c then s.fail c 0xA
    else if (s.link (ldHead ld)).up && !s.canAsk ld then s
    else s.readHost c 33024 resp (fun s x => s.restoreData c x)))

end Sys2Proof.Machine
end

