-- ==== Sys2Proof/Machine/Runs.lean ====
section
/-! DEFINITION. RUN and its dispatch, the SNAP ring command, and the answers of hosts to the device's reads
(R110, R158-R160, R165, R193, R476, R477). -/
namespace Sys2Proof.Machine

/-! ### RUN (R75, R110, R158, R159, R165) -/

/-- Bytes in 4 KiB granules. -/
def granules (n : Nat) : Nat := (n + 4095) / 4096

/-- The tenant windows in use on a wayfinder, as first granule and granules. -/
def State.windowsUsed (s : State) (w : Nat) : List (Nat × Nat) :=
  ([1, 2, 3].map (fun t => s.thread w t)).filterMap (fun x =>
    if x.st ≠ .idle ∧ 2 ^ 17 ≤ x.winBase ∧ x.winSize < 2 ^ 18 then some (x.winBase / 4096, granules x.winSize) else none)

/-- A tenant window (R159): the lowest granules that are free. -/
def State.placeWindow (s : State) (w size : Nat) : Option Nat :=
  (firstFrom (fun g => decide (g + granules size ≤ 48) &&
    (s.windowsUsed w).all (fun u => decide (g + granules size ≤ u.1) || decide (u.1 + u.2 ≤ g))) 32 16).map (· * 4096)

/-- Running wayfinders that hold a program (R158). -/
def State.holders (s : State) (p : Program) : List Nat :=
  (List.range 16).filter (fun w => p.mask.getLsbD w && (s.wf w).released && !(s.wf w).stopped)

/-- The order in which wayfinders are chosen: active, parked, shelved (R158). -/
def State.wfRank (s : State) (w : Nat) : Nat :=
  match s.rd POWER.STATE (34 + w) with | 0 => 0 | 2 => 2 | _ => 1

/-- The thread that a RUN of a program goes to: the lowest wayfinder of the best rank with an idle thread, and its
lowest (R158). -/
def State.idleThread (s : State) (p : Program) : Option (Nat × Nat) :=
  let able := (s.holders p).filterMap (fun w =>
    if s.wfRuns w then (([1, 2, 3].find? (fun t => (s.thread w t).st == .idle)).map (fun t => (w, t))) else none)
  able.foldl (fun b x => match b with
    | none => some x
    | some y => if s.wfRank x.1 < s.wfRank y.1 then some x else some y) none

/-- A RUN is dispatched (R157-R159): its window zeroed, its arguments copied to offset 0. -/
def State.runStart (s : State) (c : RingCmd) (p : Program) (w t : Nat) : State :=
  match s.placeWindow w p.scratch with
  | none => s
  | some base =>
    let s : State := { s with soft := { s.soft with
      runQ := s.soft.runQ.filter (fun d => ¬ (d.ld = c.ld ∧ d.ring = c.ring ∧ d.idx = c.idx))
      scratch := s.soft.scratch.filter (fun x => ¬ (scrAddr w base ≤ x.1 ∧ x.1 < scrAddr w base + p.scratch)) } }
    ((s.wakeUnit (uid 8 w)).setScr w base c.data).startThread w t c.arg0 p base p.scratch 0 (BitVec.ofNat 64 c.len)
      (BitVec.ofNat 64 c.ld) (some (c.ld, c.ring, c.idx))

/-- Of two waiting RUNs, the one fetched first, the lower LD among equals (R158). -/
def runsBefore (a b : RingCmd) : Bool := decide (a.at_ < b.at_) || (a.at_ == b.at_ && decide (a.ld < b.ld))

/-- The next waiting RUN that finds an idle thread, with that thread (R158). -/
def State.nextRun (s : State) : Option (RingCmd × Program × Nat × Nat) :=
  s.soft.runQ.foldl (fun b c =>
    match s.program c.arg0 with
    | none => b
    | some p => match s.idleThread p with
      | none => b
      | some (w, t) => match b with
        | none => some (c, p, w, t)
        | some x => if runsBefore c x.1 then some (c, p, w, t) else b) none

/-- A waiting RUN dispatched, when a thread is free (R158). -/
def State.dispatchRun (s : State) : State :=
  match s.nextRun with
  | some (c, p, w, t) => s.runStart c p w t
  | none => s

/-- RUN_DISPATCH (R158). -/
def execRunDispatch (s : State) : Host.Outcome State Fault Refusal := .next (if s.live then s.dispatchRun else s)

/-- A RUN's argument block arrives (R159): it waits for a thread, or is dispatched at once. -/
def State.runData (s : State) (c : RingCmd) (resp : HostResp) : State :=
  match resp with
  | .outstanding => s.setCmd { c with st := .reading }
  | .failed => s.fail c 0xB
  | .ok bytes =>
    let c := { c with st := .working, data := bytes.take c.len }
    let s := s.setCmd c
    ({ s with soft := { s.soft with runQ := s.soft.runQ ++ [c] } }).abortUnservable.dispatchRun

/-- The program a RUN names, when it is loaded for the invoking LD. -/
def State.runProgram (s : State) (c : RingCmd) : Option Program :=
  match (if c.arg0 < 256 then s.program c.arg0 else none) with
  | some p => if p.kind = .tenant c.ld then some p else none
  | none => none

/-- RUN (R158). -/
def execRun (ld : LdNo) (r : RingNo) (i : BitVec 16) (resp : HostResp) (s : State) : Host.Outcome State Fault Refusal :=
  .next (s.takeUp ld r i.toNat 11 (fun c =>
    if !s.infB ACCESS.RUN_OK ld then s.fail c 0xE
    else if s.phase = 0 ∨ s.phase = 3 then s.fail c 7
    else if c.addrB % 64 ≠ 0 ∨ 4096 < c.len then s.fail c 2
    else match s.runProgram c with
      | none => s.fail c 2
      | some p =>
        if p.scratch < c.len then s.fail c 2
        else if (s.holders p).isEmpty then s.fail c 0xC
        else if (s.link (ldHead ld)).up && !s.canAsk ld && c.len != 0 then s
        else s.readHost c c.len resp (fun s x => s.runData c x)))

/-! ### SNAP (R110, R475-R477) -/

/-- A SNAP whose snapshot has completed writes the current image. -/
def State.snapWrite (s : State) (c : RingCmd) (hostOk : Bool) : State :=
  let g := c.arg0
  if s.snapOut g (BitVec.ofNat 32 (leAt c.data 0 4)) then s
  else
    let up := (s.link (ldHead c.ld)).up
    if !hostOk || !up then s.fail c 0xB
    else if !s.canPost c.ld then s
    else (s.hostPost c.ld c.addrB (s.snapImage g (some c.ld))).finishCmd c.ld c.ring c.idx 0 ((s.bank g).gen.zeroExtend 64)

/-- SNAP (R477): requests its snapshot when taken up, and writes the image each time it is given once the snapshot has
completed. -/
def execSnap (ld : LdNo) (r : RingNo) (i : BitVec 16) (hostOk : Bool) (s : State) : Host.Outcome State Fault Refusal :=
  .next (match (if s.live then s.cmdAt ld r i.toNat else none) with
    | none => s
    | some c =>
      if c.opcode ≠ 12 then s
      else match c.st with
        | .started =>
          if !(s.infB ACCESS.SNAP_OK ld && s.infB ACCESS.MILEPOST_WINDOW ld) then s.fail c 0xE
          else if 16 < c.arg0 ∨ c.len < 328 ∨ 2 ^ 30 < c.len ∨ c.addrB % 64 ≠ 0 then s.fail c 2
          else if !s.groupSeen ld c.arg0 then s.fail c 0xE
          else
            let q := s.snapAsk c.arg0
            q.1.setCmd { c with st := .working, data := leBytes 4 q.2.toNat }
        | .working => s.snapWrite c hostOk
        | _ => s)

/-! ### Answers of hosts (R193) -/

/-- Host data for the command that asked for it. -/
def State.hostData (s : State) (c : RingCmd) (resp : HostResp) : State :=
  if c.opcode = 11 then s.runData c resp
  else if c.ctxOp = 2 then s.restoreData c resp
  else s.importData c resp

/-- TLP type of a completion, with data or without (PRESUMED, log entry 15). -/
def cplType : HostResp → Nat
  | .ok _ => 0x4A
  | _ => 0x0A

/-- CXL_IO_COMPLETION (R193): answers the read with its tag; one that matches none is violation 0x10, dropped and reported
as an advisory non-fatal error. -/
def execCxlIoCompletion (h : HeadNo) (tag : BitVec 16) (resp : HostResp) (s : State) : Host.Outcome State Fault Refusal :=
  .next (if !s.live || !(s.link h).up || resp == .outstanding then s
    else match s.soft.ioReads.find? (fun q => q.head == h.val && q.tag == tag) with
    | none => (s.violate h 0xFF 0x10 1 0 (cplType resp + tag.toNat * 2 ^ 8)).send (.errCor (16 * h))
    | some q =>
      let s : State := { s with soft := { s.soft with ioReads := s.soft.ioReads.filter (fun x => ¬ (x.head = h.val ∧ x.tag = tag)) } }
      match q.idx with
      | none => if q.ring < 128 ∧ (s.ring q.ld q.ring).fetching = true then s.fetchAnswer q.ld q.ring resp else s
      | some i => match s.cmdAt q.ld q.ring i with
        | some c => if c.st = .reading then s.hostData c resp else s
        | none => s)

end Sys2Proof.Machine
end

