-- ==== Sys2Proof/Machine/Loader.lean ====
section
/-! DEFINITION. The loader: LOAD, UNLOAD, START, STOP, QUERY, RESTART, the program load window, and the end of a
wayfinder's restart (R148-R155, R164, R165). -/
namespace Sys2Proof.Machine

/-! ### Who asks (R82, R151) -/

/-- An LD that is not the owner, which acts for itself only. -/
def State.forItself (s : State) (snd : Sender) : Option Nat :=
  match snd with
  | .ld n => if s.isOwner snd then none else some n.val
  | _ => none

/-- The sender's path carries requests. -/
def State.loaderUp (s : State) (snd : Sender) : Bool :=
  s.live && (match snd with
    | .ep => s.funcUp 256
    | .window => s.funcUp 256
    | .bmc => true
    | .ld n => s.funcUp n)

/-! ### The program load window (R153) -/

/-- Bytes of the staging buffer. -/
def winBytes : Nat := 131072

/-- The request block and payload in the staging buffer, as request bytes. -/
def State.winReq (s : State) (off n : Nat) : List (BitVec 8) := s.soft.win.buf.readN off n

/-- The response of a request: to the window's registers, or as a message. The window shows STATUS and PROGRAM only: bytes 4-15
of a QUERY's response have no register there, and go nowhere (DESIGN CHOICE, log entry 62). -/
def State.reply (s : State) (snd : Sender) (status program : Nat) (extra : List (BitVec 8)) : State :=
  let st := BitVec.ofNat 8 status
  let pr := BitVec.ofNat 8 program
  if snd = .window then
    { s with soft := { s.soft with win := { s.soft.win with busy := false, status := st, program := pr } } }
  else s.send (.loader st pr extra)

/-- A response that names no program: its PROGRAM byte is a free value (log entry 2). -/
def State.replyNone (s : State) (snd : Sender) (status : Nat) : State := s.took.reply snd status (s.fresh.toNat % 256) []

/-- A loader request on its path. One through the window is the request that the staging buffer holds since GO. -/
def State.loaderOp (s : State) (snd : Sender) (held : State → Bool) (f : State → State) : State :=
  if !s.loaderUp snd then s
  else if snd = .window ∧ (s.soft.win.busy = false ∨ held s = false) then s
  else f (match snd with | .bmc => s.from_ 1 | _ => s)

/-- The window's request block has an OP, a WF_MASK, a PROGRAM and a THREAD as given (`none`: not used). -/
def State.blockIs (s : State) (op : Nat) (mask prog thr : Option Nat) : Bool :=
  let b := s.winReq 0 32
  let is := fun (x : Option Nat) (v : Nat) => match x with | some y => y == v | none => true
  leAt b 0 1 == op && is mask (leAt b 2 2) && is prog (leAt b 1 1) && is thr (leAt b 4 1)

/-- The payload in the window, of its PAYLOAD_LENGTH. -/
def State.winPayload (s : State) : List (BitVec 8) := s.winReq 32 (leAt (s.winReq 0 32) 8 4)

/-- The only wayfinder of a mask. -/
def oneWf (mask : BitVec 16) : Option Nat :=
  let ws := (List.range 16).filter (fun w => mask.getLsbD w)
  match ws with | [w] => some w | _ => none

/-- The wayfinder is released and not stopped. -/
def State.wfAvail (s : State) (w : Nat) : Bool := (s.wf w).released && !(s.wf w).stopped

/-! ### LOAD and UNLOAD (R150-R155) -/

/-- Loaded programs with their numbers. -/
def State.loaded (s : State) : List (Nat × Program) :=
  s.soft.programs.filterMap (fun x => match x.2 with | some p => some (x.1, p) | none => none)

/-- The code range of an image is free on every wayfinder of a mask (R154). -/
def State.rangeFree (s : State) (img : List (BitVec 8)) (mask : BitVec 16) : Bool :=
  let h := hdrOf img
  s.loaded.all (fun x => x.2.mask &&& mask == 0 || decide (x.2.base + x.2.len ≤ h.base) || decide (h.base + h.code ≤ x.2.base))

/-- Tenant programs of an LD. -/
def State.tenantCount (s : State) (ld : Nat) : Nat := (s.loaded.filter (fun x => x.2.kind == .tenant ld)).length

/-- The status of a LOAD (R150-R154). -/
def State.loadStatus (s : State) (snd : Sender) (mask : BitVec 16) (img : List (BitVec 8)) : Nat :=
  let own := s.isOwner snd
  let h := hdrOf img
  if !own && ((s.forItself snd).isNone || h.kind != 3) then 1
  else if mask = 0 then 2
  else if !hdrOk img || h.kind == 1 then 3
  else if (match s.forItself snd with | some n => h.ld != n | none => false) then 3
  else if s.noKey img then 5
  else if !s.sigOk img then 4
  else if (List.range 16).any (fun w => mask.getLsbD w && !s.wfAvail w) then 9
  else if !s.rangeFree img mask || s.loaded.length == 256 || (h.kind == 3 && decide (8 ≤ s.tenantCount h.ld)) then 6
  else 0

/-- The lowest free program number in 1-255. -/
def State.freeProgram (s : State) : Nat := (firstFrom (fun n => (s.program n).isNone) 1 255).getD 0

/-- A verified image placed (R154). -/
def State.place (s : State) (mask : BitVec 16) (img : List (BitVec 8)) : State :=
  let p := programOf img mask
  let s := s.setProgram s.freeProgram (some p)
  (List.range 16).foldl (fun s w => if mask.getLsbD w then
    { s with soft := { s.soft with istore := s.soft.istore.writeN (isAddr w p.base) p.code } } else s) s

/-- LOAD (R154). -/
def execLoad (snd : Sender) (mask : BitVec 16) (image : List (BitVec 8)) (s : State) : Host.Outcome State Fault Refusal :=
  .next (s.loaderOp snd (fun s => s.blockIs 1 (some mask.toNat) none none && s.winPayload == image) (fun s =>
    let st := s.loadStatus snd mask image
    if st = 0 then (s.place mask image).reply snd 0 s.freeProgram [] else s.replyNone snd st))

/-- A program runs, or a RUN command waits for it (R155). -/
def State.programBusy (s : State) (n : Nat) : Bool :=
  (List.range 64).any (fun k => (s.thread (k / 4) (k % 4)).st != .idle && (s.thread (k / 4) (k % 4)).prog == n) ||
  s.soft.cmds.any (fun c => c.opcode == 11 && c.arg0 == n && (c.st == .working || c.st == .reading))

/-- The program that a sender names: a tenant LD only its own (R152). -/
def State.named (s : State) (snd : Sender) (n : Nat) : Option Program :=
  match s.program n, s.forItself snd with
  | some p, some ld => if p.kind = .tenant ld then some p else none
  | x, none => x
  | none, _ => none

/-- The status of an UNLOAD (R151, R155). -/
def State.unloadStatus (s : State) (snd : Sender) (n : Nat) : Nat :=
  if !s.isOwner snd && (s.forItself snd).isNone then 1
  else if n = 0 then 2
  else if (s.named snd n).isNone then 7
  else if s.programBusy n then 8 else 0

/-- A program removed, with its code in every instruction store. -/
def State.removeProgram (s : State) (n : Nat) : State :=
  match s.program n with
  | none => s
  | some p =>
    let s := s.setProgram n none
    (List.range 16).foldl (fun s w => if p.mask.getLsbD w then s.rewriteStore w else s) s

/-- UNLOAD (R155). -/
def execUnload (snd : Sender) (prog : BitVec 8) (s : State) : Host.Outcome State Fault Refusal :=
  .next (s.loaderOp snd (fun s => s.blockIs 2 none (some prog.toNat) none) (fun s =>
    let st := s.unloadStatus snd prog.toNat
    (if st = 0 then s.removeProgram prog.toNat else s).reply snd st prog.toNat []))

/-! ### START, STOP, QUERY, RESTART (R152, R155, R157, R164) -/

/-- The status of a START (R152, R158). -/
def State.startStatus (s : State) (snd : Sender) (mask : BitVec 16) (thr prog : Nat) (args : List (BitVec 8)) : Nat :=
  if !s.isOwner snd then 1
  else match oneWf mask with
  | none => 2
  | some w =>
    if thr < 1 ∨ 3 < thr ∨ 4096 < args.length then 2
    else if !s.wfAvail w then 9
    else match s.program prog with
    | none => 7
    | some p =>
      if !p.mask.getLsbD w then 7
      else if p.kind ≠ .owner then 2
      else if (s.wf w).restarting || (s.thread w thr).st != .idle then 8 else 0

/-- An owner invocation started (R113, R157, R159). -/
def State.startOwner (s : State) (w t n : Nat) (args : List (BitVec 8)) : State :=
  match s.program n with
  | none => s
  | some p =>
    let g1 : BitVec 64 := if args = [] then 0 else 0x1F000
    ((s.wakeUnit (uid 8 w)).setScr w 0x1F000 args).startThread w t n p 0 (2 ^ 18) g1 (BitVec.ofNat 64 args.length) 0xFFFF none

/-- START (R158). -/
def execStart (snd : Sender) (mask : BitVec 16) (thr prog : BitVec 8) (args : List (BitVec 8)) (s : State) :
    Host.Outcome State Fault Refusal :=
  .next (s.loaderOp snd (fun s => s.blockIs 3 (some mask.toNat) (some prog.toNat) (some thr.toNat) && s.winPayload == args) (fun s =>
    let st := s.startStatus snd mask thr.toNat prog.toNat args
    let s := if st = 0 then s.startOwner ((oneWf mask).getD 0) thr.toNat prog.toNat args else s
    s.reply snd st prog.toNat []))

/-- The status of a STOP (R155). -/
def State.stopStatus (s : State) (snd : Sender) (mask : BitVec 16) (thr : Nat) : Nat :=
  if !s.isOwner snd then 1
  else match oneWf mask with
  | none => 2
  | some w => if thr < 1 ∨ 3 < thr then 2 else if !s.wfAvail w then 9 else 0

/-- A thread's invocation stopped (R155): it ends once its MOVEs complete; a RUN completes with ABORTED. -/
def State.stopThread (s : State) (w t : Nat) : State :=
  let x := s.thread w t
  match x.wait with
  | .ending _ _ _ => s
  | _ => if x.st = .idle then s else s.endWhenMoved w t 0b10 0xFF 0x0C 0

/-- STOP (R155). -/
def execStop (snd : Sender) (mask : BitVec 16) (thr : BitVec 8) (s : State) : Host.Outcome State Fault Refusal :=
  .next (s.loaderOp snd (fun s => s.blockIs 4 (some mask.toNat) none (some thr.toNat)) (fun s =>
    let st := s.stopStatus snd mask thr.toNat
    (if st = 0 then s.stopThread ((oneWf mask).getD 0) thr.toNat else s).replyNone snd st))

/-- The state code of a thread in QUERY. -/
def Thread.code (x : Thread) : Nat :=
  if x.st = .idle then 0 else if x.dbg then 3 else if x.st = .running then 1 else 2

/-- Bytes 4-15 of a QUERY's response (R152). -/
def State.queryBytes (s : State) (w : Nat) : List (BitVec 8) :=
  let th := fun t => s.thread w t
  let num := fun t => if (th t).st = .idle then (th t).lastProg else (th t).prog
  leBytes 1 ((List.range 4).map (fun t => (th t).code * 4 ^ t)).sum ++
  [1, 2, 3].flatMap (fun t => leBytes 1 (num t)) ++
  [1, 2, 3].flatMap (fun t => leBytes 2 (th t).endStatus.toNat) ++
  leBytes 1 ([1, 2, 3].map (fun t => (th t).endKind.toNat * 4 ^ (t - 1))).sum ++ [0]

/-- QUERY (R152), which any sender may ask. -/
def execQuery (snd : Sender) (mask : BitVec 16) (prog : BitVec 8) (s : State) : Host.Outcome State Fault Refusal :=
  .next (s.loaderOp snd (fun s => s.blockIs 5 (some mask.toNat) (some prog.toNat) none) (fun s =>
    match oneWf mask with
    | none => s.reply snd 2 prog.toNat []
    | some w =>
      let there := match s.named snd prog.toNat with | some p => p.mask.getLsbD w | none => false
      if prog ≠ 0 ∧ there = false then s.reply snd 7 prog.toNat []
      else s.reply snd 0 prog.toNat (s.queryBytes w)))

/-- RESTART (R164), an owner request. -/
def execRestart (snd : Sender) (mask : BitVec 16) (s : State) : Host.Outcome State Fault Refusal :=
  .next (s.loaderOp snd (fun s => s.blockIs 6 (some mask.toNat) none none) (fun s =>
    if !s.isOwner snd then s.replyNone snd 1
    else match oneWf mask with
    | none => s.replyNone snd 2
    | some w => if !s.wfAvail w then s.replyNone snd 9 else (s.restartWf w).replyNone snd 0))

/-- WIN_CLEAR (R153): zeroes the staging buffer, unless a request in it is being served. -/
def State.winClear (s : State) : State :=
  if s.soft.win.busy then s
  else { s with soft := { s.soft with win := { s.soft.win with buf := [] } } }

/-- WIN_CLEAR (R153). -/
def execWinClear (s : State) : Host.Outcome State Fault Refusal := .next (if s.funcUp 256 then s.winClear else s)

/-- A base image in the staging buffer, waiting under R72 (R153): the boot record at 0, its image at IMAGE_OFFSET. -/
def State.winFlash (s : State) : Flash :=
  let r := s.winReq 0 512
  { record := r, image := s.winReq 0x1000 (min (leAt r 0x0E8 4) winBytes) }

/-- GO (R153): a request that no row of the loader takes is answered at once; the others wait for theirs. While the device waits
under R72 it takes a boot record and an image, where OWNMODE lets the endpoint stand. -/
def State.winGo (s : State) : State :=
  if s.soft.win.busy then s
  else if s.board.hold = .recovery6 ∨ s.board.hold = .recovery10 then
    (if s.eligible 0 then (s.recoveryImage s.winFlash).2 else s)
  else
    let b := s.winReq 0 32
    let op := leAt b 0 1
    let n := leAt b 8 4
    let s : State := { s with soft := { s.soft with win := { s.soft.win with busy := true } } }
    if op < 1 ∨ 6 < op ∨ (op = 1 ∧ winBytes - 32 < n) ∨ (op = 3 ∧ 4096 < n) ∨ (op ≠ 1 ∧ op ≠ 3 ∧ n ≠ 0) then s.replyNone .window 2 else s

/-- WAYFINDER_RESTART_COMPLETE (R164): the base program runs again from its entry. -/
def execWayfinderRestartComplete (w : WfNo) (s : State) : Host.Outcome State Fault Refusal :=
  .next (if s.live && (s.wf w).restarting && s.board.hold == .none then
      ((s.setWf w { s.wf w with restarting := false }).startBase w).endHandling (uid 8 w) [0x1E, 0x1F]
    else s)

end Sys2Proof.Machine
end

