-- ==== Sys2Proof/Machine/Keys.lean ====
section
/-! DEFINITION. Key slots, and the events of sealing: merge windows, read-verifies, re-encryption, and the milestone
tree (R311-R313, R321, R326-R329, R336, R337, R349, R350). -/
namespace Sys2Proof.Machine

/-! ### Key slots (R313, R349, R350) -/

/-- PAGES of a key slot: pages that record it (R350). -/
def State.keyPages (s : State) (k : Nat) : Nat :=
  (s.plc.pages.filter (fun p => p.2.unit.isSome && p.2.key == k)).length

/-- MAPS of a key slot: valid KEYMAP entries that name it (R350). An LD's entry for KeyID 0 maps to slot 0 at reset (R312). -/
def State.keyMaps (s : State) (k : Nat) : Nat :=
  let listed := (s.tab.filter (fun (p : Nat × BitVec 64) => p.1 / 2 ^ 56 == 4 && p.1 % 256 == 0)).map (fun p => p.1 / 256 % 2 ^ 48)
  let ids := (List.range 256).foldl (fun l i => insUniq (4096 * i) l) listed
  (ids.filter (fun i => s.rdB KEYMAP.VALID i && s.rd KEYMAP.SLOT i == k)).length

/-- The status of an INSTALL (R313). -/
def State.installStatus (s : State) (k : Nat) (material : BitVec 256) (gen : Bool) : Nat :=
  if s.rdB KEYSLOT.INSTALLED k then 5 else if !gen && material == 0 then 8 else 0

/-- A key slot becomes installed (R313): the key given, or drawn on die (free values, log entry 2). -/
def State.installed (s : State) (k : Nat) (material : BitVec 256) (mode : Nat) (dbg gen : Bool) : State :=
  let d : Nat × State := if gen then State.draw 4 s else (material.toNat, s)
  let s := d.2
  let s : State := { s with sealing := { s.sealing with keys := tset (fun _ => 0) s.sealing.keys k (BitVec.ofNat 256 d.1) } }
  ((s.wr KEYSLOT.INSTALLED k 1).wr KEYSLOT.ACTIVE_MODE k mode).wr KEYSLOT.ACTIVE_DEBUGGABLE k (if dbg then 1 else 0)

/-- An INSTALL stored with its MATERIAL, MODE and DEBUGGABLE. -/
def State.install (s : State) (k : Nat) (material : BitVec 256) (mode : Nat) (dbg gen : Bool) : Nat × State :=
  let st := s.installStatus k material gen
  (st, if st = 0 then
      ((s.wr KEYSLOT.MODE k mode).wr KEYSLOT.DEBUGGABLE k (if dbg then 1 else 0)).installed k material mode dbg gen
    else s)

/-- INSTALL (R313). -/
def execInstall (w : WfNo) (t : ThrNo) (d : Reg) (k : BitVec 12) (material : BitVec 256) (mode : BitVec 2) (dbg gen : Bool)
    (s : State) : Host.Outcome State Fault Refusal :=
  .next (ownerStore w t d (fun s => s.install k.toNat material mode.toNat dbg gen) s)

/-- The status of a CLEAR (R313). -/
def State.clearStatus (s : State) (k : Nat) : Nat :=
  if !s.rdB KEYSLOT.INSTALLED k then 0
  else if k = 0 then 5
  else if s.keyMaps k ≠ 0 then 4
  else if s.keyPages k ≠ 0 then 5 else 0

/-- A key slot emptied: its key is zeroized (R313). -/
def State.clearKey (s : State) (k : Nat) : State :=
  let s : State := { s with sealing := { s.sealing with keys := tset (fun _ => 0) s.sealing.keys k 0 } }
  ((s.wr KEYSLOT.INSTALLED k 0).wr KEYSLOT.ACTIVE_MODE k 0).wr KEYSLOT.ACTIVE_DEBUGGABLE k 0

/-- CLEAR (R313). -/
def execClear (w : WfNo) (t : ThrNo) (d : Reg) (k : BitVec 12) (s : State) : Host.Outcome State Fault Refusal :=
  .next (ownerStore w t d (fun s =>
    let st := s.clearStatus k.toNat
    (st, if st = 0 then s.clearKey k.toNat else s)) s)

/-! ### Merge entries (R326-R329) -/

/-- The merge entry of a span. -/
def State.mergeAt (s : State) (u frame span : Nat) : Option Merge :=
  s.sealing.merges.find? (fun m => m.unit == u && m.frame == frame && m.span == span)

/-- MERGE_WINDOW_EXPIRY (R327): the entry is closed, and its read-verify runs. -/
def execMergeWindowExpiry (u : UnitNo) (frame : BitVec 28) (span : BitVec 4) (s : State) : Host.Outcome State Fault Refusal :=
  .next (if s.live then
      { s with sealing := { s.sealing with merges := s.sealing.merges.map (fun m =>
          if m.unit = u.val ∧ m.frame = frame.toNat ∧ m.span = span.toNat then { m with until_ := min m.until_ s.time.fclk } else m) } }
    else s)

/-- MERGE_ENTRY_SEAL (R328, R329): a closed entry is read-verified, as its read decodes, and sealed. -/
def execMergeEntrySeal (u : UnitNo) (frame : BitVec 28) (span : BitVec 4) (dec : Decode) (s : State) :
    Host.Outcome State Fault Refusal :=
  .next (match (if s.live then s.mergeAt u.val frame.toNat span.toNat else none) with
    | none => s
    | some m =>
      if s.time.fclk < m.until_ then s
      else ((s.decodeFaults u.val (frame.toNat * 64 + 4 * span.toNat) dec).sealMerge m dec).settle)

/-! ### Re-encryption and the tree (R321, R336, R337) -/

/-- REENCRYPTION_COMPLETE (R321): the held accesses are released in their order. -/
def execReencryptionComplete (p : BitVec 34) (s : State) : Host.Outcome State Fault Refusal :=
  .next (if s.live && s.sealing.reenc.contains p.toNat then
      (({ s with sealing := { s.sealing with reenc := s.sealing.reenc.filter (· ≠ p.toNat) } }).unpark).settle
    else s)

/-- TREE_NODE_WRITEBACK (R336): a dirty node leaves the tree cache; its parent's MINOR for it advances, and both copies
are written with the new MAC. -/
def execTreeNodeWriteback (level : Fin 4) (idx : BitVec 33) (s : State) : Host.Outcome State Fault Refusal :=
  let l := level.val
  let i := idx.toNat
  .next (if s.live && s.sealing.dirty.contains (l, i) then
      (({ s with sealing := { s.sealing with dirty := s.sealing.dirty.filter (· ≠ (l, i)) } }).advance (l + 1) i).remac l i
    else s)

/-- NODE_REBASE_COMPLETE (R337). -/
def execNodeRebaseComplete (level : Fin 6) (idx : BitVec 33) (s : State) : Host.Outcome State Fault Refusal :=
  let l := level.val
  let i := idx.toNat
  .next (if s.live && s.sealing.rebase.contains (l, i) then
      (((({ s with sealing := { s.sealing with rebase := s.sealing.rebase.filter (· ≠ (l, i)) } }).resealChildren l i).unpark)).settle
    else s)

end Sys2Proof.Machine
end

