-- ==== Sys2Proof/Machine/RamerData.lean ====
section
/-! DEFINITION. The data-path instructions that start range jobs or act on lines: MOVE, STOW, UNSTOW, BINV, MREAD, MWRITE
(R133, R134, R136-R139), and the debug read's completion (R107, R344). -/
namespace Sys2Proof.Machine

/-! ### MOVE (R136-R138) -/

/-- TARGET codes of TIER (R136). -/
def moveTargetOk (t : Nat) : Bool :=
  decide (t ≤ 1) || (decide (0x10 ≤ t) && decide (t ≤ 0x13)) || (decide (0x20 ≤ t) && decide (t ≤ 0x37))

/-- A range's pages map to device memory for the invocation (R138): the first page, and each further region's first. -/
def State.rangeMaps (s : State) (ld : Option Nat) (a len : Nat) : Bool :=
  (s.jobAddr ld a).isSome && (s.jobAddr ld (a + len - 1)).isSome &&
  (List.range ((len + 2 ^ 21 - 1) / 2 ^ 21)).all (fun i => (s.jobAddr ld (a + i * 2 ^ 21)).isSome)

/-- A key operand of a data-path instruction (R133): a device slot, or an LD's mapped local KeyID. -/
def State.dataKey (s : State) (ld : Option Nat) (k : Nat) : Option Nat :=
  match ld with
  | some l => s.operandKey l k
  | none => if k < 4096 then some k else none

/-- The status of a descriptor's checks at acceptance (R136, R138, R260). -/
def State.moveStatus (s : State) (ld : Option Nat) (d : List (BitVec 8)) : Nat :=
  let kind := leAt d 0 1
  let pages := leAt d 4 4
  let a := leAt d 8 8
  let b := leAt d 0x10 8
  let len := pages * 4096
  if kind = 0 ∨ 4 < kind ∨ (kind = 1 ∧ moveTargetOk (leAt d 1 1) = false) then 2
  else if 2 ≤ leAt d 2 2 ∨ leAt d 0x1D 3 ≠ 0 then 2
  else if pages = 0 ∨ 262144 < pages then 2
  else if a % 4096 ≠ 0 ∨ (kind = 2 ∧ b % 4096 ≠ 0) then 2
  else if (kind = 2 ∨ kind = 3 ∨ kind = 4) ∧ 4096 ≤ leAt d 0x18 2 then 2
  else if kind = 4 ∧ 4096 ≤ leAt d 0x1A 2 then 2
  else if kind = 2 ∧ a < b + len ∧ b < a + len then 2
  else if kind = 4 ∧ ld.any (fun l => !s.infB ACCESS.REKEY_OK l) then 0xE
  else if !s.rangeMaps ld a len || (kind == 2 && !s.rangeMaps ld b len) then 3
  else if (kind = 2 ∨ kind = 3) ∧ (s.dataKey ld (leAt d 0x18 2)).isNone then 4
  else 0

/-- The job of a descriptor at scratch address `p` (R136). An unmapped old KeyID of REKEY names no page's slot. -/
def State.moveJob (s : State) (w t : Nat) (ld : Option Nat) (p : Nat) (d : List (BitVec 8)) : Job :=
  let kind : JobKind := match leAt d 0 1 with | 1 => .tier | 2 => .copy | 3 => .zero | _ => .rekey
  { id := 0, origin := .move w t p, kind := kind, a := leAt d 8 8, b := leAt d 0x10 8, len := leAt d 4 4 * 4096, done := 0,
    key := (s.dataKey ld (leAt d 0x18 2)).getD 4097, key2 := (s.dataKey ld (leAt d 0x1A 2)).getD 4096,
    arg := leAt d 1 1, force := false, notify := leAt d 2 2 % 2 == 1, ld := ld, status := none, busy := none,
    pc := (s.fetchAt w t).1.toNat }

/-- MOVE (R134, R136, R137) with a descriptor of a kind; a reserved KIND is refused whatever row names it. -/
def moveBody (kind : Nat) (w : WfNo) (t : ThrNo) (i : Instr) (d a : Reg) : State → State :=
  ramer w t i (fun s =>
    match s.scratchAt w t (s.g w t a) 32 32 with
    | none => .raise 4 0
    | some p =>
      let desc := s.scr w p 32
      let k := leAt desc 0 1
      if 1 ≤ k ∧ k ≤ 4 ∧ k ≠ kind then .retry id
      else if 16 ≤ s.movesOut w t then .retry id
      else
        let ld := s.tenant w t
        let st := s.moveStatus ld desc
        if st ≠ 0 then .next (s.setG w t d (BitVec.ofNat 64 st))
        else .next ((((s.setScr w (p + 0x1C) [0xFF]).setG w t d 0).startJob (s.moveJob w t ld p desc))))

/-- MOVE of kind TIER (R136). -/
def execMoveTier (w : WfNo) (t : ThrNo) (d a : Reg) (s : State) : Host.Outcome State Fault Refusal := .next (moveBody 1 w t (.moveTier w t d a) d a s)
/-- MOVE of kind COPY (R136, R260). -/
def execMoveCopy (w : WfNo) (t : ThrNo) (d a : Reg) (s : State) : Host.Outcome State Fault Refusal := .next (moveBody 2 w t (.moveCopy w t d a) d a s)
/-- MOVE of kind ZERO (R136, R261). -/
def execMoveZero (w : WfNo) (t : ThrNo) (d a : Reg) (s : State) : Host.Outcome State Fault Refusal := .next (moveBody 3 w t (.moveZero w t d a) d a s)
/-- MOVE of kind REKEY (R136, R138, R341). -/
def execMoveRekey (w : WfNo) (t : ThrNo) (d a : Reg) (s : State) : Host.Outcome State Fault Refusal := .next (moveBody 4 w t (.moveRekey w t d a) d a s)

/-- An instruction on the page of an address waits for an earlier MOVE of its thread that has still to work on it (R145). -/
def State.pageAwaits (s : State) (w t a : Nat) : Bool :=
  s.soft.jobs.any (fun k => k.ofThread w t && k.covers (a / 4096))

/-- The same for a range of addresses. -/
def State.rangeAwaits (s : State) (w t a n : Nat) : Bool :=
  (List.range ((a + n - 1) / 4096 + 1 - a / 4096)).any (fun i => s.pageAwaits w t (a + 4096 * i))

/-! ### STOW, UNSTOW and BINV (R134, R138) -/

/-- A one-page job of an instruction, for which the thread waits. -/
def pageJob (w : WfNo) (t : ThrNo) (d : Reg) (code : Nat) (kind : JobKind) (a arg : Nat) (force : Bool) (s : State) : Eff :=
  let ld := s.tenant w t
  match s.jobAddr ld a with
  | none => .next (s.setG w t d 3)
  | some x =>
    let j : Job :=
      { id := 0, origin := .instr w t d, kind := kind, a := a / 4096 * 4096, b := 0, len := 4096, done := 0, key := 0, key2 := 0,
        arg := arg, force := force, notify := false, ld := ld, status := none, busy := none }
    let s := (s.setThread w t { s.thread w t with wait := .op code d (x / 4096) }).startJob j
    .suspend s (s.thread w t).wait

/-- STOW (R134, R293): effort g[b][2:0], FORCE g[b][8]. -/
def execStowInstr (w : WfNo) (t : ThrNo) (d a b : Reg) (s : State) : Host.Outcome State Fault Refusal :=
  .next (ramer w t (.stowInstr w t d a b) (fun s =>
    let v := (s.g w t b).toNat
    pageJob w t d 1 .stow (s.g w t a).toNat (v % 8) (bitOf v 8) s) s)

/-- UNSTOW (R134, R297): near when g[b][0] is 0, else far. -/
def execUnstowInstr (w : WfNo) (t : ThrNo) (d a b : Reg) (s : State) : Host.Outcome State Fault Refusal :=
  .next (ramer w t (.unstowInstr w t d a b) (fun s => pageJob w t d 2 .unstow (s.g w t a).toNat ((s.g w t b).toNat % 2) false s) s)

/-- BINV (R134, R138, R231): SUCCESS at once over private lines, else when the last snoop is answered. -/
def execBinv (w : WfNo) (t : ThrNo) (d a b : Reg) (s : State) : Host.Outcome State Fault Refusal :=
  .next (ramer w t (.binv w t d a b) (fun s =>
    let x := (s.g w t a).toNat
    let n := (s.g w t b).toNat
    let ld := s.tenant w t
    if x % 64 ≠ 0 ∨ n % 64 ≠ 0 ∨ 2 ^ 21 < n then .next (s.setG w t d 2)
    else if n = 0 then .next (s.setG w t d 0)
    else match s.jobAddr ld x, s.jobAddr ld (x + n - 1) with
      | some lo, some hi =>
        if s.rangeAwaits w t x n then .retry id else
        let ls := (List.range (n / 64)).filterMap (fun i => (s.jobAddr ld (x + 64 * i)).map (· / 64))
        let closed := ls.any s.lineClosed
        let s := s.invalidate ls (.binv w t) true
        let r := lo / 2 ^ 21 * 2 ^ 25 + hi / 2 ^ 21
        if s.invalsOver (.binv w t) then .next (s.setG w t d (if closed then 9 else 0))
        else .suspend s (.op 3 d r)
      | _, _ => .next (s.setG w t d 3)) s)

/-! ### MREAD and MWRITE (R139) -/

/-- Their address operands: below the end of device memory, whole lines, within a page (R134). -/
def lineRangeOk (a n : Nat) : Bool := a % 64 == 0 && decide (a % 4096 + n ≤ 4096) && decide (a < 2 ^ 46)

/-- What an MREAD or MWRITE knows of the decode or promotion of its page that it waits for: none asked for yet, still out,
or its status. -/
def State.stallOf (s : State) (w t p : Nat) : Option (Option Nat) :=
  match (s.thread w t).stall with
  | some (q, st) => if q = p then some st else none
  | none => none

/-- An MREAD or MWRITE waits for a page's decode or promotion. -/
def State.stallOn (s : State) (w t p : Nat) : State := s.setThread w t { s.thread w t with stall := some (p, none) }

/-- It waits no more. -/
def State.unstall (s : State) (w t : Nat) : State := s.setThread w t { s.thread w t with stall := none }

/-- A decode into a promotion buffer queued for an MREAD (R298, R299). -/
def State.queueDecode (s : State) (p : Nat) : State :=
  if s.stow.promos.any (fun q => q.page == p && q.buffer) || s.stow.decoding.any (fun d => d.q.page == p && d.q.buffer) then s
  else
    let q : Queued := { page := p, level := 2, force := false, target := 255, buffer := true, cls := 6, reqs := [] }
    { (s.wakeDom 32) with stow := { (s.wakeDom 32).stow with promos := s.stow.promos ++ [q] } }

/-- MREAD's end: its lines to scratch, its status to g[d], which was read first. -/
def readEnds (w : WfNo) (t : ThrNo) (d : Reg) (p : Nat) (s : State) (lines : List (BitVec 512)) (status : Nat) : Eff :=
  .next (((s.unstall w t).setScr w p (lines.flatMap lineBytes)).setG w t d (BitVec.ofNat 64 status))

/-- MREAD of a STOWED page: its decode into a promotion buffer, which it waits for (R139, R298), and DATA_PATH when that is
not completed after a decoder's fault (R133). -/
def readStowedPage (w : WfNo) (t : ThrNo) (d : Reg) (p pg : Nat) (ls : List Nat) (s : State) : Eff :=
  let zero := ls.map (fun _ => (0 : BitVec 512))
  match s.stallOf w t pg with
  | some none => .retry id
  | some (some st) =>
    if st = 0x206 then .raise 6 0
    else if st ≠ 0 then readEnds w t d p s zero 9
    else match s.decodeStowed pg with
      | .ok bs => readEnds w t d p s (ls.map (fun l => bytesLine (bs.drop (64 * (l % 64))))) 0
      | _ => .retry (fun s => (s.queueDecode pg).stallOn w t pg)
  | none =>
    if s.decodersOk.isEmpty then readEnds w t d p s zero 9
    else .retry (fun s => (s.queueDecode pg).stallOn w t pg)

/-- MREAD (R134, R139): stalls while the page waits, or while a recorded exclusive holder is snooped (R264). -/
def execMread (w : WfNo) (t : ThrNo) (n : Fin 7) (d a b : Reg) (s : State) : Host.Outcome State Fault Refusal :=
  .next (ramer w t (.mread w t n d a b) (fun s =>
    let size := 64 * 2 ^ n.val
    let x := (s.g w t a).toNat
    let key := (s.g w t b).toNat % 4096
    if (s.tenant w t).isSome then .raise 2 0
    else match s.scratchAt w t (s.g w t d) size size with
      | none => .raise 4 0
      | some p =>
        let ended := fun (s : State) st => Eff.next (s.setG w t d (BitVec.ofNat 64 st))
        if !lineRangeOk x size then ended s 2
        else if (s.jobAddr none x).isNone then ended s 3
        else
          let pg := x / 4096
          let e := s.page pg
          if s.pageAwaits w t x then .retry id else
          let ls := spanOfLines pg (x % 4096) (x % 4096 + size)
          let none_ := ls.map (fun _ => (0 : BitVec 512))
          if e.st ≠ .blank ∧ e.st ≠ .lost ∧ e.key ≠ key then ended s 5
          else if s.pageBusy pg = true ∨ (e.st = .moving ∧ e.src = .stowed) then .retry id
          else match s.linesBlocked ls false with
            | 0 =>
              if e.st = .stowed then readStowedPage w t d p pg ls s
              else
                let r := s.readLines pg (ls.map (· % 64))
                readEnds w t d p r.1 r.2.1 r.2.2
            | 1 => .retry (fun s => s.invalidate ls .internal false)
            | _ => readEnds w t d p s none_ 9) s)

/-- MWRITE to a STOWED page: its promotion, which it waits for (R139, R297), its status when that fails, and DATA_PATH when it
is not completed after a decoder's fault (R133). -/
def writePromotes (w : WfNo) (t : ThrNo) (d : Reg) (pg : Nat) (s : State) : Eff :=
  let ended := fun st => Eff.next ((s.unstall w t).setG w t d (BitVec.ofNat 64 st))
  match s.stallOf w t pg with
  | some none => .retry id
  | some (some st) =>
    if st = 0x206 then .raise 6 0
    else if st ≠ 0 then ended (st % 256)
    else .retry (fun s => (s.queuePromo pg 255).stallOn w t pg)
  | none =>
    if s.decodersOk.isEmpty then ended 6
    else if !s.grantable (pg / 512) then ended 8
    else .retry (fun s => (s.queuePromo pg 255).stallOn w t pg)

/-- MWRITE (R134, R139): a STOWED page is promoted first; recorded heads are snooped first (R264). -/
def execMwrite (w : WfNo) (t : ThrNo) (n : Fin 7) (d a b : Reg) (s : State) : Host.Outcome State Fault Refusal :=
  .next (ramer w t (.mwrite w t n d a b) (fun s =>
    let size := 64 * 2 ^ n.val
    let x := (s.g w t a).toNat
    let key := (s.g w t b).toNat % 4096
    if (s.tenant w t).isSome then .raise 2 0
    else match s.scratchAt w t (s.g w t d) size size with
      | none => .raise 4 0
      | some p =>
        let ended := fun (s : State) st => Eff.next (s.setG w t d (BitVec.ofNat 64 st))
        if !lineRangeOk x size then ended s 2
        else if (s.jobAddr none x).isNone then ended s 3
        else
          let pg := x / 4096
          let ls := spanOfLines pg (x % 4096) (x % 4096 + size)
          if s.pageAwaits w t x then .retry id else
          match s.writeReady pg key with
          | .fail st => ended s st
          | .wait => .retry id
          | .promote => writePromotes w t d pg s
          | .go => match s.linesBlocked ls true with
            | 0 =>
              let bytes := s.scr w p size
              let r := s.writeLines pg key ((List.range (size / 64)).map (fun i => (x % 4096 / 64 + i, bytesLine (bytes.drop (64 * i)))))
              ended (r.1.unstall w t) r.2
            | 1 => .retry (fun s => s.invalidate ls .internal true)
            | _ => ended s 9) s)

/-! ### Debug reads (R107, R344) -/

/-- The code of a page's state (R240). -/
def PgSt.code : PgSt → Nat
  | .blank => 0 | .near => 1 | .far => 2 | .stowed => 3 | .moving => 4 | .lost => 5

/-- A debug read ends with a result and data at its page. -/
def State.dbgEnds (s : State) (result : BitVec 4) (x : Page) (data : BitVec 512) : State :=
  { s with svc := { s.svc with dbgBusy := false, dbgReady := false, dbgResult := result, dbgKey := BitVec.ofNat 12 x.key,
                               dbgPage := BitVec.ofNat 3 x.st.code, dbgData := data } }

/-- The line of a frame read for debug, as its DRAM read decodes (R344). -/
def State.dbgFrame (s : State) (line : Nat) (x : Page) (dec : Decode) : State :=
  let p := line / 64
  let k := locFrame x.loc
  let u := frUnit k
  let l := frLine k (line % 64) % 2 ^ 34
  let d := s.plain k x.key p (line % 64)
  let sp := line % 64 / 4
  let ok := s.spanOk k x.key p sp (s.spanLines k sp)
  let tagged := decide (2 ≤ s.mode x.key)
  let poisonIt := fun (s : State) => s.dbgEnds 3 x 0
  let broken := fun (s : State) (corrected : Bool) => poisonIt (s.spanFault k x.key p sp corrected)
  match dec with
  | .uncorrectable => poisonIt (s.ueFound u l 0x02)
  | .poisoned => poisonIt s
  | .clean => if d.2 then poisonIt s else if ok then s.dbgEnds 1 x d.1 else broken s false
  | .corrected ds =>
    let s := s.ceFound u l (ds.map BitVec.toNat)
    if d.2 then poisonIt s else if ok then s.dbgEnds 1 x d.1 else broken s true
  | .wrong flip asClean =>
    let s := if asClean then s else s.miscorrect u l flip
    if d.2 then poisonIt s else if tagged then broken s (!asClean) else s.dbgEnds 1 x (d.1 ^^^ flip)

/-- DEBUG_READ_COMPLETE (R107, R344): the read that its home slice has ordered meets its page. -/
def execDebugReadComplete (dec : Decode) (s : State) : Host.Outcome State Fault Refusal :=
  .next (if !s.live || !s.svc.dbgBusy || !s.svc.dbgReady then s
    else
      let line := s.svc.dbgLine.toNat
      let p := line / 64
      let x := s.page p
      let may := s.mode x.key = 0 ∨ s.rdB KEYSLOT.ACTIVE_DEBUGGABLE x.key
      match x.st with
      | .blank => s.dbgEnds 4 { x with key := 0 } 0
      | .lost => s.dbgEnds 3 x 0
      | st =>
        if ¬ may then s.dbgEnds 2 x 0
        else if s.pageBusy p = true ∨ (st = .moving ∧ x.src = .stowed) then s
        else if st = .stowed then
          let r := s.readStowed p
          match r.2 with
          | some bs => r.1.dbgEnds 1 x (bytesLine (bs.drop (line % 64 * 64)))
          | none => r.1.dbgEnds 3 x 0
        else s.dbgFrame line x dec)

end Sys2Proof.Machine
end

