-- ==== Sys2Proof/Machine/Admit.lean ====
section
/-! DEFINITION. Table stores: the entry a submission would make, and the admission checks of every table (R3, R5, R6,
R127, R169-R171, and each table's store rules). -/
namespace Sys2Proof.Machine

/-! ### The submitted entry (R3, R127) -/

/-- A counter of the fixed set: only VIEW and OVF can be changed (R483). -/
def fixedCounter (tbl idx : Nat) : Bool := tbl == 0x0F && decide (512 ≤ idx) && decide (idx < 544)

/-- The bits of a word of an entry whose fields have an access type in a list. -/
def typeMask (tbl idx word : Nat) (tys : List Acc) : BitVec 64 :=
  ((fieldsOf tbl idx).filter (fun f => tys.contains f.ty &&
    (!fixedCounter tbl idx || f == MILEPOST.VIEW || f == MILEPOST.OVF))).foldl (fun (m : BitVec 64) f => m ||| f.maskAt word) 0

/-- The bits that a store replaces: RW, and WO but for key material, which no register keeps (R314). -/
def storeMask (tbl idx word : Nat) : BitVec 64 :=
  typeMask tbl idx word (if tbl = 0x05 then [.rw] else [.rw, .wo])

/-- The bits that act when a 1 is stored; of KEYSLOT also MATERIAL, which its INSTALL consumes. -/
def onesMask (tbl idx word : Nat) : BitVec 64 :=
  typeMask tbl idx word (if tbl = 0x05 then [.w1c, .w1s, .wo] else [.w1c, .w1s])

/-- The staged words of an entry. -/
abbrev Staged := List (Nat × BitVec 64)

/-- The acting bits of a word of a submission. -/
def onesOf (tbl idx : Nat) (st : Staged) (word : Nat) : BitVec 64 :=
  (tget (fun _ => 0) st word) &&& onesMask tbl idx word

/-- A W1C or W1S field of which the submission holds a 1. -/
def oneIn (idx : Nat) (st : Staged) (f : Fld) : Bool := f.get (onesOf f.lay.tbl idx st f.word) != 0

/-- The tables with the submission's words overlaid on the committed entry (R127). -/
def State.candidate (s : State) (tbl idx : Nat) (st : Staged) : State :=
  st.foldl (fun s y =>
    let m := storeMask tbl idx y.1
    s.setWord tbl idx y.1 ((s.wordAt tbl idx y.1 &&& ~~~ m) ||| (y.2 &&& m))) s

/-- A field that the submission changes. -/
def State.changes (s c : State) (idx : Nat) (f : Fld) : Bool := s.rd f idx != c.rd f idx

/-- A field that the submission changes to a value outside its range. -/
def State.outside (s c : State) (idx : Nat) (f : Fld) (lo hi : Nat) : Bool :=
  s.changes c idx f && (decide (c.rd f idx < lo) || decide (hi < c.rd f idx))

/-- The committed state: nothing waits for its commit point. -/
def State.settled (s : State) : State := { s with uncommitted := [] }

/-- The status of the first check that fails. -/
def firstOf : List (Bool × Nat) → Nat
  | [] => 0
  | (b, st) :: t => if b then st else firstOf t

/-! ### Units that entries name (R170, R171) -/

/-- The entry's unit is excluded or not present. TOLL entries 0 to 3 hold fields of the device beside a head's. -/
def State.entryAbsent (s : State) (tbl idx : Nat) : Bool :=
  match tbl with
  | 0x01 => !s.headExists idx
  | 0x02 => !s.headExists (ldHead (winLd idx))
  | 0x03 => !s.headExists (ldHead idx)
  | 0x04 => !s.headExists (ldHead (idx / 4096))
  | 0x13 => !s.headExists (ldHead idx)
  | 0x11 => decide (idx < 4096) && !s.headExists (ldHead (winLd idx))
  | 0x06 => decide (4 ≤ idx) && !s.headExists (idx / 8)
  | 0x07 => idx % 64 != 63 && !(s.present (idx / 64)).contains (idx % 64)
  | 0x0B => !s.unitPresent idx
  | 0x10 => decide (50 ≤ idx) && decide (idx < 78) && !s.unitPresent (idx - 50)
  | _ => false

/-! ### Windows (R181) -/

/-- The windows enabled as stored. -/
def State.stored (s : State) : List Nat := (s.listed 0x02).filter (fun i => s.rdB WINDOW.ENABLE i)

/-- Two ranges of regions overlap. -/
def overlaps (a n b m : Nat) : Bool := decide (a < b + m) && decide (b < a + n)

/-- Another enabled window stands against an enabled window (R181). -/
def State.winClash (c : State) (i j : Nat) : Bool :=
  let base := c.rd WINDOW.DEV_BASE i
  let n := c.rd WINDOW.SIZE i
  let b := c.rd WINDOW.DEV_BASE j
  let m := c.rd WINDOW.SIZE j
  let dev := overlaps base n b m
  let same := c.rdB WINDOW.TYPE i && c.rdB WINDOW.TYPE j && base == b && n == m
  (winLd i == winLd j && overlaps (c.rd WINDOW.LD_BASE i) n (c.rd WINDOW.LD_BASE j) m) ||
  (dev && !same) || (dev && winLd i != winLd j && ldHead (winLd i) == ldHead (winLd j))

/-- A store of a WINDOW entry (R181, R200). -/
def State.admitWindow (s c : State) (i : Nat) : Nat :=
  let st := s.winStatus i
  let on := c.rdB WINDOW.ENABLE i
  let n := c.rd WINDOW.SIZE i
  let top := c.rd WINDOW.LD_BASE i + n
  let size := 2 ^ c.rd TAG.LD_SIZE_LOG2 (winLd i)
  let moves := [WINDOW.TYPE, WINDOW.LD_BASE, WINDOW.SIZE, WINDOW.DEV_BASE].any (s.changes c i)
  if st ≠ 0 then st
  else firstOf
    [(c.rd WINDOW.POLICY i == 3, 1),
     (s.rdB WINDOW.ENABLE i && moves, 5),
     (decide (2 ^ 25 < n), 2),
     (on && (n == 0 || decide (size < top * 2 ^ 21) || decide (2 ^ 25 < c.rd WINDOW.DEV_BASE i + n)), 2),
     (on && (c.stored.filter (· ≠ i)).any (c.winClash i), 4),
     (on && !s.rdB WINDOW.ENABLE i && (s.takeBlocks (c.rd WINDOW.DEV_BASE i) n).isNone, 7)]

/-! ### Ports, tags, keys -/

/-- A store of a PORT entry (R173, R177, R198). -/
def State.admitPort (s c : State) (h : Nat) : Nat :=
  let r := c.rd PORT.MAXRATE h
  let limit := bitsOf (leAt s.board.record 0x00C 8) (4 * (h / 2)) 4
  firstOf
    [(!s.headExists h, 9),
     (c.rd PORT.CLOCK_MODE h == 3 || decide (4 < c.rd PORT.L0P_MIN_WIDTH h), 1),
     (s.changes c h PORT.MAXRATE && (r == 0 || decide (6 < r)), 1),
     (s.changes c h PORT.MAXRATE && decide (limit < r), 2),
     (s.outside c h PORT.LD_COUNT 1 16 || s.outside c h PORT.L0P_NARROW_PCT 1 100 || s.outside c h PORT.L0P_WIDEN_PCT 1 100 ||
      s.outside c h PORT.L0P_HOLD 1 255 || s.outside c h PORT.DEVLOAD_T1 1 100, 2),
     (decide (c.rd PORT.L0P_WIDEN_PCT h ≤ c.rd PORT.L0P_NARROW_PCT h), 2),
     (decide (c.rd PORT.DEVLOAD_T2 h ≤ c.rd PORT.DEVLOAD_T1 h) || decide (c.rd PORT.DEVLOAD_T3 h ≤ c.rd PORT.DEVLOAD_T2 h) ||
      decide (100 < c.rd PORT.DEVLOAD_T3 h), 2),
     (decide (c.rd PORT.LD_COUNT h < s.rd PORT.LD_COUNT h) &&
      s.stored.any (fun i => ldHead (winLd i) == h && decide (c.rd PORT.LD_COUNT h ≤ winLd i % 16)), 4)]

/-- A store of a TAG entry (R180). -/
def State.admitTag (s c : State) (ld : Nat) : Nat :=
  let n := c.rd TAG.LD_SIZE_LOG2 ld
  let k := c.rd TAG.KEYID_WIDTH ld
  let w := c.rd TAG.CLASS_WIDTH ld
  firstOf
    [(s.entryAbsent 0x03 ld, 9),
     ((n != 0 && (decide (n < 28) || decide (46 < n))) || decide (12 < k) || decide (3 < w) || decide (52 < n + k + w), 2),
     (s.rd TAG.DECODERS ld != 0 && [TAG.LD_SIZE_LOG2, TAG.KEYID_WIDTH, TAG.CLASS_WIDTH].any (s.changes c ld), 5),
     (s.stored.any (fun i => winLd i == ld && decide (2 ^ n < (s.rd WINDOW.LD_BASE i + s.rd WINDOW.SIZE i) * 2 ^ 21)), 4)]

/-- A store of a KEYMAP entry (R349). -/
def State.admitKeymap (s c : State) (i : Nat) : Nat :=
  firstOf [(s.entryAbsent 0x04 i, 9), (c.rdB KEYMAP.VALID i && !s.rdB KEYSLOT.INSTALLED (c.rd KEYMAP.SLOT i), 5)]

/-- MATERIAL of a submission. -/
def materialOf (st : Nat → BitVec 64) : BitVec 256 := st 3 ++ st 2 ++ st 1 ++ st 0

/-- A store of a KEYSLOT entry (R313, R350). -/
def State.admitKeyslot (s c : State) (k : Nat) (st : Staged) : Nat :=
  let inst := oneIn k st KEYSLOT.INSTALL
  let clr := oneIn k st KEYSLOT.CLEAR
  let i := s.installStatus k (materialOf (onesOf 0x05 k st)) (oneIn k st KEYSLOT.GENERATE)
  firstOf
    [(inst && clr, 4), (decide (625 < c.rd KEYSLOT.MERGE_WINDOW k), 2),
     (inst && s.onesIn KEYSLOT.INSTALL k, 5), (inst && i != 0, i), (clr && s.clearStatus k != 0, s.clearStatus k)]

/-! ### Traffic regulation (R397, R410-R413) -/

/-- A store of a TOLL entry. -/
def State.admitToll (s c : State) (i : Nat) : Nat :=
  let low := [TOLL.GUARANTEE, TOLL.CAP].any (s.changes c i)
  firstOf
    [(s.entryAbsent 0x06 i || (low && !s.headExists (i / 8)), 9),
     (i % 8 == 7 && (c.rd TOLL.GUARANTEE i != 0 || c.rd TOLL.CAP i == 0), 2),
     (i == 0 && (s.outside c 0 TOLLDEV.THROTTLE_LEVEL 1 100 || s.outside c 0 TOLLDEV.SLOPE 0 200 ||
       s.outside c 0 TOLLDEV.FMAX 0 100), 2),
     (decide (s.booked < c.booked) && decide (s.rd TOLLDEV.BOOKABLE 0 < c.booked), 3)]

/-- A store of a ROUNDABOUT entry. -/
def State.admitRb (s c : State) (i : Nat) : Nat :=
  firstOf [(s.entryAbsent 0x07 i, 9), (i % 64 == 63 && s.outside c i RBOWN.LONG_N 4 64, 2)]

/-! ### Placement, capacity, stow (R277-R284, R309, R310) -/

/-- PIN of a PLACE page submission. -/
def pinOf (x : Page) (st : Staged) : Nat := PAGE.PIN.get (tget (fun _ => PAGE.PIN.put 0 x.pin) st 0)

/-- A store of a PLACE entry. A PIN that splits a region which finds no map frames fails with EXHAUSTED (R241, R266). -/
def State.admitPlace (s c : State) (i : Nat) (st : Staged) : Nat :=
  if i < 2 ^ 47 then
    let x := s.page i
    firstOf [(x.st == .moving, 6), (pinOf x st == 3, 1), (x.st == .lost && pinOf x st != x.pin, 5), (!s.canPin i (pinOf x st), 7)]
  else if i = placeCtl 0 then
    firstOf [(s.outside c i PLACE.SAMPLE_LOG2 0 12 || s.outside c i PLACE.DECAY_MS 1 255, 2)]
  else if i = placeCtl 1 then
    firstOf
      [(s.outside c i POLICY.DEMOTE_S 1 255 || s.outside c i POLICY.STOW_AGE_S 1 255 || s.outside c i POLICY.PRESSURE_AGE_S 1 255 ||
        decide (c.rd POLICY.STOW_AGE_S i < c.rd POLICY.PRESSURE_AGE_S i), 2)]
  else if i ≤ placeCtl 5 then firstOf [(decide (27 < c.rd WALKER.UNIT i), 2)]
  else 0

/-- A store of a CAPACITY entry. -/
def State.admitCapacity (s c : State) (i : Nat) (st : Staged) : Nat :=
  if i = 0 then
    firstOf [(decide (c.rd POOL.LOW_WM 0 ≤ c.rd POOL.RELEASE_WM 0) || decide (c.rd POOL.RELEASE_WM 0 ≤ c.rd POOL.FLOOR 0), 2)]
  else
    let offer := oneIn i st EXTENT.OFFER
    let offered := c.settled.offerStatus s.extAsked i
    firstOf
      [(s.rd EXTENT.STATE i != 0 && [EXTENT.CLASS, EXTENT.WINDOW, EXTENT.LD_BASE, EXTENT.COUNT].any (s.changes c i), 5),
       (s.outside c i EXTENT.COUNT 1 (2 ^ 25), 2), (offer && offered != 0, offered)]

/-- A store of a STOW entry. -/
def State.admitStow (s c : State) (i : Nat) (st : Staged) : Nat :=
  if i = 0 then firstOf [(c.rd STOW.MIN_CLASS 0 == 0, 1), (decide (16 < c.rd STOW.STREAM_CODERS 0), 2)]
  else firstOf [(oneIn i st CTX.RELEASE && (s.ctx (i - 1)).busy, 6)]

/-! ### Memory units, bays, sensors, power (R384, R398, R455, R461-R466) -/

/-- The largest MARK of a unit's width (R384). -/
def markMax (width : Nat) : Nat := if width = 1 then 19 else if width = 2 then 9 else 35

/-- A store of a MEMCH entry. -/
def State.admitMemch (s c : State) (u : Nat) (st : Staged) : Nat :=
  let m := c.rd MEMCH.MARK u
  let after := c.settled.bookable
  firstOf
    [(s.entryAbsent 0x0B u, 9), (oneIn u st MEMCH.RESET && s.rd MEMCH.STATE u != 6, 5),
     (s.outside c u MEMCH.RETRAIN_MS 10 10000 || s.outside c u MEMCH.SCRUB_H 1 168 || s.outside c u MEMCH.CE_RETIRE 1 255 ||
      s.outside c u MEMCH.CE_DECAY_H 1 255 || s.outside c u MEMCH.DEVICE_LIMIT 2 255 || s.outside c u MEMCH.WQ_HIGH 10 100 ||
      s.outside c u MEMCH.WQ_LOW 0 90 || s.outside c u MEMCH.RETIRE_LIMIT 1 65535, 2),
     (decide (c.rd MEMCH.WQ_HIGH u ≤ c.rd MEMCH.WQ_LOW u), 2),
     (m != 0x3F && decide (markMax (s.rd MEMCH.WIDTH u) < m), 2),
     ((s.changes c u MEMCH.REFRESH_MODE || s.changes c u MEMCH.RETRAIN_MS) && decide (after < s.settled.bookable) &&
      decide (after < s.booked), 3)]

/-- A store of a BAY entry (R455, R466). -/
def State.admitBay (s c : State) (b : Nat) (st : Staged) : Nat :=
  let e := oneIn b st BAY.EVACUATE
  let state := s.rd BAY.STATE b
  firstOf
    [(e && oneIn b st BAY.CANCEL, 4),
     (s.outside c b BAY.LIMIT 10 400 || s.outside c b BAY.SLOW_MS 1 1000 || s.outside c b BAY.PRECHARGE_MS 10 1000 ||
      s.outside c b BAY.DEBOUNCE_MS 10 1000 || s.outside c b BAY.HOLDOFF_MS 0 60000, 2),
     (s.rdB BAY.ENABLE b && !c.rdB BAY.ENABLE b && (state == 6 || state == 7), 5),
     (e && state != 6, 5), (e && !s.evacOk b, 7)]

/-- A store of a THERMAL entry (R464, R465). -/
def State.admitThermal (s c : State) (i : Nat) : Nat :=
  if i = 52 then
    firstOf [(s.outside c i LEDGER.SLOPE 0 200 || s.outside c i LEDGER.CUT_MAX 0 90 || s.outside c i LEDGER.GRACE_US 10 10000 ||
      s.outside c i LEDGER.DIMM_THROTTLE_C 40 125, 2)]
  else
    let t := sint 8 (c.rd THERMAL.THROTTLE_C i)
    let d := sint 8 (c.rd THERMAL.SHUTDOWN_C i)
    let p := sint 8 (c.rd THERMAL.TRIP_C i)
    firstOf
      [(decide (d ≤ t) || decide (p ≤ d), 2), (decide (i < 32) && decide (115 < p), 2), (decide (48 ≤ i) && decide (105 < p), 2),
       (s.outside c i THERMAL.BETA_K 2000 6000, 2)]

/-- A store of a POWER entry (R461, R463). -/
def State.admitPower (s c : State) (d : Nat) : Nat :=
  if d = 78 then 0
  else firstOf
    [(s.entryAbsent 0x10 d, 9), (decide (1 < c.rd POWER.POLICY d), 1),
     (s.outside c d POWER.IDLE1 1 65535 || s.outside c d POWER.IDLE2 1 65535, 2)]

/-- A store of a SNOOP entry (R170, R233, R234). -/
def State.admitSnoop (s c : State) (i : Nat) : Nat :=
  if i < 4096 then firstOf [(s.entryAbsent 0x11 i, 9), (s.outside c i SNOOP.DWELL 0 500 || s.outside c i SNOOP.TIMEOUT 1 100000, 2)]
  else firstOf [(s.outside c i HSET.BI_RESERVE 8 128 || s.outside c i HSET.SCRUB_MS 100 10000, 2)]

/-! ### Collector, mileposts, ownership, access (R109, R110, R428, R471, R481, R483, R484) -/

/-- An event code applies to a unit (R471). -/
def State.eventOk (s : State) (unit code : Nat) : Bool :=
  let i := unit % 64
  match unit / 64 with
  | 0 => decide (1 ≤ code) && decide (code ≤ 0xB)
  | 2 => decide (1 ≤ code) && decide (code ≤ 0xB)
  | 3 => decide (1 ≤ code) && decide (code ≤ 0xB) && (code != 5 || s.rd MEMCH.DIMMS i == 2)
  | 4 => decide (1 ≤ code) && decide (code ≤ 0xB) && code != 5 && code != 6
  | 5 => decide (1 ≤ code) && decide (code ≤ 6) && (code != 6 || i == 63)
  | 6 => if i < 32 then [1, 2, 5, 7].contains code else [3, 4, 6, 7].contains code
  | 7 => decide (1 ≤ code) && decide (code ≤ 6)
  | 8 => decide (1 ≤ code) && decide (code ≤ 5)
  | _ => false

/-- An event carries an LD (R471). -/
def eventLd (unit code : Nat) : Bool :=
  match unit / 64 with
  | 0 => [1, 2, 3, 5, 0xA].contains code
  | 2 => code == 0xB
  | 3 => code == 0xB
  | 4 => code == 0xB
  | 7 => code == 6
  | _ => false

/-- A unit of a milepost event type is present (R7, R170). -/
def State.eventUnit (s : State) (unit : Nat) : Bool :=
  let i := unit % 64
  match unit / 64 with
  | 0 => s.headExists i
  | 2 => decide (i < 16)
  | 3 => decide (i < 24) && s.unitPresent i
  | 4 => decide (i < 4) && s.unitPresent (24 + i)
  | 5 => i == 63 || (decide (i < 28) && s.unitPresent i)
  | 8 => decide (i < 16)
  | 1 => s.pgMode i != 0
  | 9 => decide (i < 12)
  | 10 => decide (i < 53)
  | 12 => decide (i < 5)
  | _ => true

/-- A store of a MILEPOST entry (R483, R484). -/
def State.admitMilepost (s c : State) (n : Nat) : Nat :=
  if n = 544 then
    let r := s.rd MPALL.SAMPLE_RD n
    let w := s.rd MPALL.SAMPLE_WR n
    firstOf [(decide ((w + 128 - r) % 128 < (c.rd MPALL.SAMPLE_RD n + 128 - r) % 128), 2)]
  else
    let u := c.rd MILEPOST.UNIT n
    let e := c.rd MILEPOST.EVENT n
    let v := c.rd MILEPOST.VIEW n
    let f := c.rd MILEPOST.FILTER_LD n
    let named := [MILEPOST.UNIT, MILEPOST.EVENT, MILEPOST.ALL_INDEX].any (s.changes c n)
    let viewed := [MILEPOST.VIEW, MILEPOST.FILTER_LD, MILEPOST.EVENT, MILEPOST.UNIT].any (s.changes c n)
    let carries := decide (n < 512) && eventLd u e
    firstOf
      [(named && !unitListed u, 1), (named && !s.eventUnit u, 9), (named && !s.eventOk u e, 1),
       (s.changes c n MILEPOST.VIEW && decide (0x100 < v) && v != 0x1FF, 1),
       (viewed && !carries && f != 0x1FF, 4), (viewed && decide (v < 0x100) && (f != v || !carries), 4),
       (c.rdB MILEPOST.SAMPLE n && decide (0xFFFFFFFFFC00 < c.rd MILEPOST.RELOAD n), 2)]

/-- A store of an ACCESS entry (R109, R110). -/
def State.admitAccess (s c : State) (ld : Nat) : Nat :=
  let n := c.rd ACCESS.RINGS ld
  firstOf
    [(s.entryAbsent 0x13 ld, 9), (decide (128 < n), 2),
     (decide (n < s.rd ACCESS.RINGS ld) && s.soft.rings.any (fun r => r.1 / 128 == ld && decide (n ≤ r.1 % 128) && r.2.enable), 4)]

/-- A store of FAULT entry 0: a reserved unit ID, and what RESET_GO asks (R6, R428). -/
def State.admitFault (s c : State) (st : Staged) : Nat :=
  let u := c.rd FAULT.RESET_UNIT 0
  let go := (s.resetGo u).1
  firstOf [(!unitListed u, 1), (oneIn 0 st FAULT.RESET_GO && go != 0, go)]

/-- ADMISSION (R169): 0, or the status of the first check that refuses the submission. -/
def State.admission (s : State) (tbl idx : Nat) (st : Staged) : Nat :=
  let c := s.candidate tbl idx st
  match tbl with
  | 0x01 => s.admitPort c idx
  | 0x02 => s.admitWindow c idx
  | 0x03 => s.admitTag c idx
  | 0x04 => s.admitKeymap c idx
  | 0x05 => s.admitKeyslot c idx st
  | 0x06 => s.admitToll c idx
  | 0x07 => s.admitRb c idx
  | 0x08 => s.admitPlace c idx st
  | 0x09 => s.admitCapacity c idx st
  | 0x0A => s.admitStow c idx st
  | 0x0B => s.admitMemch c idx st
  | 0x0C => s.admitBay c idx st
  | 0x0D => s.admitThermal c idx
  | 0x0E => if idx = 0 then s.admitFault c st else 0
  | 0x0F => s.admitMilepost c idx
  | 0x10 => s.admitPower c idx
  | 0x11 => s.admitSnoop c idx
  | 0x12 => if idx = 0 ∧ s.outside c 0 OWNER.LAPSE_MS 1000 60000 = true then 2 else 0
  | 0x13 => s.admitAccess c idx
  | 0x14 => if c.rd PHASE.CURRENT 0 = s.phase ∨ s.phaseAllowed (c.rd PHASE.CURRENT 0) = true then 0 else 5
  | _ => 0

end Sys2Proof.Machine
end

