-- ==== Sys2Proof/Machine/Commit.lean ====
section
/-! DEFINITION. What an admitted table store does: at once for the tables of code N and P, and at its commit point for
the others (R128, R168). -/
namespace Sys2Proof.Machine

/-! ### Stores that wait for their commit point -/

/-- The commit point of an entry is later than its admission: code Q, W, D or L (R167, R168). -/
def waitsCommit (tbl idx : Nat) : Bool :=
  [0x02, 0x03, 0x04, 0x05, 0x06, 0x07, 0x09, 0x0A, 0x0B, 0x11].contains tbl || (tbl == 0x10 && idx != 78)

/-- An admitted word recorded until its commit point, under the value in force. -/
def State.hold (s : State) (tbl idx word : Nat) (mask old ones : BitVec 64) (by_ : Nat) : State :=
  if mask = 0 ∧ ones = 0 then s
  else { s with uncommitted := s.uncommitted ++ [⟨tbl, idx, word, mask, old, ones, by_⟩] }

/-- Every staged word of an entry stored, and recorded until the commit point; `keep` are bits that this does not touch. -/
def State.storeLater (s : State) (tbl idx : Nat) (st : Staged) (by_ : Nat) (keep : Nat → BitVec 64) : State :=
  st.foldl (fun (c : State) y =>
    let m := storeMask tbl idx y.1 &&& ~~~ keep y.1
    let old := s.wordInForce tbl idx y.1
    let c := c.setWord tbl idx y.1 ((s.wordAt tbl idx y.1 &&& ~~~ m) ||| (y.2 &&& m))
    c.hold tbl idx y.1 m old (y.2 &&& onesMask tbl idx y.1) by_) s

/-! ### Stores that act at once -/

/-- PORT: fields of code L and L0p wait; the others act at once (R173, R188, R196, R198). -/
def State.storePort (s : State) (h : Nat) (st : Staged) (by_ : Nat) : State :=
  let late := [PORT.LD_COUNT, PORT.CLOCK_MODE, PORT.L1_ENABLE, PORT.L0P_ENABLE, PORT.L0P_MIN_WIDTH, PORT.L0P_NARROW_PCT,
    PORT.L0P_WIDEN_PCT, PORT.L0P_HOLD, PORT.MAXRATE]
  let c := s.candidate 0x01 h st
  let off := !c.rdB PORT.L0P_ENABLE h
  let wait := fun (g w : Nat) => (late.filter (fun f => f.word == w && !(off && f == PORT.L0P_ENABLE) &&
    s.changes c g f)).foldl (fun (m : BitVec 64) f => m ||| f.mask) 0
  let c := (List.range 2).foldl (fun (c : State) w => c.hold 0x01 h w (wait h w) (s.wordInForce 0x01 h w) 0 by_) c
  let c := if off then c.commitFlds h [PORT.L0P_ENABLE] else c
  let mate := mateOf h
  let clock := c.rd PORT.CLOCK_MODE h
  let c := if s.headExists mate ∧ c.rd PORT.CLOCK_MODE mate ≠ clock then
      (c.wr PORT.CLOCK_MODE mate clock).hold 0x01 mate 0 PORT.CLOCK_MODE.mask (s.wordInForce 0x01 mate 0) 0 by_
    else c
  let c := if oneIn h st PORT.ISOLATED then (c.clearW1c PORT.ISOLATED h 1).endHandling (uid 0 h) [0x19] else c
  if off && s.infB PORT.L0P_ENABLE h then c.stopWidth h else c

/-- WINDOW: a shared member's ENABLE 0 starts its disabling (R183); the rest waits. -/
def State.storeWindow (s : State) (i : Nat) (st : Staged) (by_ : Nat) : State :=
  let c := s.candidate 0x02 i st
  let leaving := s.infB WINDOW.ENABLE i && s.infB WINDOW.TYPE i && !c.rdB WINDOW.ENABLE i
  let s := s.storeLater 0x02 i st by_ (fun w => if leaving && w == 0 then WINDOW.ENABLE.mask else 0)
  if leaving then s.disableWindow i else s

/-- PLACE (R252, R277, R280, R281): a page's PIN and ACCESSED, the settings, the walkers. -/
def State.storePlace (s : State) (i : Nat) (st : Staged) : State :=
  if i < 2 ^ 47 then
    let x := s.page i
    let pin := pinOf x st
    let s := if oneIn i st PAGE.ACCESSED then
        (let s : State := { s with plc := { s.plc with accessedRegions := tset (fun _ => false) s.plc.accessedRegions (i / 512) false } }
         if x.accessed then s.setPage i { x with accessed := false } else s)
      else s
    if pin = x.pin then s else (s.withMarks (fun s => s.putPage i { s.page i with pin := pin })).settle
  else s.candidate 0x08 i st

/-- BAY (R455). -/
def State.storeBay (s : State) (b : Nat) (st : Staged) : State :=
  let c := s.candidate 0x0C b st
  let on := c.rdB BAY.ENABLE b
  let c := (c.wr BAY.ENABLE b (s.rd BAY.ENABLE b)).enableBay b on
  let c := if oneIn b st BAY.EVACUATE then (c.2.evacuate b).2 else c.2
  if oneIn b st BAY.CANCEL then c.cancelEvac b else c

/-- FAULT (R419, R422, R428, R429, R434, R435). -/
def State.storeFault (s : State) (i : Nat) (st : Staged) : State :=
  let c := s.candidate 0x0E i st
  if i = 0 then
    let c := if oneIn 0 st FAULT.CHECKIN then c.checkin else c
    let c := if oneIn 0 st FAULT.RESET_GO then (c.resetGo (c.rd FAULT.RESET_UNIT 0)).2 else c
    (List.range 3).foldl (fun (c : State) k =>
      let c := if oneIn 0 st (FAULT.VALID k) then c.clearLatch k else c
      if oneIn 0 st (FAULT.OVERFLOW k) then c.clearW1c (FAULT.OVERFLOW k) 0 1 else c) c
  else if oneIn i st RECORD.ACK then c.ackRecord (i - 1) else c

/-- MILEPOST (R473, R483, R484). -/
def State.storeMilepost (s : State) (n : Nat) (st : Staged) : State :=
  let c := s.candidate 0x0F n st
  if n = 544 then (if oneIn n st MPALL.CLEAR_ALL then c.clearAll else c)
  else if oneIn n st MILEPOST.OVF then c.clearW1c MILEPOST.OVF n 1 else c

/-- ACCESS: a new handler is told of what is still pending, and bits unmasked while set raise DOORBELL (R101, R110). -/
def State.storeAccess (s : State) (ld : Nat) (st : Staged) : State :=
  let c := s.candidate 0x13 ld st
  let moved := [ACCESS.HANDLER_WF, ACCESS.HANDLER_THREAD].any (s.changes c ld)
  let set := (c.bell ld).toDev &&& ~~~ c.devMask ld
  let ring := if moved then set else set &&& s.devMask ld
  let c := if ring = 0 then c else c.raiseHandler ld 1
  if moved && (List.range 4).any (fun m => (c.mailbox ld true m).full) then c.raiseHandler ld 0 else c

/-- OWNER: SA_KEY is installed while it is not all zero (R108). -/
def State.storeOwner (s : State) (i : Nat) (st : Staged) : State :=
  let c := s.candidate 0x12 i st
  if i = 1 then c.wr OWNER.SA_KEY_SET 0 (if (List.range 4).all (fun w => c.wordAt 0x12 1 w == 0) then 0 else 1) else c

/-- An admitted submission stored (R126, R128). -/
def State.store (s : State) (tbl idx : Nat) (st : Staged) (by_ : Nat) : State :=
  if tbl = 0x02 then s.storeWindow idx st by_
  else if waitsCommit tbl idx then s.storeLater tbl idx st by_ (fun _ => 0)
  else match tbl with
    | 0x01 => s.storePort idx st by_
    | 0x08 => s.storePlace idx st
    | 0x0C => s.storeBay idx st
    | 0x0E => s.storeFault idx st
    | 0x0F => s.storeMilepost idx st
    | 0x10 =>
      let c := s.candidate 0x10 idx st
      if c.rdB POWERALL.GLOBAL_HOLD 78 then (List.range 78).foldl (fun s d => s.wakeDom d) c else c
    | 0x12 => s.storeOwner idx st
    | 0x13 => s.storeAccess idx st
    | 0x14 => (s.phaseStore ((s.candidate 0x14 0 st).rd PHASE.CURRENT 0)).2
    | _ => s.candidate tbl idx st

/-! ### Commit points -/

/-- A window enabled or disabled at its commit point (R182, R183, R225, R226, R233, R270); the region-table blocks that an enabled
one needs are taken here (R238). Blocks whose frames have gone since the store was admitted are not held (DESIGN CHOICE, log
entry 80). -/
def State.commitWindow (s : State) (i : Nat) : State :=
  let old := s.infB WINDOW.ENABLE i
  let s := s.commitTbl 0x02 (· == i)
  let new := s.infB WINDOW.ENABLE i
  if old = new then s
  else if new then
    let s := (s.takeBlocks (s.inf WINDOW.DEV_BASE i) (s.inf WINDOW.SIZE i)).getD s
    match (s.group i).find? (fun j => j ≠ i) with
    | some j =>
      let s := s.wr WINDOW.STATE i (if s.closedRoad j then 2 else 1)
      (((s.wr SNOOP.TIMED_OUT i (s.rd SNOOP.TIMED_OUT j)).wr SNOOP.RECLAIMED i (s.rd SNOOP.RECLAIMED j)).extEvalAll).settle
    | none => (((s.wr WINDOW.STATE i 1).wr SNOOP.TIMED_OUT i 0).extEvalAll).settle
  else s.windowOff i

/-- A KEYSLOT entry's commit point (R313). -/
def State.commitKeyslot (s : State) (k : Nat) : State :=
  let inst := s.onesIn KEYSLOT.INSTALL k
  let gen := s.onesIn KEYSLOT.GENERATE k
  let clr := s.onesIn KEYSLOT.CLEAR k
  let m := materialOf (s.onesAt 0x05 k)
  let s := s.commitTbl 0x05 (· == k)
  if inst && s.installStatus k m gen == 0 then s.installed k m (s.rd KEYSLOT.MODE k) (s.rdB KEYSLOT.DEBUGGABLE k) gen
  else if clr && s.clearStatus k == 0 then s.clearKey k else s

/-- A CAPACITY entry's commit point (R268-R270, R282, R284). -/
def State.commitCapacity (s : State) (i : Nat) : State :=
  let acks := [POOL.LOW, POOL.RELEASING, POOL.AT_FLOOR, POOL.COMMIT_SHORT].filter (fun f => s.onesIn f i)
  let offer := s.onesIn EXTENT.OFFER i
  let back := s.onesIn EXTENT.RECALL i
  let s := s.commitTbl 0x09 (· == i)
  if i = 0 then (acks.foldl (fun (s : State) f => s.clearW1c f 0 1) s).settle
  else if offer then (if s.offerStatus s.extTaken i = 0 then s.extOffer i else s)
  else if back then s.extRecall i else s

/-- A SNOOP entry's commit point (R228, R229, R233); a change of SCRUB_MS restarts the slice's scrub pass (R234). -/
def State.commitSnoop (s : State) (i : Nat) : State :=
  let open_ := decide (i < 4096) && s.onesIn SNOOP.REOPEN i
  let clear := BitVec.ofNat 32 (SNOOP.RECLAIMED.get (s.onesAt 0x11 i 1))
  let ms := s.inf HSET.SCRUB_MS i
  let s := s.commitTbl 0x11 (· == i)
  let s := if 4096 ≤ i ∧ s.inf HSET.SCRUB_MS i ≠ ms then
      { s with coh := { s.coh with scrubbed := tset (fun _ => 0) s.coh.scrubbed (i - 4096) 0 } } else s
  let s := if 4096 ≤ i ∨ clear = 0 then s else s.clearReclaimed i clear
  if open_ then s.reopenStore i else s

/-- An admitted store of an entry reaches its commit point. Fields of code L and L0p reach theirs at the link (R198). -/
def State.commit (s : State) (tbl idx : Nat) : State :=
  match tbl with
  | 0x01 => s
  | 0x02 => s.commitWindow idx
  | 0x05 => s.commitKeyslot idx
  | 0x06 =>
    let clear := idx == 0 && s.onesIn TOLLDEV.SHORTFALL 0
    let s := s.commitTbl 0x06 (· == idx)
    if clear then s.clearW1c TOLLDEV.SHORTFALL 0 1 else s
  | 0x09 => s.commitCapacity idx
  | 0x0A =>
    let free := decide (0 < idx) && s.onesIn CTX.RELEASE idx && !(s.ctx (idx - 1)).busy
    let s := s.commitTbl 0x0A (· == idx)
    if free then s.setCtx (idx - 1) Ctx.init else s
  | 0x0B => s.commitMemch idx
  | 0x11 => s.commitSnoop idx
  | _ => s.commitTbl tbl (· == idx)

/-- TABLE_COMMIT (R168). -/
def execTableCommit (tbl : BitVec 8) (idx : BitVec 48) (s : State) : Host.Outcome State Fault Refusal :=
  .next (if s.uncommitted.any (fun u => u.tbl == tbl.toNat && u.idx == idx.toNat) then s.commit tbl.toNat idx.toNat else s)

end Sys2Proof.Machine
end

