-- ==== Sys2Proof/Machine/RamerAlu.lean ====
section
/-! DEFINITION. Ramer's integer, compare, branch and jump instructions and TRAP's kin of plain register
work (R117-R123). -/
namespace Sys2Proof.Machine

/-- A three-operand instruction: g[d] takes a function of g[a] and g[b] (R121). -/
def aluReg (w : WfNo) (t : ThrNo) (i : Instr) (d a b : Reg) (f : BitVec 64 → BitVec 64 → BitVec 64) : State → State :=
  ramer w t i (fun s => .next (s.setG w t d (f (s.g w t a) (s.g w t b))))

/-- An immediate form: g[d] takes a function of g[a] and the immediate (R121). -/
def aluImm (w : WfNo) (t : ThrNo) (i : Instr) (d a : Reg) (imm : BitVec 64) (f : BitVec 64 → BitVec 64 → BitVec 64) :
    State → State :=
  ramer w t i (fun s => .next (s.setG w t d (f (s.g w t a) imm)))

/-- Count of leading zero bits, 0-64 (R121). -/
def clz64 (v : BitVec 64) : BitVec 64 := BitVec.ofNat 64 (if v = 0 then 64 else 63 - Nat.log2 v.toNat)

/-- Count of one bits, 0-64 (R121). -/
def popc64 (v : BitVec 64) : BitVec 64 := BitVec.ofNat 64 ((List.range 64).filter v.getLsbD).length

/-- High 64 bits of the unsigned product (R121). -/
def mulHigh (a b : BitVec 64) : BitVec 64 := BitVec.ofNat 64 (a.toNat * b.toNat / 2 ^ 64)

/-- Unsigned quotient; divisor zero gives all ones (R121). -/
def divU (a b : BitVec 64) : BitVec 64 := if b = 0 then BitVec.allOnes 64 else a / b

/-- Unsigned remainder; divisor zero gives the dividend (R121). -/
def remU (a b : BitVec 64) : BitVec 64 := if b = 0 then a else a % b

/-- Signed minimum (R121). -/
def minS (a b : BitVec 64) : BitVec 64 := if isLt a b then a else b
/-- Signed maximum (R121). -/
def maxS (a b : BitVec 64) : BitVec 64 := if isLt a b then b else a


/-- ADD (R121). -/
def execAdd (w : WfNo) (t : ThrNo) (d a b : Reg) (s : State) : Host.Outcome State Fault Refusal :=
  .next (aluReg w t (.add w t d a b) d a b (· + ·) s)

/-- SUB (R121). -/
def execSub (w : WfNo) (t : ThrNo) (d a b : Reg) (s : State) : Host.Outcome State Fault Refusal :=
  .next (aluReg w t (.sub w t d a b) d a b (· - ·) s)

/-- AND (R121). -/
def execAnd (w : WfNo) (t : ThrNo) (d a b : Reg) (s : State) : Host.Outcome State Fault Refusal :=
  .next (aluReg w t (.and w t d a b) d a b (· &&& ·) s)

/-- OR (R121). -/
def execOr (w : WfNo) (t : ThrNo) (d a b : Reg) (s : State) : Host.Outcome State Fault Refusal :=
  .next (aluReg w t (.or w t d a b) d a b (· ||| ·) s)

/-- XOR (R121). -/
def execXor (w : WfNo) (t : ThrNo) (d a b : Reg) (s : State) : Host.Outcome State Fault Refusal :=
  .next (aluReg w t (.xor w t d a b) d a b (· ^^^ ·) s)

/-- SHL (R121). -/
def execShl (w : WfNo) (t : ThrNo) (d a b : Reg) (s : State) : Host.Outcome State Fault Refusal :=
  .next (aluReg w t (.shl w t d a b) d a b (fun x y => x <<< shAmt y) s)

/-- SHR (R121). -/
def execShr (w : WfNo) (t : ThrNo) (d a b : Reg) (s : State) : Host.Outcome State Fault Refusal :=
  .next (aluReg w t (.shr w t d a b) d a b (fun x y => x >>> shAmt y) s)

/-- SAR (R121). -/
def execSar (w : WfNo) (t : ThrNo) (d a b : Reg) (s : State) : Host.Outcome State Fault Refusal :=
  .next (aluReg w t (.sar w t d a b) d a b (fun x y => x.sshiftRight (shAmt y)) s)

/-- MUL (R121). -/
def execMul (w : WfNo) (t : ThrNo) (d a b : Reg) (s : State) : Host.Outcome State Fault Refusal :=
  .next (aluReg w t (.mul w t d a b) d a b (· * ·) s)

/-- MULH (R121). -/
def execMulh (w : WfNo) (t : ThrNo) (d a b : Reg) (s : State) : Host.Outcome State Fault Refusal :=
  .next (aluReg w t (.mulh w t d a b) d a b mulHigh s)

/-- DIVU (R121). -/
def execDivu (w : WfNo) (t : ThrNo) (d a b : Reg) (s : State) : Host.Outcome State Fault Refusal :=
  .next (aluReg w t (.divu w t d a b) d a b divU s)

/-- REMU (R121). -/
def execRemu (w : WfNo) (t : ThrNo) (d a b : Reg) (s : State) : Host.Outcome State Fault Refusal :=
  .next (aluReg w t (.remu w t d a b) d a b remU s)

/-- MIN (R121). -/
def execMin (w : WfNo) (t : ThrNo) (d a b : Reg) (s : State) : Host.Outcome State Fault Refusal :=
  .next (aluReg w t (.min w t d a b) d a b minS s)

/-- MAX (R121). -/
def execMax (w : WfNo) (t : ThrNo) (d a b : Reg) (s : State) : Host.Outcome State Fault Refusal :=
  .next (aluReg w t (.max w t d a b) d a b maxS s)

/-- CLZ (R121). -/
def execClz (w : WfNo) (t : ThrNo) (d a : Reg) (s : State) : Host.Outcome State Fault Refusal :=
  .next (aluReg w t (.clz w t d a) d a 0 (fun x _ => clz64 x) s)

/-- POPC (R121). -/
def execPopc (w : WfNo) (t : ThrNo) (d a : Reg) (s : State) : Host.Outcome State Fault Refusal :=
  .next (aluReg w t (.popc w t d a) d a 0 (fun x _ => popc64 x) s)

/-- SEQ (R121). -/
def execSeq (w : WfNo) (t : ThrNo) (d a b : Reg) (s : State) : Host.Outcome State Fault Refusal :=
  .next (aluReg w t (.seq w t d a b) d a b (fun x y => flag (isEq x y)) s)

/-- SLT (R121). -/
def execSlt (w : WfNo) (t : ThrNo) (d a b : Reg) (s : State) : Host.Outcome State Fault Refusal :=
  .next (aluReg w t (.slt w t d a b) d a b (fun x y => flag (isLt x y)) s)

/-- SLTU (R121). -/
def execSltu (w : WfNo) (t : ThrNo) (d a b : Reg) (s : State) : Host.Outcome State Fault Refusal :=
  .next (aluReg w t (.sltu w t d a b) d a b (fun x y => flag (isLtu x y)) s)

/-- ADDI (R118, R121). -/
def execAddi (w : WfNo) (t : ThrNo) (d a : Reg) (imm : BitVec 16) (s : State) : Host.Outcome State Fault Refusal :=
  .next (aluImm w t (.addi w t d a imm) d a (simm imm) (· + ·) s)

/-- ANDI (R118, R121). -/
def execAndi (w : WfNo) (t : ThrNo) (d a : Reg) (imm : BitVec 16) (s : State) : Host.Outcome State Fault Refusal :=
  .next (aluImm w t (.andi w t d a imm) d a (zimm imm) (· &&& ·) s)

/-- ORI (R118, R121). -/
def execOri (w : WfNo) (t : ThrNo) (d a : Reg) (imm : BitVec 16) (s : State) : Host.Outcome State Fault Refusal :=
  .next (aluImm w t (.ori w t d a imm) d a (zimm imm) (· ||| ·) s)

/-- XORI (R118, R121). -/
def execXori (w : WfNo) (t : ThrNo) (d a : Reg) (imm : BitVec 16) (s : State) : Host.Outcome State Fault Refusal :=
  .next (aluImm w t (.xori w t d a imm) d a (zimm imm) (· ^^^ ·) s)

/-- SHLI (R118, R121). -/
def execShli (w : WfNo) (t : ThrNo) (d a : Reg) (imm : BitVec 16) (s : State) : Host.Outcome State Fault Refusal :=
  .next (aluImm w t (.shli w t d a imm) d a (zimm imm) (fun x y => x <<< shAmt y) s)

/-- SHRI (R118, R121). -/
def execShri (w : WfNo) (t : ThrNo) (d a : Reg) (imm : BitVec 16) (s : State) : Host.Outcome State Fault Refusal :=
  .next (aluImm w t (.shri w t d a imm) d a (zimm imm) (fun x y => x >>> shAmt y) s)

/-- SARI (R118, R121). -/
def execSari (w : WfNo) (t : ThrNo) (d a : Reg) (imm : BitVec 16) (s : State) : Host.Outcome State Fault Refusal :=
  .next (aluImm w t (.sari w t d a imm) d a (zimm imm) (fun x y => x.sshiftRight (shAmt y)) s)

/-- MULI (R118, R121). -/
def execMuli (w : WfNo) (t : ThrNo) (d a : Reg) (imm : BitVec 16) (s : State) : Host.Outcome State Fault Refusal :=
  .next (aluImm w t (.muli w t d a imm) d a (simm imm) (· * ·) s)

/-- SLTI (R118, R121). -/
def execSlti (w : WfNo) (t : ThrNo) (d a : Reg) (imm : BitVec 16) (s : State) : Host.Outcome State Fault Refusal :=
  .next (aluImm w t (.slti w t d a imm) d a (simm imm) (fun x y => flag (isLt x y)) s)

/-- SLTIU (R118, R121). -/
def execSltiu (w : WfNo) (t : ThrNo) (d a : Reg) (imm : BitVec 16) (s : State) : Host.Outcome State Fault Refusal :=
  .next (aluImm w t (.sltiu w t d a imm) d a (simm imm) (fun x y => flag (isLtu x y)) s)

/-- SEQI (R118, R121). -/
def execSeqi (w : WfNo) (t : ThrNo) (d a : Reg) (imm : BitVec 16) (s : State) : Host.Outcome State Fault Refusal :=
  .next (aluImm w t (.seqi w t d a imm) d a (simm imm) (fun x y => flag (isEq x y)) s)

/-- LHI (R118, R121). -/
def execLhi (w : WfNo) (t : ThrNo) (d : Reg) (imm : BitVec 16) (s : State) : Host.Outcome State Fault Refusal :=
  .next (aluImm w t (.lhi w t d imm) d 0 (himm imm) (fun _ y => y) s)

/-! ### Branches and jumps (R122) -/

/-- Target of a branch: the branch's own address and 4 times the signed offset. -/
def branchTarget (pc imm : BitVec 16) : BitVec 64 := pc.zeroExtend 64 + 4 * simm imm

/-- Target of J and JAL: 4 times the 26-bit field. -/
def jumpTarget (imm : BitVec 26) : BitVec 64 := 4 * imm.zeroExtend 64

/-- A conditional branch (R122). -/
def branch (w : WfNo) (t : ThrNo) (i : Instr) (a b : Reg) (imm : BitVec 16) (c : BitVec 64 → BitVec 64 → Bool) :
    State → State :=
  ramer w t i (fun s =>
    if c (s.g w t a) (s.g w t b) then .jump s (branchTarget (s.thread w t).pc imm) else .next s)


/-- BEQ (R122). -/
def execBeq (w : WfNo) (t : ThrNo) (a b : Reg) (imm : BitVec 16) (s : State) : Host.Outcome State Fault Refusal :=
  .next (branch w t (.beq w t a b imm) a b imm isEq s)

/-- BNE (R122). -/
def execBne (w : WfNo) (t : ThrNo) (a b : Reg) (imm : BitVec 16) (s : State) : Host.Outcome State Fault Refusal :=
  .next (branch w t (.bne w t a b imm) a b imm (fun x y => !isEq x y) s)

/-- BLT (R122). -/
def execBlt (w : WfNo) (t : ThrNo) (a b : Reg) (imm : BitVec 16) (s : State) : Host.Outcome State Fault Refusal :=
  .next (branch w t (.blt w t a b imm) a b imm isLt s)

/-- BGE (R122). -/
def execBge (w : WfNo) (t : ThrNo) (a b : Reg) (imm : BitVec 16) (s : State) : Host.Outcome State Fault Refusal :=
  .next (branch w t (.bge w t a b imm) a b imm (fun x y => !isLt x y) s)

/-- BLTU (R122). -/
def execBltu (w : WfNo) (t : ThrNo) (a b : Reg) (imm : BitVec 16) (s : State) : Host.Outcome State Fault Refusal :=
  .next (branch w t (.bltu w t a b imm) a b imm isLtu s)

/-- BGEU (R122). -/
def execBgeu (w : WfNo) (t : ThrNo) (a b : Reg) (imm : BitVec 16) (s : State) : Host.Outcome State Fault Refusal :=
  .next (branch w t (.bgeu w t a b imm) a b imm (fun x y => !isLtu x y) s)

/-- J (R122). -/
def execJ (w : WfNo) (t : ThrNo) (imm : BitVec 26) (s : State) : Host.Outcome State Fault Refusal :=
  .next (ramer w t (.j w t imm) (fun s => .jump s (jumpTarget imm)) s)

/-- The address after the current instruction's, as a register value. -/
def State.nextPc (s : State) (w t : Nat) : BitVec 64 := (s.thread w t).pc.zeroExtend 64 + 4

/-- JAL: g31 takes the address of the next instruction (R122). -/
def execJal (w : WfNo) (t : ThrNo) (imm : BitVec 26) (s : State) : Host.Outcome State Fault Refusal :=
  .next (ramer w t (.jal w t imm) (fun s => .jump (s.setG w t 31 (s.nextPc w t)) (jumpTarget imm)) s)

/-- JR: g[d] takes the address of the next instruction; the target is g[a] as it was before (R122). -/
def execJr (w : WfNo) (t : ThrNo) (d a : Reg) (s : State) : Host.Outcome State Fault Refusal :=
  .next (ramer w t (.jr w t d a) (fun s => .jump (s.setG w t d (s.nextPc w t)) (s.g w t a)) s)

/-- A fetched word that R117 does not list raises ILLEGAL (R117), as a bad target does (R123); with `t.ue`, the fetch meets
an uncorrectable error in the instruction store: a class 2 fault, on which the wayfinder restarts (R164). -/
def execIllegalInstruction (w : WfNo) (t : BadFetch) (s : State) : Host.Outcome State Fault Refusal :=
  .next (ramer w t.thread (.illegalInstruction w t) (fun _ =>
    if t.ue then .retry (fun s => s.wfUe w (s.thread w t.thread).pc.toNat) else .raise 1 0) s)

/-- TRAP raises TRAP with its code (R141, R142). -/
def execTrap (w : WfNo) (t : ThrNo) (imm : BitVec 16) (s : State) : Host.Outcome State Fault Refusal :=
  .next (ramer w t (.trap w t imm) (fun _ => .raise 7 imm.toNat) s)

end Sys2Proof.Machine
end

