-- ==== Sys2Proof/Machine/RamerMem.lean ====
section
/-! DEFINITION. Ramer's scratch loads and stores (R114, R124). -/
namespace Sys2Proof.Machine

/-- Address of a scratch access: g[a] plus the sign-extended offset (R124). -/
def State.ea (s : State) (w t : Nat) (a : Reg) (imm : BitVec 16) : BitVec 64 := s.g w t a + simm imm

/-- A load of `n` bytes: SCRATCH_BOUNDS where R114 says so, else g[d] takes the bytes extended by `ext`. -/
def loadScr (w : WfNo) (t : ThrNo) (i : Instr) (d a : Reg) (imm : BitVec 16) (n : Nat) (ext : Nat → BitVec 64) : State → State :=
  ramer w t i (fun s =>
    match s.scratchAt w t (s.ea w t a imm) n n with
    | some p => .next (s.setG w t d (ext (leNat (s.scr w p n))))
    | none => .raise 4 0)

/-- A store of the low `n` bytes of g[d]. -/
def storeScr (w : WfNo) (t : ThrNo) (i : Instr) (d a : Reg) (imm : BitVec 16) (n : Nat) : State → State :=
  ramer w t i (fun s =>
    match s.scratchAt w t (s.ea w t a imm) n n with
    | some p => .next (s.setScr w p (leBytes n (s.g w t d).toNat))
    | none => .raise 4 0)

/-- Sign extension of a `k`-bit value. -/
def sext (k v : Nat) : BitVec 64 := (BitVec.ofNat k v).signExtend 64
/-- Zero extension. -/
def zext (v : Nat) : BitVec 64 := BitVec.ofNat 64 v

/-- LDB (R124). -/
def execLdb (w : WfNo) (t : ThrNo) (d a : Reg) (imm : BitVec 16) (s : State) : Host.Outcome State Fault Refusal :=
  .next (loadScr w t (.ldb w t d a imm) d a imm 1 (sext 8) s)

/-- LDBU (R124). -/
def execLdbu (w : WfNo) (t : ThrNo) (d a : Reg) (imm : BitVec 16) (s : State) : Host.Outcome State Fault Refusal :=
  .next (loadScr w t (.ldbu w t d a imm) d a imm 1 zext s)

/-- LDH (R124). -/
def execLdh (w : WfNo) (t : ThrNo) (d a : Reg) (imm : BitVec 16) (s : State) : Host.Outcome State Fault Refusal :=
  .next (loadScr w t (.ldh w t d a imm) d a imm 2 (sext 16) s)

/-- LDHU (R124). -/
def execLdhu (w : WfNo) (t : ThrNo) (d a : Reg) (imm : BitVec 16) (s : State) : Host.Outcome State Fault Refusal :=
  .next (loadScr w t (.ldhu w t d a imm) d a imm 2 zext s)

/-- LDW (R124). -/
def execLdw (w : WfNo) (t : ThrNo) (d a : Reg) (imm : BitVec 16) (s : State) : Host.Outcome State Fault Refusal :=
  .next (loadScr w t (.ldw w t d a imm) d a imm 4 (sext 32) s)

/-- LDWU (R124). -/
def execLdwu (w : WfNo) (t : ThrNo) (d a : Reg) (imm : BitVec 16) (s : State) : Host.Outcome State Fault Refusal :=
  .next (loadScr w t (.ldwu w t d a imm) d a imm 4 zext s)

/-- LDD (R124). -/
def execLdd (w : WfNo) (t : ThrNo) (d a : Reg) (imm : BitVec 16) (s : State) : Host.Outcome State Fault Refusal :=
  .next (loadScr w t (.ldd w t d a imm) d a imm 8 zext s)

/-- STB (R124). -/
def execStb (w : WfNo) (t : ThrNo) (d a : Reg) (imm : BitVec 16) (s : State) : Host.Outcome State Fault Refusal :=
  .next (storeScr w t (.stb w t d a imm) d a imm 1 s)

/-- STH (R124). -/
def execSth (w : WfNo) (t : ThrNo) (d a : Reg) (imm : BitVec 16) (s : State) : Host.Outcome State Fault Refusal :=
  .next (storeScr w t (.sth w t d a imm) d a imm 2 s)

/-- STW (R124). -/
def execStw (w : WfNo) (t : ThrNo) (d a : Reg) (imm : BitVec 16) (s : State) : Host.Outcome State Fault Refusal :=
  .next (storeScr w t (.stw w t d a imm) d a imm 4 s)

/-- STD (R124). -/
def execStd (w : WfNo) (t : ThrNo) (d a : Reg) (imm : BitVec 16) (s : State) : Host.Outcome State Fault Refusal :=
  .next (storeScr w t (.std w t d a imm) d a imm 8 s)

end Sys2Proof.Machine
end

