-- ==== Sys2Proof/Machine/RamerTable.lean ====
section
/-! DEFINITION. The table instructions: what TLD returns of every table, staging, submission and comparison (R125-R128,
R162, R170, R280). -/
namespace Sys2Proof.Machine

/-! ### What a table word reads as (R126, R170) -/

/-- Bits of a number at a place of a 64-bit word. -/
def at64 (lo v : Nat) : BitVec 64 := BitVec.ofNat 64 (v * 2 ^ lo)

/-- A word of a page's PLACE entry (R240, R277). -/
def State.pageWord (s : State) (p word : Nat) (tenant : Bool) : BitVec 64 :=
  let x := s.page p
  if word = 0 then
    let cls := if x.st = .stowed ∨ (x.st = .moving ∧ x.src = .stowed) then x.slotClass else 0
    let aux := if x.st = .lost then x.code else if x.st = .moving then x.src.code else 0
    let held := x.unit.isSome
    at64 0 x.st.code ||| at64 3 x.pin ||| at64 5 (if s.accessedPage p then 1 else 0) ||| at64 6 (if x.retire then 1 else 0) |||
    at64 8 cls ||| at64 12 (if held && !tenant then x.key else 0) ||| at64 24 (if held && !tenant then x.loc else 0) ||| at64 60 aux
  else
    at64 0 (s.region (p / 512)).kind ||| at64 2 (if s.pclass (p / 512) == .elastic then 1 else 0) ||| at64 12 (s.pop (p / 512))

/-- A word of a stream context's STOW entry (R310). -/
def State.ctxWord (s : State) (c word : Nat) : BitVec 64 :=
  let x := s.ctx c
  match word with
  | 0 => at64 0 x.st ||| at64 3 (if x.busy then 1 else 0) ||| at64 8 (if x.st = 0 then 0 else x.holder)
  | 1 => at64 0 x.inBytes
  | 2 => at64 0 x.outBytes
  | _ => x.crc.zeroExtend 64

/-- Counts of STOW entry 0 (R309). -/
def State.stowCounts (s : State) : State :=
  let slotFrames := (s.plc.frames.filter (fun f => match f.2.use with | .slots _ _ => true | _ => false)).length
  ((s.wr STOW.STOWED_PAGES 0 (s.plc.pages.filter (fun p => p.2.st == .stowed)).length).wr STOW.SLOT_FRAMES 0 slotFrames).wr
    STOW.CTX_HELD 0 (s.stow.ctxs.filter (fun c => c.2.st != 0)).length

/-- Counts of POWER entry 78 (R463). -/
def State.powerCounts (s : State) : State :=
  let n := fun (st : Nat) (ds : List Nat) => (ds.filter (fun d => s.rd POWER.STATE d == st)).length
  ((s.wr POWERALL.PARKED 78 (n 1 (List.range 78))).wr POWERALL.SHELVED 78 (n 2 (List.range 78))).wr
    POWERALL.LAID_BY 78 (n 3 ((List.range 78).drop 50))

/-- The tables with the fields of an entry that are counts of other state brought up to date. -/
def State.counted (s : State) (tbl idx : Nat) : State :=
  match tbl with
  | 0x02 => if s.winState idx = 3 then s.wr WINDOW.ENABLE idx 0 else s
  | 0x05 => (s.wr KEYSLOT.PAGES idx (s.keyPages idx)).wr KEYSLOT.MAPS idx (s.keyMaps idx)
  | 0x06 => if idx = 0 then s.wr TOLLDEV.BOOKED 0 s.booked else s
  | 0x07 => if idx % 64 = 63 then s.wr RBOWN.CAP idx (s.rbCap (idx / 64)) else s
  | 0x08 => if idx = placeCtl 0 then s.wr PLACE.HOT_OCC idx (min 65535 s.plc.hot.length) else s
  | 0x09 => if idx = 0 then s.capCounts else s
  | 0x0A => s.stowCounts
  | 0x0E => if idx = 0 then s.wr FAULT.RECORDS 0 s.records.length else s
  | 0x0F => if idx < 544 then s.wr MILEPOST.SNAP idx ((s.bank (idx / 32)).vals.getD (idx % 32) 0).toNat else s
  | 0x10 => if idx = 78 then s.powerCounts else s
  | 0x11 => if idx < 4096 then s else
      (s.wr HSET.VALID_ENTRIES idx (s.coh.sf.filter (fun x => x.1 / 16 / 16384 == idx - 4096 && x.2.valid)).length).wr
        HSET.BI_OUT idx (s.bisnps.filter (fun n => lineSlice n.line == idx - 4096)).length
  | _ => s

/-- A word of an entry whose unit is absent: in TOLL entries 0 to 3 the words of the head (R170, R410). -/
def State.wordAbsent (s : State) (tbl idx word : Nat) : Bool :=
  s.entryAbsent tbl idx || (tbl == 0x06 && decide (word < 2) && !s.headExists (idx / 8))

/-- An absent unit's word: its RO/H fields at reset; a requester not at its roundabout reads at reset values (R170, R412). -/
def absentWord (tbl idx word : Nat) (x : BitVec 64) : BitVec 64 :=
  let m := if tbl = 0x07 then BitVec.allOnes 64 else typeMask tbl idx word [.roh]
  (x &&& ~~~ m) ||| (resetWord (handle tbl idx word) &&& m)

/-- What a TLD of a word returns, but for a walker's word 1 (R3, R126, R170). -/
def State.tldWord (s : State) (tbl idx word : Nat) (tenant : Bool) : BitVec 64 :=
  if tbl = 0x08 ∧ idx < 2 ^ 47 then s.pageWord idx word tenant
  else if tbl = 0x0A ∧ idx ≠ 0 then s.ctxWord (idx - 1) word
  else
    let x := (s.counted tbl idx).wordAt tbl idx word &&& ~~~ typeMask tbl idx word [.wo, .w1s]
    if s.wordAbsent tbl idx word then absentWord tbl idx word x else x

/-! ### Walkers (R280) -/

/-- An allocated storage unit of a memory unit: OFFSET, its length in 512-byte units, its slot, page, frame, and whether it
is a slot. -/
structure Stored where
  off : Nat
  len : Nat
  slot : Nat
  page : Nat
  frame : Nat
  stowed : Bool
deriving DecidableEq, Repr

/-- The storage units that the frame owner records of a memory unit list. -/
def State.storedOn (s : State) (u : Nat) : List Stored :=
  (s.plc.frames.filter (fun f => f.1 / 2 ^ 28 == u)).flatMap (fun f =>
    let k := f.1 % 2 ^ 28
    match f.2.use with
    | .page p => [⟨k * 8, 8, 0, p, k, false⟩]
    | .slots cls ps =>
      let n := slotBytes cls / 512
      (ps.zipIdx).filterMap (fun x => x.1.map (fun p => ⟨k * 8 + x.2 * n, n, x.2, p, k, true⟩))
    | _ => [])

/-- A walker's search from its CURSOR: word 1, and the walker advanced. -/
def State.walk (s : State) (i : Nat) : BitVec 64 × State :=
  let at_ := s.rd WALKER.CURSOR i
  let found := ((s.storedOn (s.rd WALKER.UNIT i)).filter (fun x => decide (at_ ≤ x.off))).foldl
    (fun (b : Option Stored) x => match b with
      | some y => if x.off < y.off then some x else b
      | none => some x) none
  match found with
  | some x => (at64 0 x.page ||| at64 34 x.frame ||| at64 62 (if x.stowed then 1 else 0) ||| at64 63 1,
      (s.wr WALKER.CURSOR i (x.off + x.len)).wr WALKER.NEXT_SLOT i x.slot)
  | none => (0, s.wr WALKER.NEXT_SLOT i 0)

/-! ### TLD (R125, R126, R162) -/

/-- The tables a tenant may read. -/
def tenantTable (tbl : Nat) : Bool := [0x02, 0x03, 0x04, 0x08, 0x0A, 0x11, 0x13].contains tbl

/-- The indices of those tables that lie in an LD's own range. -/
def State.tenantIndex (s : State) (ld tbl idx : Nat) : Bool :=
  match tbl with
  | 0x02 => idx / 16 == ld
  | 0x11 => decide (idx < 4096) && idx / 16 == ld
  | 0x03 => idx == ld
  | 0x13 => idx == ld
  | 0x04 => idx / 4096 == ld
  | 0x08 => decide (idx < 2 ^ 34) && (s.windowsAt (idx / 512)).any (fun i => winLd i == ld && s.winState i != 3)
  | _ => idx != 0 && (s.ctx (idx - 1)).st != 0 && (s.ctx (idx - 1)).holder == ld

/-- The exception that a TLD's handle raises, if any (R125, R142, R162). -/
def State.tldFault (s : State) (ld : Option Nat) (h : BitVec 64) : Option Nat :=
  match ld with
  | some l =>
    if 1 ≤ hTbl h ∧ hTbl h ≤ 0x14 ∧ tenantTable (hTbl h) = false then some 2
    else if handleOk h && s.tenantIndex l (hTbl h) (hIdx h) then none else some 3
  | none => if handleOk h then none else some 3

/-- A handle names word 1 of a walker. -/
def isWalk (h : BitVec 64) : Bool :=
  hTbl h == 0x08 && decide (placeCtl 2 ≤ hIdx h) && decide (hIdx h ≤ placeCtl 5) && hWord h == 1

/-- TLD: the committed word, or a walker's next storage unit. -/
def tldBody (w : WfNo) (t : ThrNo) (i : Instr) (d a : Reg) : State → State :=
  ramer w t i (fun s =>
    let h := s.g w t a
    let ld := s.tenant w t
    match s.tldFault ld h with
    | some code => .raise code 0
    | none =>
      if isWalk h then
        let r := s.walk (hIdx h)
        .next (r.2.setG w t d r.1)
      else .next (s.setG w t d (s.tldWord (hTbl h) (hIdx h) (hWord h) ld.isSome)))

/-- TLD (R126). -/
def execTld (w : WfNo) (t : ThrNo) (d a : Reg) (s : State) : Host.Outcome State Fault Refusal := .next (tldBody w t (.tld w t d a) d a s)

/-- WALKER_NEXT (R280): a TLD of word 1 of a walker. -/
def execWalkerNext (w : WfNo) (t : ThrNo) (d a : Reg) (s : State) : Host.Outcome State Fault Refusal := .next (tldBody w t (.walkerNext w t d a) d a s)

/-! ### Staging and submission (R126-R128, R147, R169) -/

/-- The words a thread has staged for an entry (R127). -/
def Thread.stagedFor (x : Thread) (tbl idx : Nat) : Staged := if x.stTbl = tbl ∧ x.stIdx = idx then x.staged else []

/-- A word staged: words of another entry go. -/
def Thread.stage (x : Thread) (h v : BitVec 64) : Thread :=
  { x with stTbl := hTbl h, stIdx := hIdx h,
           staged := tinsert (hWord h) v (terase (x.stagedFor (hTbl h) (hIdx h)) (hWord h)) }

/-- The exception that a store's handle raises: PRIVILEGE in a tenant (R162). -/
def State.storeFaults (s : State) (w t : Nat) (h : BitVec 64) : Option Nat :=
  if (s.tenant w t).isSome then some 2 else if handleOk h then none else some 3

/-- The staged entry submitted: its status, and what it does. Submissions of one FCLK cycle are taken in ascending order of
4 * wayfinder + thread (R147): they wait in the queue in that order (log entry 68). -/
def State.submit (s : State) (w t : Nat) : Nat × State :=
  let x := s.thread w t
  let s := s.setThread w t { x with staged := [] }
  let st := s.admission x.stTbl x.stIdx x.staged
  let s := s.submitted w st
  (st, if st = 0 then s.store x.stTbl x.stIdx x.staged (thKey w t) else s)

/-- TST (R126, R127). -/
def execTst (w : WfNo) (t : ThrNo) (d a b : Reg) (s : State) : Host.Outcome State Fault Refusal :=
  .next (ramer w t (.tst w t d a b) (fun s =>
    let h := s.g w t a
    match s.storeFaults w t h with
    | some code => .raise code 0
    | none => .next ((s.setThread w t ((s.thread w t).stage h (s.g w t b))).setG w t d 0)) s)

/-- TST.C (R126, R127, R169). -/
def execTstC (w : WfNo) (t : ThrNo) (d a b : Reg) (s : State) : Host.Outcome State Fault Refusal :=
  .next (ramer w t (.tstC w t d a b) (fun s =>
    let h := s.g w t a
    match s.storeFaults w t h with
    | some code => .raise code 0
    | none =>
      let r := (s.setThread w t ((s.thread w t).stage h (s.g w t b))).submit w t
      .next (r.2.setG w t d (BitVec.ofNat 64 r.1))) s)

/-- TCAS (R126, R127): compares with the committed word as TLD returns it; a failed comparison is a refused submission. -/
def execTcas (w : WfNo) (t : ThrNo) (d a b : Reg) (s : State) : Host.Outcome State Fault Refusal :=
  .next (ramer w t (.tcas w t d a b) (fun s =>
    let h := s.g w t a
    match s.storeFaults w t h with
    | some code => .raise code 0
    | none =>
      let x := (s.thread w t).stage h (s.g w t b)
      if s.tldWord (hTbl h) (hIdx h) (hWord h) false = s.g w t d then
        let r := (s.setThread w t x).submit w t
        .next (r.2.setG w t d (BitVec.ofNat 64 r.1))
      else .next (((s.setThread w t { x with staged := [] }).submitted w 0x100).setG w t d (BitVec.allOnes 64))) s)

end Sys2Proof.Machine
end

