-- ==== Sys2Proof/Machine/Reads.lean ====
section
/-! DEFINITION. What the readers outside read: the PHASE table, the table-read service and the sideband's address, and the
words of both BARs (R3, R49, R56, R76, R82, R86, R87, R97, R100, R103, R104, R107, R153, R166, R432, R476, R482). -/
namespace Sys2Proof.Machine

/-! ### The sideband and the candidates (R49, R56, R76, R82) -/

/-- The sideband's I3C static address and SMBus address (R49). -/
def State.bmcAddress (s : State) : Nat := 0x60 + s.board.straps.bmcAddr.toNat

/-- A candidate reads the PHASE table: over the BMC sideband from step 2 and in a halt, over the management endpoint once its
link is up after step 6 (R56, R76). No ownership and no wayfinder is needed. -/
def State.readsPhase (s : State) (c : Nat) : Bool :=
  (c == 1 && s.bmcAnswers) || (c == 0 && s.funcUp 256)

/-- The two words of the PHASE table as a candidate reads them. -/
def State.phaseWords (s : State) (c : Nat) : Option (BitVec 64 × BitVec 64) :=
  if s.readsPhase c then some (s.wordAt 0x14 0 0, s.wordAt 0x14 0 1) else none

/-- The wayfinder whose thread 0 serves a candidate's mailbox (R166): WF00 the endpoint and the sideband, WFk heads 2k and 2k + 1. -/
def State.serverOf (s : State) (c : Nat) : Nat := s.serving (if c ≤ 1 then 0 else (c - 2) / 2)

/-- The table-read service (R82, R166): any candidate whose path is up reads a table word through the base program. -/
def State.tableRead (s : State) (c tbl idx word : Nat) : Option (BitVec 64) :=
  let w := s.serverOf c
  if s.pathUp c && !s.board.halted && s.wfRuns w && (s.thread w 0).st != .idle && handleOk (BitVec.ofNat 64 (handle tbl idx word)) then
    some (s.tldWord tbl idx word false) else none

/-! ### Register words (R3, R103) -/

/-- A mailbox's word as it reads (R97): SEND and ACK read zero. -/
def Mailbox.word (m : Mailbox) (b : Nat) : BitVec 64 :=
  if b = 0x08 then m.payload.setWidth 64 ||| (if m.full then BitVec.ofNat 64 (2 ^ 63) else 0)
  else if b = 0x18 then at64 0 m.posted.toNat ||| at64 16 m.acked.toNat ||| at64 32 m.rejects.toNat
  else 0

/-- The doorbell block's words (R100): DB_SET reads its bits' state. -/
def State.bellRead (s : State) (f b : Nat) : BitVec 64 :=
  let x := s.bell f
  if b = 0 then at64 0 x.toDev.toNat ||| at64 16 x.toHost.toNat ||| at64 32 x.toDev.toNat
  else if b = 8 then at64 0 (s.devMask f).toNat ||| at64 16 x.hostMask.toNat
  else 0

/-- Bytes at a place of a byte string, as a word. -/
def wordOf (bs : List (BitVec 8)) (off : Nat) : BitVec 64 := BitVec.ofNat 64 (leAt bs off 8)

/-- A sample record's bytes (R479). -/
def Sample.bytes (x : Sample) : List (BitVec 8) :=
  leBytes 2 x.counter ++ leBytes 2 x.unit ++ leBytes 2 x.ld ++ leBytes 2 (if x.addrValid then 1 else 0) ++ leBytes 8 x.time ++
  leBytes 8 x.dpa ++ leBytes 8 x.info

/-- OVF_STATUS with the copies of SAMPLE_WR and SAMPLE_RD (R482). -/
def State.ovfStatus (s : State) : BitVec 64 :=
  let g := ((List.range 16).map (fun g => if (groupCounters g).any (fun n => s.rdB MILEPOST.OVF n) then 2 ^ g else 0)).sum
  at64 0 g ||| at64 16 (s.rd MPALL.SAMPLE_WR 544) ||| at64 23 (s.rd MPALL.SAMPLE_RD 544)

/-- A milepost region's word: of the endpoint, or of an LD's window (R476, R482). -/
def State.mileRead (s : State) (ld : Option Nat) (b : Nat) : BitVec 64 :=
  let seen := fun n => match ld with | some l => s.inWindow l n | none => true
  if b < 0x1100 then (if seen (b / 8) then BitVec.ofNat 64 (s.rd MILEPOST.VALUE (b / 8)) else 0)
  else if 0x2000 ≤ b ∧ b < 0x2000 + 0x200 * 17 then wordOf (s.snapImage ((b - 0x2000) / 0x200) ld) ((b - 0x2000) % 0x200)
  else if ld.isSome then 0
  else if b = 0x8008 then s.ovfStatus
  else if 0x9000 ≤ b ∧ b < 0x9800 then
    wordOf (tget (fun _ => Sample.init) s.mile.samples ((b - 0x9000) / 32)).bytes ((b - 0x9000) % 32)
  else 0

/-- The fault records' words (R432). -/
def State.faultRead (s : State) (b : Nat) : BitVec 64 :=
  if b < 0x40 then s.faultWord (b / 8)
  else if 0x1000 ≤ b ∧ b < 0x3000 then s.wordAt 0x0E (1 + (b - 0x1000) / 32) (b % 32 / 8)
  else 0

/-- The service access words (R104, R107). -/
def State.serviceRead (s : State) (b : Nat) : BitVec 64 :=
  let v := s.svc
  if b < 0x10 then (v.challenge >>> (8 * b)).setWidth 64
  else if b = 0x10 then at64 4 v.method.toNat
  else if b = 0x18 then at64 0 v.st.toNat ||| at64 2 v.fails.toNat ||| at64 4 v.last.toNat
  else if b = 0x200 then v.dbgAddr.setWidth 64
  else if b = 0x210 then
    at64 0 (if v.dbgBusy then 1 else 0) ||| at64 4 v.dbgResult.toNat ||| at64 8 v.dbgKey.toNat ||| at64 20 v.dbgPage.toNat
  else if 0x240 ≤ b ∧ b < 0x280 then (v.dbgData >>> (8 * (b - 0x240))).setWidth 64
  else 0

/-- The program load window's words (R153): its aperture onto the staging buffer, WIN_BASE, WIN_STATUS. -/
def State.winRead (s : State) (b : Nat) : BitVec 64 :=
  let w := s.soft.win
  if b < 0xFFC0 then wordOf (s.winReq (w.base.toNat + b) 8) 0
  else if b = 0xFFC0 then w.base.setWidth 64
  else if b = 0xFFD0 then at64 0 (if w.busy then 1 else 0) ||| at64 8 w.status.toNat ||| at64 16 w.program.toNat
  else 0

/-- A word of the endpoint's BAR2 (R103). The fault records, the mileposts and service access are read by a candidate that
OWNMODE lets stand; of what another one reads no rule tells (none: a free value, log entry 2). -/
def State.endpointRead (s : State) (b : Nat) : Option (BitVec 64) :=
  if b = 0x08 then some (s.ownerStatus 0)
  else if b < 0x1000 then some 0
  else if b < 0x1400 then some ((s.mailbox 256 true ((b - 0x1000) / 64)).word (b % 64))
  else if b < 0x1800 then some ((s.mailbox 256 false ((b - 0x1400) / 64)).word (b % 64))
  else if b < 0x10000 then some (s.bellRead 256 (b - 0x2000))
  else if b < 0x20000 then some (s.winRead (b - 0x10000))
  else if !s.eligible 0 then none
  else if b < 0x30000 then some (s.faultRead (b - 0x20000))
  else if b < 0x40000 then some (s.mileRead none (b - 0x30000))
  else some (s.serviceRead (b - 0x40000))

/-- A ring's doorbell page as it reads (R87). RUNNING is 1 while it fetches or has commands in flight. -/
def State.ringRead (s : State) (ld r b : Nat) : BitVec 64 :=
  let x := s.ring ld r
  let n := (s.soft.cmds.filter (fun c => c.ld == ld && c.ring == r)).length
  let running := (x.enable && !x.error) || decide (0 < n)
  if b = 0 then x.cmdBase
  else if b = 0x08 then x.cplBase
  else if b = 0x10 then at64 0 (if x.enable then 1 else 0) ||| at64 8 x.cmdLog2.toNat ||| at64 16 x.cplLog2.toNat
  else if b = 0x18 then
    at64 0 (if running then 1 else 0) ||| at64 1 (if x.error then 1 else 0) ||| at64 4 x.cause.toNat ||| at64 16 x.cmdHead.toNat |||
    at64 32 x.cplTail.toNat ||| at64 48 n
  else if b = 0x20 then x.cmdTail.setWidth 64
  else if b = 0x28 then x.cplHead.setWidth 64
  else 0

/-- A word of a logical device's BAR2 (R103). -/
def State.ldRead (s : State) (ld b : Nat) : BitVec 64 :=
  if b < 0x80000 then s.ringRead ld (b / 0x1000) (b % 0x1000)
  else if b < 0x80100 then (s.mailbox ld true ((b - 0x80000) / 64)).word (b % 64)
  else if b < 0x80200 then (s.mailbox ld false ((b - 0x80100) / 64)).word (b % 64)
  else if b = 0x81000 ∨ b = 0x81008 then s.bellRead ld (b - 0x81000)
  else if 0x90000 ≤ b ∧ b < 0xA0000 then s.mileRead (some ld) (b - 0x90000)
  else 0

/-- A function's BAR2 word as it reads. -/
def State.barRead (s : State) (f b : Nat) : Option (BitVec 64) := if f = 256 then s.endpointRead b else some (s.ldRead f b)

/-- Bytes of a word that an access of `size` bytes at an offset takes. -/
def laneBytes (w : BitVec 64) (off size : Nat) : List (BitVec 8) := ((leBytes 8 w.toNat).drop (off % 8)).take size

end Sys2Proof.Machine
end

