-- ==== Sys2Proof/Machine/RegisterWrite.lean ====
section
/-! DEFINITION. Accesses to the BAR2 registers of the management endpoint and of the logical devices, and to the service
registers over the BMC sideband (R3, R86, R87, R97, R100, R103, R104, R106, R107, R153, R193, R432, R482). A write is taken as the 8-byte word it falls in: the word's bytes
it carries, and the mask of those bytes. -/
namespace Sys2Proof.Machine

/-! ### The word a write falls in -/

/-- Mask of the bytes that a write of `size` bytes at an offset covers in its 8-byte word. -/
def laneMask (off size : Nat) : BitVec 64 := BitVec.ofNat 64 ((2 ^ (8 * size) - 1) * 2 ^ (off % 8 * 8))

/-- The written bytes in their places in the word; every other byte is zero. -/
def laneData (off size : Nat) (v : BitVec 64) : BitVec 64 := (v <<< (off % 8 * 8)) &&& laneMask off size

/-- A write covers some of the `n` bits from `lo` on. -/
def covers (m : BitVec 64) (lo n : Nat) : Bool := m.toNat / 2 ^ lo % 2 ^ n != 0

/-- RW bits: the bytes not written keep their value (R3). -/
def merge (old w m : BitVec 64) : BitVec 64 := (old &&& ~~~ m) ||| (w &&& m)

/-- Bits `n` from `lo` on, as a number. -/
def bitsAt (w : BitVec 64) (lo n : Nat) : Nat := w.toNat / 2 ^ lo % 2 ^ n

/-! ### Blocks that both BARs hold -/

/-- A host-to-device mailbox's registers (R97): only SEND acts. -/
def State.mailOut (s : State) (f b : Nat) (w : BitVec 64) (p : Tlp) : State :=
  if b % 64 = 0 then s.hostPosts f (b / 64) w p else s

/-- A device-to-host mailbox's registers (R97): only ACK acts, on any write. -/
def State.mailIn (s : State) (f b : Nat) : State :=
  if b % 64 = 16 then s.hostAcks f (b / 64) else s

/-- The doorbell block (R100): DB_STATUS and DB_SET in word 0, DB_MASK in word 8. -/
def State.bellWord (s : State) (f b : Nat) (w m : BitVec 64) : State :=
  if b = 0 then
    (s.bellClear f (BitVec.ofNat 16 (bitsAt w 16 16))).setToDev f (BitVec.ofNat 16 (bitsAt w 32 16))
  else if covers m 16 16 then
    s.bellMask f (BitVec.ofNat 16 (bitsAt (merge (BitVec.ofNat 64 ((s.bell f).hostMask.toNat * 2 ^ 16)) w m) 16 16))
  else s

/-! ### Management endpoint -/

/-- The ownership registers (R84, R86). -/
def State.ownerWord (s : State) (b : Nat) (w m : BitVec 64) : State :=
  s.ownerOp 0 (fun s =>
    if b = 0 then (if covers m 0 32 then s.claimBy 0 (BitVec.ofNat 32 (bitsAt w 0 32)) else s)
    else if b = 0x10 then
      (if w.getLsbD 8 then s.cancelBy 0 else if covers m 0 6 then s.handoverBy 0 (bitsAt w 0 6) else s)
    else if b = 0x18 then (if w.getLsbD 0 then s.releaseBy 0 else s)
    else s)

/-- The program load window (R153): its aperture, WIN_BASE and WIN_CTRL. -/
def State.winWord (s : State) (b : Nat) (w m : BitVec 64) : State :=
  let win := s.soft.win
  if b < 0xFFC0 then
    if win.busy then s
    else
      let buf := (List.range 8).foldl (fun (buf : Mem) i =>
        let a := win.base.toNat + b + i
        if covers m (8 * i) 8 && decide (a < winBytes) then buf.write a (BitVec.ofNat 8 (bitsAt w (8 * i) 8)) else buf) win.buf
      { s with soft := { s.soft with win := { win with buf := buf } } }
  else if b = 0xFFC0 then
    let v := bitsAt (merge (win.base.setWidth 64) w m) 0 17
    { s with soft := { s.soft with win := { win with base := BitVec.ofNat 17 v } } }
  else if b = 0xFFC8 then
    let s := if w.getLsbD 0 then s.winGo else s
    if w.getLsbD 1 then s.winClear else s
  else s

/-- The fault records (R419, R422, R432): while the management endpoint is the owner, ACK, and VALID and OVERFLOW of
latches 0 to 2. -/
def State.faultRegs (s : State) (b : Nat) (w : BitVec 64) : State :=
  if !s.ownerActs 0 then s
  else if b < 0x40 then
    (List.range 3).foldl (fun (s : State) k =>
      let one := fun (f : Fld) => f.word == b / 8 && w.getLsbD f.bit
      let s := if one (FAULT.VALID k) then s.clearLatch k else s
      if one (FAULT.OVERFLOW k) then s.clearW1c (FAULT.OVERFLOW k) 0 1 else s) s
  else if 0x1000 ≤ b ∧ b < 0x3000 ∧ b % 32 = 0 ∧ w.getLsbD RECORD.ACK.bit = true then s.ackRecord ((b - 0x1000) / 32)
  else s

/-- The service access registers as a candidate writes them (R104, R106, R107). -/
def State.serviceWord (s : State) (c b : Nat) (w m : BitVec 64) : State :=
  if !s.mayService c then s
  else if b = 0x010 then
    let method := BitVec.ofNat 2 (bitsAt (merge (BitVec.ofNat 64 (s.svc.method.toNat * 16)) w m) 4 2)
    let s : State := { s with svc := { s.svc with method := method } }
    let s := if w.getLsbD 0 then s.saNew else s
    let s := if w.getLsbD 1 then s.saCheck method else s
    if w.getLsbD 2 then s.relock else s
  else if 0x100 ≤ b ∧ b < 0x180 then
    let sh := (b - 0x100) * 8
    let old := (s.svc.response >>> sh).setWidth 64
    let new : BitVec 64 := merge old w m
    { s with svc := { s.svc with
        response := (s.svc.response ^^^ (old.setWidth 1024 <<< sh)) ||| (new.setWidth 1024 <<< sh) } }
  else if b = 0x200 then
    { s with svc := { s.svc with dbgAddr := BitVec.ofNat 46 (bitsAt (merge (s.svc.dbgAddr.setWidth 64) w m) 0 46) } }
  else if b = 0x208 then (if w.getLsbD 0 then s.dbgGo else s)
  else s

/-- A word of the management endpoint's BAR2 (R103). -/
def State.endpointWord (s : State) (b : Nat) (w m : BitVec 64) (p : Tlp) : State :=
  if b < 0x20 then s.ownerWord b w m
  else if b < 0x1000 then s
  else if b < 0x1400 then s.mailOut 256 (b - 0x1000) w p
  else if b < 0x1800 then s.mailIn 256 (b - 0x1400)
  else if b = 0x2000 ∨ b = 0x2008 then s.bellWord 256 (b - 0x2000) w m
  else if b < 0x10000 then s
  else if b < 0x20000 then s.winWord (b - 0x10000) w m
  else if b < 0x30000 then s.faultRegs (b - 0x20000) w
  else if b = 0x38000 then s.snapReq (BitVec.ofNat 17 (bitsAt w 0 17))
  else if 0x40000 ≤ b then s.serviceWord 0 (b - 0x40000) w m
  else s

/-! ### Logical devices -/

/-- A ring's doorbell page (R87, R88): the configuration is written only while ENABLE is 0. -/
def State.ringWord (s : State) (ld r b : Nat) (w m : BitVec 64) : State :=
  let x := s.ring ld r
  if b = 0x000 then (if x.enable then s else s.setRing ld r { x with cmdBase := merge x.cmdBase w m })
  else if b = 0x008 then (if x.enable then s else s.setRing ld r { x with cplBase := merge x.cplBase w m })
  else if b = 0x010 then
    let old : Nat := (if x.enable then 1 else 0) + x.cmdLog2.toNat * 2 ^ 8 + x.cplLog2.toNat * 2 ^ 16
    let v := merge (BitVec.ofNat 64 old) w m
    if x.enable then (if v.getLsbD 0 then s else s.ringStop ld r)
    else
      let s := s.setRing ld r { x with cmdLog2 := BitVec.ofNat 5 (bitsAt v 8 5), cplLog2 := BitVec.ofNat 5 (bitsAt v 16 5) }
      if v.getLsbD 0 then s.ringStart ld r else s
  else if b = 0x020 ∧ covers m 0 16 = true then
    s.tailWrite ld r (BitVec.ofNat 16 (bitsAt (merge (x.cmdTail.setWidth 64) w m) 0 16))
  else if b = 0x028 ∧ covers m 0 16 = true then
    s.headWrite ld r (BitVec.ofNat 16 (bitsAt (merge (x.cplHead.setWidth 64) w m) 0 16))
  else s

/-- A word of a logical device's BAR2 (R103). -/
def State.ldWord (s : State) (ld b : Nat) (w m : BitVec 64) (p : Tlp) : State :=
  if b < 0x80000 then s.ringWord ld (b / 0x1000) (b % 0x1000) w m
  else if b < 0x80100 then s.mailOut ld (b - 0x80000) w p
  else if b < 0x80200 then s.mailIn ld (b - 0x80100)
  else if b = 0x81000 ∨ b = 0x81008 then s.bellWord ld (b - 0x81000) w m
  else s

/-! ### The access -/

/-- The offset is outside the function's BAR2 (R193): beyond every offset R103 lists, and not below the BAR's size. -/
def outsideBar (f off : Nat) : Bool :=
  decide ((if f = 256 then 0x40280 else 0xA0000) ≤ off) && decide (Config.barSize (f == 256) ≤ off)

/-- The access is to an absent milepost window (R482). -/
def State.noWindow (s : State) (f off : Nat) : Bool :=
  decide (f < 256) && decide (0x90000 ≤ off) && decide (off < 0xA0000) && !s.infB ACCESS.MILEPOST_WINDOW f

/-- An access turned away with an Unsupported Request (R193). -/
def State.turnAway (s : State) (f code : Nat) (p : Tlp) : State := (s.ioViolate f code 3 p).send (.unsupported f)

/-- The violation that an access of `size` bytes at an offset of a function's BAR2 commits, if any (R193, R482). -/
def State.badAccess (s : State) (f off size : Nat) : Option Nat :=
  if outsideBar f off || decide (4096 < off % 4096 + size) then some 0x0C
  else if !([1, 2, 4, 8].contains size) || off % size != 0 then some 0x0D
  else if s.noWindow f off then some 0x0C
  else none

/-- A host's write of `size` bytes to a function's BAR2 (R3, R103, R193). -/
def State.regWrite (s : State) (f : Nat) (p : Tlp) (off size : Nat) (v : BitVec 64) : State :=
  match s.badAccess f off size with
  | some code => s.turnAway f code p
  | none =>
    let b := off - off % 8
    let w := laneData off size v
    let m := laneMask off size
    if f = 256 then s.endpointWord b w m p else s.ldWord f b w m p

/-- A host's read of `size` bytes of a function's BAR2 (R3, R103, R193). -/
def State.regRead (s : State) (f : Nat) (p : Tlp) (off size : Nat) : State :=
  match s.badAccess f off size with
  | some code => s.turnAway f code p
  | none => match s.barRead f (off - off % 8) with
    | some w => s.send (.regData f (laneBytes w off size))
    | none => s.took.send (.regData f (laneBytes s.fresh off size))

/-- A packet that the receiver cannot make out (R193): a link-level violation of a head, reported through AER. -/
def State.tlpError (s : State) (f : Nat) (p : Tlp) : State :=
  (if f < 256 then s.violate (f / 16) 0xFF 0x0F 1 p.addr (tlpDetail p) else s).send (.aer f)

/-- A service message of the BMC sideband (R106). -/
def State.saMessage (s : State) (off size : Nat) (op : RegOp) : State :=
  let s := s.from_ 1
  let b := off - off % 8
  match op with
  | .write v => s.serviceWord 1 b (laneData off size v) (laneMask off size)
  | .read => s.send (.answer (laneBytes (s.serviceRead b) off size))
  | .malformed => s

/-- REGISTER_WRITE (R3), and the reads and malformed packets that reach a BAR (R193, log entry 73). -/
def execRegisterWrite (p : RegPath) (off : BitVec 24) (size : BitVec 8) (op : RegOp) (s : State) :
    Host.Outcome State Fault Refusal :=
  .next (match p with
    | .bar f tlp =>
      if !s.funcUp f then s
      else match op with
        | .write v => s.regWrite f tlp off.toNat size.toNat v
        | .read => s.regRead f tlp off.toNat size.toNat
        | .malformed => s.tlpError f tlp
    | .bmc => if s.mayService 1 then s.saMessage off.toNat size.toNat op else s)

end Sys2Proof.Machine
end

