-- ==== Sys2Proof/Machine/Dispatch.lean ====
section
/-! DEFINITION. The dispatch: one arm per constructor of `Instr`, each one call of its meaning. -/
namespace Sys2Proof.Machine

def exec (i : Instr) (s : State) : Host.Outcome State Fault Refusal :=
  match i with
  | .pwrgoodRise sysrstHigh => Sys2Proof.Machine.execPwrgoodRise sysrstHigh s
  | .sysrstNTakenAsRising st => Sys2Proof.Machine.execSysrstNTakenAsRising st s
  | .sysrstNRise st => Sys2Proof.Machine.execSysrstNRise st s
  | .sysrstNFall => Sys2Proof.Machine.execSysrstNFall s
  | .pwrgoodFall => Sys2Proof.Machine.execPwrgoodFall s
  | .hdperstNFall h => Sys2Proof.Machine.execHdperstNFall h s
  | .hdperstNRise h => Sys2Proof.Machine.execHdperstNRise h s
  | .mgPerstNFall => Sys2Proof.Machine.execMgPerstNFall s
  | .mgPerstNRise => Sys2Proof.Machine.execMgPerstNRise s
  | .bayTurn b bayvinMv => Sys2Proof.Machine.execBayTurn b bayvinMv s
  | .spdReadsComplete dimms => Sys2Proof.Machine.execSpdReadsComplete dimms s
  | .rootPllLock => Sys2Proof.Machine.execRootPllLock s
  | .pllLockTimeout => Sys2Proof.Machine.execPllLockTimeout s
  | .selfTestComplete u res => Sys2Proof.Machine.execSelfTestComplete u res s
  | .bootImageVerify f0 f1 ledger refclk => Sys2Proof.Machine.execBootImageVerify f0 f1 ledger refclk s
  | .recoveryImageSubmit c image => Sys2Proof.Machine.execRecoveryImageSubmit c image s
  | .fillComplete u failedAt ms => Sys2Proof.Machine.execFillComplete u failedAt ms s
  | .baseProgramReady ms => Sys2Proof.Machine.execBaseProgramReady ms s
  | .baseProgramTimeout code => Sys2Proof.Machine.execBaseProgramTimeout code s
  | .phaseStore w t d v => Sys2Proof.Machine.execPhaseStore w t d v s
  | .claim c word => Sys2Proof.Machine.execClaim c word s
  | .status c => Sys2Proof.Machine.execStatus c s
  | .handover c successor => Sys2Proof.Machine.execHandover c successor s
  | .handoverCancel c => Sys2Proof.Machine.execHandoverCancel c s
  | .release c => Sys2Proof.Machine.execRelease c s
  | .handoverTimerExpiry => Sys2Proof.Machine.execHandoverTimerExpiry s
  | .lapseTimerExpiry => Sys2Proof.Machine.execLapseTimerExpiry s
  | .functionLevelReset f => Sys2Proof.Machine.execFunctionLevelReset f s
  | .ldReset ld => Sys2Proof.Machine.execLdReset ld s
  | .bmcSclLowTimeout => Sys2Proof.Machine.execBmcSclLowTimeout s
  | .i3cTargetReset => Sys2Proof.Machine.execI3cTargetReset s
  | .ringEnable ld r => Sys2Proof.Machine.execRingEnable ld r s
  | .ringDisable ld r => Sys2Proof.Machine.execRingDisable ld r s
  | .cmdTailWrite ld r v => Sys2Proof.Machine.execCmdTailWrite ld r v s
  | .cplHeadWrite ld r v => Sys2Proof.Machine.execCplHeadWrite ld r v s
  | .commandFetch ld r resp => Sys2Proof.Machine.execCommandFetch ld r resp s
  | .commandComplete ld r ix hostOk => Sys2Proof.Machine.execCommandComplete ld r ix hostOk s
  | .copy ld r ix => Sys2Proof.Machine.execCopy ld r ix s
  | .zero ld r ix => Sys2Proof.Machine.execZero ld r ix s
  | .rekey ld r ix => Sys2Proof.Machine.execRekey ld r ix s
  | .stow ld r ix => Sys2Proof.Machine.execStow ld r ix s
  | .unstow ld r ix => Sys2Proof.Machine.execUnstow ld r ix s
  | .pin ld r ix => Sys2Proof.Machine.execPin ld r ix s
  | .unpin ld r ix => Sys2Proof.Machine.execUnpin ld r ix s
  | .hint ld r ix => Sys2Proof.Machine.execHint ld r ix s
  | .exportStream ld r ix hostOk => Sys2Proof.Machine.execExportStream ld r ix hostOk s
  | .importStream ld r ix resp => Sys2Proof.Machine.execImportStream ld r ix resp s
  | .save ld r ix hostOk => Sys2Proof.Machine.execSave ld r ix hostOk s
  | .restore ld r ix resp => Sys2Proof.Machine.execRestore ld r ix resp s
  | .run ld r ix resp => Sys2Proof.Machine.execRun ld r ix resp s
  | .runDispatch => Sys2Proof.Machine.execRunDispatch s
  | .snap ld r ix hostOk => Sys2Proof.Machine.execSnap ld r ix hostOk s
  | .mailboxSend f m v => Sys2Proof.Machine.execMailboxSend f m v s
  | .mailboxAck f m => Sys2Proof.Machine.execMailboxAck f m s
  | .dbSet f v => Sys2Proof.Machine.execDbSet f v s
  | .dbStatusClear f v => Sys2Proof.Machine.execDbStatusClear f v s
  | .dbMaskWrite f v => Sys2Proof.Machine.execDbMaskWrite f v s
  | .saNew c => Sys2Proof.Machine.execSaNew c s
  | .saSubmit c method => Sys2Proof.Machine.execSaSubmit c method s
  | .saLock c => Sys2Proof.Machine.execSaLock c s
  | .saDbgGo c => Sys2Proof.Machine.execSaDbgGo c s
  | .debugReadComplete dec => Sys2Proof.Machine.execDebugReadComplete dec s
  | .debugHalt w t => Sys2Proof.Machine.execDebugHalt w t s
  | .debugResume w t => Sys2Proof.Machine.execDebugResume w t s
  | .debugSingleStep w t => Sys2Proof.Machine.execDebugSingleStep w t s
  | .load snd mask image => Sys2Proof.Machine.execLoad snd mask image s
  | .unload snd prog => Sys2Proof.Machine.execUnload snd prog s
  | .start snd mask thr prog args => Sys2Proof.Machine.execStart snd mask thr prog args s
  | .stop snd mask thr => Sys2Proof.Machine.execStop snd mask thr s
  | .query snd mask prog => Sys2Proof.Machine.execQuery snd mask prog s
  | .restart snd mask => Sys2Proof.Machine.execRestart snd mask s
  | .winClear => Sys2Proof.Machine.execWinClear s
  | .wayfinderRestartComplete w => Sys2Proof.Machine.execWayfinderRestartComplete w s
  | .illegalInstruction w t => Sys2Proof.Machine.execIllegalInstruction w t s
  | .add w t d a b => Sys2Proof.Machine.execAdd w t d a b s
  | .sub w t d a b => Sys2Proof.Machine.execSub w t d a b s
  | .and w t d a b => Sys2Proof.Machine.execAnd w t d a b s
  | .or w t d a b => Sys2Proof.Machine.execOr w t d a b s
  | .xor w t d a b => Sys2Proof.Machine.execXor w t d a b s
  | .shl w t d a b => Sys2Proof.Machine.execShl w t d a b s
  | .shr w t d a b => Sys2Proof.Machine.execShr w t d a b s
  | .sar w t d a b => Sys2Proof.Machine.execSar w t d a b s
  | .mul w t d a b => Sys2Proof.Machine.execMul w t d a b s
  | .mulh w t d a b => Sys2Proof.Machine.execMulh w t d a b s
  | .divu w t d a b => Sys2Proof.Machine.execDivu w t d a b s
  | .remu w t d a b => Sys2Proof.Machine.execRemu w t d a b s
  | .min w t d a b => Sys2Proof.Machine.execMin w t d a b s
  | .max w t d a b => Sys2Proof.Machine.execMax w t d a b s
  | .clz w t d a => Sys2Proof.Machine.execClz w t d a s
  | .popc w t d a => Sys2Proof.Machine.execPopc w t d a s
  | .seq w t d a b => Sys2Proof.Machine.execSeq w t d a b s
  | .slt w t d a b => Sys2Proof.Machine.execSlt w t d a b s
  | .sltu w t d a b => Sys2Proof.Machine.execSltu w t d a b s
  | .addi w t d a imm => Sys2Proof.Machine.execAddi w t d a imm s
  | .andi w t d a imm => Sys2Proof.Machine.execAndi w t d a imm s
  | .ori w t d a imm => Sys2Proof.Machine.execOri w t d a imm s
  | .xori w t d a imm => Sys2Proof.Machine.execXori w t d a imm s
  | .shli w t d a imm => Sys2Proof.Machine.execShli w t d a imm s
  | .shri w t d a imm => Sys2Proof.Machine.execShri w t d a imm s
  | .sari w t d a imm => Sys2Proof.Machine.execSari w t d a imm s
  | .muli w t d a imm => Sys2Proof.Machine.execMuli w t d a imm s
  | .lhi w t d imm => Sys2Proof.Machine.execLhi w t d imm s
  | .slti w t d a imm => Sys2Proof.Machine.execSlti w t d a imm s
  | .sltiu w t d a imm => Sys2Proof.Machine.execSltiu w t d a imm s
  | .seqi w t d a imm => Sys2Proof.Machine.execSeqi w t d a imm s
  | .beq w t a b imm => Sys2Proof.Machine.execBeq w t a b imm s
  | .bne w t a b imm => Sys2Proof.Machine.execBne w t a b imm s
  | .blt w t a b imm => Sys2Proof.Machine.execBlt w t a b imm s
  | .bge w t a b imm => Sys2Proof.Machine.execBge w t a b imm s
  | .bltu w t a b imm => Sys2Proof.Machine.execBltu w t a b imm s
  | .bgeu w t a b imm => Sys2Proof.Machine.execBgeu w t a b imm s
  | .j w t imm => Sys2Proof.Machine.execJ w t imm s
  | .jal w t imm => Sys2Proof.Machine.execJal w t imm s
  | .jr w t d a => Sys2Proof.Machine.execJr w t d a s
  | .ldb w t d a imm => Sys2Proof.Machine.execLdb w t d a imm s
  | .ldbu w t d a imm => Sys2Proof.Machine.execLdbu w t d a imm s
  | .ldh w t d a imm => Sys2Proof.Machine.execLdh w t d a imm s
  | .ldhu w t d a imm => Sys2Proof.Machine.execLdhu w t d a imm s
  | .ldw w t d a imm => Sys2Proof.Machine.execLdw w t d a imm s
  | .ldwu w t d a imm => Sys2Proof.Machine.execLdwu w t d a imm s
  | .ldd w t d a imm => Sys2Proof.Machine.execLdd w t d a imm s
  | .stb w t d a imm => Sys2Proof.Machine.execStb w t d a imm s
  | .sth w t d a imm => Sys2Proof.Machine.execSth w t d a imm s
  | .stw w t d a imm => Sys2Proof.Machine.execStw w t d a imm s
  | .std w t d a imm => Sys2Proof.Machine.execStd w t d a imm s
  | .tld w t d a => Sys2Proof.Machine.execTld w t d a s
  | .walkerNext w t d a => Sys2Proof.Machine.execWalkerNext w t d a s
  | .tst w t d a b => Sys2Proof.Machine.execTst w t d a b s
  | .tstC w t d a b => Sys2Proof.Machine.execTstC w t d a b s
  | .tcas w t d a b => Sys2Proof.Machine.execTcas w t d a b s
  | .tableCommit tbl idx => Sys2Proof.Machine.execTableCommit tbl idx s
  | .wait w t d a b => Sys2Proof.Machine.execWait w t d a b s
  | .postThread w t d a b => Sys2Proof.Machine.execPostThread w t d a b s
  | .postMailbox w t d a b => Sys2Proof.Machine.execPostMailbox w t d a b s
  | .postDoorbell w t d a b => Sys2Proof.Machine.execPostDoorbell w t d a b s
  | .sleep w t a => Sys2Proof.Machine.execSleep w t a s
  | .mbrd w t d a => Sys2Proof.Machine.execMbrd w t d a s
  | .mback w t d a => Sys2Proof.Machine.execMback w t d a s
  | .dbtake w t d a b => Sys2Proof.Machine.execDbtake w t d a b s
  | .threadResume w t expired => Sys2Proof.Machine.execThreadResume w t expired s
  | .stepBudgetExpiry w t => Sys2Proof.Machine.execStepBudgetExpiry w t s
  | .tick => Sys2Proof.Machine.execTick s
  | .moveTier w t d a => Sys2Proof.Machine.execMoveTier w t d a s
  | .moveCopy w t d a => Sys2Proof.Machine.execMoveCopy w t d a s
  | .moveZero w t d a => Sys2Proof.Machine.execMoveZero w t d a s
  | .moveRekey w t d a => Sys2Proof.Machine.execMoveRekey w t d a s
  | .moveDone w t desc => Sys2Proof.Machine.execMoveDone w t desc s
  | .stowInstr w t d a b => Sys2Proof.Machine.execStowInstr w t d a b s
  | .unstowInstr w t d a b => Sys2Proof.Machine.execUnstowInstr w t d a b s
  | .binv w t d a b => Sys2Proof.Machine.execBinv w t d a b s
  | .heat w t d => Sys2Proof.Machine.execHeat w t d s
  | .mread w t n d a b => Sys2Proof.Machine.execMread w t n d a b s
  | .mwrite w t n d a b => Sys2Proof.Machine.execMwrite w t n d a b s
  | .rget w t d a => Sys2Proof.Machine.execRget w t d a s
  | .rput w t d a b => Sys2Proof.Machine.execRput w t d a b s
  | .mprd w t d a => Sys2Proof.Machine.execMprd w t d a s
  | .mpsnap w t d a => Sys2Proof.Machine.execMpsnap w t d a s
  | .time w t d => Sys2Proof.Machine.execTime w t d s
  | .fenceS w t => Sys2Proof.Machine.execFenceS w t s
  | .fenceT w t => Sys2Proof.Machine.execFenceT w t s
  | .fenceD w t => Sys2Proof.Machine.execFenceD w t s
  | .fenceA w t => Sys2Proof.Machine.execFenceA w t s
  | .trap w t imm => Sys2Proof.Machine.execTrap w t imm s
  | .halt w t a => Sys2Proof.Machine.execHalt w t a s
  | .linkTrainingComplete l rate width flit256 cxl => Sys2Proof.Machine.execLinkTrainingComplete l rate width flit256 cxl s
  | .linkDown l => Sys2Proof.Machine.execLinkDown l s
  | .hdmDecoderCommit ld n dec => Sys2Proof.Machine.execHdmDecoderCommit ld n dec s
  | .configurationRequest r => Sys2Proof.Machine.execConfigurationRequest r s
  | .registerWrite p off size op => Sys2Proof.Machine.execRegisterWrite p off size op s
  | .memRd ld mv hpa tag => Sys2Proof.Machine.execMemRd ld mv hpa tag s
  | .memRdData ld mv hpa tag => Sys2Proof.Machine.execMemRdData ld mv hpa tag s
  | .memRdFwd ld mv hpa tag => Sys2Proof.Machine.execMemRdFwd ld mv hpa tag s
  | .memSpecRd ld mv hpa tag => Sys2Proof.Machine.execMemSpecRd ld mv hpa tag s
  | .memInv ld mv hpa tag => Sys2Proof.Machine.execMemInv ld mv hpa tag s
  | .memInvNt ld mv hpa tag => Sys2Proof.Machine.execMemInvNt ld mv hpa tag s
  | .memWr ld mv hpa tag data poisoned => Sys2Proof.Machine.execMemWr ld mv hpa tag data poisoned s
  | .memWrPtl ld mv hpa tag data mask p => Sys2Proof.Machine.execMemWrPtl ld mv hpa tag data mask p s
  | .biRspI h r => Sys2Proof.Machine.execBiRspI h r s
  | .biRspS h r => Sys2Proof.Machine.execBiRspS h r s
  | .biConflict h r => Sys2Proof.Machine.execBiConflict h r s
  | .violationLogRead snd h => Sys2Proof.Machine.execViolationLogRead snd h s
  | .violationLogClear snd h => Sys2Proof.Machine.execViolationLogClear snd h s
  | .isolationInterval h => Sys2Proof.Machine.execIsolationInterval h s
  | .isolatedClear w t d h => Sys2Proof.Machine.execIsolatedClear w t d h s
  | .l0pSample h load => Sys2Proof.Machine.execL0pSample h load s
  | .hostL0pRequest h width => Sys2Proof.Machine.execHostL0pRequest h width s
  | .l0pChangeComplete h => Sys2Proof.Machine.execL0pChangeComplete h s
  | .l1Entry h => Sys2Proof.Machine.execL1Entry h s
  | .l1Exit h => Sys2Proof.Machine.execL1Exit h s
  | .tollInterval => Sys2Proof.Machine.execTollInterval s
  | .queueLevelReport u level => Sys2Proof.Machine.execQueueLevelReport u level s
  | .tollgateAdmit g => Sys2Proof.Machine.execTollgateAdmit g s
  | .roundaboutRefill => Sys2Proof.Machine.execRoundaboutRefill s
  | .roundaboutGrant r => Sys2Proof.Machine.execRoundaboutGrant r s
  | .dwellWindowEnd dpa => Sys2Proof.Machine.execDwellWindowEnd dpa s
  | .victimSnoopIssue hs => Sys2Proof.Machine.execVictimSnoopIssue hs s
  | .snoopTimeout h dpa => Sys2Proof.Machine.execSnoopTimeout h dpa s
  | .reclaimWalkEnd h win => Sys2Proof.Machine.execReclaimWalkEnd h win s
  | .reopen w t d win => Sys2Proof.Machine.execReopen w t d win s
  | .reclaimedClear w t d win mask => Sys2Proof.Machine.execReclaimedClear w t d win mask s
  | .snoopFilterScrub hs set way ev => Sys2Proof.Machine.execSnoopFilterScrub hs set way ev s
  | .windowDisable w t d win => Sys2Proof.Machine.execWindowDisable w t d win s
  | .windowDisableComplete win => Sys2Proof.Machine.execWindowDisableComplete win s
  | .heatDecay => Sys2Proof.Machine.execHeatDecay s
  | .pageMoveCopyPassEnd p ev => Sys2Proof.Machine.execPageMoveCopyPassEnd p ev s
  | .pageMoveSwitch p => Sys2Proof.Machine.execPageMoveSwitch p s
  | .slotRelocation loc => Sys2Proof.Machine.execSlotRelocation loc s
  | .evacuate w t d b => Sys2Proof.Machine.execEvacuate w t d b s
  | .cancel w t d b => Sys2Proof.Machine.execCancel w t d b s
  | .offer w t d e => Sys2Proof.Machine.execOffer w t d e s
  | .recall w t d e => Sys2Proof.Machine.execRecall w t d e s
  | .extentAccept h e => Sys2Proof.Machine.execExtentAccept h e s
  | .extentRelease h e => Sys2Proof.Machine.execExtentRelease h e s
  | .coderAssign => Sys2Proof.Machine.execCoderAssign s
  | .stowComplete p ev => Sys2Proof.Machine.execStowComplete p ev s
  | .decoderGrant => Sys2Proof.Machine.execDecoderGrant s
  | .promotionComplete p engineFault => Sys2Proof.Machine.execPromotionComplete p engineFault s
  | .promotionBufferRead p engineFault => Sys2Proof.Machine.execPromotionBufferRead p engineFault s
  | .contextRelease w t d c => Sys2Proof.Machine.execContextRelease w t d c s
  | .install w t d k material mode dbg gen => Sys2Proof.Machine.execInstall w t d k material mode dbg gen s
  | .clear w t d k => Sys2Proof.Machine.execClear w t d k s
  | .mergeWindowExpiry u frame span => Sys2Proof.Machine.execMergeWindowExpiry u frame span s
  | .mergeEntrySeal u frame span dec => Sys2Proof.Machine.execMergeEntrySeal u frame span dec s
  | .reencryptionComplete p => Sys2Proof.Machine.execReencryptionComplete p s
  | .treeNodeWriteback level idx => Sys2Proof.Machine.execTreeNodeWriteback level idx s
  | .nodeRebaseComplete level idx => Sys2Proof.Machine.execNodeRebaseComplete level idx s
  | .dramReadComplete u ev => Sys2Proof.Machine.execDramReadComplete u ev s
  | .refresh u hot postpone => Sys2Proof.Machine.execRefresh u hot postpone s
  | .retrainingPause u => Sys2Proof.Machine.execRetrainingPause u s
  | .caParityAlert u slot => Sys2Proof.Machine.execCaParityAlert u slot s
  | .writeCrcAlert u place => Sys2Proof.Machine.execWriteCrcAlert u place s
  | .recoveryRetrainingEnd u ok => Sys2Proof.Machine.execRecoveryRetrainingEnd u ok s
  | .pmicFault u => Sys2Proof.Machine.execPmicFault u s
  | .patrolScrubRead u line dec => Sys2Proof.Machine.execPatrolScrubRead u line dec s
  | .ceDecay u => Sys2Proof.Machine.execCeDecay u s
  | .ceClear w t d u => Sys2Proof.Machine.execCeClear w t d u s
  | .memchReset w t d u => Sys2Proof.Machine.execMemchReset w t d u s
  | .layByEntryComplete u => Sys2Proof.Machine.execLayByEntryComplete u s
  | .layByExitComplete u => Sys2Proof.Machine.execLayByExitComplete u s
  | .collectorTake => Sys2Proof.Machine.execCollectorTake s
  | .recordAck c slot => Sys2Proof.Machine.execRecordAck c slot s
  | .latchClear c cls => Sys2Proof.Machine.execLatchClear c cls s
  | .faultStatusRead => Sys2Proof.Machine.execFaultStatusRead s
  | .faultRecordsRead ix j => Sys2Proof.Machine.execFaultRecordsRead ix j s
  | .resetGo w t d uid => Sys2Proof.Machine.execResetGo w t d uid s
  | .unitResetComplete faulty => Sys2Proof.Machine.execUnitResetComplete faulty s
  | .checkin w t d => Sys2Proof.Machine.execCheckin w t d s
  | .checkinTimeout => Sys2Proof.Machine.execCheckinTimeout s
  | .heartbeatToggle => Sys2Proof.Machine.execHeartbeatToggle s
  | .domainEvaluation dom idle => Sys2Proof.Machine.execDomainEvaluation dom idle s
  | .domainEntryComplete dom error => Sys2Proof.Machine.execDomainEntryComplete dom error s
  | .domainWake dom => Sys2Proof.Machine.execDomainWake dom s
  | .domainReady dom => Sys2Proof.Machine.execDomainReady dom s
  | .thermalSample th raw => Sys2Proof.Machine.execThermalSample th raw s
  | .throttleUpdate => Sys2Proof.Machine.execThrottleUpdate s
  | .dimmSensorRead c reading dramHot => Sys2Proof.Machine.execDimmSensorRead c reading dramHot s
  | .shutdownGraceEnd => Sys2Proof.Machine.execShutdownGraceEnd s
  | .hardTrip th => Sys2Proof.Machine.execHardTrip th s
  | .bayPresenceValid b => Sys2Proof.Machine.execBayPresenceValid b s
  | .bayPresenceLost b => Sys2Proof.Machine.execBayPresenceLost b s
  | .debounceExpiry b => Sys2Proof.Machine.execDebounceExpiry b s
  | .holdoffExpiry b bayvinMv => Sys2Proof.Machine.execHoldoffExpiry b bayvinMv s
  | .prechargeComplete b bayvsMv => Sys2Proof.Machine.execPrechargeComplete b bayvsMv s
  | .prechargeTimeout b bayvsMv => Sys2Proof.Machine.execPrechargeTimeout b bayvsMv s
  | .gateFullyOn b bayvsMv dimms => Sys2Proof.Machine.execGateFullyOn b bayvsMv dimms s
  | .rampTimeout b bayvsMv => Sys2Proof.Machine.execRampTimeout b bayvsMv s
  | .fastTrip b current => Sys2Proof.Machine.execFastTrip b current s
  | .slowTrip b current => Sys2Proof.Machine.execSlowTrip b current s
  | .vbaydrvLoss mv => Sys2Proof.Machine.execVbaydrvLoss mv s
  | .bayvinExcursion b mv => Sys2Proof.Machine.execBayvinExcursion b mv s
  | .bayEnable w t d b => Sys2Proof.Machine.execBayEnable w t d b s
  | .bayDisable w t d b => Sys2Proof.Machine.execBayDisable w t d b s
  | .bayPowerDown b => Sys2Proof.Machine.execBayPowerDown b s
  | .ledgerSecond util => Sys2Proof.Machine.execLedgerSecond util s
  | .ageingRead drift => Sys2Proof.Machine.execAgeingRead drift s
  | .ledgerWrite ok => Sys2Proof.Machine.execLedgerWrite ok s
  | .counterWrap n occ => Sys2Proof.Machine.execCounterWrap n occ s
  | .snapReq c mask => Sys2Proof.Machine.execSnapReq c mask s
  | .snapshotComplete g => Sys2Proof.Machine.execSnapshotComplete g s
  | .clearAll w t d => Sys2Proof.Machine.execClearAll w t d s
  | .flowControlCreditReturn h kind n => Sys2Proof.Machine.execFlowControlCreditReturn h kind n s
  | .cxlIoCompletion h tag resp => Sys2Proof.Machine.execCxlIoCompletion h tag resp s
  | .dramCommandIssue u => Sys2Proof.Machine.execDramCommandIssue u s
  | .vbaydrvPassesAgain => Sys2Proof.Machine.execVbaydrvPassesAgain s
  | .functionOutOfReset f => Sys2Proof.Machine.execFunctionOutOfReset f s
  | .testAccessPortInstruction p => Sys2Proof.Machine.execTestAccessPortInstruction p s

end Sys2Proof.Machine
end

