-- ==== Sys2Proof/Machine/Tick.lean ====
section
/-! DEFINITION. One FCLK cycle with no command waiting: what the clocks count, and the mileposts' conditions (R10,
R141, R467, R471, R472). -/
namespace Sys2Proof.Machine

/-! ### Conditions (R471) -/

/-- A request waits at a head's tollgate that the counter's QUAL and FILTER_LD let it count (R390, R470). -/
def State.tollWaits (s : State) (n h : Nat) : Bool :=
  let ld := s.rd MILEPOST.FILTER_LD n
  (s.toll h).queue.any (fun r => bitOf (s.rd MILEPOST.QUAL n) r.cls &&
    (ld == 0x1FF || (match r.src with | .host _ l _ _ => l == ld | _ => false)))

/-- A head's link conditions: BISnp (6), posted (7) and non-posted (8) requests that wait for a credit. -/
def State.creditWaits (s : State) (h code : Nat) : Bool :=
  let k := s.link h
  match code with
  | 6 => k.crBisnp == 0 && s.bisnps.any (fun n => n.head == h && !n.sent)
  | 7 => k.crPosted == 0 && s.soft.cmds.any (fun c => ldHead c.ld == h && (match c.st with | .done _ _ => true | _ => false))
  | _ => k.crNonPosted == 0 && s.soft.rings.any (fun x => ldHead (x.1 / 128) == h && s.wantsFetch (x.1 / 128) (x.1 % 128))

/-- A home slice's allocation stalls for snoop slots (R216). -/
def State.allocStalls (s : State) (hs : Nat) : Bool := s.coh.victims.any (fun v => v.slice == hs && !v.issued)

/-- A home slice's conditions: an allocation stalled (4), every tracker in use (5), a request that waits out a dwell
window (6). -/
def State.sliceWaits (s : State) (hs code : Nat) : Bool :=
  match code with
  | 4 => s.allocStalls hs
  | 5 => decide (1024 ≤ (s.coh.trackers.filter (fun t => lineSlice t.line == hs)).length)
  | _ => s.coh.dwells.any (fun d => lineSlice d.line == hs &&
      s.coh.trackers.any (fun t => t.line == d.line && !t.queue.isEmpty))

/-- A memory unit's conditions: rows ordered (5, in a 2DPC channel), write queue full (7), retraining pause (8). -/
def State.unitWaits (s : State) (u code : Nat) : Bool :=
  let c := s.chan u
  match code with
  | 5 => decide (u < 24) && s.rd MEMCH.DIMMS u == 2 &&
      c.rq.any (fun r => c.wq.any (fun w => s.rowKey u w.addr == s.rowKey u r.addr))
  | 7 => decide (s.wqCap u ≤ s.wqUsed u)
  | _ => decide (s.time.fclk < c.readyAt)

/-- A coder or a decoder pair holds work. -/
def State.engineBusy (s : State) (i : Nat) : Bool :=
  if i < 32 then s.plc.moves.any (fun m => match m.kind with | .stow _ c => c == i | _ => false)
  else s.stow.decoding.any (fun x => x.dec / 2 == i - 32)

/-- No thread of a running wayfinder is ready. -/
def State.noneReady (s : State) (w : Nat) : Bool :=
  (s.wf w).released && !(s.wf w).stopped &&
  (List.range 4).all (fun t => (s.thread w t).st != .running || (s.thread w t).dbg)

/-- A condition event holds at a unit, as counter `n` counts it; false for an event of the other kind (R471). -/
def State.condHolds (s : State) (n unit code : Nat) : Bool :=
  let i := unit % 64
  match unit / 64 with
  | 0 => decide (i < 32) && (if code = 3 then s.tollWaits n i else (code == 6 || code == 7 || code == 8) && s.creditWaits i code)
  | 2 => decide (i < 16) && (code == 4 || code == 5 || code == 6) && s.sliceWaits i code
  | 3 => decide (i < 24) && (code == 5 || code == 7 || code == 8) && s.unitWaits i code
  | 4 => decide (i < 4) && (code == 7 || code == 8) && s.unitWaits (24 + i) code
  | 6 => code == 7 && s.engineBusy i
  | 7 => code == 3 && s.plc.moves.any (fun m => m.mover == i && !m.held.isEmpty)
  | 8 => decide (i < 16) && code == 5 && s.noneReady i
  | _ => false

/-- The units at which a counter's condition holds in this cycle. -/
def State.condUnits (s : State) (n : Nat) : List Nat :=
  let u := s.rd MILEPOST.UNIT n
  let us := if s.rdB MILEPOST.ALL_INDEX n then (List.range 64).map (uid (u / 64)) else [u]
  us.filter (fun u => s.condHolds n u (s.rd MILEPOST.EVENT n))

/-- One cycle of a counter's condition: in MODE 1 each unit at which it holds, in MODE 0 each at which it starts
(R467); nothing while frozen, or at a unit whose domain is not ACTIVE (R469). -/
def State.condCycle (s : State) (n : Nat) (us : List Nat) : State :=
  us.foldl (fun (s : State) u =>
    if s.rdB MPALL.FREEZE 544 || !s.domActive u || (!s.rdB MILEPOST.MODE n && s.mile.held.contains (n, u)) then s
    else s.addOne n ⟨u, s.rd MILEPOST.EVENT n, none, none, none⟩) s

/-- The mileposts' cycle: conditions are counted, and what holds is kept for the next cycle's edges. -/
def State.tickConds (s : State) : State :=
  let now := s.enabledCounters.map (fun n => (n, s.condUnits n))
  let s := now.foldl (fun (s : State) x => s.condCycle x.1 x.2) s
  { s with mile := { s.mile with held := now.flatMap (fun x => x.2.map (fun u => (x.1, u))), cycle := [] } }

/-- Fixed counters 512, 522 and 534 (R472). -/
def State.tickFixed (s : State) : State :=
  let s := s.fixed 512
  let s := ((List.range 16).filter s.allocStalls).foldl (fun (s : State) _ => s.fixed 522) s
  if s.rd LEDGER.CUT 52 = 0 then s else s.fixed 534

/-! ### Clocks -/

/-- The clocks of one cycle: FCLK counts once the root PLL has locked, and the AON clock once per 40 FCLK cycles' time
while the device has supplies (R10, R141). -/
def Time.tick (t : Time) : Time :=
  let edge := decide (39 ≤ t.sub)
  { t with sub := if edge then 0 else t.sub + 1, aon := if edge then t.aon + 1 else t.aon,
           fclk := if t.locked then t.fclk + 1 else t.fclk }

/-- One FCLK cycle passes (log entry 7). -/
def State.tickClock (s : State) : State :=
  if s.board.power == .unpowered then s
  else
    let s := if s.time.locked && !s.board.halted then s.tickConds.tickFixed else s
    { s with time := s.time.tick }

end Sys2Proof.Machine
end

