-- ==== Sys2Proof/Machine/Step.lean ====
section
/-! DEFINITION. The step: the command at the front of the queue, or one clock cycle when none waits. -/
namespace Sys2Proof.Machine

/-- One step: `exec` of the front command with the queue's rest; on an empty queue the block idles for one
FCLK cycle (log entry 7). -/
def step (s : State) : Host.Outcome State Fault Refusal :=
  match s.pending with
  | c :: rest => exec c { s with pending := rest }
  | [] => .next s.tickClock

/-- The state with the command a word spells put at the front of its queue (log entry 9). -/
def State.withFetchWord (s : State) (nbits w : Nat) : State :=
  match decodeTableWord nbits w with
  | some c => { s with pending := c :: s.pending }
  | none => s

end Sys2Proof.Machine
end

