-- ==== Sys2Proof/Machine/Balls.lean ====
section
/-! DEFINITION. What the package's output balls do: their reset states, and what a bay's and a head's balls do while it is off
(R34, R40, R42-R44, R48, R425, R429-R431, R457). Every one is a function of the state. -/
namespace Sys2Proof.Machine

/-- What a ball or a pair does. `active`: its interface drives or terminates it as the interface's own rules say. -/
inductive Ball where
  | low | high | highZ | electricalIdle | terminationOff | active
deriving DecidableEq, Repr

/-- A group of output or bidirectional balls (R40): of a link (32: the management endpoint), a channel, a bay, or the device. -/
inductive BallGroup where
  | tx (l : Nat)
  | rx (l : Nat)
  /-- DQ of a channel; its DQS pair `k` of a subchannel; its clocks, command balls, chip selects and reset. -/
  | dq (u : Nat)
  | dqs (u k : Nat)
  | ddrOut (u : Nat)
  | dscl (b : Nat)
  | bayGate (b : Nat)
  | bayPre (b : Nat)
  | bayPg (b : Nat)
  | bayLed (b : Nat)
  | flclk | flcs | flio | flwp
  | bmcBus | bmcAlert | heartbeat | faultN | thermtrip | tdo
deriving DecidableEq, Repr

/-- Link training has begun, the link's reset is high, and no halt stands: its transmitters and receivers work (R40, R43, R425). -/
def State.serdesOn (s : State) (l : Nat) : Bool := s.live && s.board.training && s.board.perst.getLsbD l

/-- A channel's balls work: its bay's BAYPG is high, and self-test has begun (R40, R44). -/
def State.ddrOn (s : State) (u : Nat) : Bool := s.strapped && decide (4 ≤ s.board.step) && s.board.baypg.getLsbD (u / 2)

/-- The boot record is being read, or has been (R40, R55). -/
def State.flashOn (s : State) : Bool := s.strapped && decide (5 ≤ s.board.step)

/-- What a group of balls does. -/
def State.ball (s : State) (g : BallGroup) : Ball :=
  let on := fun (b : Bool) (off : Ball) => if b then Ball.active else off
  match g with
  | .tx l => on (s.serdesOn l) .electricalIdle
  | .rx l => on (s.serdesOn l) .terminationOff
  | .dq u => on (s.ddrOn u) .highZ
  | .dqs u k => on (s.ddrOn u && !(s.rd MEMCH.WIDTH u == 2 && k % 2 == 1)) .highZ
  | .ddrOut u => on (s.ddrOn u) .low
  | .dscl b => on (s.strapped && s.board.baypg.getLsbD b) .highZ
  | .bayGate b => if s.board.baygate.getLsbD b then .high else .low
  | .bayPre b => if s.board.baypre.getLsbD b then .high else .low
  | .bayPg b => if s.board.baypg.getLsbD b then .highZ else .low
  | .bayLed b => if s.board.power = .unpowered then .highZ else if s.bayLed b = .off then .highZ else .active
  | .flclk => on s.flashOn .low
  | .flcs => on s.flashOn .high
  | .flio => on s.flashOn .highZ
  | .flwp => on s.flashOn .low
  | .bmcBus => on s.strapped .highZ
  | .bmcAlert => if s.bmcAlert then .low else .highZ
  | .heartbeat => if s.strapped && s.board.heart then .high else .low
  | .faultN => if s.faultN then .low else .highZ
  | .thermtrip => if s.board.thermtrip then .low else .highZ
  | .tdo => on (s.board.power != .unpowered) .highZ

end Sys2Proof.Machine
end

