-- ==== Sys2Proof/WellFormed.lean ====
section
/-! DEFINITION. Which commands are well formed: operand values that the interface a command comes from can
carry (R114, R121, R153, R158, R186, R189, R396). One arm per constructor. -/
namespace Sys2Proof

/-- A link width of CXL: 1, 2, 4, 8 or 16 lanes (R186). -/
def widthOk (w : Nat) : Bool := w == 1 || w == 2 || w == 4 || w == 8 || w == 16

/-- A command's operands are ones its interface can carry. -/
def Instr.wf : Instr → Bool
  | .pwrgoodRise _ => true
  | .sysrstNTakenAsRising _ => true
  | .sysrstNRise _ => true
  | .sysrstNFall => true
  | .pwrgoodFall => true
  | .hdperstNFall _ => true
  | .hdperstNRise _ => true
  | .mgPerstNFall => true
  | .mgPerstNRise => true
  | .bayTurn _ _ => true
  | .spdReadsComplete _ => true
  | .rootPllLock => true
  | .pllLockTimeout => true
  | .selfTestComplete _ _ => true
  | .bootImageVerify _ _ _ _ => true
  | .recoveryImageSubmit _ _ => true
  | .fillComplete _ _ _ => true
  | .baseProgramReady _ => true
  | .baseProgramTimeout _ => true
  | .phaseStore _ _ _ _ => true
  | .claim _ _ => true
  | .status _ => true
  | .handover _ _ => true
  | .handoverCancel _ => true
  | .release _ => true
  | .handoverTimerExpiry => true
  | .lapseTimerExpiry => true
  | .functionLevelReset _ => true
  | .ldReset _ => true
  | .bmcSclLowTimeout => true
  | .i3cTargetReset => true
  | .ringEnable _ _ => true
  | .ringDisable _ _ => true
  | .cmdTailWrite _ _ _ => true
  | .cplHeadWrite _ _ _ => true
  | .commandFetch _ _ _ => true
  | .commandComplete _ _ _ _ => true
  | .copy _ _ _ => true
  | .zero _ _ _ => true
  | .rekey _ _ _ => true
  | .stow _ _ _ => true
  | .unstow _ _ _ => true
  | .pin _ _ _ => true
  | .unpin _ _ _ => true
  | .hint _ _ _ => true
  | .exportStream _ _ _ _ => true
  | .importStream _ _ _ _ => true
  | .save _ _ _ _ => true
  | .restore _ _ _ _ => true
  | .run _ _ _ _ => true
  | .runDispatch => true
  | .snap _ _ _ _ => true
  | .mailboxSend _ _ _ => true
  | .mailboxAck _ _ => true
  | .dbSet _ _ => true
  | .dbStatusClear _ _ => true
  | .dbMaskWrite _ _ => true
  | .saNew _ => true
  | .saSubmit _ _ => true
  | .saLock _ => true
  | .saDbgGo _ => true
  | .debugReadComplete _ => true
  | .debugHalt _ _ => true
  | .debugResume _ _ => true
  | .debugSingleStep _ _ => true
  | .load _ _ image => decide (image.length ≤ 131072)
  | .unload _ _ => true
  | .start _ _ _ _ args => decide (args.length ≤ 4096)
  | .stop _ _ _ => true
  | .query _ _ _ => true
  | .restart _ _ => true
  | .winClear => true
  | .wayfinderRestartComplete _ => true
  | .illegalInstruction _ _ => true
  | .add _ _ _ _ _ => true
  | .sub _ _ _ _ _ => true
  | .and _ _ _ _ _ => true
  | .or _ _ _ _ _ => true
  | .xor _ _ _ _ _ => true
  | .shl _ _ _ _ _ => true
  | .shr _ _ _ _ _ => true
  | .sar _ _ _ _ _ => true
  | .mul _ _ _ _ _ => true
  | .mulh _ _ _ _ _ => true
  | .divu _ _ _ _ _ => true
  | .remu _ _ _ _ _ => true
  | .min _ _ _ _ _ => true
  | .max _ _ _ _ _ => true
  | .clz _ _ _ _ => true
  | .popc _ _ _ _ => true
  | .seq _ _ _ _ _ => true
  | .slt _ _ _ _ _ => true
  | .sltu _ _ _ _ _ => true
  | .addi _ _ _ _ _ => true
  | .andi _ _ _ _ _ => true
  | .ori _ _ _ _ _ => true
  | .xori _ _ _ _ _ => true
  | .shli _ _ _ _ imm => decide (imm.toNat < 64)
  | .shri _ _ _ _ imm => decide (imm.toNat < 64)
  | .sari _ _ _ _ imm => decide (imm.toNat < 64)
  | .muli _ _ _ _ _ => true
  | .lhi _ _ _ _ => true
  | .slti _ _ _ _ _ => true
  | .sltiu _ _ _ _ _ => true
  | .seqi _ _ _ _ _ => true
  | .beq _ _ _ _ _ => true
  | .bne _ _ _ _ _ => true
  | .blt _ _ _ _ _ => true
  | .bge _ _ _ _ _ => true
  | .bltu _ _ _ _ _ => true
  | .bgeu _ _ _ _ _ => true
  | .j _ _ _ => true
  | .jal _ _ _ => true
  | .jr _ _ _ _ => true
  | .ldb _ _ _ _ _ => true
  | .ldbu _ _ _ _ _ => true
  | .ldh _ _ _ _ _ => true
  | .ldhu _ _ _ _ _ => true
  | .ldw _ _ _ _ _ => true
  | .ldwu _ _ _ _ _ => true
  | .ldd _ _ _ _ _ => true
  | .stb _ _ _ _ _ => true
  | .sth _ _ _ _ _ => true
  | .stw _ _ _ _ _ => true
  | .std _ _ _ _ _ => true
  | .tld _ _ _ _ => true
  | .walkerNext _ _ _ _ => true
  | .tst _ _ _ _ _ => true
  | .tstC _ _ _ _ _ => true
  | .tcas _ _ _ _ _ => true
  | .tableCommit _ _ => true
  | .wait _ _ _ _ _ => true
  | .postThread _ _ _ _ _ => true
  | .postMailbox _ _ _ _ _ => true
  | .postDoorbell _ _ _ _ _ => true
  | .sleep _ _ _ => true
  | .mbrd _ _ _ _ => true
  | .mback _ _ _ _ => true
  | .dbtake _ _ _ _ _ => true
  | .threadResume _ _ _ => true
  | .stepBudgetExpiry _ _ => true
  | .tick => true
  | .moveTier _ _ _ _ => true
  | .moveCopy _ _ _ _ => true
  | .moveZero _ _ _ _ => true
  | .moveRekey _ _ _ _ => true
  | .moveDone _ _ desc => decide (desc.toNat % 8 = 0)
  | .stowInstr _ _ _ _ _ => true
  | .unstowInstr _ _ _ _ _ => true
  | .binv _ _ _ _ _ => true
  | .heat _ _ _ => true
  | .mread _ _ _ _ _ _ => true
  | .mwrite _ _ _ _ _ _ => true
  | .rget _ _ _ _ => true
  | .rput _ _ _ _ _ => true
  | .mprd _ _ _ _ => true
  | .mpsnap _ _ _ _ => true
  | .time _ _ _ => true
  | .fenceS _ _ => true
  | .fenceT _ _ => true
  | .fenceD _ _ => true
  | .fenceA _ _ => true
  | .trap _ _ _ => true
  | .halt _ _ _ => true
  | .linkTrainingComplete _ rate width _ _ => decide (1 ≤ rate.toNat) && decide (rate.toNat ≤ 6) && widthOk width.toNat
  | .linkDown _ => true
  | .hdmDecoderCommit _ _ dec => dec.ways == 1 || dec.ways == 2 || dec.ways == 3 || dec.ways == 4 || dec.ways == 6 || dec.ways == 8 || dec.ways == 12 || dec.ways == 16
  | .configurationRequest _ => true
  | .registerWrite _ _ size _ => size != 0
  | .memRd _ _ _ _ => true
  | .memRdData _ _ _ _ => true
  | .memRdFwd _ _ _ _ => true
  | .memSpecRd _ _ _ _ => true
  | .memInv _ _ _ _ => true
  | .memInvNt _ _ _ _ => true
  | .memWr _ _ _ _ _ _ => true
  | .memWrPtl _ _ _ _ _ _ _ => true
  | .biRspI _ _ => true
  | .biRspS _ _ => true
  | .biConflict _ _ => true
  | .violationLogRead _ _ => true
  | .violationLogClear _ _ => true
  | .isolationInterval _ => true
  | .isolatedClear _ _ _ _ => true
  | .l0pSample _ pct => decide (pct.toNat ≤ 100)
  | .hostL0pRequest _ width => widthOk width.toNat
  | .l0pChangeComplete _ => true
  | .l1Entry _ => true
  | .l1Exit _ => true
  | .tollInterval => true
  | .queueLevelReport _ level => decide (level.toNat ≤ 100)
  | .tollgateAdmit _ => true
  | .roundaboutRefill => true
  | .roundaboutGrant _ => true
  | .dwellWindowEnd _ => true
  | .victimSnoopIssue _ => true
  | .snoopTimeout _ _ => true
  | .reclaimWalkEnd _ _ => true
  | .reopen _ _ _ _ => true
  | .reclaimedClear _ _ _ _ _ => true
  | .snoopFilterScrub _ _ _ _ => true
  | .windowDisable _ _ _ _ => true
  | .windowDisableComplete _ => true
  | .heatDecay => true
  | .pageMoveCopyPassEnd _ _ => true
  | .pageMoveSwitch _ => true
  | .slotRelocation _ => true
  | .evacuate _ _ _ _ => true
  | .cancel _ _ _ _ => true
  | .offer _ _ _ _ => true
  | .recall _ _ _ _ => true
  | .extentAccept _ _ => true
  | .extentRelease _ _ => true
  | .coderAssign => true
  | .stowComplete _ _ => true
  | .decoderGrant => true
  | .promotionComplete _ _ => true
  | .promotionBufferRead _ _ => true
  | .contextRelease _ _ _ _ => true
  | .install _ _ _ _ _ _ _ _ => true
  | .clear _ _ _ _ => true
  | .mergeWindowExpiry _ _ _ => true
  | .mergeEntrySeal _ _ _ _ => true
  | .reencryptionComplete _ => true
  | .treeNodeWriteback _ _ => true
  | .nodeRebaseComplete _ _ => true
  | .dramReadComplete _ _ => true
  | .refresh _ _ _ => true
  | .retrainingPause _ => true
  | .caParityAlert _ _ => true
  | .writeCrcAlert _ place => decide (place.toNat < 20)
  | .recoveryRetrainingEnd _ _ => true
  | .pmicFault _ => true
  | .patrolScrubRead _ _ _ => true
  | .ceDecay _ => true
  | .ceClear _ _ _ _ => true
  | .memchReset _ _ _ _ => true
  | .layByEntryComplete _ => true
  | .layByExitComplete _ => true
  | .collectorTake => true
  | .recordAck _ _ => true
  | .latchClear _ _ => true
  | .faultStatusRead => true
  | .faultRecordsRead _ _ => true
  | .resetGo _ _ _ _ => true
  | .unitResetComplete _ => true
  | .checkin _ _ _ => true
  | .checkinTimeout => true
  | .heartbeatToggle => true
  | .domainEvaluation _ _ => true
  | .domainEntryComplete _ _ => true
  | .domainWake _ => true
  | .domainReady _ => true
  | .thermalSample _ _ => true
  | .throttleUpdate => true
  | .dimmSensorRead _ _ _ => true
  | .shutdownGraceEnd => true
  | .hardTrip _ => true
  | .bayPresenceValid _ => true
  | .bayPresenceLost _ => true
  | .debounceExpiry _ => true
  | .holdoffExpiry _ _ => true
  | .prechargeComplete _ _ => true
  | .prechargeTimeout _ _ => true
  | .gateFullyOn _ _ _ => true
  | .rampTimeout _ _ => true
  | .fastTrip _ _ => true
  | .slowTrip _ _ => true
  | .vbaydrvLoss _ => true
  | .bayvinExcursion _ _ => true
  | .bayEnable _ _ _ _ => true
  | .bayDisable _ _ _ _ => true
  | .bayPowerDown _ => true
  | .ledgerSecond util => decide (util.toNat ≤ 100)
  | .ageingRead _ => true
  | .ledgerWrite _ => true
  | .counterWrap _ _ => true
  | .snapReq _ _ => true
  | .snapshotComplete _ => true
  | .clearAll _ _ _ => true
  | .flowControlCreditReturn _ _ _ => true
  | .cxlIoCompletion _ _ _ => true
  | .dramCommandIssue _ => true
  | .vbaydrvPassesAgain => true
  | .functionOutOfReset _ => true
  | .testAccessPortInstruction _ => true

end Sys2Proof
end

