-- ==== Sys2Proof/Safety.lean ====
section
/-! DEFINITION. The terms claims are stated in: safe steps, a thread that may issue, what a Ramer instruction leaves
alone, and the invariants of a step. -/
namespace Sys2Proof.Machine

/-- A step that neither stops with a fault nor is refused. -/
def Safe (s : State) : Prop := ∃ t, step s = .next t

/-- Every command in the queue is well formed. -/
def QueueWf (s : State) : Bool := s.pending.all Instr.wf

/-! ### Ramer instructions (R111-R115, R120, R123, R157, R160) -/

/-- A thread issues its next instruction: it may issue, its fetch is legal, and its step budget is not used up. -/
def Issues (s : State) (w : WfNo) (t : ThrNo) : Prop :=
  s.canIssue w t = true ∧ (s.fetchAt w t).2 = true ∧
    ((s.thread w t).budget = 0 ∨ (s.thread w t).steps < (s.thread w t).budget)

/-- The word that the thread fetches encodes the instruction (R111, R116). -/
def Fetched (i : Instr) (s : State) (w : WfNo) (t : ThrNo) : Prop := fits i (s.fetchedWord w t) = true

/-- A thread with one more step counted (R115). -/
def Thread.stepped (x : Thread) : Thread := { x with steps := x.steps + 1 }

/-- The state an instruction's own effect starts from: one step and one issued instruction counted (R115, R471, R472). -/
def issuedState (s : State) (w t : Nat) : State :=
  ((s.setThread w t (s.thread w t).stepped).event (uid 8 w) 1).fixed 539

/-- The end of an instruction: the thread fetches next at a target, and a debugger's single step is over. -/
def finish (v : State) (w t : Nat) (target : BitVec 64) (b : Bool) : State :=
  let r := v.setThread w t ((v.thread w t).jumpTo (v.imageOf (v.thread w t)) target)
  if b then r.setThread w t { r.thread w t with single := false } else r

/-- The device words outside the MILEPOST table are the same. -/
def SameTables (s u : State) : Prop :=
  ∀ tbl idx word, tbl ≠ 0x0F → idx < 2 ^ 48 → word < 2 ^ 8 → u.wordAt tbl idx word = s.wordAt tbl idx word

/-- Every part of the device outside the wayfinders, the programs' objects, the tables and the mileposts is the same. -/
def SameDevice (s u : State) : Prop :=
  u.board = s.board ∧ u.time = s.time ∧ u.own = s.own ∧ u.svc = s.svc ∧ u.uncommitted = s.uncommitted ∧
    u.links = s.links ∧ u.decoders = s.decoders ∧ u.coh = s.coh ∧ u.plc = s.plc ∧ u.stow = s.stow ∧
    u.sealing = s.sealing ∧ u.dram = s.dram ∧ u.traffic = s.traffic ∧ u.aon = s.aon ∧ u.freeUsed = s.freeUsed ∧
    u.out = s.out ∧ u.pending = s.pending

/-- The registers of every thread but one are the same. -/
def SameOtherRegs (s u : State) (w : WfNo) (t : ThrNo) : Prop :=
  ∀ (w' : WfNo) (t' : ThrNo) (r : Reg), ¬ (w' = w ∧ t' = t) → u.g w' t' r = s.g w' t' r

/-- Every thread but one is the same. -/
def SameOtherThreads (s u : State) (w : WfNo) (t : ThrNo) : Prop :=
  ∀ (w' : WfNo) (t' : ThrNo), ¬ (w' = w ∧ t' = t) → u.thread w' t' = s.thread w' t'

/-- What an instruction of a thread leaves alone when it writes registers of its own and, of the programs' objects, at
most what `soft` says: every other register, thread, object, table word and unit. -/
def RamerFrame (s u : State) (w : WfNo) (t : ThrNo) (soft : Soft) : Prop :=
  SameDevice s u ∧ SameTables s u ∧ SameOtherRegs s u w t ∧ SameOtherThreads s u w t ∧
    u.soft = { soft with threads := u.soft.threads }

/-- A thread's registers after an instruction: register `d` holds `v`, g0 zero, the others what they held. -/
def Writes (s u : State) (w : WfNo) (t : ThrNo) (d : Reg) (v : BitVec 64) : Prop :=
  ∀ r : Reg, u.g w t r = if r = 0 then 0 else if r = d then v else s.g w t r

/-- The thread runs on at an address, with one more step counted; nothing else of the thread changes. -/
def GoesTo (s u : State) (w : WfNo) (t : ThrNo) (target : BitVec 64) : Prop :=
  (u.fetchAt w t).1 = target ∧
  ∃ pc bad, u.thread w t = { s.thread w t with
      pc := pc, badTarget := bad, single := false, steps := (s.thread w t).steps + 1 }

/-- The address after the thread's current instruction. -/
def nextAddr (s : State) (w : WfNo) (t : ThrNo) : BitVec 64 := (s.fetchAt w t).1 + 4

/-- An instruction that, fetched, writes `v` to `d`, changes the programs' objects to `soft`, and goes on. -/
def Acts (i : Instr) (s : State) (w : WfNo) (t : ThrNo) (d : Reg) (v : BitVec 64) (soft : Soft) : Prop :=
  Fetched i s w t → ∃ u, exec i s = .next u ∧ Writes s u w t d v ∧ GoesTo s u w t (nextAddr s w t) ∧ RamerFrame s u w t soft

/-- An instruction that writes `v` to `d` and nothing else, and goes on. -/
def Computes (i : Instr) (s : State) (w : WfNo) (t : ThrNo) (d : Reg) (v : BitVec 64) : Prop := Acts i s w t d v s.soft

/-- A branch or jump that goes to a target, writing `v` to `d`. -/
def Jumps (i : Instr) (s : State) (w : WfNo) (t : ThrNo) (d : Reg) (v target : BitVec 64) : Prop :=
  Fetched i s w t → ∃ u, exec i s = .next u ∧ Writes s u w t d v ∧ GoesTo s u w t target ∧ RamerFrame s u w t s.soft

/-- An instruction that stores bytes at a scratch address, writes no register, and goes on: the bytes read back, and every
other byte of scratch reads as before. -/
def StoresScratch (i : Instr) (s : State) (w : WfNo) (t : ThrNo) (p : Nat) (bs : List (BitVec 8)) : Prop :=
  Fetched i s w t → ∃ u, exec i s = .next u ∧ Writes s u w t 0 0 ∧ GoesTo s u w t (nextAddr s w t) ∧
    RamerFrame s u w t { s.soft with scratch := u.soft.scratch } ∧ u.scr w p bs.length = bs ∧
    ∀ a, (a < scrAddr w p ∨ scrAddr w p + bs.length ≤ a) → u.soft.scratch.read a = s.soft.scratch.read a

/-- An instruction whose whole effect turns the issued state into `v`, and that goes on to the next instruction. -/
def Does (i : Instr) (s : State) (w : WfNo) (t : ThrNo) (v : State) : Prop :=
  Fetched i s w t → exec i s = .next (finish v w t (nextAddr s w t) (s.thread w t).single)

/-- An instruction that suspends its thread after turning the issued state into `v` (R157): it is past the instruction,
and waits. -/
def Suspends (i : Instr) (s : State) (w : WfNo) (t : ThrNo) (v : State) (wait : Wait) : Prop :=
  Fetched i s w t → exec i s = .next
    (let u := finish v w t (nextAddr s w t) false
     let u := u.setThread w t { u.thread w t with st := .suspended, wait := wait, suspAt := s.time.fclk }
     if (s.thread w t).single then u.setThread w t { u.thread w t with single := false } else u)

/-- A table store that an owner or base program's instruction submits (R126, R127, R169): `f` is its status and its
effect on the issued state; the submission counts as admitted or refused, and the status goes to `d`. -/
def Submits (i : Instr) (s : State) (w : WfNo) (t : ThrNo) (d : Reg) (f : State → Nat × State) : Prop :=
  s.tenant w t = none → ∀ r, r = f (issuedState s w t) →
    Does i s w t ((r.2.submitted w r.1).setG w t d (BitVec.ofNat 64 r.1))

/-- A command that raises an exception in a thread (R142, R144): where the fetch is legal, as the instruction fetched. -/
def Raises (i : Instr) (s : State) (w : WfNo) (t : ThrNo) (code trap : Nat) : Prop :=
  ((s.fetchAt w t).2 = true → Fetched i s w t) → exec i s = .next
    (let u := s.takeException w t code trap (s.fetchAt w t).1.toNat
     if (s.thread w t).single then u.setThread w t { u.thread w t with single := false } else u)

end Sys2Proof.Machine
end

