-- ==== Sys2Proof/Certificates/Slice0/Obligations.lean ====
section
/-! DEFINITION. The statements for the provers: what the commands of the SX8160 do, command by command, and what every
step keeps. Each docstring says the rules a statement comes from. -/
open Sys2Proof Sys2Proof.Machine

/-- A step runs the command at the front of the queue (04_ownership_and_host_interfaces.md,
95_what_each_step_holds.md). -/
def Obligations.StepRunsFrontCommand : Prop :=
  ∀ (c : Instr) (rest : List Instr) (s : State),
    step { s with pending := c :: rest } = exec c { s with pending := rest }

/-- An empty queue is one FCLK cycle (R10, R141). -/
def Obligations.IdleStepIsOneFclkCycle : Prop :=
  (∀ s : State, s.pending = [] → s.board.power = .unpowered → step s = .next s) ∧
  (∀ s : State, s.pending = [] → s.board.power ≠ .unpowered →
    ∃ u, step s = .next u ∧ u.time.fclk = (if s.time.locked then s.time.fclk + 1 else s.time.fclk) ∧
      u.time.aon = (if 39 ≤ s.time.sub then s.time.aon + 1 else s.time.aon) ∧ u.regs = s.regs ∧ u.own = s.own ∧ u.svc = s.svc ∧
      u.soft = s.soft ∧ u.dram = s.dram ∧ u.plc = s.plc ∧ u.coh = s.coh ∧ u.links = s.links ∧ SameTables s u)

/-- No command stops the model but an undescribed test access port instruction while TRST_N is high and the port is open
(R51, 17_electrical.md). -/
def Obligations.OnlyTestPortStops : Prop :=
  (∀ (c : Instr) (s : State), (∀ code, c ≠ .testAccessPortInstruction ⟨.other code, false⟩) → ∃ u, exec c s = .next u) ∧
  (∀ (ins : TapIns) (s : State), exec (.testAccessPortInstruction ⟨ins, true⟩) s = .next s) ∧
  (∀ (code : BitVec 8) (s : State), s.svc.st ≠ 1 → exec (.testAccessPortInstruction ⟨.other code, false⟩) s = .next s) ∧
  (∀ (code : BitVec 8) (s : State), s.svc.st = 1 →
    exec (.testAccessPortInstruction ⟨.other code, false⟩) s = .fault (.testPortUndescribed code)) ∧
  (∀ (low : Bool) (s : State), exec (.testAccessPortInstruction ⟨.boundaryScan, low⟩) s = .next s) ∧
  (∀ (low : Bool) (s : State), exec (.testAccessPortInstruction ⟨.bypass, low⟩) s = .next s)

/-- Every integer and compare instruction writes its result to d, and only that (R121). -/
def Obligations.IntegerInstructionsWriteTheirResult : Prop :=
  ∀ (s : State) (w : WfNo) (t : ThrNo), Issues s w t → ∀ (d a b : Reg) (imm : BitVec 16),
    Computes (.add w t d a b) s w t d (s.g w t a + s.g w t b) ∧
    Computes (.sub w t d a b) s w t d (s.g w t a - s.g w t b) ∧
    Computes (.and w t d a b) s w t d (s.g w t a &&& s.g w t b) ∧
    Computes (.or w t d a b) s w t d (s.g w t a ||| s.g w t b) ∧
    Computes (.xor w t d a b) s w t d (s.g w t a ^^^ s.g w t b) ∧
    Computes (.shl w t d a b) s w t d (s.g w t a <<< ((s.g w t b).toNat % 64)) ∧
    Computes (.shr w t d a b) s w t d (s.g w t a >>> ((s.g w t b).toNat % 64)) ∧
    Computes (.sar w t d a b) s w t d ((s.g w t a).sshiftRight ((s.g w t b).toNat % 64)) ∧
    Computes (.mul w t d a b) s w t d (s.g w t a * s.g w t b) ∧
    Computes (.mulh w t d a b) s w t d (BitVec.ofNat 64 ((s.g w t a).toNat * (s.g w t b).toNat / 2 ^ 64)) ∧
    Computes (.divu w t d a b) s w t d (if s.g w t b = 0 then 0xFFFFFFFFFFFFFFFF else s.g w t a / s.g w t b) ∧
    Computes (.remu w t d a b) s w t d (if s.g w t b = 0 then s.g w t a else s.g w t a % s.g w t b) ∧
    Computes (.min w t d a b) s w t d (if (s.g w t a).toInt < (s.g w t b).toInt then s.g w t a else s.g w t b) ∧
    Computes (.max w t d a b) s w t d (if (s.g w t a).toInt < (s.g w t b).toInt then s.g w t b else s.g w t a) ∧
    Computes (.seq w t d a b) s w t d (if s.g w t a = s.g w t b then 1 else 0) ∧
    Computes (.slt w t d a b) s w t d (if (s.g w t a).toInt < (s.g w t b).toInt then 1 else 0) ∧
    Computes (.sltu w t d a b) s w t d (if (s.g w t a).toNat < (s.g w t b).toNat then 1 else 0) ∧
    (∀ n : Nat, (n = if s.g w t a = 0 then 64 else 63 - Nat.log2 (s.g w t a).toNat) →
      Computes (.clz w t d a) s w t d (BitVec.ofNat 64 n)) ∧
    Computes (.popc w t d a) s w t d (BitVec.ofNat 64 ((List.range 64).filter (fun i => (s.g w t a).getLsbD i)).length) ∧
    Computes (.addi w t d a imm) s w t d (s.g w t a + imm.signExtend 64) ∧
    Computes (.andi w t d a imm) s w t d (s.g w t a &&& imm.zeroExtend 64) ∧
    Computes (.ori w t d a imm) s w t d (s.g w t a ||| imm.zeroExtend 64) ∧
    Computes (.xori w t d a imm) s w t d (s.g w t a ^^^ imm.zeroExtend 64) ∧
    Computes (.shli w t d a imm) s w t d (s.g w t a <<< (imm.toNat % 64)) ∧
    Computes (.shri w t d a imm) s w t d (s.g w t a >>> (imm.toNat % 64)) ∧
    Computes (.sari w t d a imm) s w t d ((s.g w t a).sshiftRight (imm.toNat % 64)) ∧
    Computes (.muli w t d a imm) s w t d (s.g w t a * imm.signExtend 64) ∧
    Computes (.slti w t d a imm) s w t d (if (s.g w t a).toInt < (imm.signExtend 64).toInt then 1 else 0) ∧
    Computes (.sltiu w t d a imm) s w t d (if (s.g w t a).toNat < (imm.signExtend 64).toNat then 1 else 0) ∧
    Computes (.seqi w t d a imm) s w t d (if s.g w t a = imm.signExtend 64 then 1 else 0) ∧
    Computes (.lhi w t d imm) s w t d (((imm.zeroExtend 32) <<< 16).signExtend 64)

/-- Branches and jumps move the PC, and JAL and JR save the next address (R122). -/
def Obligations.BranchesAndJumpsMoveThePc : Prop :=
  ∀ (s : State) (w : WfNo) (t : ThrNo), Issues s w t → ∀ (d a b : Reg) (imm : BitVec 16) (far : BitVec 26),
    let pc := (s.fetchAt w t).1
    Jumps (.beq w t a b imm) s w t 0 0 (if s.g w t a = s.g w t b then pc + 4 * imm.signExtend 64 else pc + 4) ∧
    Jumps (.bne w t a b imm) s w t 0 0 (if s.g w t a ≠ s.g w t b then pc + 4 * imm.signExtend 64 else pc + 4) ∧
    Jumps (.blt w t a b imm) s w t 0 0 (if (s.g w t a).toInt < (s.g w t b).toInt then pc + 4 * imm.signExtend 64 else pc + 4) ∧
    Jumps (.bge w t a b imm) s w t 0 0 (if ¬ (s.g w t a).toInt < (s.g w t b).toInt then pc + 4 * imm.signExtend 64 else pc + 4) ∧
    Jumps (.bltu w t a b imm) s w t 0 0 (if (s.g w t a).toNat < (s.g w t b).toNat then pc + 4 * imm.signExtend 64 else pc + 4) ∧
    Jumps (.bgeu w t a b imm) s w t 0 0 (if ¬ (s.g w t a).toNat < (s.g w t b).toNat then pc + 4 * imm.signExtend 64 else pc + 4) ∧
    Jumps (.j w t far) s w t 0 0 (4 * far.zeroExtend 64) ∧
    Jumps (.jal w t far) s w t 31 (pc + 4) (4 * far.zeroExtend 64) ∧
    Jumps (.jr w t d a) s w t d (pc + 4) (s.g w t a)

/-- A fetch at an illegal address, and a used-up budget, raise their exceptions (05_ramer_instruction_set.md, R115 and
R123). -/
def Obligations.IllegalFetchTakesTheException : Prop :=
  ∀ (s : State) (w : WfNo) (t : ThrNo) (d a b : Reg), s.canIssue w t = true →
    ((s.thread w t).budget ≠ 0 ∧ (s.thread w t).budget ≤ (s.thread w t).steps → Raises (.add w t d a b) s w t 5 0) ∧
    (((s.thread w t).budget = 0 ∨ (s.thread w t).steps < (s.thread w t).budget) → (s.fetchAt w t).2 = false →
      Raises (.add w t d a b) s w t 1 0) ∧
    ((s.thread w t).badTarget = none →
      ((s.fetchAt w t).2 = true ↔
        ∃ p, s.program (s.thread w t).prog = some p ∧ p.base ≤ (s.thread w t).pc.toNat ∧ (s.thread w t).pc.toNat < p.base + p.len))

/-- ILLEGAL and TRAP end the invocation of a thread of 1 to 3, and an uncorrectable error at a fetch restarts the wayfinder
(05_ramer_instruction_set.md, R142 to R144, 06_wayfinders_and_tables.md, R164). -/
def Obligations.IllegalAndTrapEndTheInvocation : Prop :=
  (∀ (s : State) (w : WfNo) (t : ThrNo), Issues s w t → ∃ u, exec (.illegalInstruction w ⟨t, true⟩) s = .next u ∧
    (∀ t' : ThrNo, (u.thread w t').st = .idle) ∧ ((u.wf w).restarting = true ∨ (u.wf w).stopped = true) ∧
    ∃ r ∈ u.aon.reports, r.unit = uid 8 w ∧ r.code = 0x1E) ∧
  ∀ (s : State) (w : WfNo) (t : ThrNo) (imm : BitVec 16), Issues s w t → t ≠ 0 → s.movesOut w t = 0 →
    ∀ (i : Instr) (code trap : Nat),
    (i = .illegalInstruction w ⟨t, false⟩ ∧ code = 1 ∧ trap = 0 ∨ i = .trap w t imm ∧ code = 7 ∧ trap = imm.toNat) →
    Fetched i s w t → ∃ u, exec i s = .next u ∧ (u.thread w t).st = .idle ∧ (u.thread w t).endKind = 0b01 ∧
      (u.thread w t).endStatus = BitVec.ofNat 16 code ∧ (u.thread w t).staged = [] ∧ (u.thread w t).run = none ∧
      u.regs = s.regs ∧ u.dram = s.dram ∧ u.plc = s.plc ∧ u.own = s.own ∧
      (∀ ld r k, (s.thread w t).run = some (ld, r, k) → ∀ c ∈ s.soft.cmds, c.ld = ld → c.ring = r → c.idx = k →
        { c with st := .done 0x0D (BitVec.ofNat 64 (code + trap * 2 ^ 8 + (s.fetchAt w t).1.toNat % 2 ^ 16 * 2 ^ 32)) }
          ∈ u.soft.cmds) ∧
      ((s.thread w t).kind = .owner → ∃ r ∈ u.aon.reports, r.unit = uid 8 w ∧ r.code = 0x1D)

/-- Scratch loads and stores act on the aligned bytes inside the window, and raise SCRATCH_BOUNDS elsewhere (R124). -/
def Obligations.ScratchLoadsAndStores : Prop :=
  ∀ (s : State) (w : WfNo) (t : ThrNo), Issues s w t → ∀ (d a : Reg) (imm : BitVec 16),
    let ea := (s.g w t a + imm.signExtend 64).toNat
    let base := (s.thread w t).winBase
    let inside := fun n => ea % n = 0 ∧ ea + n ≤ (s.thread w t).winSize
    let at_ := fun n => leNat (s.scr w (base + ea) n)
    (inside 1 → ∀ v, v = at_ 1 → Computes (.ldb w t d a imm) s w t d ((BitVec.ofNat 8 v).signExtend 64)) ∧
    (inside 1 → ∀ v, v = at_ 1 → Computes (.ldbu w t d a imm) s w t d (BitVec.ofNat 64 v)) ∧
    (inside 2 → ∀ v, v = at_ 2 → Computes (.ldh w t d a imm) s w t d ((BitVec.ofNat 16 v).signExtend 64)) ∧
    (inside 2 → ∀ v, v = at_ 2 → Computes (.ldhu w t d a imm) s w t d (BitVec.ofNat 64 v)) ∧
    (inside 4 → ∀ v, v = at_ 4 → Computes (.ldw w t d a imm) s w t d ((BitVec.ofNat 32 v).signExtend 64)) ∧
    (inside 4 → ∀ v, v = at_ 4 → Computes (.ldwu w t d a imm) s w t d (BitVec.ofNat 64 v)) ∧
    (inside 8 → ∀ v, v = at_ 8 → Computes (.ldd w t d a imm) s w t d (BitVec.ofNat 64 v)) ∧
    (inside 1 → StoresScratch (.stb w t d a imm) s w t (base + ea) (leBytes 1 (s.g w t d).toNat)) ∧
    (inside 2 → StoresScratch (.sth w t d a imm) s w t (base + ea) (leBytes 2 (s.g w t d).toNat)) ∧
    (inside 4 → StoresScratch (.stw w t d a imm) s w t (base + ea) (leBytes 4 (s.g w t d).toNat)) ∧
    (inside 8 → StoresScratch (.std w t d a imm) s w t (base + ea) (leBytes 8 (s.g w t d).toNat)) ∧
    (¬ inside 1 → Raises (.ldb w t d a imm) s w t 4 0) ∧
    (¬ inside 1 → Raises (.ldbu w t d a imm) s w t 4 0) ∧
    (¬ inside 2 → Raises (.ldh w t d a imm) s w t 4 0) ∧
    (¬ inside 2 → Raises (.ldhu w t d a imm) s w t 4 0) ∧
    (¬ inside 4 → Raises (.ldw w t d a imm) s w t 4 0) ∧
    (¬ inside 4 → Raises (.ldwu w t d a imm) s w t 4 0) ∧
    (¬ inside 8 → Raises (.ldd w t d a imm) s w t 4 0) ∧
    (¬ inside 1 → Raises (.stb w t d a imm) s w t 4 0) ∧
    (¬ inside 2 → Raises (.sth w t d a imm) s w t 4 0) ∧
    (¬ inside 4 → Raises (.stw w t d a imm) s w t 4 0) ∧
    (¬ inside 8 → Raises (.std w t d a imm) s w t 4 0)

/-- TLD, WALKER_NEXT, TST, TST_C and TCAS complete on handles the invocation may use (05_ramer_instruction_set.md,
R125 to R128). -/
def Obligations.TableInstructionsReadStageAndSubmit : Prop :=
  ∀ (s : State) (w : WfNo) (t : ThrNo), Issues s w t → ∀ (d a b : Reg),
    let h := s.g w t a
    let j := issuedState s w t
    (s.tldFault (s.tenant w t) h = none → isWalk h = false →
      Does (.tld w t d a) s w t (j.setG w t d (j.tldWord (hTbl h) (hIdx h) (hWord h) (s.tenant w t).isSome))) ∧
    (s.tldFault (s.tenant w t) h = none → isWalk h = true →
      Does (.walkerNext w t d a) s w t ((j.walk (hIdx h)).2.setG w t d (j.walk (hIdx h)).1)) ∧
    (s.storeFaults w t h = none →
      Does (.tst w t d a b) s w t ((j.setThread w t ((j.thread w t).stage h (s.g w t b))).setG w t d 0)) ∧
    (s.storeFaults w t h = none → ∀ r, r = (j.setThread w t ((j.thread w t).stage h (s.g w t b))).submit w t →
      Does (.tstC w t d a b) s w t (r.2.setG w t d (BitVec.ofNat 64 r.1))) ∧
    (s.storeFaults w t h = none → j.tldWord (hTbl h) (hIdx h) (hWord h) false = s.g w t d →
      ∀ r, r = (j.setThread w t ((j.thread w t).stage h (s.g w t b))).submit w t →
      Does (.tcas w t d a b) s w t (r.2.setG w t d (BitVec.ofNat 64 r.1))) ∧
    (s.storeFaults w t h = none → j.tldWord (hTbl h) (hIdx h) (hWord h) false ≠ s.g w t d →
      Does (.tcas w t d a b) s w t
        (((j.setThread w t ({ ((j.thread w t).stage h (s.g w t b)) with staged := [] })).submitted w 0x100).setG w t d
          0xFFFFFFFFFFFFFFFF)) ∧
    (∀ code, s.tldFault (s.tenant w t) h = some code → Raises (.tld w t d a) s w t code 0) ∧
    (∀ code, s.storeFaults w t h = some code → Raises (.tstC w t d a b) s w t code 0)

/-- A refused submission leaves every table as it was, and empties the staging buffer (05_ramer_instruction_set.md, R127 and
R128). -/
def Obligations.SubmissionIsAtomic : Prop :=
  ∀ (s : State) (w : WfNo) (t : ThrNo),
    let x := s.thread w t
    let s' := s.setThread w t { x with staged := [] }
    (s'.admission x.stTbl x.stIdx x.staged ≠ 0 →
      (s.submit w t).1 = s'.admission x.stTbl x.stIdx x.staged ∧ SameTables s (s.submit w t).2 ∧
      (s.submit w t).2.uncommitted = s.uncommitted ∧ ((s.submit w t).2.thread w t).staged = [])

/-- WAIT returns and clears pending events or suspends, SLEEP suspends (05_ramer_instruction_set.md, R129 and R131).
-/
def Obligations.WaitAndSleepFollowPendingEvents : Prop :=
  ∀ (s : State) (w : WfNo) (t : ThrNo), Issues s w t → ∀ (d a b : Reg),
    let h := s.g w t a
    let j := issuedState s w t
    let mask : BitVec 32 := (s.g w t a).truncate 32
    let bits := (s.thread w t).pend &&& mask &&& s.eventMask w t
    (bits ≠ 0 → Does (.wait w t d a b) s w t
      ((j.setThread w t { j.thread w t with pend := (s.thread w t).pend &&& ~~~ bits }).setG w t d (bits.zeroExtend 64))) ∧
    (bits = 0 → s.g w t b = 0 → Computes (.wait w t d a b) s w t d 0) ∧
    (bits = 0 → s.g w t b ≠ 0 → Suspends (.wait w t d a b) s w t j (.event d mask
      (if s.g w t b = 0xFFFFFFFFFFFFFFFF then none else some (s.time.fclk + (s.g w t b).toNat)))) ∧
    Suspends (.sleep w t a) s w t j (.sleep (s.time.fclk + (s.g w t a).toNat))

/-- POST, MBRD, MBACK and DBTAKE act on the object their selector names (05_ramer_instruction_set.md, R130 to R132).
-/
def Obligations.PortInstructionsReachTheirObject : Prop :=
  ∀ (s : State) (w : WfNo) (t : ThrNo), Issues s w t → ∀ (d a b : Reg),
    let h := s.g w t a
    let j := issuedState s w t
    let f := pFunc h
    let k := pIndex h
    (s.selectorFault w t h [0, 1, 2] = none → pKind h = 0 →
      Does (.postThread w t d a b) s w t ((j.raise (f / 4) (f % 4) (16 + (s.g w t b).toNat % 16)).setG w t d 0)) ∧
    (s.selectorFault w t h [0, 1, 2] = none → pKind h = 1 → (s.mailbox f false k).full = false →
      Acts (.postMailbox w t d a b) s w t d 0 (s.setMailbox f false k
        { s.mailbox f false k with payload := (s.g w t b).truncate 63, full := true, posted := (s.mailbox f false k).posted + 1 }).soft) ∧
    (s.selectorFault w t h [0, 1, 2] = none → pKind h = 1 → (s.mailbox f false k).full = true →
      Acts (.postMailbox w t d a b) s w t d 1 (s.setMailbox f false k
        { s.mailbox f false k with rejects :=
            if (s.mailbox f false k).rejects = 0xFFFF then 0xFFFF else (s.mailbox f false k).rejects + 1 }).soft) ∧
    (s.selectorFault w t h [0, 1, 2] = none → pKind h = 2 →
      Does (.postDoorbell w t d a b) s w t ((j.setToHost f ((s.g w t b).truncate 16)).setG w t d 0)) ∧
    (s.selectorFault w t h [1, 3] = none →
      Computes (.mbrd w t d a) s w t d (s.mailbox f (pKind h == 3) k).peek) ∧
    (s.selectorFault w t h [3] = none → (s.mailbox f true k).full = true →
      Acts (.mback w t d a) s w t d 1 (s.setMailbox f true k
        { s.mailbox f true k with full := false, acked := (s.mailbox f true k).acked + 1 }).soft) ∧
    (s.selectorFault w t h [3] = none → (s.mailbox f true k).full = false → Computes (.mback w t d a) s w t d 0) ∧
    (s.selectorFault w t h [2] = none → ∀ bits, bits = (s.bell f).toDev &&& (s.g w t b).truncate 16 →
      (bits &&& (j.setNow (bellTbl true) f 0).truncate 16 = 0 → Acts (.dbtake w t d a b) s w t d (bits.zeroExtend 64)
        (s.setBell f { s.bell f with toDev := (s.bell f).toDev &&& ~~~ bits }).soft) ∧
      Does (.dbtake w t d a b) s w t ((j.bellTake f bits).setG w t d (bits.zeroExtend 64))) ∧
    (∀ code, s.selectorFault w t h [0, 1, 2] = some code → Raises (.postThread w t d a b) s w t code 0 ∧
      Raises (.postMailbox w t d a b) s w t code 0 ∧ Raises (.postDoorbell w t d a b) s w t code 0) ∧
    (∀ code, s.selectorFault w t h [1, 3] = some code → Raises (.mbrd w t d a) s w t code 0) ∧
    (∀ code, s.selectorFault w t h [3] = some code → Raises (.mback w t d a) s w t code 0) ∧
    (∀ code, s.selectorFault w t h [2] = some code → Raises (.dbtake w t d a b) s w t code 0)

/-- THREAD_RESUME ends a suspension whose condition is met, STEP_BUDGET_EXPIRY ends a tenant's, TICK and MOVE_DONE
deliver their events (05_ramer_instruction_set.md, R129, R131, R133, R137, R141, R144 and R146,
06_wayfinders_and_tables.md, R157, R160 and R166). -/
def Obligations.SuspendedThreadsResumeOrExpire : Prop :=
  (∀ (s : State) (w : WfNo) (t : ThrNo), ((s.wake w t).thread w t).st = .running ∧ ((s.wake w t).thread w t).wait = .none ∧
    ((s.wake w t).thread w t).pc = (s.thread w t).pc ∧ (s.wake w t).regs = s.regs ∧ SameOtherThreads s (s.wake w t) w t) ∧
  (∀ (s : State) (w : WfNo) (t : ThrNo) (expired : Bool), s.live = true → s.wfRuns w = true →
    (s.thread w t).st = .suspended → (s.thread w t).dbg = false →
    (∀ c, (s.thread w t).wait = .sleep c → (expired = true ∨ c ≤ s.time.fclk) →
      exec (.threadResume w t expired) s = .next (s.wake w t)) ∧
    (∀ d mask u, (s.thread w t).wait = .event d mask u → ∀ bits, bits = (s.thread w t).pend &&& mask &&& s.eventMask w t → bits ≠ 0 →
      exec (.threadResume w t expired) s = .next
        (((s.setThread w t { s.thread w t with pend := (s.thread w t).pend &&& ~~~ bits }).setG w t d (bits.zeroExtend 64)).wake w t)) ∧
    (∀ sc tb mv, (s.thread w t).wait = .fence sc tb mv → s.fenceMet w t tb mv = true →
      exec (.threadResume w t expired) s = .next (s.wake w t)) ∧
    (∀ d v, (s.thread w t).wait = .status d v →
      exec (.threadResume w t expired) s = .next ((s.setG w t d v).wake w t)) ∧
    (∀ d mask c, (s.thread w t).wait = .event d mask (some c) → (s.thread w t).pend &&& mask &&& s.eventMask w t = 0 →
      (expired = true ∨ c ≤ s.time.fclk) → exec (.threadResume w t expired) s = .next ((s.setG w t d 0).wake w t)) ∧
    (∀ d g gen, (s.thread w t).wait = .snap d g gen → s.snapOut g gen = false →
      exec (.threadResume w t expired) s = .next ((s.setG w t d (gen.zeroExtend 64)).wake w t)) ∧
    ((s.thread w t).wait = .none → exec (.threadResume w t expired) s = .next (s.wake w t)) ∧
    ((s.thread w t).wait = .dataPath → exec (.threadResume w t expired) s = .next (s.takeException w t 6 0 (s.thread w t).suspAddr)) ∧
    (∀ kind st r, (s.thread w t).wait = .ending kind st r → s.movesOut w t = 0 → exec (.threadResume w t expired) s =
      .next (s.endInvocation w t kind st (if kind = 0b00 then 0x00 else if kind = 0b10 then 0x0C else 0x0D) r)) ∧
    ((∀ k st r, (s.thread w t).wait ≠ .ending k st r) → (s.tenant w t).isSome = true →
      exec (.stepBudgetExpiry w t) s = .next ((s.wake w t).takeException w t 5 0 (s.thread w t).suspAddr))) ∧
  (∀ s : State, s.live = true → exec .tick s = .next ((s.raiseOwners 7).baseCheckin).runPolicy) ∧
  (∀ (s : State) (w : WfNo) (t : ThrNo), (s.thread w t).st ≠ .idle → (s.thread w t).kind = .owner →
    ((s.raiseOwners 7).thread w t).pend = (s.thread w t).pend ||| 0x80) ∧
  (∀ (s : State) (w : WfNo) (t : ThrNo) (desc : BitVec 18) (j : Job), s.live = true →
    s.soft.jobs.find? (fun j => j.origin == .move w t desc.toNat && j.status.isSome) = some j →
    exec (.moveDone w t desc) s = .next
      (let u := ((s.setScr w (desc.toNat + 4) (leBytes 4 (j.done / 4096))).setScr w (desc.toNat + 0x1C) [j.status.getD 0]).dropJob j.id
       (if j.notify then u.raise w t 3 else u).tryEnd w t)) ∧
  (∀ (s : State) (w : WfNo) (t : ThrNo) (desc : BitVec 18) (j : Job), s.live = true →
    s.soft.jobs.find? (fun j => j.origin == .move w t desc.toNat && j.status.isSome) = some j →
    (∀ k st r, (s.thread w t).wait ≠ .ending k st r) →
    exec (.moveDone w t desc) s = .next
      (let u := ((s.setScr w (desc.toNat + 4) (leBytes 4 (j.done / 4096))).setScr w (desc.toNat + 0x1C) [j.status.getD 0]).dropJob j.id
       if j.notify then u.raise w t 3 else u))

/-- MOVE of each kind is accepted with STATUS 0xFF in its descriptor, or refused with the status of the failed check
(05_ramer_instruction_set.md, R134, R136 and R137). -/
def Obligations.MoveIsAcceptedOrRefused : Prop :=
  ∀ (s : State) (w : WfNo) (t : ThrNo), Issues s w t → ∀ (d a : Reg),
    let j := issuedState s w t
    let ok := fun p => s.scratchAt w t (s.g w t a) 32 32 = some p ∧ s.movesOut w t < 16
    (∀ p, ok p →
    (leAt (s.scr w p 32) 0 1 = 1 → j.moveStatus (s.tenant w t) (s.scr w p 32) = 0 →
      Does (.moveTier w t d a) s w t
        (((j.setScr w (p + 0x1C) [0xFF]).setG w t d 0).startJob (j.moveJob w t (s.tenant w t) p (s.scr w p 32)))) ∧
    (leAt (s.scr w p 32) 0 1 = 2 → j.moveStatus (s.tenant w t) (s.scr w p 32) = 0 →
      Does (.moveCopy w t d a) s w t
        (((j.setScr w (p + 0x1C) [0xFF]).setG w t d 0).startJob (j.moveJob w t (s.tenant w t) p (s.scr w p 32)))) ∧
    (leAt (s.scr w p 32) 0 1 = 3 → j.moveStatus (s.tenant w t) (s.scr w p 32) = 0 →
      Does (.moveZero w t d a) s w t
        (((j.setScr w (p + 0x1C) [0xFF]).setG w t d 0).startJob (j.moveJob w t (s.tenant w t) p (s.scr w p 32)))) ∧
    (leAt (s.scr w p 32) 0 1 = 4 → j.moveStatus (s.tenant w t) (s.scr w p 32) = 0 →
      Does (.moveRekey w t d a) s w t
        (((j.setScr w (p + 0x1C) [0xFF]).setG w t d 0).startJob (j.moveJob w t (s.tenant w t) p (s.scr w p 32)))) ∧
    (∀ n, leAt (s.scr w p 32) 0 1 = 1 → n = j.moveStatus (s.tenant w t) (s.scr w p 32) → n ≠ 0 →
      Does (.moveTier w t d a) s w t (j.setG w t d (BitVec.ofNat 64 n)))) ∧
    (∀ p, ok p → ∀ i k, (i = Instr.moveCopy w t d a ∧ k = 2 ∨ i = .moveZero w t d a ∧ k = 3 ∨ i = .moveRekey w t d a ∧ k = 4) →
      leAt (s.scr w p 32) 0 1 = k → ∀ n, n = j.moveStatus (s.tenant w t) (s.scr w p 32) → n ≠ 0 →
      Does i s w t (j.setG w t d (BitVec.ofNat 64 n))) ∧
    (s.scratchAt w t (s.g w t a) 32 32 = none → ∀ i ∈ [Instr.moveTier w t d a, .moveCopy w t d a, .moveZero w t d a, .moveRekey w t d a],
      Raises i s w t 4 0)

/-- STOW, UNSTOW, BINV, MREAD and MWRITE start their operation and answer a status (05_ramer_instruction_set.md, R133,
R134, R138, R139 and R143, R245). -/
def Obligations.PageAndLineInstructions : Prop :=
  ∀ (s : State) (w : WfNo) (t : ThrNo), Issues s w t → ∀ (d a b : Reg),
    let h := s.g w t a
    let j := issuedState s w t
    let g := fun r => (s.g w t r).toNat
    let job := fun (kind : JobKind) (arg : Nat) (force : Bool) => ({ id := 0, origin := .instr w t d, kind := kind, a := g a / 4096 * 4096, b := 0, len := 4096, done := 0, key := 0, key2 := 0, arg := arg, force := force, notify := false, ld := s.tenant w t, status := none, busy := none } : Job)
    let begun := fun (code x : Nat) (jb : Job) => (j.setThread w t { j.thread w t with wait := .op code d (x / 4096) }).startJob jb
    (∀ x, j.jobAddr (s.tenant w t) (g a) = some x → ∀ v, v = begun 1 x (job .stow (g b % 8) (bitOf (g b) 8)) →
      Fetched (.stowInstr w t d a b) s w t → exec (.stowInstr w t d a b) s = .next
        (let u := finish v w t (nextAddr s w t) false
         let u := u.setThread w t { u.thread w t with st := .suspended, wait := (v.thread w t).wait, suspAt := v.time.fclk }
         if (s.thread w t).single then u.setThread w t { u.thread w t with single := false } else u)) ∧
    (∀ x, j.jobAddr (s.tenant w t) (g a) = some x → ∀ v, v = begun 2 x (job .unstow (g b % 2) false) →
      Fetched (.unstowInstr w t d a b) s w t → exec (.unstowInstr w t d a b) s = .next
        (let u := finish v w t (nextAddr s w t) false
         let u := u.setThread w t { u.thread w t with st := .suspended, wait := (v.thread w t).wait, suspAt := v.time.fclk }
         if (s.thread w t).single then u.setThread w t { u.thread w t with single := false } else u)) ∧
    (j.jobAddr (s.tenant w t) (g a) = none → Computes (.stowInstr w t d a b) s w t d 3 ∧ Computes (.unstowInstr w t d a b) s w t d 3) ∧
    (g a % 64 = 0 → g b = 0 → Computes (.binv w t d a b) s w t d 0) ∧
    ((g a % 64 ≠ 0 ∨ g b % 64 ≠ 0 ∨ 2 ^ 21 < g b) → Computes (.binv w t d a b) s w t d 2) ∧
    (g a % 64 = 0 → g b % 64 = 0 → 0 < g b → g b ≤ 2 ^ 21 → ∀ lo hi, j.jobAddr (s.tenant w t) (g a) = some lo →
      j.jobAddr (s.tenant w t) (g a + g b - 1) = some hi → j.rangeAwaits w t (g a) (g b) = false →
      ∀ ls, ls = (List.range (g b / 64)).filterMap (fun i => (j.jobAddr (s.tenant w t) (g a + 64 * i)).map (· / 64)) →
      ∀ v, v = j.invalidate ls (.binv w t) true → v.invalsOver (.binv w t) = true →
      Does (.binv w t d a b) s w t (v.setG w t d (if ls.any j.lineClosed then 9 else 0))) ∧
    (∀ (n : Fin 7) (p : Nat), s.tenant w t = none → s.scratchAt w t (s.g w t d) (64 * 2 ^ n.val) (64 * 2 ^ n.val) = some p →
      lineRangeOk (g a) (64 * 2 ^ n.val) = true → (j.jobAddr none (g a)).isSome = true → j.pageAwaits w t (g a) = false →
      ∀ pg ls, pg = g a / 4096 → ls = spanOfLines pg (g a % 4096) (g a % 4096 + 64 * 2 ^ n.val) →
      ((s.page pg).st ≠ .blank → (s.page pg).st ≠ .lost → (s.page pg).key ≠ g b % 4096 →
        Computes (.mread w t n d a b) s w t d 5) ∧
      (((s.page pg).st = .blank ∨ (s.page pg).st = .lost ∨ (s.page pg).key = g b % 4096) → j.pageBusy pg = false →
        ¬ ((s.page pg).st = .moving ∧ (s.page pg).src = .stowed) → j.linesBlocked ls false = 0 →
        ((s.page pg).st ≠ .stowed → ∀ r, r = j.readLines pg (ls.map (· % 64)) →
          Does (.mread w t n d a b) s w t (((r.1.unstall w t).setScr w p (r.2.1.flatMap lineBytes)).setG w t d (BitVec.ofNat 64 r.2.2))) ∧
        ((s.page pg).st = .stowed → s.stallOf w t pg = some (some 0) → ∀ bs, j.decodeStowed pg = .ok bs →
          Does (.mread w t n d a b) s w t (((j.unstall w t).setScr w p
            ((ls.map (fun l => bytesLine (bs.drop (64 * (l % 64))))).flatMap lineBytes)).setG w t d (BitVec.ofNat 64 0))) ∧
        ((s.page pg).st = .stowed → s.stallOf w t pg = some (some 0x206) → Raises (.mread w t n d a b) s w t 6 0)) ∧
      (j.writeReady pg (g b % 4096) = .go → j.linesBlocked ls true = 0 →
        ∀ r, r = j.writeLines pg (g b % 4096) ((List.range (64 * 2 ^ n.val / 64)).map (fun i =>
          (g a % 4096 / 64 + i, bytesLine ((s.scr w p (64 * 2 ^ n.val)).drop (64 * i))))) →
        Does (.mwrite w t n d a b) s w t ((r.1.unstall w t).setG w t d (BitVec.ofNat 64 r.2))) ∧
      (j.writeReady pg (g b % 4096) = .promote → s.stallOf w t pg = some (some 0x206) → Raises (.mwrite w t n d a b) s w t 6 0)) ∧
    ((s.tenant w t).isSome = true → ∀ n : Fin 7, Raises (.mread w t n d a b) s w t 2 0 ∧ Raises (.mwrite w t n d a b) s w t 2 0)

/-- HEAT, RGET and RPUT serve owner programs, and raise PRIVILEGE in a tenant (05_ramer_instruction_set.md, R134,
R135, R140 and R143). -/
def Obligations.OwnerQueueAndHeatInstructions : Prop :=
  ∀ (s : State) (w : WfNo) (t : ThrNo), Issues s w t → ∀ (d a b : Reg),
    let h := s.g w t a
    let j := issuedState s w t
    (s.tenant w t = none → s.hottestPage = none → Computes (.heat w t d) s w t d 0) ∧
    (s.tenant w t = none → ∀ x, s.hottestPage = some x →
      Does (.heat w t d) s w t ((j.dropHot x.page).setG w t d (BitVec.ofNat 64 (x.page * 2 ^ 12 + x.count * 2 ^ 48 + 2 ^ 63)))) ∧
    (s.tenant w t = none → ∀ p, s.scratchAt w t h 72 8 = some p →
      (s.soft.policyQ = [] → Computes (.rget w t d a) s w t d 1) ∧
      (∀ c rest, s.soft.policyQ = c :: rest →
        Acts (.rget w t d a) s w t d 0 { s.soft with policyQ := rest, scratch :=
          (s.soft.scratch.writeN (scrAddr w p) (c.desc ++ leBytes 8 (c.ring + c.ld * 2 ^ 8 + c.idx * 2 ^ 16))) }) ∧
      (∀ r, r = leNat (s.scr w (p + 64) 8) → ∀ ld ring i, ring = r % 128 → ld = r / 2 ^ 8 % 256 → i = r / 2 ^ 16 % 2 ^ 16 →
        s.soft.cmds.any (fun c => c.ld == ld && c.ring == ring && c.idx == i && c.opcode == 8 && c.st == .working &&
          !s.soft.policyQ.contains c) = true →
        Does (.rput w t d a b) s w t (j.finishCmd ld ring i ((s.g w t b).truncate 8) (s.g w t d)))) ∧
    ((s.tenant w t).isSome = true →
      Raises (.heat w t d) s w t 2 0 ∧ Raises (.rget w t d a) s w t 2 0 ∧ Raises (.rput w t d a b) s w t 2 0)

/-- MPRD, MPSNAP, TIME, the fences and HALT (05_ramer_instruction_set.md, R141 and R146). -/
def Obligations.CounterTimeFenceAndHaltInstructions : Prop :=
  ∀ (s : State) (w : WfNo) (t : ThrNo), Issues s w t → ∀ (d a b : Reg),
    let h := s.g w t a
    let j := issuedState s w t
    (h.toNat ≤ 543 → s.tenant w t = none →
      Does (.mprd w t d a) s w t (j.setG w t d (BitVec.ofNat 64 (j.rd MILEPOST.VALUE h.toNat)))) ∧
    (543 < h.toNat → Raises (.mprd w t d a) s w t 3 0) ∧
    (h.toNat ≤ 16 → s.tenant w t = none →
      Suspends (.mpsnap w t d a) s w t (j.snapAsk h.toNat).1 (.snap d h.toNat (j.snapAsk h.toNat).2)) ∧
    Computes (.time w t d) s w t d (BitVec.ofNat 64 s.time.fclk) ∧
    Computes (.fenceS w t) s w t 0 0 ∧
    (s.storesOut w t = false → Computes (.fenceT w t) s w t 0 0) ∧
    (s.movesOut w t = 0 → Computes (.fenceD w t) s w t 0 0) ∧
    (s.storesOut w t = false → s.movesOut w t = 0 → Computes (.fenceA w t) s w t 0 0) ∧
    (s.storesOut w t = true → Suspends (.fenceT w t) s w t j (.fence false true false) ∧
      Suspends (.fenceA w t) s w t j (.fence true true true)) ∧
    (s.movesOut w t ≠ 0 → Suspends (.fenceD w t) s w t j (.fence false false true)) ∧
    (s.movesOut w t = 0 → Fetched (.halt w t a) s w t → ∃ u, exec (.halt w t a) s = .next u ∧ (u.thread w t).st = .idle ∧ (u.thread w t).endKind = 0 ∧
      (u.thread w t).endStatus = h.truncate 16 ∧ u.regs = s.regs ∧
      (∀ ld r k, (s.thread w t).run = some (ld, r, k) → ∀ c ∈ s.soft.cmds, c.ld = ld → c.ring = r → c.idx = k →
        { c with st := .done 0 h } ∈ u.soft.cmds)) ∧
    (s.movesOut w t ≠ 0 → Fetched (.halt w t a) s w t → ∃ u, exec (.halt w t a) s = .next u ∧ (u.thread w t).st = .suspended ∧
      (u.thread w t).wait = .ending 0 (h.truncate 16) h ∧ u.regs = s.regs)

/-- What reset leaves (R42, R86, R87, R97, R100, R104, R112, R248, R302). -/
def Obligations.ResetValues : Prop :=
  let s := State.reset
  s.board.power = .unpowered ∧ s.board.halted = false ∧ s.board.step = 0 ∧ s.own = ⟨.closed, none, none, 0, 0⟩ ∧
  s.svc.st = 0 ∧ s.svc.fails = 0 ∧ s.svc.last = 0 ∧ s.pending = [] ∧
  (∀ (w : WfNo) (t : ThrNo) (r : Reg), s.g w t r = 0) ∧
  (∀ w t : Nat, (s.thread w t).st = .idle ∧ (s.thread w t).staged = [] ∧ (s.wf w).released = false) ∧
  (∀ ld r : Nat, (s.ring ld r).enable = false ∧ (s.ring ld r).error = false ∧ (s.ring ld r).cmdHead = 0 ∧ (s.ring ld r).phase = true) ∧
  (∀ f m : Nat, ∀ d : Bool, (s.mailbox f d m).full = false ∧ (s.mailbox f d m).posted = 0 ∧ (s.mailbox f d m).rejects = 0) ∧
  (∀ f : Nat, (s.bell f).toDev = 0 ∧ (s.bell f).toHost = 0 ∧ (s.bell f).hostMask = 0xFFFF) ∧
  (∀ p : Nat, (s.page p).st = .blank ∧ (s.page p).pin = 0) ∧
  (∀ c : Nat, (s.ctx c).st = 0) ∧ s.coh.sf = [] ∧ s.coh.trackers = [] ∧ s.coh.snoops = [] ∧ s.dram.lines = [] ∧
  s.phase = 0 ∧ s.rd OWNER.LAPSE_MS 0 = 5000 ∧ s.rd PHASE.LAST_STEP 0 = 0 ∧ s.rd PHASE.FAILED_STEP 0 = 0 ∧ s.rd FAULT.HALTED 0 = 0 ∧
  (∀ h : HeadNo, (s.link h).up = false ∧ s.rd PORT.ISOLATED h = 0 ∧ s.rd PORT.LINK_RATE h = 0) ∧
  s.mile.inProgress = [] ∧ (∀ n : Fin 512, s.rd MILEPOST.VALUE n = 0 ∧ s.rd MILEPOST.ENABLE n = 0)

/-- PWRGOOD and SYSRST_N move the device between its power states (R42, R425). -/
def Obligations.PowerPinsFollowTheirTable : Prop :=
  ∀ s : State,
    (∀ high, s.board.power = .unpowered →
      exec (.pwrgoodRise high) s = .next { s with board := { s.board with power := .aonOnly, riseTimer := high } }) ∧
    (∀ st, s.board.power = .aonOnly → s.board.riseTimer = false → s.board.halted = false →
      exec (.sysrstNRise st) s = .next (s.powerOn st)) ∧
    (∀ st, s.board.power = .aonOnly → s.board.riseTimer = true → s.board.halted = false →
      exec (.sysrstNTakenAsRising st) s = .next (s.powerOn st)) ∧
    (s.board.power = .poweringOn ∨ s.board.power = .running → s.board.halted = false →
      exec .sysrstNFall s = .next s.deviceReset ∧ s.deviceReset.board.power = .aonOnly ∧ s.deviceReset.own = State.reset.own ∧
      s.deviceReset.regs = [] ∧ s.deviceReset.dram = State.reset.dram ∧ s.deviceReset.plc = State.reset.plc ∧
      s.deviceReset.svc.fails = s.svc.fails ∧ s.deviceReset.pending = s.pending) ∧
    (s.board.halted = true → exec .sysrstNFall s = .next s) ∧
    (∃ u, exec .pwrgoodFall s = .next u ∧ u.board.power = .unpowered ∧ u.board.halted = false ∧ u.board.thermtrip = false ∧
      u.tab = [] ∧ u.regs = [] ∧ u.own = State.reset.own ∧ u.svc = State.reset.svc ∧ u.aon = State.reset.aon ∧
      u.board.perst = s.board.perst ∧ u.pending = s.pending)

/-- Power-on samples the straps, and illegal straps stop it with fault 0x31 (R49, R50, R55, R56). -/
def Obligations.StrapsAreSampledOrStopPowerOn : Prop :=
  ∀ (s : State) (st : Straps), s.board.power = .aonOnly → s.board.riseTimer = false → s.board.halted = false →
    ∃ u, exec (.sysrstNRise st) s = .next u ∧ u.board.straps = st ∧ u.board.power = .poweringOn ∧ u.board.heartOn = true ∧
      u.own = s.own ∧ u.soft = s.soft ∧ u.svc = s.svc ∧
      ((st.bootSrc = 3 ∨ st.testEn = true) → u.board.hold = .strapStop ∧ u.board.step = 1 ∧ u.rd PHASE.LAST_STEP 0 = 1 ∧
        (s.rd PHASE.FAILED_STEP 0 = 0 → u.rd PHASE.FAILED_STEP 0 = 2) ∧
        ∃ r ∈ u.aon.reports, r.unit = uid 12 4 ∧ r.code = 0x31) ∧
      (¬ (st.bootSrc = 3 ∨ st.testEn = true) → u.board.hold = .none ∧ u.board.step = 2 ∧ u.rd PHASE.LAST_STEP 0 = 2 ∧
        u.aon.reports = s.aon.reports)

/-- Steps 3 to 6 of power-on: SPD reads, root PLL, self-test and boot image (R49, R55, R64, R65, R72, R73). -/
def Obligations.PowerOnStepsRunInOrder : Prop :=
  ∀ s : State, s.live = true →
    (∀ ds, s.board.hold = .none → s.board.step = 2 → s.baysSettled = true →
      ∃ u, exec (.spdReadsComplete ds) s = .next u ∧ u.board.step = 3 ∧ u.rd PHASE.LAST_STEP 0 = 3 ∧
        (u.board.ckSlow = true ↔ ∃ c ∈ List.range 24, s.rd BAY.STATE (c / 2) = 6 ∧ (ds.filter (fun d => d.chan.val == c)).length = 2)) ∧
    (s.board.hold = .none → s.board.step = 3 →
      ∃ u, exec .rootPllLock s = .next u ∧ u.time.locked = true ∧ u.time.fclk = 0 ∧ u.board.step = 4 ∧ u.rd PHASE.LAST_STEP 0 = 4) ∧
    (s.board.hold = .none → s.board.step = 3 → exec .pllLockTimeout s = .next ((s.stepFailed 4).fatal (uid 0xB 0) 0x30 0)) ∧
    (∀ c : UnitNo, s.rd MEMCH.STATE c = 1 → s.board.step < 10 →
      exec (.selfTestComplete c .pass) s = .next ((s.setUnit c 2).stepEnds 0) ∧
      exec (.selfTestComplete c .trainFail) s = .next (((s.exclude c 0x0E (2 ^ 64 - 1)).joinPool c).stepEnds 0) ∧
      ∀ a, exec (.selfTestComplete c (.fail a)) s = .next (((s.exclude c 0x0E a.toNat).joinPool c).stepEnds 0)) ∧
    (∀ (c : UnitNo) v, s.board.step = 4 → exec (.selfTestComplete c (.sram v false)) s = .next (s.sramFails v.toNat) ∧
      exec (.selfTestComplete c (.sram v true)) s = .next s) ∧
    (∀ f0 f1 (lg : Option LedgerRec) refclk, s.board.hold = .none → s.board.step = 5 →
      ∀ b, b = { s with board := { s.board with refclk := refclk } } → ∀ a, a = (match lg with | some l => b.loadLedger l | none => b) →
      (s.board.straps.bootSrc = 2 → exec (.bootImageVerify f0 f1 lg refclk) s = .next (a.bootWaits 3 2)) ∧
      (∀ fl, s.board.straps.bootSrc = 0 → f0 = some fl → a.bootOk fl false = true →
        exec (.bootImageVerify f0 f1 lg refclk) s = .next (a.applyBoot fl 0)) ∧
      (∀ fl, s.board.straps.bootSrc = 0 → f0 = none → f1 = some fl → a.bootOk fl false = true →
        exec (.bootImageVerify f0 f1 lg refclk) s = .next (a.applyBoot fl 1)) ∧
      (∀ fl, s.board.straps.bootSrc = 1 → f1 = some fl → a.bootOk fl false = true →
        exec (.bootImageVerify f0 f1 lg refclk) s = .next (a.applyBoot fl 1)) ∧
      (s.board.straps.bootSrc = 0 → f0 = none → f1 = none →
        exec (.bootImageVerify f0 f1 lg refclk) s = .next ((a.bootWaits 2 1).stepFailed 6)))

/-- Fill, the base program, recovery images and the phase (R55, R59, R64, R72, R73, R76-R78). -/
def Obligations.FillAndBaseProgramEndPowerOn : Prop :=
  ∀ s : State,
    (s.live = true → ∀ (c : UnitNo) (f : Option (BitVec 64)) ms, s.rd MEMCH.STATE c = 2 → 6 ≤ s.board.step →
      ∀ a, a = ((match f with
        | some x => s.exclude c 0x0F x.toNat
        | none => (s.setPool c { s.pool c with filled := true }).setUnit c 3).joinPool c) →
      (a.live = true → a.board.hold = .none → a.board.step = 6 → (∀ v < 28, a.rd MEMCH.STATE v ≠ 2) →
        exec (.fillComplete c f ms) s = .next (((a.stepDone 9).wr PHASE.FILL_MS 0 ms.toNat).startWayfinders)) ∧
      (a.board.step ≠ 4 → ¬ (a.board.step = 6 ∧ ∀ v < 28, a.rd MEMCH.STATE v ≠ 2) → exec (.fillComplete c f ms) s = .next a)) ∧
    (s.live = true → s.board.hold = .none → s.board.step = 9 → ∀ ms,
      (∀ a, a = ((List.range 28).foldl (fun (x : State) v => if (x.pool v).filled then x.setPool v { x.pool v with inPool := true } else x)
          s).placeSubtrees.settle → ∀ b, b = (a.stepDone 12).wr PHASE.ACTIVE_MS 0 ms.toNat →
        exec (.baseProgramReady ms) s = .next { b with board := { b.board with power := .running, mbReady := true, active := true }, own := b.own.opens }) ∧
      ∃ u, exec (.baseProgramReady ms) s = .next u ∧ u.board.step = 12 ∧ u.board.power = .running ∧ u.board.active = true ∧
        u.board.mbReady = true ∧ u.own.st ≠ .closed ∧ u.rd PHASE.ACTIVE_MS 0 = ms.toNat ∧ u.rd PHASE.LAST_STEP 0 = 12) ∧
    (s.live = true → s.board.hold = .none → s.board.step = 9 → ∀ code,
      ∃ u, exec (.baseProgramTimeout code) s = .next u ∧ u.board.hold = .recovery10 ∧ u.rd PHASE.CURRENT 0 = 3 ∧
        u.rd PHASE.ENTRY_CAUSE 0 = (if s.rd PHASE.CURRENT 0 = 3 then s.rd PHASE.ENTRY_CAUSE 0 else 2) ∧
        ∃ r ∈ u.aon.reports, r.unit = uid 8 0 ∧ r.code = 0x1F) ∧
    (s.live = true → ∀ (c : Cand) fl, s.eligible c = true → c ≠ 1 → s.board.hold = .recovery6 → s.bootOk fl true = true →
      exec (.recoveryImageSubmit c fl) s = .next ((s.endHandling (uid 12 4) [0x32]).applyBoot fl 2)) ∧
    (∀ (w : WfNo) (t : ThrNo) (d : Reg) (v : BitVec 2), Issues s w t → (s.tenant w t).isSome = true →
      Raises (.phaseStore w t d v) s w t 2 0) ∧
    (∀ (w : WfNo) (t : ThrNo) (d : Reg) (v : BitVec 2), Issues s w t → s.tenant w t = none →
      ∀ r, r = (issuedState s w t).phaseStore v.toNat →
      Does (.phaseStore w t d v) s w t ((r.2.submitted w r.1).setG w t d (BitVec.ofNat 64 r.1))) ∧
    (∀ v : Nat, s.phaseAllowed v = false → v ≠ s.rd PHASE.CURRENT 0 → s.phaseStore v = (5, s)) ∧
    (∀ v : Nat, v ≠ s.rd PHASE.CURRENT 0 → v < 4 → s.phaseAllowed v = true → (s.phaseStore v).1 = 0 ∧
      (s.phaseStore v).2.rd PHASE.CURRENT 0 = v ∧ (s.phaseStore v).2.phase = if s.time.locked then s.phase else v)

/-- CLAIM, HANDOVER, RELEASE and the timers move the election as R84 states (04_ownership_and_host_interfaces.md, R79
to R84). -/
def Obligations.ElectionFollowsItsTable : Prop :=
  ∀ (s : State) (c : Cand), s.pathUp c = true → s.board.halted = false → ∀ a, a = s.from_ c →
    (∀ word, word ≠ 0 → (a.own.st = .open ∧ a.eligible c = true ∨ a.own.st = .handover ∧ a.own.successor = some c.val) →
      exec (.claim c word) s = .next (({ a with own := ⟨.owned, some c, none, a.own.epoch + 1, word⟩ }).ownerReply c)) ∧
    (∀ word, (word = 0 ∨ a.own.st = .closed ∨ a.own.st = .owned ∨ a.own.st = .lapsing ∨ (a.own.st = .open ∧ a.eligible c = false) ∨
        (a.own.st = .handover ∧ a.own.successor ≠ some c.val)) → exec (.claim c word) s = .next (a.ownerReply c)) ∧
    exec (.status c) s = .next (a.send (.ownerStatus c (a.ownerStatus c))) ∧
    (∀ v : BitVec 6, a.own.owner = some c.val → (a.own.st = .owned ∨ a.own.st = .handover) → v.toNat ≠ c → a.eligible v.toNat = true →
      exec (.handover c v) s = .next (({ a with own := { a.own with st := .handover, successor := some v.toNat } }).ownerReply c)) ∧
    (∀ v : BitVec 6, (a.own.owner ≠ some c.val ∨ v.toNat = c ∨ a.eligible v.toNat = false) → exec (.handover c v) s = .next (a.ownerReply c)) ∧
    (a.own.owner = some c.val → a.own.st = .handover →
      exec (.handoverCancel c) s = .next (({ a with own := { a.own with st := .owned, successor := none } }).ownerReply c)) ∧
    (a.own.owner = some c.val → (a.own.st = .owned ∨ a.own.st = .handover) →
      exec (.release c) s = .next (({ a with own := ⟨.open, none, none, a.own.epoch + 1, 0⟩ }).ownerReply c)) ∧
    (a.own.owner ≠ some c.val → exec (.release c) s = .next (a.ownerReply c) ∧ exec (.handoverCancel c) s = .next (a.ownerReply c)) ∧
    (s.live = true → s.own.st = .handover →
      exec .handoverTimerExpiry s = .next { s with own := { s.own with st := .owned, successor := none } }) ∧
    (s.live = true → s.own.st = .lapsing → exec .lapseTimerExpiry s = .next { s with own := ⟨.open, none, none, s.own.epoch + 1, 0⟩ }) ∧
    (s.bmcAnswers = true → s.own.owner = some 1 → (s.own.st = .owned ∨ s.own.st = .handover) → ∀ i ∈ [Instr.bmcSclLowTimeout, .i3cTargetReset],
      exec i s = .next { s with board := { s.board with bmcDown := true }, own := { s.own with st := .lapsing, successor := none } })

/-- Every step keeps the election legal: an owner exactly in OWNED, HANDOVER and LAPSING, a successor exactly in
HANDOVER (R84, R86). -/
def Obligations.ElectionStaysLegal : Prop :=
  ∀ (s u : State),
    let Inv := fun (o : Election) =>
      (o.owner.isSome = true ↔ o.st = .owned ∨ o.st = .handover ∨ o.st = .lapsing) ∧ (o.successor.isSome = true ↔ o.st = .handover) ∧
      (∀ c, o.owner = some c → c < 34 ∧ o.successor ≠ some c) ∧ (∀ c, o.successor = some c → c < 34) ∧ (o.word = 0 ↔ o.owner = none)
    Inv s.own → step s = .next u → Inv u.own

/-- The election is legal at reset (R84, R86). -/
def Obligations.ElectionLegalAtReset : Prop :=
  let o := State.reset.own
  (o.owner.isSome = true ↔ o.st = .owned ∨ o.st = .handover ∨ o.st = .lapsing) ∧ (o.successor.isSome = true ↔ o.st = .handover) ∧
  (∀ c, o.owner = some c → c < 34 ∧ o.successor ≠ some c) ∧ (∀ c, o.successor = some c → c < 34) ∧ (o.word = 0 ↔ o.owner = none)

/-- Every step keeps FAILS = 3 and CLOSED the same thing (R104, R105). -/
def Obligations.ServiceAccessStaysLockedOut : Prop :=
  ∀ (s u : State), (s.svc.fails = 3 ↔ s.svc.st = 2) → step s = .next u →
    (u.svc.fails = 3 ↔ u.svc.st = 2) ∧ (s.svc.st = 2 → s.pending.head? ≠ some .pwrgoodFall → u.svc.st = 2)

/-- Every step keeps the register map and the byte memories in canonical form (R112, 05_ramer_instruction_set.md,
06_wayfinders_and_tables.md, R152 to R154). -/
def Obligations.RegistersAndMemoriesStayCanonical : Prop :=
  ∀ (s u : State),
    let Inv := fun (x : State) => Tab.wf (fun _ => (0 : BitVec 64)) x.regs = true ∧
      Memory.wf x.soft.scratch = true ∧ Memory.wf x.soft.istore = true ∧ Memory.wf x.soft.win.buf = true
    Inv s → step s = .next u → Inv u

/-- The register map and the byte memories are canonical at reset (R112, 06_wayfinders_and_tables.md, R152 to R154).
-/
def Obligations.MemoriesCanonicalAtReset : Prop :=
  Tab.wf (fun _ => (0 : BitVec 64)) State.reset.regs = true ∧
  Memory.wf State.reset.soft.scratch = true ∧ Memory.wf State.reset.soft.istore = true ∧ Memory.wf State.reset.soft.win.buf = true

/-- A step takes exactly the front command off the queue, and keeps a well-formed queue well formed
(04_ownership_and_host_interfaces.md, 95_what_each_step_holds.md). -/
def Obligations.CommandsLeaveTheQueueAlone : Prop :=
  (∀ (c : Instr) (s u : State), exec c s = .next u → u.pending = s.pending) ∧
  (∀ (s u : State), QueueWf s = true → step s = .next u → u.pending = s.pending.tail ∧ QueueWf u = true)

/-- Every table store that only the owner's side makes raises PRIVILEGE in a tenant (R142, R162). -/
def Obligations.OwnerStoreRowsArePrivileged : Prop :=
  ∀ (s : State) (w : WfNo) (t : ThrNo) (d a b : Reg) (h : HeadNo) (bay : BayNo) (un : UnitNo) (v : BitVec 2) (win k : BitVec 12) (e : BitVec 14)
    (mask : BitVec 32) (x : BitVec 10) (m : BitVec 256) (f g : Bool), Issues s w t → (s.tenant w t).isSome = true →
    ∀ i ∈ [Instr.phaseStore w t d v, .isolatedClear w t d h, .reopen w t d win, .reclaimedClear w t d win mask, .windowDisable w t d win,
      .evacuate w t d bay, .cancel w t d bay, .offer w t d e, .recall w t d e, .contextRelease w t d k, .install w t d k m v f g,
      .clear w t d k, .ceClear w t d un, .memchReset w t d un, .resetGo w t d x, .checkin w t d, .bayEnable w t d bay,
      .bayDisable w t d bay, .clearAll w t d, .tst w t d a b], Raises i s w t 2 0

/-- Function, LD, head and management endpoint resets (R43, R83, R102). -/
def Obligations.FunctionAndHeadResets : Prop :=
  ∀ s : State, s.live = true →
    (∀ ld : LdNo, s.ldExists ld = true →
      exec (.ldReset ld) s = .next (if ld.val % 16 = 0 then ((s.setInReset ld true).resetLd ld).ownerDown (ld / 16 + 2)
        else (s.setInReset ld true).resetLd ld)) ∧
    exec (.functionLevelReset 256) s = .next (((s.setInReset 256 true).resetBell 256).ownerDown 0) ∧
    (∀ f : Func, f.val ≠ 256 → s.ldExists f = true → f.val % 16 = 0 → s.inf PORT.LD_COUNT (f / 16) = 1 →
      exec (.functionLevelReset f) s = .next (((s.setInReset f true).resetLd f).ownerDown (f / 16 + 2))) ∧
    (∀ f : Func, s.board.inReset.getLsbD f = true →
      exec (.functionOutOfReset f) s = .next ((s.setInReset f false).funcBack (if f.val = 256 then 32 else f / 16))) ∧
    (∀ h : HeadNo, s.board.perst.getLsbD h = true → s.headExists h = true → ∀ a, a = (s.setPerst h false).linkLost h →
      exec (.hdperstNFall h) s = .next (((List.range 16).foldl (fun (x : State) i =>
        if x.ldExists (16 * h + i) then x.resetLd (16 * h + i) else x) a).ownerDown (h + 2))) ∧
    (∀ h : HeadNo, ∀ a, a = s.setPerst h true →
      (a.rd POWER.STATE (h / 2) = 0 → exec (.hdperstNRise h) s = .next (if a.mayTrain h then a.send (.training h) else a)) ∧
      (a.rd POWER.STATE (h / 2) ≠ 0 → exec (.hdperstNRise h) s = .next (a.wakeDom (h / 2)))) ∧
    (s.board.perst.getLsbD 32 = true → exec .mgPerstNFall s = .next ((((s.setPerst 32 false).linkLost 32).resetBell 256).ownerDown 0)) ∧
    (exec .mgPerstNRise s = .next (let a := s.setPerst 32 true; if a.mayTrain 32 then a.send (.training 32) else a))

/-- What an LD reset leaves of the LD's rings, commands, tenants, contexts and doorbell (R102). -/
def Obligations.AnLdResetStopsItsRingsAndTenants : Prop :=
  ∀ (s : State) (ld : LdNo), ∃ a : State, s.resetLd ld = a.settle ∧
    (∀ r < 128, a.ring ld r = Ring.init) ∧ (∀ c ∈ a.soft.cmds ++ a.soft.runQ ++ a.soft.policyQ, c.ld ≠ ld.val) ∧ (∀ q ∈ a.soft.ioReads, q.ld ≠ ld.val) ∧
    (∀ (w : WfNo) (t : ThrNo), (a.thread w t).kind = .tenant ld → (a.thread w t).st = .idle) ∧
    (∀ c, (a.ctx c).st ≠ 0 → (a.ctx c).holder ≠ ld.val) ∧
    (a.bell ld).toHost = 0 ∧ (a.bell ld).hostMask = 0xFFFF ∧ (a.bell ld).toDev = (s.bell ld).toDev ∧
    (∀ ld' r, ld' ≠ ld → r < 128 → a.ring ld' r = s.ring ld' r) ∧ a.soft.mail = s.soft.mail ∧ (∀ f, f ≠ ld → a.bell f = s.bell f) ∧
    SameTables s a ∧ a.dram = s.dram ∧ a.plc = s.plc ∧ a.own = s.own

/-- Ring enable, disable and the index registers, with the errors of R87 (R87, R88, R89, R95). -/
def Obligations.RingRegistersAndErrors : Prop :=
  ∀ (s : State) (ld : LdNo) (r : RingNo), s.funcUp ld = true →
    let x := s.ring ld r
    (x.enable = false → x.cmdBase.toNat % 4096 = 0 → x.cplBase.toNat % 4096 = 0 → (4 ≤ x.cmdLog2.toNat ∧ x.cmdLog2.toNat ≤ 16) →
      (4 ≤ x.cplLog2.toNat ∧ x.cplLog2.toNat ≤ 16) → ∀ y, y = { x with enable := true, error := false, cause := 0, cmdHead := 0, cplTail := 0, cmdTail := 0, cplHead := 0, phase := true, fetching := false, unread := 0 } →
      (r.val < s.inf ACCESS.RINGS ld → exec (.ringEnable ld r) s = .next (s.setRing ld r y)) ∧
      (s.inf ACCESS.RINGS ld ≤ r.val → ∃ u, exec (.ringEnable ld r) s = .next u ∧ u.ring ld r = { y with error := true, cause := 2 })) ∧
    (x.enable = false → (x.cmdBase.toNat % 4096 ≠ 0 ∨ x.cplBase.toNat % 4096 ≠ 0 ∨ ¬ (4 ≤ x.cmdLog2.toNat ∧ x.cmdLog2.toNat ≤ 16) ∨
        ¬ (4 ≤ x.cplLog2.toNat ∧ x.cplLog2.toNat ≤ 16)) →
      ∃ u, exec (.ringEnable ld r) s = .next u ∧ (u.ring ld r).error = true ∧ (u.ring ld r).cause = 1 ∧ (u.ring ld r).enable = true) ∧
    (x.enable = true → ∃ u, exec (.ringDisable ld r) s = .next u ∧ u.ring ld r = { x with enable := false, fetching := false } ∧
      (∀ c ∈ u.soft.cmds, c ∈ s.soft.cmds) ∧ (∀ c ∈ s.soft.cmds, c.st ≠ .held → c ∈ u.soft.cmds) ∧
      (∀ c ∈ u.soft.cmds, c.ld = ld.val → c.ring = r.val → c.st ≠ .held)) ∧
    (∀ v : BitVec 16, (x.on = false ∨ v.toNat < x.cmdSize) → exec (.cmdTailWrite ld r v) s = .next (s.setRing ld r { x with cmdTail := v })) ∧
    (∀ v : BitVec 16, x.on = true → x.cmdSize ≤ v.toNat → ∃ u, exec (.cmdTailWrite ld r v) s = .next u ∧
      u.ring ld r = { x with cmdTail := v, error := true, cause := 3, fetching := false }) ∧
    (∀ v : BitVec 16, x.enable = true → v.toNat < x.cplSize → x.consumed v.toNat ≤ x.unread →
      exec (.cplHeadWrite ld r v) s = .next (s.setRing ld r { x with cplHead := v, unread := x.unread - x.consumed v.toNat })) ∧
    (∀ v : BitVec 16, x.enable = true → (x.cplSize ≤ v.toNat ∨ x.unread < x.consumed v.toNat) → ∃ u, exec (.cplHeadWrite ld r v) s = .next u ∧
      u.ring ld r = { x with cplHead := v, error := true, cause := 4, fetching := false })

/-- A descriptor fetch moves CMD_HEAD and starts the command, and a completion writes its entry (R87, R89, R90, R94,
R95, R101). -/
def Obligations.CommandsAreFetchedAndCompleted : Prop :=
  ∀ (s : State) (ld : LdNo) (r : RingNo),
    let x := s.ring ld r
    (s.funcUp ld = true → s.mayFetch ld r = true → ∀ resp, ∀ a, a = s.hostAsk ld r none (x.cmdBase.toNat + 64 * x.cmdHead.toNat) 64 resp →
      (∀ bytes, resp = .ok bytes → exec (.commandFetch ld r resp) s = .next (a.fetched ld r bytes)) ∧
      (resp = .failed → ∃ u, exec (.commandFetch ld r resp) s = .next u ∧ (u.ring ld r).error = true ∧ (u.ring ld r).cause = 5) ∧
      (resp = .outstanding → exec (.commandFetch ld r resp) s = .next (a.setRing ld r { a.ring ld r with fetching := true }))) ∧
    (∀ bytes : List (BitVec 8), bytes.length = 64 → ∃ c, (s.fetched ld r bytes).soft.cmds = s.soft.cmds ++ [c] ∧ c.ld = ld.val ∧ c.ring = r.val ∧
      c.idx = x.cmdHead.toNat ∧ c.desc = bytes ∧
      ((s.fetched ld r bytes).ring ld r).cmdHead = BitVec.ofNat 16 ((x.cmdHead.toNat + 1) % x.cmdSize) ∧
      (c.flags % 2 = 1 ∧ s.flight ld r ≠ [] → c.st = .held) ∧
      (¬ (c.flags % 2 = 1 ∧ s.flight ld r ≠ []) → c.st = if 1 ≤ c.opcode ∧ c.opcode ≤ 12 then .started else .done 1 0)) ∧
    (s.live = true → ∀ (i : BitVec 16) c st res, s.cmdAt ld r i.toNat = some c → c.st = .done st res →
      (s.canPost ld = true → exec (.commandComplete ld r i true) s = .next (s.complete c st res true)) ∧
      (s.canPost ld = true ∨ (s.link (ldHead ld)).up = false →
        exec (.commandComplete ld r i false) s = .next (s.complete c st res false))) ∧
    (∀ (c : RingCmd) st res, c.ld = ld.val → c.ring = r.val → ∃ a : State, s.complete c st res true = a.settle ∧
      .hostWrite ld (BitVec.ofNat 64 (x.cplBase.toNat + 16 * x.cplTail.toNat)) (leBytes 2 c.cmdId ++ [st, if x.phase then 1 else 0] ++ leBytes 2 x.cmdHead.toNat ++ zeros 2 ++ leBytes 8 res.toNat) ∈ a.out ∧
      (a.ring ld r).unread = x.unread + 1 ∧ (a.ring ld r).cplTail = BitVec.ofNat 16 ((x.cplTail.toNat + 1) % x.cplSize) ∧
      (∀ d ∈ a.soft.cmds, ¬ (d.ld = c.ld ∧ d.ring = c.ring ∧ d.idx = c.idx)))

/-- COPY, ZERO, REKEY, STOW, UNSTOW, PIN, UNPIN and HINT are taken up or fail their checks (R92, R93, R110, R140,
R263). -/
def Obligations.RingCommandsOverARange : Prop :=
  ∀ (s : State) (ld : LdNo) (r : RingNo) (i : BitVec 16) (c : RingCmd) (k : Nat), s.live = true → s.cmdAt ld r i.toNat = some c → c.st = .started →
    (c.opcode = 1 → rangeOk c.addrA c.len 64 = true → c.addrB % 64 = 0 ∧ ¬ (c.addrA < c.addrB + c.len ∧ c.addrB < c.addrA + c.len) → s.operandKey ld c.arg0 = some k → exec (.copy ld r i) s = .next (s.work c (c.job .copy k 0 0))) ∧
    (c.opcode = 1 → (rangeOk c.addrA c.len 64 = false ∨ ¬ (c.addrB % 64 = 0 ∧ ¬ (c.addrA < c.addrB + c.len ∧ c.addrB < c.addrA + c.len))) → exec (.copy ld r i) s = .next (s.fail c 2)) ∧
    (c.opcode = 2 → rangeOk c.addrA c.len 64 = true → True → s.operandKey ld c.arg0 = some k → exec (.zero ld r i) s = .next (s.work c (c.job .zero k 0 0))) ∧
    (c.opcode = 2 → (rangeOk c.addrA c.len 64 = false) → exec (.zero ld r i) s = .next (s.fail c 2)) ∧
    (c.opcode = 4 → rangeOk c.addrA c.len 4096 = true → c.arg0 ≤ 7 → exec (.stow ld r i) s = .next (s.work c (c.job .stow 0 0 c.arg0))) ∧
    (c.opcode = 4 → (rangeOk c.addrA c.len 4096 = false ∨ ¬ (c.arg0 ≤ 7)) → exec (.stow ld r i) s = .next (s.fail c 2)) ∧
    (c.opcode = 5 → rangeOk c.addrA c.len 4096 = true → c.arg0 ≤ 1 → exec (.unstow ld r i) s = .next (s.work c (c.job .unstow 0 0 c.arg0))) ∧
    (c.opcode = 5 → (rangeOk c.addrA c.len 4096 = false ∨ ¬ (c.arg0 ≤ 1)) → exec (.unstow ld r i) s = .next (s.fail c 2)) ∧
    (c.opcode = 6 → rangeOk c.addrA c.len 4096 = true → c.arg0 ≤ 1 → exec (.pin ld r i) s = .next (s.work c (c.job .pin 0 0 c.arg0))) ∧
    (c.opcode = 6 → (rangeOk c.addrA c.len 4096 = false ∨ ¬ (c.arg0 ≤ 1)) → exec (.pin ld r i) s = .next (s.fail c 2)) ∧
    (c.opcode = 7 → rangeOk c.addrA c.len 4096 = true → True → exec (.unpin ld r i) s = .next (s.work c (c.job .unpin 0 0 0))) ∧
    (c.opcode = 7 → (rangeOk c.addrA c.len 4096 = false) → exec (.unpin ld r i) s = .next (s.fail c 2)) ∧
    (∀ v ∈ [Instr.copy ld r i, .zero ld r i], (c.opcode = 1 ∧ v = .copy ld r i ∧ c.addrB % 64 = 0 ∧ ¬ (c.addrA < c.addrB + c.len ∧ c.addrB < c.addrA + c.len) ∨
        c.opcode = 2 ∧ v = .zero ld r i) → rangeOk c.addrA c.len 64 = true → s.operandKey ld c.arg0 = none → exec v s = .next (s.fail c 4)) ∧
    (c.opcode = 3 → s.infB ACCESS.REKEY_OK ld = true → rangeOk c.addrA c.len 4096 = true → ∀ k1 k2, s.operandKey ld c.arg0 = some k1 →
      s.operandKey ld c.arg1 = some k2 → exec (.rekey ld r i) s = .next (s.work c (c.job .rekey k1 k2 0))) ∧
    (c.opcode = 3 → s.infB ACCESS.REKEY_OK ld = false → exec (.rekey ld r i) s = .next (s.fail c 0xE)) ∧
    (c.opcode = 8 → rangeOk c.addrA c.len 4096 = true → c.arg0 ≤ 3 → 256 ≤ s.soft.policyQ.length → exec (.hint ld r i) s = .next (s.fail c 0)) ∧
    (c.opcode = 8 → rangeOk c.addrA c.len 4096 = true → c.arg0 ≤ 3 → s.soft.policyQ.length < 256 → ∀ d, d = { c with st := CmdSt.working } →
      ∀ a, a = { s.setCmd d with soft := { (s.setCmd d).soft with policyQ := s.soft.policyQ ++ [d] } } →
      exec (.hint ld r i) s = .next (if s.soft.policyQ.isEmpty then a.raiseOwners 4 else a))

/-- EXPORT, IMPORT, SAVE, RESTORE and the release of a context (10_stow_compression.md, R301 to R306, R310). -/
def Obligations.StreamCommands : Prop :=
  ∀ (s : State) (ld : LdNo) (r : RingNo) (i : BitVec 16) (c : RingCmd), s.live = true → s.cmdAt ld r i.toNat = some c → c.st = .started →
    (c.opcode = 9 → c.ctxOp = 0 → s.infB ACCESS.STREAM_OK ld = true → c.arg0Ok = true → rangeOk c.addrA c.len 4096 = true → c.addrB % 64 = 0 →
      4101 * (c.len / 4096) + 10 ≤ c.arg1 → ∀ x ok, s.ctxFor c 1 = some x → ∀ d, d = { c with st := CmdSt.working, data := zeros 16 } →
      exec (.exportStream ld r i ok) s = .next (State.exportRun ld r i.toNat ok (c.len / 4096 + 1) ((s.setCtx c.ctxNo { x with busy := true }).setCmd d))) ∧
    (c.opcode = 10 → c.ctxOp = 0 → s.infB ACCESS.STREAM_OK ld = true → c.arg0Ok = true → c.addrA % 4096 = 0 → c.addrB % 64 = 0 → c.len ≤ 2 ^ 30 →
      0 < c.len → ∀ x bytes, s.ctxFor c 2 = some x → (s.operandKey ld c.streamKey).isSome = true → s.canAsk ld = true → c.ld = ld.val → c.ring = r.val → c.idx = i.toNat →
      exec (.importStream ld r i (.ok bytes)) s = .next (((s.setCtx c.ctxNo { x with busy := true }).hostAsk ld r (some i.toNat) c.addrB c.len (.ok bytes)).importData c (.ok bytes))) ∧
    (∀ ok resp, (c.opcode = 9 ∨ c.opcode = 10) → s.infB ACCESS.STREAM_OK ld = false →
      (c.opcode = 9 → c.ctxOp = 0 → exec (.exportStream ld r i ok) s = .next (s.fail c 0xE)) ∧
      (c.opcode = 10 → c.ctxOp = 0 → exec (.importStream ld r i resp) s = .next (s.fail c 0xE)) ∧
      (c.ctxOp = 1 → exec (.save ld r i ok) s = .next (s.fail c 0xE)) ∧ (c.ctxOp = 2 → exec (.restore ld r i resp) s = .next (s.fail c 0xE))) ∧
    ((c.opcode = 9 ∨ c.opcode = 10) → c.ctxOp = 1 → s.infB ACCESS.STREAM_OK ld = true → c.imageOk = true → ∀ x, x = s.ctx c.ctxNo →
      (x.st = 1 ∨ x.st = 2) → x.busy = false → x.holder = c.ld → s.canPost ld = true →
      exec (.save ld r i true) s = .next (((s.hostPost c.ld c.addrB (s.ctxImage x c.ld)).setCtx c.ctxNo Ctx.init).finishCmd c.ld c.ring c.idx 0 33024)) ∧
    ((c.opcode = 9 ∨ c.opcode = 10) → c.ctxOp = 2 → s.infB ACCESS.STREAM_OK ld = true → c.imageOk = true → s.mayLoadCtx c = true → s.canAsk ld = true →
      c.ld = ld.val → c.ring = r.val → c.idx = i.toNat → ∀ bytes a, a = s.hostAsk ld r (some i.toNat) c.addrB 33024 (.ok bytes) →
      (∀ x, a.mayLoadCtx c = true → a.imageCtx bytes ld = some x →
        exec (.restore ld r i (.ok bytes)) s = .next (((a.took).setCtx c.ctxNo x).finishCmd ld r i.toNat 0 a.fresh)) ∧
      (a.imageCtx bytes ld = none → exec (.restore ld r i (.ok bytes)) s = .next (a.fail c 0xA))) ∧
    (∀ (w : WfNo) (t : ThrNo) (d : Reg) (n : BitVec 12), Issues s w t → Submits (.contextRelease w t d n) s w t d (fun j =>
      if (j.ctx n.toNat).busy then (6, j) else (0, j.setCtx n.toNat Ctx.init)))

/-- RUN waits for its thread and is dispatched, SNAP takes its snapshot and writes its image, and host completions are
matched by tag (R110, R158, R159, R193, R194, R475, R477). -/
def Obligations.RunAndSnapCommands : Prop :=
  ∀ (s : State) (ld : LdNo) (r : RingNo) (i : BitVec 16) (c : RingCmd), s.live = true → s.cmdAt ld r i.toNat = some c →
    (c.st = .started → c.opcode = 11 → s.infB ACCESS.RUN_OK ld = true → (s.phase = 1 ∨ s.phase = 2) → c.addrB % 64 = 0 → c.len ≤ 4096 → 0 < c.len →
      ∀ p, s.runProgram c = some p → c.len ≤ p.scratch → s.holders p ≠ [] → s.canAsk ld = true → c.ld = ld.val → c.ring = r.val → c.idx = i.toNat →
      ∀ bytes a d, a = s.hostAsk ld r (some i.toNat) c.addrB c.len (.ok bytes) → d = { c with st := CmdSt.working, data := bytes.take c.len } →
      exec (.run ld r i (.ok bytes)) s =
        .next ({ a.setCmd d with soft := { (a.setCmd d).soft with runQ := a.soft.runQ ++ [d] } }).abortUnservable.dispatchRun) ∧
    (c.st = .started → c.opcode = 11 → ∀ resp, (s.infB ACCESS.RUN_OK ld = false → exec (.run ld r i resp) s = .next (s.fail c 0xE)) ∧
      (s.infB ACCESS.RUN_OK ld = true → (s.phase = 0 ∨ s.phase = 3) → exec (.run ld r i resp) s = .next (s.fail c 7)) ∧
      (s.infB ACCESS.RUN_OK ld = true → (s.phase = 1 ∨ s.phase = 2) → s.runProgram c = none → exec (.run ld r i resp) s = .next (s.fail c 2))) ∧
    (exec .runDispatch s = .next (match s.nextRun with
      | some (d, p, w, t) => s.runStart d p w t
      | none => s)) ∧
    (c.st = .started → c.opcode = 12 → s.infB ACCESS.SNAP_OK ld = true → s.infB ACCESS.MILEPOST_WINDOW ld = true → c.arg0 ≤ 16 → 328 ≤ c.len → c.len ≤ 2 ^ 30 →
      c.addrB % 64 = 0 → s.groupSeen ld c.arg0 = true → ∀ ok, ∀ q, q = s.snapAsk c.arg0 →
      exec (.snap ld r i ok) s = .next (q.1.setCmd { c with st := .working, data := leBytes 4 q.2.toNat })) ∧
    (c.st = .working → c.opcode = 12 → c.ld = ld.val → s.snapOut c.arg0 (BitVec.ofNat 32 (leAt c.data 0 4)) = false → s.canPost ld = true →
      exec (.snap ld r i true) s = .next ((s.hostPost ld c.addrB (s.snapImage c.arg0 (some ld.val))).finishCmd ld c.ring c.idx 0 ((s.bank c.arg0).gen.zeroExtend 64))) ∧
    (∀ (h : HeadNo) tag resp, (s.link h).up = true → resp ≠ .outstanding → (∀ q ∈ s.soft.ioReads, ¬ (q.head = h ∧ q.tag = tag)) →
      exec (.cxlIoCompletion h tag resp) s =
        .next ((s.violate h 0xFF 0x10 1 0 (cplType resp + tag.toNat * 2 ^ 8)).send (.errCor (16 * h)))) ∧
    (∀ (h : HeadNo) tag resp q j d, (s.link h).up = true → resp ≠ .outstanding → s.soft.ioReads.find? (fun q => q.head == h.val && q.tag == tag) = some q →
      q.idx = some j → s.cmdAt q.ld q.ring j = some d → d.st = .reading →
      exec (.cxlIoCompletion h tag resp) s = .next (State.hostData { s with soft := { s.soft with ioReads := s.soft.ioReads.filter (fun x => ¬ (x.head = h ∧ x.tag = tag)) } } d resp)) ∧
    (∀ (h : HeadNo) tag bytes q, (s.link h).up = true → s.soft.ioReads.find? (fun q => q.head == h.val && q.tag == tag) = some q → q.idx = none →
      q.ring < 128 → (s.ring q.ld q.ring).fetching = true →
      exec (.cxlIoCompletion h tag (.ok bytes)) s = .next (({ s with soft := { s.soft with ioReads := s.soft.ioReads.filter (fun x => ¬ (x.head = h ∧ x.tag = tag)) } }).fetched q.ld q.ring bytes))

/-- MAILBOX_SEND, MAILBOX_ACK, DB_SET, DB_STATUS_CLEAR and DB_MASK_WRITE (R97, R98, R100, R101). -/
def Obligations.MailboxesAndDoorbellsOfTheHost : Prop :=
  ∀ (s : State) (f : Func), s.funcUp f = true →
    (∀ (m : BitVec 4) (v : BitVec 64) (p : Tlp), m.toNat < mailboxes f → (s.mailbox f true m.toNat).full = false →
      exec (.mailboxSend f m ⟨v, p⟩) s = .next ((s.setMailbox f true m.toNat { s.mailbox f true m.toNat with payload := v.truncate 63, full := true, posted := (s.mailbox f true m.toNat).posted + 1 }).raiseHandler f 0)) ∧
    (∀ (m : BitVec 4) (v : BitVec 64) (p : Tlp), m.toNat < mailboxes f → (s.mailbox f true m.toNat).full = true → ∀ b, b = s.mailbox f true m.toNat →
      ∃ u, exec (.mailboxSend f m ⟨v, p⟩) s = .next u ∧ u.mailbox f true m.toNat = { b with rejects := if b.rejects = 0xFFFF then 0xFFFF else b.rejects + 1 } ∧
        .completerAbort f ∈ u.out ∧ .errCor f ∈ u.out ∧ u.soft.threads = s.soft.threads ∧ u.soft.rings = s.soft.rings ∧
        (∀ g d n, mailKey g d n ≠ mailKey f true m.toNat → u.mailbox g d n = s.mailbox g d n)) ∧
    (∀ m : BitVec 4, m.toNat < mailboxes f → (s.mailbox f false m.toNat).full = true →
      exec (.mailboxAck f m) s = .next (s.setMailbox f false m.toNat { s.mailbox f false m.toNat with full := false, acked := (s.mailbox f false m.toNat).acked + 1 })) ∧
    (∀ m : BitVec 4, m.toNat < mailboxes f → (s.mailbox f false m.toNat).full = false → exec (.mailboxAck f m) s = .next s) ∧
    (∀ v : BitVec 32, ∃ u, exec (.dbSet f v) s = .next u ∧ u.bell f = { s.bell f with toDev := (s.bell f).toDev ||| v.truncate 16 } ∧
      (∀ g, g ≠ f.val → u.bell g = s.bell g) ∧ u.soft.mail = s.soft.mail ∧
      (v.truncate 16 &&& ~~~ (s.bell f).toDev &&& ~~~ s.devMask f = (0 : BitVec 16) → u.soft.threads = s.soft.threads ∧ SameTables s u ∧ u.out = s.out) ∧
      (v.truncate 16 &&& ~~~ (s.bell f).toDev &&& ~~~ s.devMask f ≠ (0 : BitVec 16) →
        u = ((s.setBell f { s.bell f with toDev := (s.bell f).toDev ||| v.truncate 16 }).stamp (bellTbl true) f 0 ((v.truncate 16).zeroExtend 64)).raiseHandler f 1)) ∧
    (∀ v : BitVec 32, exec (.dbStatusClear f v) s = .next (s.bellClear f ((v >>> 16).truncate 16)) ∧
      ((s.setNow (bellTbl false) f 0).truncate 16 &&& ((v >>> 16).truncate 16 : BitVec 16) = 0 →
        s.bellClear f ((v >>> 16).truncate 16) = s.setBell f { s.bell f with toHost := (s.bell f).toHost &&& ~~~ (v >>> 16).truncate 16 })) ∧
    (∀ v : BitVec 32, ∀ m : BitVec 16, m = (v >>> 16).truncate 16 → ∀ a, a = s.setBell f { s.bell f with hostMask := m } →
      exec (.dbMaskWrite f v) s = .next (if (s.bell f).toHost &&& (s.bell f).hostMask &&& ~~~ m = 0 then a else a.send (.msix f 0)))

/-- Field service access: challenge, response, lock, and the third failure (R104, R105, R106, R107). -/
def Obligations.ServiceAccessOpensAndCloses : Prop :=
  ∀ (s : State) (c : Cand), s.mayService c = true → ∀ a, a = s.from_ c →
    exec (.saNew c) s = .next { a.took with svc := { a.svc with challenge := Config.deviceIdentity ++ a.fresh, hasChallenge := true } } ∧
    (a.svc.st ≠ 2 → a.svc.hasChallenge = false → exec (.saSubmit c 0) s = .next { a with svc := { a.svc with method := 0, last := 3 } }) ∧
    (a.svc.st ≠ 2 → a.svc.hasChallenge = true → a.saRight 0 = true →
      exec (.saSubmit c 0) s = .next { a with svc := { a.svc with method := 0, hasChallenge := false, st := 1, last := 1 } }) ∧
    (a.svc.st ≠ 2 → a.svc.hasChallenge = true → a.infB OWNER.SA_KEY_SET 0 = true → a.infB OWNER.SA_HMAC_OK 0 = true → a.saRight 1 = true →
      exec (.saSubmit c 1) s = .next { a with svc := { a.svc with method := 1, hasChallenge := false, st := 1, last := 1 } }) ∧
    (a.svc.st ≠ 2 → a.svc.hasChallenge = true → a.infB OWNER.SA_KEY_SET 0 = false →
      exec (.saSubmit c 1) s = .next { a with svc := { a.svc with method := 1, hasChallenge := false, last := 4 } }) ∧
    (a.svc.st ≠ 2 → a.svc.hasChallenge = true → a.saRight 0 = false → a.svc.fails ≠ 2 →
      exec (.saSubmit c 0) s = .next { a with svc := { a.svc with method := 0, hasChallenge := false, fails := a.svc.fails + 1, last := 2 } }) ∧
    (a.svc.st ≠ 2 → a.svc.hasChallenge = true → a.saRight 0 = false → a.svc.fails = 2 → ∃ u, exec (.saSubmit c 0) s = .next u ∧
      u.svc.st = 2 ∧ u.svc.fails = 3 ∧ u.svc.last = 2 ∧ ∀ w t : Nat, (u.thread w t).dbg = false) ∧
    (a.svc.st = 2 → exec (.saSubmit c 0) s = .next a ∧ exec (.saLock c) s = .next a) ∧
    (a.svc.st ≠ 2 → ∃ u, exec (.saLock c) s = .next u ∧ u.svc = { a.svc with st := 0 } ∧ u.regs = a.regs ∧ ∀ w t : Nat, (u.thread w t).dbg = false) ∧
    (a.svc.dbgBusy = false → (a.svc.st ≠ 1 → exec (.saDbgGo c) s = .next (a.dbgDone 5)) ∧ (a.svc.st = 1 → a.board.halted = true → exec (.saDbgGo c) s = .next (a.dbgDone 7)) ∧
      (a.svc.st = 1 → a.board.halted = false → a.svc.dbgAddr.toNat % 64 ≠ 0 → exec (.saDbgGo c) s = .next (a.dbgDone 6)) ∧
      (a.svc.st = 1 → a.board.halted = false → a.svc.dbgAddr.toNat % 64 = 0 → ∃ u r, exec (.saDbgGo c) s = .next u ∧ u.svc.dbgBusy = true ∧
        u.toll 32 = { a.toll 32 with queue := (a.toll 32).queue ++ [r] } ∧ r.src = .debug ∧ r.kind = .read ∧ r.cls = 6 ∧ r.line = a.svc.dbgAddr.toNat / 64))

/-- A debug read ends with its page's result, and debug halt, resume and single step (R107, R157, R344). -/
def Obligations.DebugReadsAndThreadDebug : Prop :=
  ∀ s : State, s.live = true →
    (s.svc.dbgBusy = true → s.svc.dbgReady = true → ∀ dec, ∀ x, x = s.page (s.svc.dbgLine.toNat / 64) →
      (x.st = .blank → exec (.debugReadComplete dec) s = .next (s.dbgEnds 4 { x with key := 0 } 0)) ∧
      (x.st = .lost → exec (.debugReadComplete dec) s = .next (s.dbgEnds 3 x 0)) ∧
      (x.st ≠ .blank → x.st ≠ .lost → s.mode x.key ≠ 0 → s.rdB KEYSLOT.ACTIVE_DEBUGGABLE x.key = false →
        exec (.debugReadComplete dec) s = .next (s.dbgEnds 2 x 0)) ∧
      ((x.st = .near ∨ x.st = .far) → (s.mode x.key = 0 ∨ s.rdB KEYSLOT.ACTIVE_DEBUGGABLE x.key = true) → s.pageBusy (s.svc.dbgLine.toNat / 64) = false →
        exec (.debugReadComplete dec) s = .next (s.dbgFrame s.svc.dbgLine.toNat x dec)) ∧
      (x.st = .stowed → (s.mode x.key = 0 ∨ s.rdB KEYSLOT.ACTIVE_DEBUGGABLE x.key = true) → s.pageBusy (s.svc.dbgLine.toNat / 64) = false →
        exec (.debugReadComplete dec) s = .next (match (s.readStowed (s.svc.dbgLine.toNat / 64)).2 with
          | some bs => (s.readStowed (s.svc.dbgLine.toNat / 64)).1.dbgEnds 1 x (bytesLine (bs.drop (s.svc.dbgLine.toNat % 64 * 64)))
          | none => (s.readStowed (s.svc.dbgLine.toNat / 64)).1.dbgEnds 3 x 0))) ∧
    (∀ (w : WfNo) (t : ThrNo), s.mayDebug w t = true → (s.thread w t).dbg = false →
      ∃ u, exec (.debugHalt w t) s = .next u ∧ (u.thread w t).dbg = true ∧ (u.thread w t).pc = (s.thread w t).pc ∧ u.regs = s.regs ∧ u.dram = s.dram) ∧
    (∀ (w : WfNo) (t : ThrNo), s.mayDebug w t = true → (s.thread w t).dbg = true →
      ∃ u, exec (.debugResume w t) s = .next u ∧ (u.thread w t).dbg = false ∧ (u.thread w t).st = (s.thread w t).st ∧ (u.thread w t).pc = (s.thread w t).pc ∧ u.regs = s.regs) ∧
    (∀ (w : WfNo) (t : ThrNo), s.mayDebug w t = true → (s.thread w t).dbg = true → (s.thread w t).st = .running →
      ∃ u, exec (.debugSingleStep w t) s = .next u ∧ (u.thread w t).single = true ∧ (u.thread w t).dbg = true ∧ u.regs = s.regs) ∧
    (∀ (w : WfNo) (t : ThrNo), s.mayDebug w t = true → (s.thread w t).dbg = true → (s.thread w t).st = .suspended →
      exec (.debugSingleStep w t) s = .next ((s.setThread w t ((s.thread w t).singleStep s.time.fclk)).wakeUnit (uid 8 w)))

/-- LOAD, UNLOAD, START, STOP, QUERY and RESTART as messages, with their statuses (R150, R151, R152, R153, R154, R155,
R158, R164). -/
def Obligations.LoaderRequests : Prop :=
  ∀ (s : State) (snd : Sender), s.loaderUp snd = true → snd ≠ .window → ∀ a, a = (match snd with | .bmc => s.from_ 1 | _ => s) →
    (∀ m img, a.loadStatus snd m img = 0 → exec (.load snd m img) s = .next ((a.place m img).send (.loader 0 (BitVec.ofNat 8 a.freeProgram) []))) ∧
    (∀ m img n, n = a.loadStatus snd m img → n ≠ 0 → exec (.load snd m img) s = .next (a.took.send (.loader (BitVec.ofNat 8 n) (BitVec.ofNat 8 (a.fresh.toNat % 256)) []))) ∧
    (∀ p, a.unloadStatus snd p.toNat = 0 → exec (.unload snd p) s = .next ((a.removeProgram p.toNat).send (.loader 0 p []))) ∧
    (∀ p n, n = a.unloadStatus snd p.toNat → n ≠ 0 → exec (.unload snd p) s = .next (a.send (.loader (BitVec.ofNat 8 n) p []))) ∧
    (∀ (w : WfNo) m thr p args, oneWf m = some w.val → a.startStatus snd m thr.toNat p.toNat args = 0 →
      exec (.start snd m thr p args) s = .next ((a.startOwner w thr.toNat p.toNat args).send (.loader 0 p []))) ∧
    (∀ (w : WfNo) m thr, oneWf m = some w.val → a.stopStatus snd m thr.toNat = 0 →
      exec (.stop snd m thr) s = .next ((a.stopThread w thr.toNat).replyNone snd 0)) ∧
    (∀ (w : WfNo) m, oneWf m = some w.val → exec (.query snd m 0) s = .next (a.send (.loader 0 0 (a.queryBytes w)))) ∧
    (∀ (w : WfNo) m, oneWf m = some w.val → a.isOwner snd = true → a.wfAvail w = true → exec (.restart snd m) s = .next ((a.restartWf w).replyNone snd 0)) ∧
    (a.isOwner snd = false → ∀ m thr p args, exec (.start snd m thr p args) s = .next (a.send (.loader 1 p [])) ∧
      exec (.stop snd m thr) s = .next (a.replyNone snd 1) ∧ exec (.restart snd m) s = .next (a.replyNone snd 1)) ∧
    (s.funcUp 256 = true → s.soft.win.busy = false →
      exec .winClear s = .next { s with soft := { s.soft with win := { s.soft.win with buf := [] } } }) ∧
    (∀ w : WfNo, s.live = true → (s.wf w).restarting = true → s.board.hold = .none →
      exec (.wayfinderRestartComplete w) s = .next (((s.setWf w { s.wf w with restarting := false }).startBase w).endHandling (uid 8 w) [0x1E, 0x1F]))

/-- A link trains to what was negotiated, goes down, its decoders commit, and its functions answer configuration requests (R57,
R58, R75, R83, R172, R176, R178, R191, R197, R198, R200, R202). -/
def Obligations.LinksTrainAndGoDown : Prop :=
  ∀ s : State,
    (∀ (l : LinkNo) (rate : BitVec 4) (width : BitVec 5) f cxl, l.val < 32 → s.mayTrain l = true → 1 ≤ rate.toNat → rate.toNat ≤ (s.commitL l).maxRate l → Machine.widthOk width.toNat = true →
      width.toNat ≤ s.fullWidth l → cxlOffered rate.toNat f cxl = true → s.coh.snoops = [] → ∃ u, exec (.linkTrainingComplete l rate width f cxl) s = .next u ∧ (u.link l).up = true ∧
      (u.link l).rate = rate.toNat ∧ (u.link l).width = width.toNat ∧ (u.link l).trained = width.toNat ∧ (u.link l).flit256 = f ∧ (u.link l).cxl = cxl ∧
      u.rd PORT.LINK_RATE l = rate.toNat ∧ u.rd PORT.LINK_WIDTH l = width.toNat ∧ (∀ h, h ≠ l.val → u.link h = s.link h)) ∧
    (∀ (rate : BitVec 4) (width : BitVec 5) f cxl, s.mayTrain 32 = true → 1 ≤ rate.toNat → rate.toNat ≤ 4 → Machine.widthOk width.toNat = true → width.toNat ≤ 4 → cxlOffered rate.toNat f cxl = true → s.coh.snoops = [] →
      ∃ u, exec (.linkTrainingComplete 32 rate width f cxl) s = .next u ∧ (u.link 32).up = true ∧ (u.link 32).rate = rate.toNat ∧ (u.link 32).width = width.toNat ∧ u.tab = s.tab) ∧
    (∀ l : LinkNo, l.val < 32 → (s.link l).up = true → ∃ u, exec (.linkDown l) s = .next u ∧ (u.link l).up = false ∧ u.rd PORT.LINK_RATE l = 0 ∧ u.rd PORT.LINK_WIDTH l = 0 ∧
      u.rd PORT.ISOLATED l = 0 ∧ (u.toll l).queue = [] ∧ (∀ i < 16, ∀ n < 4, (u.decoder (16 * l + i) n).committed = false) ∧
      (s.own.owner = some (l.val + 2) → (s.own.st = .owned ∨ s.own.st = .handover) → u.own.st = .lapsing) ∧ (∀ h, h ≠ l.val → u.link h = s.link h)) ∧
    ((s.link 32).up = true → ∃ u, exec (.linkDown 32) s = .next u ∧ (u.link 32).up = false ∧ u.tab = s.tab ∧
      (s.own.owner = some 0 → (s.own.st = .owned ∨ s.own.st = .handover) → u.own.st = .lapsing)) ∧
    (∀ l : LinkNo, (s.link l).up = false → exec (.linkDown l) s = .next s) ∧
    (∀ (ld : LdNo) (n : Fin 4) (d : DecoderSet), s.funcUp ld = true → (s.link (ld / 16)).up = true → s.inf TAG.LD_SIZE_LOG2 ld = 0 →
      exec (.hdmDecoderCommit ld n d) s = .next (s.setDecoder ld n { s.decoder ld n with err := true })) ∧
    (∀ (ld : LdNo) (n : Fin 4) (d : DecoderSet), s.funcUp ld = true → (s.link (ld / 16)).up = true → s.inf TAG.LD_SIZE_LOG2 ld ≠ 0 → Machine.widthOk d.ways = true →
      [256, 512, 1024, 2048, 4096, 8192, 16384].contains d.gran = true → 0 < d.size.toNat → (∀ m, m ≠ n.val → m < 4 → (s.decoder ld m).committed = false) →
      d.skip.toNat + d.size.toNat / d.ways ≤ 2 ^ (s.inf TAG.LD_SIZE_LOG2 ld + s.inf TAG.KEYID_WIDTH ld + s.inf TAG.CLASS_WIDTH ld) →
      exec (.hdmDecoderCommit ld n d) s = .next ((s.setDecoder ld n { committed := true, base := d.base.toNat, size := d.size.toNat, ways := d.ways, gran := d.gran, ldBase := d.skip.toNat, bi := d.bi, way := none, err := false }).wr
        TAG.DECODERS ld ((BitVec.ofNat 4 (s.rd TAG.DECODERS ld)) ||| BitVec.ofNat 4 (2 ^ n.val)).toNat)) ∧
    (∀ f : Func, s.funcUp f = true → f.val ≠ 256 →
      (∀ c, exec (.configurationRequest ⟨f, .read (.cap c)⟩) s = .next (s.send (.config f (s.capability f c)))) ∧
      exec (.configurationRequest ⟨f, .read .memoryActive⟩) s = .next (s.send (.config f (some [if s.board.active then 1 else 0]))) ∧
      (∀ n, exec (.configurationRequest ⟨f, .read (.errorNotCommitted n)⟩) s = .next (s.send (.config f (some [if (s.decoder f n).err then 1 else 0])))) ∧
      exec (.configurationRequest ⟨f, .read .cdat⟩) s = .next (s.send (.cdat f (s.cdat f))) ∧
      (∀ v, exec (.configurationRequest ⟨f, .setBiId v⟩) s = .next ((s.setLink (f / 16) { s.link (f / 16) with biId := v }).send (.configDone f)))) ∧
    (∀ f : Func, s.funcUp f = true →
      exec (.configurationRequest ⟨f, .read .mailboxReady⟩) s = .next (s.send (.config f (some [if s.board.mbReady then 1 else 0]))) ∧
      exec (.configurationRequest ⟨f, .read .spdmPhase⟩) s = .next (s.send (.config f (some [s.phase])))) ∧
    (∀ f, s.capability f .memoryActiveTimeout = some [3] ∧ s.capability f .multiHead = some [32] ∧ s.capability f .hdmDecoders = some [4] ∧
      s.capability f .cxlCache = none ∧ s.capability f .persistent = none ∧ s.capability f .cxlIde = none) ∧
    (∀ (h : HeadNo) n, s.live = true → (s.link h).up = true →
      exec (.flowControlCreditReturn h .posted n) s = .next (s.setLink h { s.link h with crPosted := (s.link h).crPosted + n.toNat }) ∧
      exec (.flowControlCreditReturn h .nonPosted n) s = .next (s.setLink h { s.link h with crNonPosted := (s.link h).crNonPosted + n.toNat }) ∧
      (s.coh.snoops = [] → exec (.flowControlCreditReturn h .bisnp n) s = .next (s.setLink h { s.link h with crBisnp := (s.link h).crBisnp + n.toNat })))

/-- A BAR2 access acts on the register at its offset, or is turned away (R3, R84, R86, R87, R97, R100, R103, R106, R107, R193,
R194). -/
def Obligations.RegisterWritesActOrAreTurnedAway : Prop :=
  ∀ (s : State) (f : Func) (p : Tlp) (off : BitVec 24) (v : BitVec 64), s.funcUp f = true →
    (∀ size : BitVec 8, ∀ op ∈ [RegOp.write v, .read], outsideBar f off.toNat = false → off.toNat % 4096 + size.toNat ≤ 4096 → (size ∉ [(1 : BitVec 8), 2, 4, 8] ∨ off.toNat % size.toNat ≠ 0) →
      exec (.registerWrite (.bar f p) off size op) s = .next ((s.ioViolate f 0x0D 3 p).send (.unsupported f))) ∧
    (∀ size : BitVec 8, ∀ op ∈ [RegOp.write v, .read], (outsideBar f off.toNat = true ∨ 4096 < off.toNat % 4096 + size.toNat) →
      exec (.registerWrite (.bar f p) off size op) s = .next ((s.ioViolate f 0x0C 3 p).send (.unsupported f))) ∧
    (f.val < 256 → 0x90000 ≤ off.toNat → off.toNat < 0xA0000 → off.toNat % 8 = 0 → s.infB ACCESS.MILEPOST_WINDOW f = false →
      ∀ op ∈ [RegOp.write v, .read], exec (.registerWrite (.bar f p) off 8 op) s = .next ((s.ioViolate f 0x0C 3 p).send (.unsupported f))) ∧
    (∀ m : Fin 4, f.val < 256 → off.toNat = 0x80000 + 64 * m → exec (.registerWrite (.bar f p) off 8 (.write v)) s = .next (s.hostPosts f m v p)) ∧
    (∀ m : Fin 4, f.val < 256 → off.toNat = 0x80110 + 64 * m → exec (.registerWrite (.bar f p) off 8 (.write v)) s = .next (s.hostAcks f m)) ∧
    (f.val < 256 → off.toNat = 0x81000 → exec (.registerWrite (.bar f p) off 8 (.write v)) s =
      .next ((s.bellClear f (BitVec.ofNat 16 (bitsAt v 16 16))).setToDev f (BitVec.ofNat 16 (bitsAt v 32 16)))) ∧
    (∀ r : RingNo, f.val < 256 → off.toNat = 0x1000 * r → (s.ring f r).enable = false →
      exec (.registerWrite (.bar f p) off 8 (.write v)) s = .next (s.setRing f r { s.ring f r with cmdBase := v })) ∧
    (∀ r : RingNo, f.val < 256 → off.toNat = 0x1000 * r + 0x20 → exec (.registerWrite (.bar f p) off 2 (.write v)) s = .next (s.tailWrite f r (v.truncate 16))) ∧
    (f = 256 → off = 0 → s.board.halted = false → exec (.registerWrite (.bar f p) off 4 (.write v)) s = .next (s.claimBy 0 (v.truncate 32))) ∧
    (f = 256 → off = 0x18 → s.board.halted = false → v.getLsbD 0 = true → exec (.registerWrite (.bar f p) off 8 (.write v)) s = .next (s.releaseBy 0)) ∧
    (∀ size : BitVec 8, s.badAccess f off.toNat size.toNat = none → ∀ x, s.barRead f (off.toNat - off.toNat % 8) = some x →
      exec (.registerWrite (.bar f p) off size .read) s = .next (s.send (.regData f (laneBytes x off.toNat size.toNat)))) ∧
    (∀ size : BitVec 8, exec (.registerWrite (.bar f p) off size .malformed) s =
      .next ((if f.val < 256 then s.violate (f / 16) 0xFF 0x0F 1 p.addr (tlpDetail p) else s).send (.aer f))) ∧
    (s.mayService 1 = true → off.toNat = 0x200 → exec (.registerWrite .bmc off 8 (.write v)) s =
        .next { s.from_ 1 with svc := { (s.from_ 1).svc with dbgAddr := v.truncate 46 } } ∧
      exec (.registerWrite .bmc off 8 .read) s = .next ((s.from_ 1).send (.answer (leBytes 8 (s.from_ 1).svc.dbgAddr.toNat))))

/-- Each CXL.mem request passes its head's checks to the tollgate, or is refused with the violation R184 names (R176,
R184, R185, R186, R193, R196). -/
def Obligations.HostRequestsMeetTheHeadChecks : Prop :=
  ∀ (s : State) (ld : LdNo) (mv : MetaVal) (hpa : BitVec 64) (tag : BitVec 16) (data : BitVec 512) (mask : BitVec 64) (poison : Bool) (dec : Decode),
    s.live = true → (s.link (ld / 16)).up = true → (s.link (ld / 16)).cxl = true → s.ldExists ld = true →
    ∀ q ∈ [(Instr.memRd ld mv hpa tag, Req.read, 0, 0, false, Decode.clean), (Instr.memRdData ld mv hpa tag, Req.readData, 0, 0, false, .clean), (Instr.memRdFwd ld mv hpa tag, Req.readFwd, 0, 0, false, .clean), (Instr.memSpecRd ld mv hpa tag, Req.specRd, 0, 0, false, .clean), (Instr.memInv ld mv hpa tag, Req.inv, 0, 0, false, .clean), (Instr.memInvNt ld mv hpa tag, Req.invNt, 0, 0, false, .clean),
      (.memWr ld mv hpa tag data poison, Req.write, data, BitVec.allOnes 64, poison, .clean), (.memWrPtl ld mv hpa tag data mask ⟨poison, dec⟩, Req.writePtl, data, mask, poison, dec)],
    ∀ r : MemReq, r =
      { src := .host (ld / 16) ld tag hpa, kind := q.2.1, mv := mv, line := 0, key := 0, cls := 0, data := q.2.2.1,
        mask := q.2.2.2.1, poison := q.2.2.2.2.1, throttled := false, at_ := s.time.fclk, dec := q.2.2.2.2.2 } →
    (s.board.active = false → exec q.1 s = .next (s.headRefuse r 1)) ∧
    (s.board.active = true → s.rdB PORT.ISOLATED (ld / 16) = false → mv = .reserved → exec q.1 s = .next (s.headRefuse r 8)) ∧
    (s.board.active = true → s.rdB PORT.ISOLATED (ld / 16) = true → mv = .reserved → exec q.1 s = .next (s.headRefuse r 0x0A)) ∧
    (s.board.active = true → s.rdB PORT.ISOLATED (ld / 16) = false → mv ≠ .reserved → ∀ code cls k, s.mapReq ld hpa.toNat = .bad code cls k false →
      exec q.1 s = .next (s.headRefuse { r with cls := cls, keyId := k } code)) ∧
    (s.board.active = true → s.rdB PORT.ISOLATED (ld / 16) = false → mv ≠ .reserved → ∀ n w line cls k, s.mapReq ld hpa.toNat = .ok n w line cls k false →
      (s.infB WINDOW.TYPE w = true → (s.link (ld / 16)).flit256 = true ∧ (s.decoder ld n).bi = true ∧ s.lineClosed line = false) →
      (s.decoder ld n).way.isSome = true → (q.2.2.2.2.1 && q.2.1.isWrite) = false →
      exec q.1 s = .next ((s.expressArrives (ld / 16) cls).tollArrive (ld / 16) (s.infB WINDOW.TYPE w) { r with cls := cls, keyId := k, line := line, key := (s.keySlot ld k).getD 0 })) ∧
    (s.board.active = true → s.rdB PORT.ISOLATED (ld / 16) = false → mv ≠ .reserved → ∀ n w line cls k, s.mapReq ld hpa.toNat = .ok n w line cls k false →
      s.infB WINDOW.TYPE w = true → ((s.link (ld / 16)).flit256 = false ∨ (s.decoder ld n).bi = false) → (s.decoder ld n).way.isSome = true →
      exec q.1 s = .next (s.headRefuse { r with cls := cls, keyId := k, line := line, key := (s.keySlot ld k).getD 0 } 7)) ∧
    (s.decoderAt ld hpa.toNat = none → s.mapReq ld hpa.toNat = .bad 2 0 0 false)

/-- BIRspI and BIRspS release their snoop and update the entry, BIConflict is acknowledged, and stray ones are
violations (R193, R194, R210, R212, R221, R223, R225, R228). -/
def Obligations.SnoopResponsesAreApplied : Prop :=
  ∀ (s : State) (h : HeadNo) (dpa : BitVec 46) (tag : BitVec 16) (hpa : BitVec 64), s.live = true → (s.link h).up = true →
    let l := dpa.toNat / 64
    let a := s.wakeUnit (sliceUid l)
    let late := ∃ g, a.lineGroup l = some g ∧ (a.fenced g h = true ∨ a.timedOut h l = true)
    (∀ n, a.bisnp h l = some n → (∀ g, a.lineGroup l = some g → a.fenced g h = false) →
      exec (.biRspI h ⟨dpa, tag, false⟩) s = .next ((a.respondSnoop h l false).pump).settle ∧
      (n.inv = false → exec (.biRspS h ⟨dpa, tag, .s⟩) s = .next ((a.respondSnoop h l true).pump).settle) ∧
      (n.inv = true → exec (.biRspS h ⟨dpa, tag, .s⟩) s = .next (a.violate h 0xFF 0x08 1 0 (biDetail 1 tag)).settle) ∧
      exec (.biRspI h ⟨dpa, tag, true⟩) s = .next (a.violate h 0xFF 0x08 1 0 (biDetail 4 tag)).settle ∧
      (∀ form, form ≠ .s → exec (.biRspS h ⟨dpa, tag, form⟩) s = .next (a.violate h 0xFF 0x08 1 0 (biDetail (rspCode form) tag)).settle)) ∧
    (a.bisnp h l = none → ¬ late →
      (∀ block, exec (.biRspI h ⟨dpa, tag, block⟩) s = .next (a.violate h 0xFF 0x09 1 0 (biDetail (if block then 4 else 0) tag)).settle) ∧
      (∀ form, exec (.biRspS h ⟨dpa, tag, form⟩) s = .next (a.violate h 0xFF 0x09 1 0 (biDetail (rspCode form) tag)).settle) ∧
      exec (.biConflict h ⟨dpa, tag, hpa⟩) s = .next (a.violate h 0xFF 0x09 1 hpa (biDetail 4 tag))) ∧
    (a.bisnp h l = none → late →
      (∀ block, exec (.biRspI h ⟨dpa, tag, block⟩) s = .next a.settle) ∧ (∀ form, exec (.biRspS h ⟨dpa, tag, form⟩) s = .next a.settle) ∧
      exec (.biConflict h ⟨dpa, tag, hpa⟩) s = .next a) ∧
    (∀ n, a.bisnp h l = some n →
      exec (.biConflict h ⟨dpa, tag, hpa⟩) s = .next ({ a with coh := { a.coh with acks := a.coh.acks ++ [(h.val, l, n.due)] } }).pumpAcks) ∧
    (∀ shared n, a.bisnp h l = some n → { n with done := some shared } ∈ (a.respondSnoop h l shared).coh.snoops ∧
      (a.respondSnoop h l shared).bisnp h l = none) ∧
    (∀ (e : SfEntry) (n : Snoop), e.valid = true → e.sharers.getLsbD n.head = true →
      (n.done = some false → e.answered n = { e with sharers := e.sharers &&& ~~~ headBit n.head, excl := false }) ∧
      (n.done = some true → e.answered n = { e with excl := false }))

/-- Violations are logged and merged, count toward isolation, and are read and cleared as R195 states (R193, R194,
R195, R196). -/
def Obligations.ViolationLogAndIsolation : Prop :=
  ∀ (s : State) (h : HeadNo),
    (∀ ld code resp addr detail, code < 256 → ((s.link h).log.getLast?.any (fun v => v.code == BitVec.ofNat 8 code && v.ld == ld)) = false → (s.link h).log.length < 64 →
      ∃ v, ((s.violate h ld code resp addr detail).link h).log = (s.link h).log ++ [v] ∧ v.seq = (s.link h).seq ∧ v.code = BitVec.ofNat 8 code ∧ v.ld = ld ∧ v.count = 1 ∧ v.address = addr ∧ v.detail = BitVec.ofNat 64 detail) ∧
    (∀ ld code resp addr detail, (s.link h).log.length = 64 → ((s.link h).log.getLast?.any (fun v => v.code == BitVec.ofNat 8 code && v.ld == ld)) = false →
      ((s.violate h ld code resp addr detail).link h).log.length = 64 ∧ ((s.violate h ld code resp addr detail).link h).overwrites = min 65535 ((s.link h).overwrites + 1)) ∧
    (∀ ld code resp addr detail v rest, (s.link h).log = rest ++ [v] → v.code = BitVec.ofNat 8 code → v.ld = ld →
      ((s.violate h ld code resp addr detail).link h).log = rest ++ [{ v with count := if v.count = 255 then 255 else v.count + 1 }]) ∧
    (∀ ld code resp addr detail, countsIso code = true → s.inf PORT.ISO_LIMIT h ≠ 0 → s.inf PORT.ISO_LIMIT h ≤ (s.link h).counted + 1 → s.rdB PORT.ISOLATED h = false →
      (s.violate h ld code resp addr detail).rd PORT.ISOLATED h = 1 ∧ ∃ r ∈ (s.violate h ld code resp addr detail).aon.reports, r.unit = uid 0 h ∧ r.code = 0x19) ∧
    (∀ ld code resp addr detail g, g ≠ h.val → (s.violate h ld code resp addr detail).link g = s.link g) ∧
    (s.live = true → exec (.isolationInterval h) s = .next (s.setLink h { s.link h with counted := 0 })) ∧
    (∀ (w : WfNo) (t : ThrNo) (d : Reg), Issues s w t → Submits (.isolatedClear w t d h) s w t d (fun j =>
      if j.headExists h then (0, (j.clearW1c PORT.ISOLATED h 1).endHandling (uid 0 h) [0x19]) else (9, j))) ∧
    (s.live = true → exec (.violationLogRead .ep h) s = .next (s.send (.answer (leBytes 2 (s.link h).overwrites ++ (s.link h).log.flatMap Violation.bytes)))) ∧
    (s.live = true → ∀ n : LdNo, n.val % 16 ≠ 0 → exec (.violationLogRead (.ld n) h) s =
      .next (s.send (.answer (((s.link (n / 16)).log.filter (fun v => v.ld.toNat == n.val % 16)).flatMap Violation.bytes)))) ∧
    (s.live = true → ∀ snd, (s.isOwner snd = true ∨ ∃ n : LdNo, n.val = 16 * h.val ∧ snd = .ld n) →
      exec (.violationLogClear snd h) s = .next ((s.setLink h { s.link h with log := [], overwrites := 0 }).send (.loader 0 0 []))) ∧
    (s.live = true → s.own.owner ≠ some 1 → exec (.violationLogClear .bmc h) s = .next (s.send (.loader 1 0 [])))

/-- L0p samples, host requests and completed width changes, and L1 (R188, R189, R190, R198). -/
def Obligations.LinkWidthAndL1 : Prop :=
  ∀ (s : State) (h : HeadNo), s.live = true → (s.link h).up = true →
    let k := s.link h
    (∀ load : BitVec 7, s.infB PORT.L0P_ENABLE h = false → k.toFull = false → exec (.l0pSample h load) s = .next s) ∧
    (∀ load : BitVec 7, s.infB PORT.L0P_ENABLE h = false → k.toFull = true → k.l0p = .stable → k.holdAt + s.l0pHold h ≤ s.time.fclk → k.width ≠ k.trained →
      exec (.l0pSample h load) s = .next ((s.setLink h { k with toFull := false, l0p := .device k.trained }).send (.l0pRequest h k.trained))) ∧
    (∀ load : BitVec 7, s.infB PORT.L0P_ENABLE h = true → s.inf PORT.L0P_NARROW_PCT h ≤ load.toNat → s.inf PORT.L0P_WIDEN_PCT h < load.toNat → k.byHost = false →
      k.l0p = .stable → k.width ≠ k.trained →
      exec (.l0pSample h load) s = .next ((s.setLink h { k with lowSince := none, load := load.toNat, toFull := false, l0p := .device k.trained }).send (.l0pRequest h k.trained))) ∧
    (∀ load : BitVec 7, s.infB PORT.L0P_ENABLE h = true → load.toNat < s.inf PORT.L0P_NARROW_PCT h → load.toNat ≤ s.inf PORT.L0P_WIDEN_PCT h → ∀ t0, k.lowSince = some t0 →
      k.holdAt + s.l0pHold h ≤ s.time.fclk → t0 + s.l0pHold h ≤ s.time.fclk → 2 ≤ k.width → minLanes (s.inf PORT.L0P_MIN_WIDTH h) ≤ k.width / 2 → k.l0p = .stable →
      exec (.l0pSample h load) s = .next ((s.setLink h { k with load := load.toNat, toFull := false, l0p := .device (k.width / 2) }).send (.l0pRequest h (k.width / 2)))) ∧
    (∀ w : BitVec 5, Machine.widthOk w.toNat = true → w.toNat ≤ k.trained → (∀ x, k.l0p ≠ .host x) →
      exec (.hostL0pRequest h w) s = .next (s.setLink h { k with l0p := .host w.toNat })) ∧
    (∀ w, ∀ a, a = (((s.setLink h { k with width := w, l0p := .stable, byHost := decide (k.l0p = .host w), holdAt := s.time.fclk, lowSince := none }).wr
        PORT.LINK_WIDTH h w).event (uid 0 h) 0x0B).commitL0p h →
      (k.l0p = .device w → exec (.l0pChangeComplete h) s = .next ((a.expressWidth h).reviewWidth h)) ∧
      (k.l0p = .host w → exec (.l0pChangeComplete h) s = .next (a.expressWidth h))) ∧
    (∀ w, (k.l0p = .device w ∧ k.toFull = false ∧ k.load = 0 ∨ k.l0p = .host w) → k.express = false → w < 32 → ∃ u, exec (.l0pChangeComplete h) s = .next u ∧
      u.link h = { k with width := w, l0p := .stable, byHost := decide (k.l0p = .host w), holdAt := s.time.fclk, lowSince := none } ∧ u.rd PORT.LINK_WIDTH h = w) ∧
    (s.infB PORT.L1_ENABLE h = true → exec (.l1Entry h) s = .next (s.setLink h { k with l1 := true })) ∧
    (s.infB PORT.L1_ENABLE h = false → exec (.l1Entry h) s = .next s) ∧
    exec (.l1Exit h) s = .next (s.setLink h { k with l1 := false })

/-- Queue levels, admissions, refills, grants and toll intervals (R373, R390, R392, R394, R403, R404, R405, R408). -/
def Obligations.TollgatesAdmitAndRoundaboutsGrant : Prop :=
  ∀ s : State, s.live = true →
    (∀ (u : UnitNo) (v : BitVec 7), s.rd MEMCH.DELIVERABLE u ≠ 0 →
      exec (.queueLevelReport u v) s = .next (s.wr MEMCH.QLEVEL u (if s.rd MEMCH.STATE u = 4 then 0 else min 100 v.toNat))) ∧
    (∀ (g : TollNo) c i r, (32 ≤ g.val ∨ s.domActive (uid 0 g) = true) → s.aon.shutdown = false → (s.toll g).queue[i]? = some r →
      ([7, 6, 5, 4, 3, 2, 1, 0].filter (fun c => (s.toll g).may c s.time.fclk)).findSome? (fun c => ((s.toll g).front c).map (fun i => (c, i))) = some (c, i) →
      ∃ a : State, exec (.tollgateAdmit g) s = .next (a.toSlice { r with throttled := a.tollRd TOLL.THROTTLED g c == 1 }) ∧ (a.toll g).queue = (s.toll g).queue.eraseIdx i ∧
        (a.toll g).tokens = (if (s.toll g).noLimit.getD c true then (s.toll g).tokens else (s.toll g).tokens.set c ((s.toll g).tokens.getD c 0 - 204800)) ∧
        SameTables s a ∧ (∀ g', g' ≠ g.val → a.toll g' = s.toll g')) ∧
    (∀ g : TollNo, (s.aon.shutdown = true ∨ (s.toll g).queue = []) → exec (.tollgateAdmit g) s = .next s) ∧
    (s.time.locked = true → exec .roundaboutRefill s = .next ((List.range 44).foldl (fun x r => x.refillRb r) (s.commitTbl 0x07 (fun _ => true)))) ∧
    (∀ r q : Nat, r < 44 → q < 36 → s.domActive (rbUid r) = true → q ∈ s.present r → ∀ f, f = s.rbCap r * s.rd RB.WEIGHT (rbIdx r q) / ((s.present r).map (fun p => s.rd RB.WEIGHT (rbIdx r p))).sum →
      ((s.present r).map (fun p => s.rd RB.WEIGHT (rbIdx r p))).sum ≠ 0 →
      (s.refillRb r).rd RB.REFILL (rbIdx r q) = f % 2 ^ RB.REFILL.w ∧
      (s.refillRb r).rd RB.CREDIT (rbIdx r q) = unsint 32 (min (s.credit r q + (f : Int)) ((2 * f : Nat) : Int))) ∧
    (∀ (r : RbNo) i long q req, s.rbTakes r = true → s.rbPick r = some (i, long) → (s.rb r).queue[i]? = some (q, req) →
      ∃ a : State, exec (.roundaboutGrant r) s = .next (a.rbPass r req) ∧ (a.rb r).queue = (s.rb r).queue.eraseIdx i ∧
        (a.rb r).since = (if long then 0 else (s.rb r).since + 1) ∧ a.coh = s.coh ∧ a.dram = s.dram) ∧
    (∀ r : RbNo, (s.rbTakes r = false ∨ s.rbPick r = none) → exec (.roundaboutGrant r) s = .next s) ∧
    (s.time.locked = true → ∃ u, exec .tollInterval s = .next u ∧ u.rd TOLLDEV.BOOKED 0 = (s.commitTbl 0x06 (fun _ => true)).booked % 2 ^ TOLLDEV.BOOKED.w ∧
      (∀ x ∈ u.uncommitted, x.tbl ≠ 6))

/-- Dwell windows, victims, timeouts, reclaim walks, scrub, and the stores of shared windows (R183, R205, R207, R216, R218,
R224, R225, R226, R227, R228, R229). -/
def Obligations.CoherenceEventsAndSharedWindows : Prop :=
  ∀ s : State,
    (∀ dpa : BitVec 46, s.live = true → s.dwelling (dpa.toNat / 64) = true → exec (.dwellWindowEnd dpa) s =
      .next (({ s with coh := { s.coh with dwells := s.coh.dwells.filter (fun d => d.line ≠ dpa.toNat / 64) } }).pump).settle) ∧
    (∀ hs : SliceNo, s.live = true → exec (.victimSnoopIssue hs) s = .next (s.pumpVictims hs).settle) ∧
    (∀ (h : HeadNo) (dpa : BitVec 46), s.live = true → (s.bisnp h (dpa.toNat / 64)).isSome = true →
      exec (.snoopTimeout h dpa) s = .next (s.timeoutRow h (dpa.toNat / 64)) ∧
      ∀ a, a = (s.snoopTimeout h (dpa.toNat / 64)).fixed 521 →
        (∀ g, a.lineGroup (dpa.toNat / 64) = some g → ∀ i ∈ a.group g, a.winState i ≠ 3) → s.timeoutRow h (dpa.toNat / 64) = a.settle) ∧
    (∀ h l g, s.lineGroup l = some g → bitOf ((s.dropSnoop h l).rd SNOOP.TIMED_OUT g) h = false → s.closedRoad g = false → s.infB SNOOP.DEAD_POLICY g = false → h < 32 →
      ∃ a : State, s.snoopTimeout h l = a.pump ∧ (∃ r ∈ a.aon.reports, r.unit = uid 0 h ∧ r.code = 0x17) ∧ (∀ n ∈ a.coh.snoops, ¬ (n.head = h ∧ n.line = l ∧ n.done = none))) ∧
    (∀ (h : HeadNo) (win : BitVec 12), s.live = true → exec (.reclaimWalkEnd h win) s = .next (s.walkEnd h win.toNat).settle) ∧
    (∀ (hs : SliceNo) (set : BitVec 14) (way : BitVec 4), s.live = true → s.domActive (uid 2 hs) = true →
      (∀ ds, exec (.snoopFilterScrub hs set way (.request (.corrected ds))) s = .next ((s.incSat HSET.CORRECTED (4096 + hs) 1).took.report (uid 2 hs) 0x01 0 s.fresh.toNat)) ∧
      exec (.snoopFilterScrub hs set way (.request .uncorrectable)) s = .next (s.took.fatal (uid 2 hs) 0x1A s.fresh.toNat) ∧
      exec (.snoopFilterScrub hs set way (.request .clean)) s = .next s ∧
      (∀ dec, exec (.snoopFilterScrub hs set way (.scrub dec)) s = .next ((s.scrubStep hs).sfRead hs dec)) ∧
      ∃ u, exec (.snoopFilterScrub hs set way .treeParity) s = .next u ∧ u.plru hs set.toNat = 0 ∧ u.coh.sf = s.coh.sf ∧ u.tab = s.tab) ∧
    (∀ (w : WfNo) (t : ThrNo) (d : Reg) (win : BitVec 12), Issues s w t → Submits (.reopen w t d win) s w t d (fun j => (0, j.reopenStore win.toNat))) ∧
    (∀ (w : WfNo) (t : ThrNo) (d : Reg) (win : BitVec 12) m, Issues s w t → Submits (.reclaimedClear w t d win m) s w t d (fun j => (0, j.clearReclaimed win.toNat m))) ∧
    (∀ (w : WfNo) (t : ThrNo) (d : Reg) (win : BitVec 12), Issues s w t → Submits (.windowDisable w t d win) s w t d (fun j =>
      if j.winState win.toNat = 3 then (6, j) else if j.headExists (win.toNat / 256) then (0, j.disableWindow win.toNat) else (9, j))) ∧
    (∀ win : BitVec 12, s.live = true → s.winState win.toNat = 3 → s.invalsOver (.disable win.toNat) = true →
      exec (.windowDisableComplete win) s = .next (s.disableDone win.toNat))

/-- Copy passes, the switch, slot relocation and heat decay (R129, R252, R253, R255, R257, R258, R427). -/
def Obligations.PagesMove : Prop :=
  ∀ s : State, s.live = true →
    (∀ (p : BitVec 34) m, s.moveOf p.toNat = some m → (m.kind = .tier ∨ m.kind = .run ∨ m.kind = .relocate) → m.pass ≠ 4 →
      (m.pass = 1 → redoCount m.redo ≠ 0 → exec (.pageMoveCopyPassEnd p .ended) s = .next ((s.redone m).setMove { m with redo := 0, pass := 2 })) ∧
      (m.pass = 2 → 8 < redoCount m.redo → exec (.pageMoveCopyPassEnd p .ended) s = .next ((s.redone m).setMove { m with redo := 0, pass := 3 })) ∧
      ((m.pass = 1 ∧ redoCount m.redo = 0 ∨ m.pass = 2 ∧ redoCount m.redo ≤ 8 ∨ m.pass = 3) →
        exec (.pageMoveCopyPassEnd p .ended) s = .next (((s.redone m).setMove { m with pass := 4 }).closeFrame (locFrame (s.page m.page).loc))) ∧
      exec (.pageMoveCopyPassEnd p .targetBad) s = .next (s.badTarget m) ∧ exec (.pageMoveCopyPassEnd p .moverFault) s = .next (s.moverStops m.mover)) ∧
    (∀ (p : BitVec 34) m, s.moveOf p.toNat = some m → m.pass = 4 → (m.kind = .tier ∨ m.kind = .run) → s.mergesOf (locFrame (s.page m.page).loc) = [] →
      exec (.pageMoveSwitch p) s = .next ((((((s.switchFrame m.page m).occur ⟨uid 7 m.mover, 1, none, none, some (m.page * 4096, 0)⟩).fixed 525).pageDone m.page 0).accessAll m.held).unpark).settle) ∧
    (∀ (p : BitVec 34) m, s.moveOf p.toNat = some m → m.pass = 4 → m.kind = .relocate → s.mergesOf (locFrame (s.page m.page).loc) = [] →
      exec (.pageMoveSwitch p) s = .next (((((s.switchRelocate m.page m).occur ⟨uid 7 m.mover, 4, none, none, some (m.page * 4096, 0)⟩).pageDone m.page 0).accessAll m.held).unpark).settle) ∧
    (∀ p : BitVec 34, s.moveOf p.toNat = none → exec (.pageMoveSwitch p) s = .next s ∧ ∀ ev, exec (.pageMoveCopyPassEnd p ev) s = .next s) ∧
    (∀ (loc : BitVec 36), s.plc.compact.contains loc.toNat = true → s.moversOk = true → (s.frame (locFrame loc.toNat)).use = .free →
      exec (.slotRelocation loc) s = .next { s with plc := { s.plc with compact := s.plc.compact.filter (· ≠ loc.toNat) } }) ∧
    (∀ (loc : BitVec 36) cls ps, s.plc.compact.contains loc.toNat = true → s.moversOk = true → (s.frame (locFrame loc.toNat)).use = .slots cls ps →
      (s.frame (locFrame loc.toNat)).retiring = false → (ps.getD (slotIdx loc.toNat cls) none) = none →
      ∀ f fr rest qs q i, s.plc.frames.filter (fun f => f.1 / 2 ^ 28 == frUnit (locFrame loc.toNat) && f.1 != locFrame loc.toNat && !f.2.retiring &&
          (match f.2.use with | .slots c qs => c == cls && qs.any Option.isNone && qs.any Option.isSome | _ => false)) = (f, fr) :: rest →
      fr.use = .slots cls qs → ((qs.zipIdx).filter (fun x => x.1.isSome)).getLast? = some (some q, i) →
      (s.page q).st = .stowed → s.opOn q = false → s.stow.decoding.any (fun d => d.q.page == q) = false → locFrame (s.page q).loc = f →
      ∃ a : State, exec (.slotRelocation loc) s = .next a.settle ∧ (∀ x ∈ a.plc.compact, x ∈ (s.setFrame (locFrame loc.toNat) { s.frame (locFrame loc.toNat) with use := .slots cls (setAt ps (slotIdx loc.toNat cls) (some q)) } |>.switchRelocate q { page := q, kind := .relocate, mover := s.countMover, target := loc.toNat, tgtClass := cls, redo := 0, pass := 4, retried := false, held := [], near := false, force := false }).plc.compact ∧ x ≠ loc.toNat)) ∧
    (∀ hot, hot = (s.plc.hot.map (fun h => { h with count := h.count / 2 })).filter (fun h => h.count ≠ 0) →
      exec .heatDecay s = .next (if hot.isEmpty then { s with plc := { s.plc with hot := hot } }
        else ({ s with plc := { s.plc with hot := hot } }).raiseOwners 2))

/-- Coders and decoders take the next page and finish it (R293, R294, R295, R296, R298, R299, R307, R308). -/
def Obligations.StowEnginesTakeAndFinishWork : Prop :=
  ∀ s : State, s.live = true →
    (s.stow.waiting = [] → exec .coderAssign s = .next s) ∧
    (∀ q, s.stow.waiting.find? (fun q => (s.page q.page).st != .moving && !s.pageBusy q.page) = some q →
      (∀ st, s.stowCheck q.page q.force = some st → exec .coderAssign s = .next ((s.dropStow q.page).pageDone q.page st).settle) ∧
      (s.stowCheck q.page q.force = none → s.pageTracked q.page = false → s.invalsOver (.stowForce q.page) = true → s.canSplit (q.page / 512) = true → s.codersOk = true → ∀ c, s.freeCoder = some c →
        ∃ a : State, exec .coderAssign s = .next a ∧ (c, q) ∈ a.stow.coding ∧ (∀ x ∈ a.stow.waiting, x.page ≠ q.page))) ∧
    (∀ (p : BitVec 34) c q, s.stow.coding.find? (fun x => x.2.page == p.toNat) = some (c, q) → s.domActive (uid 6 c) = true →
      ∀ a, a = { s with stow := { s.stow with coding := s.stow.coding.filter (fun x => x.1 ≠ c) } } → ∀ m0, a.moveOf q.page = some m0 →
      (m0.pass ≠ 4 ∧ m0.redo ≠ 0 ∨ a.mergesOf (locFrame (a.page q.page).loc) = [] →
        exec (.stowComplete p .written) s = .next (a.stowCode c q q.page 0 m0) ∧ exec (.stowComplete p .slotFault) s = .next (a.stowCode c q q.page 1 m0) ∧
        exec (.stowComplete p .slotFaults) s = .next (a.stowCode c q q.page 2 m0)) ∧
      ∀ b, b = ({ a with stow := { a.stow with stopped := a.stow.stopped ++ [uid 6 c] } }).report (uid 6 c) 0x22 2 0 → ∀ m, b.moveOf q.page = some m →
      (q.retried = true ∨ b.codersOk = false → exec (.stowComplete p .engineFault) s = .next (b.stowEnds q.page 0x206)) ∧
      (q.retried = false → b.codersOk = true → exec (.stowComplete p .engineFault) s = .next
        (({ b.moveFails q.page with stow := { (b.moveFails q.page).stow with waiting := { q with retried := true } :: (b.moveFails q.page).stow.waiting } }).accessAll m.held))) ∧
    (s.nextDecode = none → exec .decoderGrant s = .next s) ∧
    (∀ q d, s.nextDecode = some q → (s.page q.page).st = .stowed → s.decodersOk ≠ [] → s.freeDecoder = some d →
      ∀ a, a = (s.dropPromo q).wakeDom (32 + d / 32) →
      (q.buffer = true → exec .decoderGrant s = .next { a with stow := { a.stow with decoding := a.stow.decoding ++ [⟨d, q⟩] } }) ∧
      (q.buffer = false → ∀ u, a.grantable (q.page / 512) = true → a.promoUnit q = some u →
        ∃ b, exec .decoderGrant s = .next b ∧ (⟨d, { q with reqs := [] }⟩ : DecWork) ∈ b.stow.decoding)) ∧
    (∀ (p : BitVec 34) x m, s.stow.decoding.find? (fun x => x.q.page == p.toNat && !x.q.buffer) = some x → s.domActive (uid 6 (32 + x.dec / 2)) = true →
      (s.decoded x.dec).moveOf x.q.page = some m → ∀ a, a = (s.decoded x.dec).occur ⟨uid 6 (32 + x.dec / 2), 3, none, none, some (x.q.page * 4096, 0)⟩ →
      (∀ bytes, a.decodeStowed x.q.page = .ok bytes → exec (.promotionComplete p false) s =
        .next (((((a.switchPromote x.q.page m bytes).fixed 523).pageDone x.q.page 0).accessAll m.held).unpark).settle) ∧
      (a.decodeStowed x.q.page = .memory → exec (.promotionComplete p false) s = .next (((a.stowCrc x.q.page).pageDone x.q.page 9).refuseAll m.held).settle)) ∧
    (∀ (p : BitVec 34) x, s.stow.decoding.find? (fun x => x.q.page == p.toNat && x.q.buffer) = some x → s.domActive (uid 6 (32 + x.dec / 2)) = true →
      (s.page x.q.page).slot ≠ 0 → ∀ a bytes, a = (s.decoded x.dec).occur ⟨uid 6 (32 + x.dec / 2), 4, none, none, some (x.q.page * 4096, 0)⟩ →
      a.decodeStowed x.q.page = .ok bytes → exec (.promotionBufferRead p false) s =
        .next (x.q.reqs.foldl (fun s r => s.answerData r (bytesLine (bytes.drop (64 * (r.line % 64)))) false (a.rd MEMCH.QLEVEL ((a.page x.q.page).loc / 2 ^ 31)))
          (a.stallDone x.q.page 0)))

/-- Offers, answers, recalls, releases and evacuations (R265, R270, R271, R272, R273, R284, R455). -/
def Obligations.CapacityIsOfferedAndEvacuated : Prop :=
  ∀ (s : State) (w : WfNo) (t : ThrNo) (d : Reg), 
    (∀ e : BitVec 14, Issues s w t → Submits (.offer w t d e) s w t d (fun j =>
      if j.offerStatus j.extAsked (e.toNat + 1) = 0 then (0, j.extOffer (e.toNat + 1)) else (j.offerStatus j.extAsked (e.toNat + 1), j))) ∧
    (∀ e : BitVec 14, Issues s w t → Submits (.recall w t d e) s w t d (fun j => (0, j.extRecall (e.toNat + 1)))) ∧
    (∀ b : BayNo, Issues s w t → Submits (.evacuate w t d b) s w t d (fun j =>
      if j.rd BAY.STATE b ≠ 6 then (5, j) else if j.evacOk b then (0, j.evacuateBay b) else (7, j))) ∧
    (∀ b : BayNo, Issues s w t → Submits (.cancel w t d b) s w t d (fun j => (0, j.cancelEvac b))) ∧
    (∀ (h : HeadNo) (e : BitVec 14), s.live = true → s.rd EXTENT.STATE (e.toNat + 1) = 1 → h.val ∈ s.extHeads (e.toNat + 1) →
      ∃ a : State, exec (.extentAccept h e) s = .next (a.extEval (e.toNat + 1)) ∧ bitOf (a.rd EXTENT.ACCEPTED (e.toNat + 1)) h = true ∧ a.rd EXTENT.STATE (e.toNat + 1) = 1 ∧ a.plc = s.plc) ∧
    (∀ (h : HeadNo) (e : BitVec 14), s.live = true → s.rd EXTENT.STATE (e.toNat + 1) ≠ 0 → h.val ∈ s.extHeads (e.toNat + 1) →
      ∃ a : State, exec (.extentRelease h e) s = .next (a.extEval (e.toNat + 1)) ∧ bitOf (a.rd EXTENT.ACCEPTED (e.toNat + 1)) h = false ∧
        bitOf (a.rd EXTENT.RELEASED (e.toNat + 1)) h = true ∧ a.rd EXTENT.STATE (e.toNat + 1) = 3 ∧ a.plc = s.plc) ∧
    (∀ (h : HeadNo) (e : BitVec 14), h.val ∉ s.extHeads (e.toNat + 1) → exec (.extentAccept h e) s = .next s ∧ exec (.extentRelease h e) s = .next s) ∧
    (∀ e, e < 2 ^ 20 → e ≠ 0 → s.rd EXTENT.STATE e = 3 → s.rd EXTENT.ACCEPTED e = 0 → (s.extEval e).rd EXTENT.STATE e = 0)

/-- Key slots, merge entries, re-encryption, the tree, and commit points (R168, R313, R321, R327, R328, R336, R337,
R350). -/
def Obligations.SealingEventsAndKeySlots : Prop :=
  ∀ s : State,
    (∀ (w : WfNo) (t : ThrNo) (d : Reg) (k : BitVec 12) mat (mode : BitVec 2) dbg gen, Issues s w t → Submits (.install w t d k mat mode dbg gen) s w t d (fun j =>
      if j.rdB KEYSLOT.INSTALLED k.toNat then (5, j) else if gen = false ∧ mat = 0 then (8, j)
      else (0, ((j.wr KEYSLOT.MODE k.toNat mode.toNat).wr KEYSLOT.DEBUGGABLE k.toNat (if dbg then 1 else 0)).installed k.toNat mat mode.toNat dbg gen))) ∧
    (∀ (w : WfNo) (t : ThrNo) (d : Reg) (k : BitVec 12), Issues s w t → Submits (.clear w t d k) s w t d (fun j =>
      if j.clearStatus k.toNat = 0 then (0, j.clearKey k.toNat) else (j.clearStatus k.toNat, j))) ∧
    (∀ k, 0 < k → k < 4096 → s.rdB KEYSLOT.INSTALLED k = true → (s.keyMaps k ≠ 0 → s.clearStatus k = 4) ∧ (s.keyMaps k = 0 → s.keyPages k ≠ 0 → s.clearStatus k = 5) ∧
      (s.keyMaps k = 0 → s.keyPages k = 0 → s.clearStatus k = 0)) ∧
    (∀ (u : UnitNo) (f : BitVec 28) (sp : BitVec 4), s.live = true → exec (.mergeWindowExpiry u f sp) s = .next { s with sealing := { s.sealing with
      merges := s.sealing.merges.map (fun m => if m.unit = u.val ∧ m.frame = f.toNat ∧ m.span = sp.toNat then { m with until_ := min m.until_ s.time.fclk } else m) } }) ∧
    (∀ (u : UnitNo) (f : BitVec 28) (sp : BitVec 4) dec m, s.live = true → s.mergeAt u f.toNat sp.toNat = some m → m.until_ ≤ s.time.fclk →
      exec (.mergeEntrySeal u f sp dec) s = .next (((s.decodeFaults u (f.toNat * 64 + 4 * sp.toNat) dec).sealMerge m dec).settle)) ∧
    (∀ p : BitVec 34, s.live = true → p.toNat ∈ s.sealing.reenc → exec (.reencryptionComplete p) s =
      .next (({ s with sealing := { s.sealing with reenc := s.sealing.reenc.filter (· ≠ p.toNat) } }).unpark).settle) ∧
    (∀ (l : Fin 4) (i : BitVec 33), s.live = true → (l.val, i.toNat) ∈ s.sealing.dirty → exec (.treeNodeWriteback l i) s =
      .next ((({ s with sealing := { s.sealing with dirty := s.sealing.dirty.filter (· ≠ (l.val, i.toNat)) } }).advance (l + 1) i.toNat).remac l i.toNat)) ∧
    (∀ (l : Fin 6) (i : BitVec 33), s.live = true → (l.val, i.toNat) ∈ s.sealing.rebase → exec (.nodeRebaseComplete l i) s =
      .next (((({ s with sealing := { s.sealing with rebase := s.sealing.rebase.filter (· ≠ (l.val, i.toNat)) } }).resealChildren l i.toNat).unpark)).settle) ∧
    (∀ (tbl : BitVec 8) (idx : BitVec 48), (∃ u ∈ s.uncommitted, u.tbl = tbl.toNat ∧ u.idx = idx.toNat) → exec (.tableCommit tbl idx) s = .next (s.commit tbl.toNat idx.toNat)) ∧
    (∀ idx, ∀ tbl ∈ [3, 4, 7], ∃ u, s.commit tbl idx = u ∧ u.tab = s.tab ∧ u.uncommitted = s.uncommitted.filter (fun x => ¬ (x.tbl = tbl ∧ x.idx = idx)))

/-- Command issue, read completion, refresh, retraining, scrub and the correctable-error table (R243, R338, R362, R364,
R366, R369, R370, R377, R380, R381). -/
def Obligations.ControllersIssueAndComplete : Prop :=
  ∀ (s : State) (u : UnitNo),
    (∀ a c, s.mayIssue u = true → (s.chan u).inflight = none → a = s.setChan u { s.chan u with draining := s.drainNow u } → c = a.chan u →
      (c.draining = true → ∀ x, c.nextWrite = some x → exec (.dramCommandIssue u) s = .next (a.issueWrite u x)) ∧
      (c.draining = false → ∀ r, a.nextRead u = some r → (24 ≤ u.val ∨ a.rd MEMCH.DIMMS u ≠ 2) → exec (.dramCommandIssue u) s = .next (a.issueRead u r)) ∧
      (c.draining = false → ∀ r x, a.nextRead u = some r → u.val < 24 → a.rd MEMCH.DIMMS u = 2 → c.wq.find? (fun x => !x.low && a.rowKey u x.addr == a.rowKey u r.addr) = some x →
        exec (.dramCommandIssue u) s = .next (a.issueWrite u x)) ∧
      (c.draining = false → a.nextRead u = none → ∀ x, c.nextWrite = some x → exec (.dramCommandIssue u) s = .next (a.issueWrite u x))) ∧
    (∀ dec r, s.live = true → (s.chan u).inflight = some r →
      exec (.dramReadComplete u (.data dec)) s = .next ((s.setChan u { s.chan u with inflight := none }).readDone u r.req dec).settle) ∧
    (∀ dec, (s.chan u).inflight = none → exec (.dramReadComplete u (.data dec)) s = .next s) ∧
    (∀ m, s.live = true → exec (.dramReadComplete u (.metadata m)) s = .next (s.metaRead u m).settle) ∧
    (∀ hot, s.unitRuns u = true → 24 ≤ u.val → exec (.refresh u hot false) s =
      .next (((s.setChan u { s.chan u with postponed := 0 }).stackRefresh (u - 24)).commitMemch u)) ∧
    (∀ hot, s.unitRuns u = true → u.val < 24 → ∀ a, a = s.setChan u { s.chan u with postponed := 0 } →
      exec (.refresh u hot false) s = .next ((if hot then a.refreshRate u true else if a.dimmsCool u then a.refreshRate u false else a).commitMemch u)) ∧
    (s.live = true → s.unitActive u = true → u.val < 24 → s.domActive (memUid u) = true →
      exec (.retrainingPause u) s = .next (s.took.setChan u { s.chan u with readyAt := s.time.fclk + s.fresh.toNat % 1501 })) ∧
    (∀ line : BitVec 34, s.mayIssue u = true → line.toNat < s.unitLines u → ∀ a, a = (s.event (memUid u) 0x0A).scrubbed u →
      exec (.patrolScrubRead u line .clean) s = .next a.settle ∧ exec (.patrolScrubRead u line .uncorrectable) s = .next (a.ueFound u line.toNat 0x03).settle ∧
      ∀ ds, exec (.patrolScrubRead u line (.corrected ds)) s = .next (a.ceFound u line.toNat (ds.map BitVec.toNat)).settle) ∧
    (s.live = true → s.unitPresent u = true → exec (.ceDecay u) s = .next (s.ceDecay u)) ∧
    (∀ (w : WfNo) (t : ThrNo) (d : Reg), Issues s w t → Submits (.ceClear w t d u) s w t d (fun j => if j.unitPresent u then (0, j.ceEmpty u) else (9, j)))

/-- Alerts, recovery, stops, resets and lay-by of memory units (R371, R374, R376, R384, R427). -/
def Obligations.UnitsRecoverStopAndLayBy : Prop :=
  ∀ (s : State) (u : UnitNo),
    (∀ slot n, s.unitRuns u = true → u.val < 24 → n = (if slot then 1 else 0) →
      exec (.caParityAlert u slot) s = .next (((s.incSat MEMCH.ALERT_CA u 1).report (memUid u) 0x04 0 n).alert u n)) ∧
    (∀ place : BitVec 5, s.unitRuns u = true → ∀ a n, a = (s.incSat MEMCH.ALERT_CRC u 1).report (memUid u) 0x05 0 place.toNat →
      n = (((s.chan u).crcTries.find? (fun x => x.1 == place.toNat)).map Prod.snd).getD 0 + 1 →
      ∀ b, b = a.setChan u { a.chan u with crcTries := (place.toNat, n) :: (a.chan u).crcTries.filter (fun x => x.1 ≠ place.toNat) } →
      exec (.writeCrcAlert u place) s = .next (if 5 ≤ n then b.recover u place.toNat else b.alert u place.toNat)) ∧
    (s.live = true → s.rd MEMCH.STATE u = 5 → exec (.recoveryRetrainingEnd u true) s = .next (s.setUnit u 3) ∧ exec (.recoveryRetrainingEnd u false) s = .next (s.stopUnit u 1)) ∧
    (s.unitRuns u = true → u.val < 24 → exec (.pmicFault u) s = .next (s.stopUnit u 2)) ∧
    (∀ (w : WfNo) (t : ThrNo) (d : Reg), Issues s w t → Submits (.memchReset w t d u) s w t d (fun j =>
      if !j.unitPresent u then (9, j) else if j.rd MEMCH.STATE u = 6 then (0, ((j.setChan u Chan.init).setUnit u 1).endHandling (memUid u) [0x07]) else (5, j))) ∧
    ((s.dom (50 + u)).level = 1 → s.live = true → s.rd POWER.STATE (50 + u) = 4 → (∀ m ∈ s.sealing.merges, m.unit ≠ u.val) → ∀ a, a = s.drainAll ((s.chan u).wq.length + 1) u →
      ∀ b, b = ((a.setChan u { a.chan u with openRows := [], alerts := [] }).wr POWER.STATE (50 + u) 3).setUnit u 4 →
      exec (.layByEntryComplete u) s = .next (if (s.dom (50 + u)).latched then b.wakeDom (50 + u) else b)) ∧
    (s.rd MEMCH.STATE u = 4 → s.live = true → s.rd POWER.STATE (50 + u) = 5 → exec (.layByExitComplete u) s = .next (s.domReady (50 + u)))

/-- The collector, acknowledgement, latches, unit resets, check-ins and HEARTBEAT (R416, R417, R419, R422, R423, R426, R428,
R429, R433). -/
def Obligations.FaultsAreCollectedAndReset : Prop :=
  ∀ (s : State),
    (∀ r, s.board.power ≠ .unpowered → nextReport s.aon.reports = some r →
      exec .collectorTake s = .next (({ s with aon := { s.aon with reports := s.aon.reports.filter (· ≠ r) } }).applyReport r)) ∧
    (∀ l r q, nextReport l = some r → q ∈ l → reportBefore q r = false) ∧
    (∀ (c : Cand) (i : BitVec 8), s.board.power ≠ .unpowered → ∀ a, a = s.from_ c → a.ownerActs c = true →
      (a.rdB RECORD.VALID (i.toNat + 1) = true → a.rdB RECORD.HANDLING (i.toNat + 1) = false → exec (.recordAck c i) s = .next (a.dropRecord i.toNat)) ∧
      (a.rdB RECORD.HANDLING (i.toNat + 1) = true → exec (.recordAck c i) s = .next a) ∧
      (∀ k : Fin 4, exec (.latchClear c k) s = .next (a.clearLatch k)) ∧
      a.clearLatch 3 = a ∧ (∀ k : Nat, k < 3 → (∀ word, a.setNow 0x0E 0 word = 0) → (a.clearLatch k).rd (FAULT.VALID k) 0 = 0 ∧ (a.clearLatch k).rd (FAULT.OVERFLOW k) 0 = 0)) ∧
    (∀ (i : BitVec 8) (k : Fin 4), s.board.power ≠ .unpowered → ∀ a, a = s.from_ 1 → a.own.owner ≠ some 1 →
      exec (.recordAck 1 i) s = .next (a.send (.ownerStatus 1 (a.ownerStatus 1))) ∧ exec (.latchClear 1 k) s = .next (a.send (.ownerStatus 1 (a.ownerStatus 1)))) ∧
    (s.bmcAnswers = true → ∃ u bs, exec .faultStatusRead s = .next u ∧ u = (s.from_ 1).send (.answer bs) ∧ bs.length = 64) ∧
    (∀ i j : BitVec 8, s.bmcAnswers = true → ∃ u bs, exec (.faultRecordsRead i j) s = .next u ∧ u = (s.from_ 1).send (.answer bs) ∧ bs.length = 32 * (j.toNat + 1 - i.toNat)) ∧
    (∀ (w : WfNo) (t : ThrNo) (d : Reg) (x : BitVec 10), Issues s w t → Submits (.resetGo w t d x) s w t d (fun j =>
      if resettable x.toNat = false then (5, j) else if j.unitThere x.toNat = false then (9, j) else if j.inHandling x.toNat = false then (5, j)
      else if j.aon.reset.isSome then (6, j)
      else (0, ({ (j.wr FAULT.RESET_STATUS 0 1) with aon := { j.aon with reset := some ⟨x.toNat⟩ } } : State).wr FAULT.RESET_UNIT 0 x.toNat))) ∧
    (∀ r, s.aon.reset = some r → s.board.halted = false → ∀ a, a = { s with aon := { s.aon with reset := none } } →
      exec (.unitResetComplete false) s = .next ((a.unitReturns r.unit).wr FAULT.RESET_STATUS 0 2) ∧
      ∃ u, exec (.unitResetComplete true) s = .next u ∧ u.rd FAULT.RESET_STATUS 0 = 3 ∧ ∃ x ∈ u.aon.reports, x.unit = r.unit ∧ x.code = resetCode r.unit) ∧
    (∀ (w : WfNo) (t : ThrNo) (d : Reg), Issues s w t → Submits (.checkin w t d) s w t d (fun j => (0, j.checkin))) ∧
    ((s.checkin).rd FAULT.CHECKIN_LATE 0 = 0 ∧ s.checkin.aon.lastCheckin = s.time.aon) ∧
    (s.live = true → s.rdB FAULT.CHECKIN_EN 0 = true →
      exec .checkinTimeout s = .next { (s.wr FAULT.CHECKIN_LATE 0 1) with board := { s.board with heartOn := false } }) ∧
    (s.live = true → s.board.heartOn = true → exec .heartbeatToggle s = .next { s with board := { s.board with heart := !s.board.heart } })

/-- Power domains: evaluation, entry, wake and ready (R54, R213, R409, R436, R437, R438, R439, R440, R441). -/
def Obligations.PowerDomainsEnterWakeAndReturn : Prop :=
  ∀ (s : State) (dom : DomNo), s.live = true →
    let d := dom.val
    (∀ idle : BitVec 32, s.time.locked = true → ∀ a, a = s.commitTbl 0x10 (· == d) → a.rd POWER.STATE d ≠ 6 → a.pgDead d = false →
      (a.held d = true → exec (.domainEvaluation dom idle) s = .next (a.wakeDom d)) ∧
      (a.held d = false → a.inf POWER.POLICY d = 1 → a.rd POWER.STATE d = 0 → a.inf POWER.IDLE1 d ≤ idle.toNat →
        exec (.domainEvaluation dom idle) s = .next (match a.entryFails d 1 with | some x => a.refuseEntry d x.1 x.2 | none => a.enterLevel d 1)) ∧
      (a.held d = false → a.inf POWER.POLICY d = 1 → a.rd POWER.STATE d = 0 → idle.toNat < a.inf POWER.IDLE1 d → exec (.domainEvaluation dom idle) s = .next a) ∧
      (a.held d = false → a.inf POWER.POLICY d = 1 → (a.rd POWER.STATE d = 1 ∨ a.rd POWER.STATE d = 3) → a.infB POWER.DEEP_EN d = true → a.inf POWER.IDLE2 d * 100 ≤ idle.toNat →
        exec (.domainEvaluation dom idle) s = .next (match a.entryFails d 2 with | some x => a.refuseEntry d x.1 x.2 | none => a.enterLevel d 2))) ∧
    (s.rd POWER.STATE d = 4 → exec (.domainEntryComplete dom true) s = .next ((s.incSat POWER.ABORTS d 1).wr POWER.STATE d 5)) ∧
    (s.rd POWER.STATE d = 4 → (∀ m ∈ s.sealing.merges, domUnit d ≠ some m.unit) → exec (.domainEntryComplete dom false) s = .next (if (s.dom d).latched then (s.reached d).wakeDom d else s.reached d)) ∧
    (s.pgDead d = false → (s.rd POWER.STATE d = 4 → exec (.domainWake dom) s = .next (s.setDom d { s.dom d with latched := true })) ∧
      ((s.rd POWER.STATE d = 1 ∨ s.rd POWER.STATE d = 2 ∨ s.rd POWER.STATE d = 3) → exec (.domainWake dom) s = .next (((s.wr POWER.STATE d 5).inc POWER.WAKES d).fixed 535)) ∧
      (s.rd POWER.STATE d = 0 → exec (.domainWake dom) s = .next s)) ∧
    (s.rd POWER.STATE d = 5 → ∃ a : State, exec (.domainReady dom) s = .next (if 16 ≤ d ∧ d < 32 then a.orderEarly (d - 16) else a).settle ∧
      a.rd POWER.STATE d = 0 ∧ (a.dom d).latched = false) ∧
    (s.rd POWER.STATE d ≠ 5 → exec (.domainReady dom) s = .next s)

/-- Sensor samples, CUT, the end of a shutdown, hard trips, refresh rates and the life ledger (R369, R442, R444, R446,
R447, R448, R458, R460). -/
def Obligations.TemperaturesThrottleAndAge : Prop :=
  ∀ s : State,
    (∀ (th : ThNo) (r : BitVec 16), s.board.power ≠ .unpowered → ∃ a : State, a.rd THERMAL.READING th = unsint 16 (r.toInt + sint 8 (s.inf THERMAL.OFFSET th)) ∧
      (exec (.thermalSample th (some r)) s = .next a ∨ exec (.thermalSample th (some r)) s = .next (a.hardTrip (a.hottest.getD th)) ∨
        exec (.thermalSample th (some r)) s = .next (a.shutdown (a.hottest.getD th)))) ∧
    (∀ th : ThNo, s.board.power ≠ .unpowered → 48 ≤ th.val → s.rdB THERMAL.FAILED th = false →
      exec (.thermalSample th none) s = .next ((s.sensorFails th).stackRefresh (th - 48))) ∧
    (∀ th : ThNo, th.val < 48 → exec (.thermalSample th none) s = .next s) ∧
    (∀ th : ThNo, s.board.power ≠ .unpowered → (th.val < 32 ∨ 48 ≤ th.val) → s.rdB THERMAL.FAILED th = false →
      exec (.hardTrip th) s = .next (({ s with board := { s.board with thermtrip := true } }).fatal (uid 10 52) 0x2E (s.hottest.getD th))) ∧
    (s.aon.shutdown = true → exec .shutdownGraceEnd s = .next (({ s with board := { s.board with thermtrip := true }, aon := { s.aon with shutdown := false } }).fatal (uid 10 52) 0x2D s.aon.shutdownBy)) ∧
    (s.board.power ≠ .unpowered → ∃ u, exec .throttleUpdate s = .next u ∧ u.rd LEDGER.CUT 52 = (s.cutNow s.hottest).1 % 2 ^ LEDGER.CUT.w ∧ u.board = s.board ∧ u.plc = s.plc) ∧
    (∀ (c : ChanNo) (r : BitVec 16) hot, s.live = true → s.unitPresent c = true → ∀ a, a = { s with aon := { s.aon with dimm := tset (fun _ => none) s.aon.dimm c (some r) } } →
      ((hot = true ∨ 340 ≤ r.toInt) → exec (.dimmSensorRead c (some r) hot) s = .next (a.refreshRate c true)) ∧
      (hot = false → r.toInt < 332 → exec (.dimmSensorRead c (some r) hot) s = .next (a.refreshRate c false)) ∧
      (hot = false → 332 ≤ r.toInt → r.toInt < 340 → exec (.dimmSensorRead c (some r) hot) s = .next a)) ∧
    (∀ util, s.ledgerRuns = true → ∃ u, exec (.ledgerSecond util) s = .next u ∧ u.aon.ledgerSec = (if s.aon.ledgerSec = 3599 then 0 else s.aon.ledgerSec + 1) ∧
      u.aon.equivAcc = (s.aon.equivAcc + ageRate s.junction * (70 + util.toNat)) % equivUnit ∧ u.board = s.board ∧ u.soft = s.soft) ∧
    (∀ v : BitVec 16, s.ledgerRuns = true → exec (.ageingRead v) s = .next (s.wr LEDGER.RO_DRIFT 52 v.toNat).lifeUp) ∧
    (s.ledgerRuns = true → exec (.ledgerWrite false) s = .next (s.wr LEDGER.LEDGER_OK 52 0) ∧
      exec (.ledgerWrite true) s = .next ((({ s with aon := { s.aon with ledgerSeq := s.aon.ledgerSeq + 1 } }).wr LEDGER.LEDGER_OK 52 1).send (.flashWrite (s.aon.ledgerSeq + 1))))

/-- The bay state machine: presence, timers, pre-charge, ramp, trips, losses and stores (R46, R450, R451, R452, R454, R455,
R456, R487). -/
def Obligations.BaysPowerUpTripAndPowerDown : Prop :=
  ∀ (s : State) (b : BayNo), s.supplied = true →
    (s.rd BAY.STATE b = 0 → exec (.bayPresenceValid b) s = .next (({ s with aon := { s.aon with present := bayBit s.aon.present b true } }).wr BAY.STATE b 1)) ∧
    (s.bayPowered b = false → exec (.bayPresenceLost b) s = .next (({ s with aon := { s.aon with present := bayBit s.aon.present b false } }).wr BAY.STATE b 0)) ∧
    (s.bayPowered b = true → exec (.bayPresenceLost b) s = .next (({ s with aon := { s.aon with present := bayBit s.aon.present b false } }).forceOff b 0 true)) ∧
    (6 ≤ s.board.step → s.rd BAY.STATE b = 1 → exec (.debounceExpiry b) s = .next (s.wr BAY.STATE b 2)) ∧
    (∀ mv : BitVec 16, s.rd BAY.STATE b = 2 → ∀ a, a = s.wr BAY.BAYVIN_MV b mv.toNat → (a.rdB BAY.LATCH b = true → exec (.holdoffExpiry b mv) s = .next (a.wr BAY.STATE b 9)) ∧
      (a.rdB BAY.LATCH b = false → a.infB BAY.ENABLE b = false → exec (.holdoffExpiry b mv) s = .next (a.wr BAY.STATE b 3)) ∧
      (a.rdB BAY.LATCH b = false → a.infB BAY.ENABLE b = true → 10 ≤ s.board.step → exec (.holdoffExpiry b mv) s = .next (a.startBay b true)) ∧
      (a.rdB BAY.LATCH b = false → a.infB BAY.ENABLE b = true → s.board.step < 10 → exec (.holdoffExpiry b mv) s = .next a)) ∧
    (∀ mv : BitVec 16, s.live = true → s.board.hold = .none → s.board.step = 2 → s.board.turn ≤ b.val → s.rd BAY.STATE b = 1 → (∀ c < 12, s.rd BAY.STATE c ≠ 4 ∧ s.rd BAY.STATE c ≠ 5) →
      exec (.bayTurn b mv) s = .next ((({ s with board := { s.board with turn := b.val + 1 } }).wr BAY.BAYVIN_MV b mv.toNat).startBay b false)) ∧
    (∀ mv : BitVec 16, s.rd BAY.STATE b = 4 → 9 * s.rd BAY.BAYVIN_MV b ≤ 10 * mv.toNat → ∃ u, exec (.prechargeComplete b mv) s = .next u ∧ u.rd BAY.STATE b = 5 ∧ u.board.baygate = bayBit s.board.baygate b true ∧ u.plc = s.plc) ∧
    (∀ mv : BitVec 16, (s.rd BAY.STATE b = 4 → exec (.prechargeTimeout b mv) s = .next ((s.wr BAY.BAYVS_MV b mv.toNat).tripBay b 3 0x26 mv.toNat)) ∧
      (s.rd BAY.STATE b = 5 → exec (.rampTimeout b mv) s = .next ((s.wr BAY.BAYVS_MV b mv.toNat).tripBay b 3 0x26 mv.toNat))) ∧
    (∀ (mv : BitVec 16) ds, s.rd BAY.STATE b = 5 → s.board.step < 6 → ∃ u, exec (.gateFullyOn b mv ds) s = .next u ∧ u.rd BAY.STATE b = 6 ∧
      u.board.baypg = bayBit s.board.baypg b true ∧ u.board.baypre = bayBit s.board.baypre b false ∧ u.plc = s.plc) ∧
    (∀ (mv : BitVec 16) ds, s.rd BAY.STATE b = 5 → 6 ≤ s.board.step → s.board.halted = false → ∃ a : State,
      exec (.gateFullyOn b mv ds) s = .next ((bayUnits b).foldl (fun (x : State) u => (x.applySpd u ds true).train u) a) ∧ a.rd BAY.STATE b = 6 ∧
      a.board.baypg = bayBit s.board.baypg b true ∧ a.board.baypre = bayBit s.board.baypre b false) ∧
    (∀ i : BitVec 16, s.bayPowered b = true → (2 * s.bayLimit b ≤ i.toNat → exec (.fastTrip b i) s = .next ((s.current b i).tripBay b 1 0x24 i.toNat)) ∧
      (i.toNat < 2 * s.bayLimit b → exec (.fastTrip b i) s = .next (s.current b i)) ∧ (s.bayLimit b < i.toNat → exec (.slowTrip b i) s = .next ((s.current b i).tripBay b 2 0x25 i.toNat))) ∧
    (∀ cause code detail, cause < 4 → (s.tripBay b cause code detail).rd BAY.LATCH b = 1 ∧ (s.tripBay b cause code detail).rd BAY.TRIP b = cause ∧
      ∃ r ∈ (s.tripBay b cause code detail).aon.reports, r.unit = uid 9 b ∧ r.code = code) ∧
    (∀ mv : BitVec 16, ∀ a, a = { s with board := { s.board with vbaydrvLow := true, vbaydrvMv := mv.toNat } } →
      exec (.vbaydrvLoss mv) s = .next ((List.range 12).foldl (fun (x : State) c => if x.bayPowered c then (x.forceOff c 3 false).bayFault c 0x27 mv.toNat else x) a) ∧
      ((∀ c < 12, s.bayPowered c = false) → exec (.vbaydrvLoss mv) s = .next a)) ∧
    exec .vbaydrvPassesAgain s = .next { s with board := { s.board with vbaydrvLow := false } } ∧
    (∀ mv : BitVec 16, bayvinOk mv.toNat = false → ∀ a, a = s.wr BAY.BAYVIN_MV b mv.toNat → exec (.bayvinExcursion b mv) s =
      .next (if a.bayPowered b then (a.forceOff b 3 false).bayFault b 0x34 mv.toNat else a)) ∧
    (∀ (w : WfNo) (t : ThrNo) (d : Reg), Issues s w t → Submits (.bayEnable w t d b) s w t d (fun j => j.enableBay b true) ∧ Submits (.bayDisable w t d b) s w t d (fun j => j.enableBay b false)) ∧
    (s.live = true → s.rd BAY.STATE b = 7 → s.bayDrained b = true → exec (.bayPowerDown b) s = .next (((s.gatesLow b).wr BAY.STATE b 8).bayUnitsGone b).1) ∧
    (∀ (c : BayNo) (mv : BitVec 16), c ≠ b → ∀ i ∈ [Instr.bayPresenceValid b, .debounceExpiry b, .prechargeComplete b mv], ∃ u, exec i s = .next u ∧ u.rd BAY.STATE c = s.rd BAY.STATE c)

/-- A counter wraps with OVF and its sample, CLEAR_ALL zeroes the programmable counters, and snapshots complete in
order (R467, R473, R474, R475, R478, R482, R484). -/
def Obligations.MilepostsWrapAndSnapshot : Prop :=
  ∀ (s : State), s.live = true →
    (∀ (n : Fin 544) occ, s.time.locked = true → s.rd MILEPOST.VALUE n = 2 ^ 48 - 1 → 512 ≤ n.val → ∃ u, exec (.counterWrap n occ) s = .next u ∧ u.rd MILEPOST.OVF n = 1 ∧ u.rd MILEPOST.VALUE n = 0 ∧ SameTables s u ∧ SameDevice s u) ∧
    (∀ (n : Fin 512) o, s.rdB MILEPOST.SAMPLE n = false → s.rd MILEPOST.VALUE n = 2 ^ 48 - 1 → (s.addOne n o).rd MILEPOST.VALUE n = 0 ∧ (s.addOne n o).rd MILEPOST.OVF n = 1 ∧
      (s.rdB MILEPOST.FRZ_OVF n = true → (s.addOne n o).rd MPALL.FREEZE 544 = 1)) ∧
    (∀ (n : Fin 544) (occ : Occurrence) o, n.val < 512 → s.time.locked = true → s.rd MILEPOST.VALUE n = 2 ^ 48 - 1 → s.rdB MILEPOST.ENABLE n = true → s.rdB MPALL.FREEZE 544 = false →
      o = { unit := occ.unit.toNat, event := occ.event.toNat, ld := if occ.ld.toNat < 256 then some occ.ld.toNat else none, qual := (List.range 8).find? (fun i => occ.qual.getLsbD i), addr := none } →
      s.domActive o.unit = true → s.counts n o = true → exec (.counterWrap ⟨n.val, by omega⟩ occ) s = .next (s.addOcc n o)) ∧
    (∀ (w : WfNo) (t : ThrNo) (d : Reg), Issues s w t → Submits (.clearAll w t d) s w t d (fun j => (0, j.clearAll))) ∧
    ((∀ n < 512, s.clearAll.rd MILEPOST.VALUE n = 0) ∧ (∀ n, 512 ≤ n → n < 544 → s.clearAll.rd MILEPOST.VALUE n = s.rd MILEPOST.VALUE n) ∧ SameTables s s.clearAll ∧ s.clearAll.mile = s.mile) ∧
    (s.own.owner = some 0 → ∀ g : Fin 17, ∃ u, exec (.snapReq 0 (BitVec.ofNat 17 (2 ^ g.val))) s = .next u ∧ u = (s.snapAsk g).1) ∧
    (∀ c : Cand, ∀ m, s.own.owner ≠ some 0 → exec (.snapReq c m) s = .next s) ∧
    (∀ (g : Fin 17) x b, s.mile.inProgress.find? (fun p => p.1 == g.val) = some (x, b) → s.mile.again.contains g.val = false →
      ∃ u, exec (.snapshotComplete g) s = .next u ∧ u.bank g = { b with gen := nextGen (s.bank g).gen } ∧ (∀ p ∈ u.mile.inProgress, p.1 ≠ g.val) ∧
        u.rd (MPALL.GEN g) 544 = (nextGen (s.bank g).gen).toNat ∧ (∀ h : Fin 17, h ≠ g → u.bank h = s.bank h)) ∧
    (∀ g : Fin 17, (∀ p ∈ s.mile.inProgress, p.1 ≠ g.val) → exec (.snapshotComplete g) s = .next s)
end

