-- ==== Sys2Proof/Laws/Tab.lean ====
section
/-! SUPPORT. Laws of the sparse maps and byte memories: a read after a write, and the canonical form that every write
keeps. -/
namespace Sys2Proof.Machine

variable {α : Type}

theorem tget_terase_self (d : Nat → α) (t : Tab α) (k : Nat) : tget d (terase t k) k = d k := by
  induction t with
  | nil => rfl
  | cons x t ih =>
    obtain ⟨a, v⟩ := x
    by_cases h : a = k <;> simp [terase, tget, h, ih]

theorem tget_terase_ne (d : Nat → α) (t : Tab α) {k j : Nat} (h : j ≠ k) : tget d (terase t k) j = tget d t j := by
  induction t with
  | nil => rfl
  | cons x t ih =>
    obtain ⟨a, v⟩ := x
    by_cases ha : a = k
    · subst ha; simp [terase, tget, ih, Ne.symm h]
    · by_cases hj : a = j
      · subst hj; simp [terase, tget, ha]
      · simp [terase, tget, ha, hj, ih]

/-- No entry of the map has the key. -/
def Absent (t : Tab α) (k : Nat) : Prop := ∀ x ∈ t, x.1 ≠ k

theorem absent_terase (t : Tab α) (k : Nat) : Absent (terase t k) k := by
  induction t with
  | nil => intro x hx; simp [terase] at hx
  | cons x t ih =>
    obtain ⟨a, v⟩ := x
    by_cases h : a = k
    · simpa [terase, h] using ih
    · intro y hy
      simp only [terase, if_neg h, List.mem_cons] at hy
      rcases hy with rfl | hy
      · exact h
      · exact ih y hy

theorem tget_tinsert (d : Nat → α) (k : Nat) (v : α) (t : Tab α) (h : Absent t k) (j : Nat) :
    tget d (tinsert k v t) j = if j = k then v else tget d t j := by
  induction t with
  | nil => simp [tinsert, tget, eq_comm]
  | cons x t ih =>
    obtain ⟨a, b⟩ := x
    have ha : a ≠ k := h (a, b) (by simp)
    have ht : Absent t k := fun y hy => h y (by simp [hy])
    by_cases hk : k < a
    · simp [tinsert, tget, hk, eq_comm]
    · by_cases hj : a = j
      · subst hj; simp [tinsert, tget, hk, ha]
      · simp [tinsert, tget, hk, hj, ih ht]

/-- A read after a write gives the value written, and every other key reads as before. -/
theorem tget_tset [DecidableEq α] (d : Nat → α) (t : Tab α) (k : Nat) (v : α) (j : Nat) :
    tget d (tset d t k v) j = if j = k then v else tget d t j := by
  unfold tset
  by_cases hv : v = d k
  · by_cases hj : j = k
    · subst hj; simp [hv, tget_terase_self]
    · simp [hv, hj, tget_terase_ne d t hj]
  · rw [if_neg hv, tget_tinsert d k v _ (absent_terase t k)]
    by_cases hj : j = k
    · simp [hj]
    · simp [hj, tget_terase_ne d t hj]

@[simp] theorem tget_tset_self [DecidableEq α] (d : Nat → α) (t : Tab α) (k : Nat) (v : α) :
    tget d (tset d t k v) k = v := by simp [tget_tset]

theorem tget_tset_ne [DecidableEq α] (d : Nat → α) (t : Tab α) {k j : Nat} (v : α) (h : j ≠ k) :
    tget d (tset d t k v) j = tget d t j := by simp [tget_tset, h]

theorem terase_absent (t : Tab α) (k : Nat) (h : Absent t k) : terase t k = t := by
  induction t with
  | nil => rfl
  | cons x t ih =>
    obtain ⟨a, b⟩ := x
    have ha : a ≠ k := h (a, b) (by simp)
    simp [terase, ha, ih (fun y hy => h y (by simp [hy]))]

theorem terase_tinsert (t : Tab α) (k : Nat) (v : α) (h : Absent t k) : terase (tinsert k v t) k = t := by
  induction t with
  | nil => simp [tinsert, terase]
  | cons x t ih =>
    obtain ⟨a, b⟩ := x
    have ha : a ≠ k := h (a, b) (by simp)
    have ht : Absent t k := fun y hy => h y (by simp [hy])
    by_cases hk : k < a
    · simp [tinsert, hk, terase, ha, terase_absent t k ht]
    · simp [tinsert, hk, terase, ha, ih ht]

/-- The later of two writes to a key stands. -/
@[simp] theorem tset_tset [DecidableEq α] (d : Nat → α) (t : Tab α) (k : Nat) (v v' : α) :
    tset d (tset d t k v) k v' = tset d t k v' := by
  have h : terase (tset d t k v) k = terase t k := by
    unfold tset
    split
    · exact terase_absent _ _ (absent_terase t k)
    · exact terase_tinsert _ _ _ (absent_terase t k)
  show (if v' = d k then terase (tset d t k v) k else tinsert k v' (terase (tset d t k v) k)) = _
  rw [h]
  rfl

/-! ### The canonical form -/

theorem twfFrom_mono [DecidableEq α] (d : Nat → α) {lo lo' : Nat} (t : Tab α) (h : lo' ≤ lo) (w : twfFrom d lo t = true) :
    twfFrom d lo' t = true := by
  cases t with
  | nil => rfl
  | cons x t =>
    obtain ⟨a, b⟩ := x
    simp only [twfFrom, Bool.and_eq_true, decide_eq_true_eq] at w ⊢
    exact ⟨⟨by omega, w.1.2⟩, w.2⟩

theorem twfFrom_terase [DecidableEq α] (d : Nat → α) (t : Tab α) (k : Nat) (lo : Nat) (w : twfFrom d lo t = true) :
    twfFrom d lo (terase t k) = true := by
  induction t generalizing lo with
  | nil => rfl
  | cons x t ih =>
    obtain ⟨a, b⟩ := x
    simp only [twfFrom, Bool.and_eq_true, decide_eq_true_eq] at w
    have h := ih (a + 1) w.2
    by_cases ha : a = k
    · simp only [terase, if_pos ha]
      exact twfFrom_mono d _ (by omega) h
    · simp [terase, ha, twfFrom, w.1.1, w.1.2, h]

theorem twfFrom_tinsert [DecidableEq α] (d : Nat → α) (t : Tab α) (k : Nat) (v : α) (hv : v ≠ d k) (ha : Absent t k)
    (lo : Nat) (hlo : lo ≤ k) (w : twfFrom d lo t = true) : twfFrom d lo (tinsert k v t) = true := by
  induction t generalizing lo with
  | nil => simp [tinsert, twfFrom, hlo, hv]
  | cons x t ih =>
    obtain ⟨a, b⟩ := x
    have hak : a ≠ k := ha (a, b) (by simp)
    have ht : Absent t k := fun y hy => ha y (by simp [hy])
    simp only [twfFrom, Bool.and_eq_true, decide_eq_true_eq] at w
    by_cases hk : k < a
    · simp [tinsert, hk, twfFrom, hlo, hv, w.1.2, w.2]
    · simp only [tinsert, if_neg hk, twfFrom, Bool.and_eq_true, decide_eq_true_eq]
      exact ⟨w.1, ih ht (a + 1) (by omega) w.2⟩

/-- A write keeps the canonical form. -/
theorem wf_tset [DecidableEq α] (d : Nat → α) (t : Tab α) (k : Nat) (v : α) (w : Tab.wf d t = true) :
    Tab.wf d (tset d t k v) = true := by
  unfold tset Tab.wf
  have h := twfFrom_terase d t k 0 w
  by_cases hv : v = d k
  · simpa [hv] using h
  · rw [if_neg hv]
    exact twfFrom_tinsert d _ k v hv (absent_terase t k) 0 (by omega) h

/-- Dropping entries keeps the canonical form. -/
theorem twfFrom_filter [DecidableEq α] (d : Nat → α) (p : Nat × α → Bool) (t : Tab α) (lo : Nat) (w : twfFrom d lo t = true) :
    twfFrom d lo (t.filter p) = true := by
  induction t generalizing lo with
  | nil => rfl
  | cons x t ih =>
    obtain ⟨a, b⟩ := x
    simp only [twfFrom, Bool.and_eq_true, decide_eq_true_eq] at w
    by_cases hp : p (a, b) = true
    · simp [hp, twfFrom, w.1.1, w.1.2, ih (a + 1) w.2]
    · simp only [List.filter_cons, if_neg hp]
      exact ih lo (twfFrom_mono d t (by omega) w.2)

theorem wf_filter [DecidableEq α] (d : Nat → α) (p : Nat × α → Bool) (t : Tab α) (w : Tab.wf d t = true) :
    Tab.wf d (t.filter p) = true := twfFrom_filter d p t 0 w

/-! ### Byte memories -/

theorem Mem.read_write (m : Mem) (a j : Nat) (b : BitVec 8) : (m.write a b).read j = if j = a then b else m.read j :=
  tget_tset Mem.blank m a b j

theorem Memory.wf_write (m : Mem) (a : Nat) (b : BitVec 8) (w : Memory.wf m = true) : Memory.wf (m.write a b) = true :=
  wf_tset Mem.blank m a b w

/-- Writing a byte string keeps the canonical form. -/
theorem Memory.wf_writeN (bs : List (BitVec 8)) (m : Mem) (a : Nat) (w : Memory.wf m = true) :
    Memory.wf (m.writeN a bs) = true := by
  induction bs generalizing m a with
  | nil => exact w
  | cons b bs ih => exact ih _ _ (Memory.wf_write m a b w)

/-- A byte outside a written string reads as before. -/
theorem Mem.read_writeN_out (bs : List (BitVec 8)) (m : Mem) (a j : Nat) (h : j < a ∨ a + bs.length ≤ j) :
    (m.writeN a bs).read j = m.read j := by
  induction bs generalizing m a with
  | nil => rfl
  | cons b bs ih =>
    simp only [List.length_cons] at h
    rw [Mem.writeN, ih _ _ (by omega), Mem.read_write, if_neg (by omega)]

/-- A written string reads back. -/
theorem Mem.readN_writeN (bs : List (BitVec 8)) (m : Mem) (a : Nat) : (m.writeN a bs).readN a bs.length = bs := by
  induction bs generalizing m a with
  | nil => rfl
  | cons b bs ih =>
    simp only [Mem.writeN, List.length_cons, Mem.readN]
    rw [ih, Mem.read_writeN_out _ _ _ _ (by omega), Mem.read_write, if_pos rfl]

end Sys2Proof.Machine
end

