-- ==== Sys2Proof/Laws/State.lean ====
section
/-! SUPPORT. What each update of the state leaves alone, field by field, and what each accessor reads after it. -/
namespace Sys2Proof.Machine
namespace State

/-! ### setWord -/
@[simp] theorem setWord_board (s : State) (tbl idx word : Nat) (v : BitVec 64) : (s.setWord tbl idx word v).board = s.board := rfl
@[simp] theorem setWord_time (s : State) (tbl idx word : Nat) (v : BitVec 64) : (s.setWord tbl idx word v).time = s.time := rfl
@[simp] theorem setWord_own (s : State) (tbl idx word : Nat) (v : BitVec 64) : (s.setWord tbl idx word v).own = s.own := rfl
@[simp] theorem setWord_svc (s : State) (tbl idx word : Nat) (v : BitVec 64) : (s.setWord tbl idx word v).svc = s.svc := rfl
@[simp] theorem setWord_uncommitted (s : State) (tbl idx word : Nat) (v : BitVec 64) : (s.setWord tbl idx word v).uncommitted = s.uncommitted := rfl
@[simp] theorem setWord_stamps (s : State) (tbl idx word : Nat) (v : BitVec 64) : (s.setWord tbl idx word v).stamps = s.stamps := rfl
@[simp] theorem setWord_soft (s : State) (tbl idx word : Nat) (v : BitVec 64) : (s.setWord tbl idx word v).soft = s.soft := rfl
@[simp] theorem setWord_regs (s : State) (tbl idx word : Nat) (v : BitVec 64) : (s.setWord tbl idx word v).regs = s.regs := rfl
@[simp] theorem setWord_links (s : State) (tbl idx word : Nat) (v : BitVec 64) : (s.setWord tbl idx word v).links = s.links := rfl
@[simp] theorem setWord_decoders (s : State) (tbl idx word : Nat) (v : BitVec 64) : (s.setWord tbl idx word v).decoders = s.decoders := rfl
@[simp] theorem setWord_coh (s : State) (tbl idx word : Nat) (v : BitVec 64) : (s.setWord tbl idx word v).coh = s.coh := rfl
@[simp] theorem setWord_plc (s : State) (tbl idx word : Nat) (v : BitVec 64) : (s.setWord tbl idx word v).plc = s.plc := rfl
@[simp] theorem setWord_stow (s : State) (tbl idx word : Nat) (v : BitVec 64) : (s.setWord tbl idx word v).stow = s.stow := rfl
@[simp] theorem setWord_sealing (s : State) (tbl idx word : Nat) (v : BitVec 64) : (s.setWord tbl idx word v).sealing = s.sealing := rfl
@[simp] theorem setWord_dram (s : State) (tbl idx word : Nat) (v : BitVec 64) : (s.setWord tbl idx word v).dram = s.dram := rfl
@[simp] theorem setWord_traffic (s : State) (tbl idx word : Nat) (v : BitVec 64) : (s.setWord tbl idx word v).traffic = s.traffic := rfl
@[simp] theorem setWord_aon (s : State) (tbl idx word : Nat) (v : BitVec 64) : (s.setWord tbl idx word v).aon = s.aon := rfl
@[simp] theorem setWord_mile (s : State) (tbl idx word : Nat) (v : BitVec 64) : (s.setWord tbl idx word v).mile = s.mile := rfl
@[simp] theorem setWord_freeUsed (s : State) (tbl idx word : Nat) (v : BitVec 64) : (s.setWord tbl idx word v).freeUsed = s.freeUsed := rfl
@[simp] theorem setWord_out (s : State) (tbl idx word : Nat) (v : BitVec 64) : (s.setWord tbl idx word v).out = s.out := rfl
@[simp] theorem setWord_pending (s : State) (tbl idx word : Nat) (v : BitVec 64) : (s.setWord tbl idx word v).pending = s.pending := rfl
@[simp] theorem thread_setWord (s : State) (tbl idx word : Nat) (v : BitVec 64) : (s.setWord tbl idx word v).thread = s.thread := rfl
@[simp] theorem wf_setWord (s : State) (tbl idx word : Nat) (v : BitVec 64) : (s.setWord tbl idx word v).wf = s.wf := rfl
@[simp] theorem g_setWord (s : State) (tbl idx word : Nat) (v : BitVec 64) : (s.setWord tbl idx word v).g = s.g := rfl
@[simp] theorem program_setWord (s : State) (tbl idx word : Nat) (v : BitVec 64) : (s.setWord tbl idx word v).program = s.program := rfl
@[simp] theorem ring_setWord (s : State) (tbl idx word : Nat) (v : BitVec 64) : (s.setWord tbl idx word v).ring = s.ring := rfl
@[simp] theorem mailbox_setWord (s : State) (tbl idx word : Nat) (v : BitVec 64) : (s.setWord tbl idx word v).mailbox = s.mailbox := rfl
@[simp] theorem bell_setWord (s : State) (tbl idx word : Nat) (v : BitVec 64) : (s.setWord tbl idx word v).bell = s.bell := rfl
@[simp] theorem link_setWord (s : State) (tbl idx word : Nat) (v : BitVec 64) : (s.setWord tbl idx word v).link = s.link := rfl
@[simp] theorem decoder_setWord (s : State) (tbl idx word : Nat) (v : BitVec 64) : (s.setWord tbl idx word v).decoder = s.decoder := rfl
@[simp] theorem page_setWord (s : State) (tbl idx word : Nat) (v : BitVec 64) : (s.setWord tbl idx word v).page = s.page := rfl
@[simp] theorem region_setWord (s : State) (tbl idx word : Nat) (v : BitVec 64) : (s.setWord tbl idx word v).region = s.region := rfl
@[simp] theorem frame_setWord (s : State) (tbl idx word : Nat) (v : BitVec 64) : (s.setWord tbl idx word v).frame = s.frame := rfl
@[simp] theorem pool_setWord (s : State) (tbl idx word : Nat) (v : BitVec 64) : (s.setWord tbl idx word v).pool = s.pool := rfl
@[simp] theorem ctx_setWord (s : State) (tbl idx word : Nat) (v : BitVec 64) : (s.setWord tbl idx word v).ctx = s.ctx := rfl
@[simp] theorem chan_setWord (s : State) (tbl idx word : Nat) (v : BitVec 64) : (s.setWord tbl idx word v).chan = s.chan := rfl
@[simp] theorem toll_setWord (s : State) (tbl idx word : Nat) (v : BitVec 64) : (s.setWord tbl idx word v).toll = s.toll := rfl
@[simp] theorem rb_setWord (s : State) (tbl idx word : Nat) (v : BitVec 64) : (s.setWord tbl idx word v).rb = s.rb := rfl

/-! ### wr -/
@[simp] theorem wr_board (s : State) (f : Fld) (idx v : Nat) : (s.wr f idx v).board = s.board := rfl
@[simp] theorem wr_time (s : State) (f : Fld) (idx v : Nat) : (s.wr f idx v).time = s.time := rfl
@[simp] theorem wr_own (s : State) (f : Fld) (idx v : Nat) : (s.wr f idx v).own = s.own := rfl
@[simp] theorem wr_svc (s : State) (f : Fld) (idx v : Nat) : (s.wr f idx v).svc = s.svc := rfl
@[simp] theorem wr_uncommitted (s : State) (f : Fld) (idx v : Nat) : (s.wr f idx v).uncommitted = s.uncommitted := rfl
@[simp] theorem wr_stamps (s : State) (f : Fld) (idx v : Nat) : (s.wr f idx v).stamps = s.stamps := rfl
@[simp] theorem wr_soft (s : State) (f : Fld) (idx v : Nat) : (s.wr f idx v).soft = s.soft := rfl
@[simp] theorem wr_regs (s : State) (f : Fld) (idx v : Nat) : (s.wr f idx v).regs = s.regs := rfl
@[simp] theorem wr_links (s : State) (f : Fld) (idx v : Nat) : (s.wr f idx v).links = s.links := rfl
@[simp] theorem wr_decoders (s : State) (f : Fld) (idx v : Nat) : (s.wr f idx v).decoders = s.decoders := rfl
@[simp] theorem wr_coh (s : State) (f : Fld) (idx v : Nat) : (s.wr f idx v).coh = s.coh := rfl
@[simp] theorem wr_plc (s : State) (f : Fld) (idx v : Nat) : (s.wr f idx v).plc = s.plc := rfl
@[simp] theorem wr_stow (s : State) (f : Fld) (idx v : Nat) : (s.wr f idx v).stow = s.stow := rfl
@[simp] theorem wr_sealing (s : State) (f : Fld) (idx v : Nat) : (s.wr f idx v).sealing = s.sealing := rfl
@[simp] theorem wr_dram (s : State) (f : Fld) (idx v : Nat) : (s.wr f idx v).dram = s.dram := rfl
@[simp] theorem wr_traffic (s : State) (f : Fld) (idx v : Nat) : (s.wr f idx v).traffic = s.traffic := rfl
@[simp] theorem wr_aon (s : State) (f : Fld) (idx v : Nat) : (s.wr f idx v).aon = s.aon := rfl
@[simp] theorem wr_mile (s : State) (f : Fld) (idx v : Nat) : (s.wr f idx v).mile = s.mile := rfl
@[simp] theorem wr_freeUsed (s : State) (f : Fld) (idx v : Nat) : (s.wr f idx v).freeUsed = s.freeUsed := rfl
@[simp] theorem wr_out (s : State) (f : Fld) (idx v : Nat) : (s.wr f idx v).out = s.out := rfl
@[simp] theorem wr_pending (s : State) (f : Fld) (idx v : Nat) : (s.wr f idx v).pending = s.pending := rfl
@[simp] theorem thread_wr (s : State) (f : Fld) (idx v : Nat) : (s.wr f idx v).thread = s.thread := rfl
@[simp] theorem wf_wr (s : State) (f : Fld) (idx v : Nat) : (s.wr f idx v).wf = s.wf := rfl
@[simp] theorem g_wr (s : State) (f : Fld) (idx v : Nat) : (s.wr f idx v).g = s.g := rfl
@[simp] theorem program_wr (s : State) (f : Fld) (idx v : Nat) : (s.wr f idx v).program = s.program := rfl
@[simp] theorem ring_wr (s : State) (f : Fld) (idx v : Nat) : (s.wr f idx v).ring = s.ring := rfl
@[simp] theorem mailbox_wr (s : State) (f : Fld) (idx v : Nat) : (s.wr f idx v).mailbox = s.mailbox := rfl
@[simp] theorem bell_wr (s : State) (f : Fld) (idx v : Nat) : (s.wr f idx v).bell = s.bell := rfl
@[simp] theorem link_wr (s : State) (f : Fld) (idx v : Nat) : (s.wr f idx v).link = s.link := rfl
@[simp] theorem decoder_wr (s : State) (f : Fld) (idx v : Nat) : (s.wr f idx v).decoder = s.decoder := rfl
@[simp] theorem page_wr (s : State) (f : Fld) (idx v : Nat) : (s.wr f idx v).page = s.page := rfl
@[simp] theorem region_wr (s : State) (f : Fld) (idx v : Nat) : (s.wr f idx v).region = s.region := rfl
@[simp] theorem frame_wr (s : State) (f : Fld) (idx v : Nat) : (s.wr f idx v).frame = s.frame := rfl
@[simp] theorem pool_wr (s : State) (f : Fld) (idx v : Nat) : (s.wr f idx v).pool = s.pool := rfl
@[simp] theorem ctx_wr (s : State) (f : Fld) (idx v : Nat) : (s.wr f idx v).ctx = s.ctx := rfl
@[simp] theorem chan_wr (s : State) (f : Fld) (idx v : Nat) : (s.wr f idx v).chan = s.chan := rfl
@[simp] theorem toll_wr (s : State) (f : Fld) (idx v : Nat) : (s.wr f idx v).toll = s.toll := rfl
@[simp] theorem rb_wr (s : State) (f : Fld) (idx v : Nat) : (s.wr f idx v).rb = s.rb := rfl

/-! ### stamp: marking bits as set in this cycle changes nothing but the marks (R423) -/
@[simp] theorem stamp_board (s : State) (tbl idx word : Nat) (m : BitVec 64) : (s.stamp tbl idx word m).board = s.board := rfl
@[simp] theorem stamp_time (s : State) (tbl idx word : Nat) (m : BitVec 64) : (s.stamp tbl idx word m).time = s.time := rfl
@[simp] theorem stamp_own (s : State) (tbl idx word : Nat) (m : BitVec 64) : (s.stamp tbl idx word m).own = s.own := rfl
@[simp] theorem stamp_svc (s : State) (tbl idx word : Nat) (m : BitVec 64) : (s.stamp tbl idx word m).svc = s.svc := rfl
@[simp] theorem stamp_uncommitted (s : State) (tbl idx word : Nat) (m : BitVec 64) : (s.stamp tbl idx word m).uncommitted = s.uncommitted := rfl
@[simp] theorem stamp_soft (s : State) (tbl idx word : Nat) (m : BitVec 64) : (s.stamp tbl idx word m).soft = s.soft := rfl
@[simp] theorem stamp_regs (s : State) (tbl idx word : Nat) (m : BitVec 64) : (s.stamp tbl idx word m).regs = s.regs := rfl
@[simp] theorem stamp_links (s : State) (tbl idx word : Nat) (m : BitVec 64) : (s.stamp tbl idx word m).links = s.links := rfl
@[simp] theorem stamp_decoders (s : State) (tbl idx word : Nat) (m : BitVec 64) : (s.stamp tbl idx word m).decoders = s.decoders := rfl
@[simp] theorem stamp_coh (s : State) (tbl idx word : Nat) (m : BitVec 64) : (s.stamp tbl idx word m).coh = s.coh := rfl
@[simp] theorem stamp_plc (s : State) (tbl idx word : Nat) (m : BitVec 64) : (s.stamp tbl idx word m).plc = s.plc := rfl
@[simp] theorem stamp_stow (s : State) (tbl idx word : Nat) (m : BitVec 64) : (s.stamp tbl idx word m).stow = s.stow := rfl
@[simp] theorem stamp_sealing (s : State) (tbl idx word : Nat) (m : BitVec 64) : (s.stamp tbl idx word m).sealing = s.sealing := rfl
@[simp] theorem stamp_dram (s : State) (tbl idx word : Nat) (m : BitVec 64) : (s.stamp tbl idx word m).dram = s.dram := rfl
@[simp] theorem stamp_traffic (s : State) (tbl idx word : Nat) (m : BitVec 64) : (s.stamp tbl idx word m).traffic = s.traffic := rfl
@[simp] theorem stamp_aon (s : State) (tbl idx word : Nat) (m : BitVec 64) : (s.stamp tbl idx word m).aon = s.aon := rfl
@[simp] theorem stamp_mile (s : State) (tbl idx word : Nat) (m : BitVec 64) : (s.stamp tbl idx word m).mile = s.mile := rfl
@[simp] theorem stamp_freeUsed (s : State) (tbl idx word : Nat) (m : BitVec 64) : (s.stamp tbl idx word m).freeUsed = s.freeUsed := rfl
@[simp] theorem stamp_out (s : State) (tbl idx word : Nat) (m : BitVec 64) : (s.stamp tbl idx word m).out = s.out := rfl
@[simp] theorem stamp_pending (s : State) (tbl idx word : Nat) (m : BitVec 64) : (s.stamp tbl idx word m).pending = s.pending := rfl
@[simp] theorem thread_stamp (s : State) (tbl idx word : Nat) (m : BitVec 64) : (s.stamp tbl idx word m).thread = s.thread := rfl
@[simp] theorem wf_stamp (s : State) (tbl idx word : Nat) (m : BitVec 64) : (s.stamp tbl idx word m).wf = s.wf := rfl
@[simp] theorem g_stamp (s : State) (tbl idx word : Nat) (m : BitVec 64) : (s.stamp tbl idx word m).g = s.g := rfl
@[simp] theorem program_stamp (s : State) (tbl idx word : Nat) (m : BitVec 64) : (s.stamp tbl idx word m).program = s.program := rfl
@[simp] theorem ring_stamp (s : State) (tbl idx word : Nat) (m : BitVec 64) : (s.stamp tbl idx word m).ring = s.ring := rfl
@[simp] theorem mailbox_stamp (s : State) (tbl idx word : Nat) (m : BitVec 64) : (s.stamp tbl idx word m).mailbox = s.mailbox := rfl
@[simp] theorem bell_stamp (s : State) (tbl idx word : Nat) (m : BitVec 64) : (s.stamp tbl idx word m).bell = s.bell := rfl
@[simp] theorem link_stamp (s : State) (tbl idx word : Nat) (m : BitVec 64) : (s.stamp tbl idx word m).link = s.link := rfl
@[simp] theorem decoder_stamp (s : State) (tbl idx word : Nat) (m : BitVec 64) : (s.stamp tbl idx word m).decoder = s.decoder := rfl
@[simp] theorem page_stamp (s : State) (tbl idx word : Nat) (m : BitVec 64) : (s.stamp tbl idx word m).page = s.page := rfl
@[simp] theorem region_stamp (s : State) (tbl idx word : Nat) (m : BitVec 64) : (s.stamp tbl idx word m).region = s.region := rfl
@[simp] theorem frame_stamp (s : State) (tbl idx word : Nat) (m : BitVec 64) : (s.stamp tbl idx word m).frame = s.frame := rfl
@[simp] theorem pool_stamp (s : State) (tbl idx word : Nat) (m : BitVec 64) : (s.stamp tbl idx word m).pool = s.pool := rfl
@[simp] theorem ctx_stamp (s : State) (tbl idx word : Nat) (m : BitVec 64) : (s.stamp tbl idx word m).ctx = s.ctx := rfl
@[simp] theorem chan_stamp (s : State) (tbl idx word : Nat) (m : BitVec 64) : (s.stamp tbl idx word m).chan = s.chan := rfl
@[simp] theorem toll_stamp (s : State) (tbl idx word : Nat) (m : BitVec 64) : (s.stamp tbl idx word m).toll = s.toll := rfl
@[simp] theorem rb_stamp (s : State) (tbl idx word : Nat) (m : BitVec 64) : (s.stamp tbl idx word m).rb = s.rb := rfl
@[simp] theorem stamp_tab (s : State) (tbl idx word : Nat) (m : BitVec 64) : (s.stamp tbl idx word m).tab = s.tab := rfl
@[simp] theorem wordAt_stamp (s : State) (tbl idx word : Nat) (m : BitVec 64) : (s.stamp tbl idx word m).wordAt = s.wordAt := rfl
@[simp] theorem rd_stamp (s : State) (tbl idx word : Nat) (m : BitVec 64) : (s.stamp tbl idx word m).rd = s.rd := rfl
@[simp] theorem rdB_stamp (s : State) (tbl idx word : Nat) (m : BitVec 64) : (s.stamp tbl idx word m).rdB = s.rdB := rfl

/-! ### setThread -/
@[simp] theorem setThread_board (s : State) (w t : Nat) (x : Thread) : (s.setThread w t x).board = s.board := rfl
@[simp] theorem setThread_time (s : State) (w t : Nat) (x : Thread) : (s.setThread w t x).time = s.time := rfl
@[simp] theorem setThread_own (s : State) (w t : Nat) (x : Thread) : (s.setThread w t x).own = s.own := rfl
@[simp] theorem setThread_svc (s : State) (w t : Nat) (x : Thread) : (s.setThread w t x).svc = s.svc := rfl
@[simp] theorem setThread_tab (s : State) (w t : Nat) (x : Thread) : (s.setThread w t x).tab = s.tab := rfl
@[simp] theorem setThread_uncommitted (s : State) (w t : Nat) (x : Thread) : (s.setThread w t x).uncommitted = s.uncommitted := rfl
@[simp] theorem setThread_stamps (s : State) (w t : Nat) (x : Thread) : (s.setThread w t x).stamps = s.stamps := rfl
@[simp] theorem setThread_regs (s : State) (w t : Nat) (x : Thread) : (s.setThread w t x).regs = s.regs := rfl
@[simp] theorem setThread_links (s : State) (w t : Nat) (x : Thread) : (s.setThread w t x).links = s.links := rfl
@[simp] theorem setThread_decoders (s : State) (w t : Nat) (x : Thread) : (s.setThread w t x).decoders = s.decoders := rfl
@[simp] theorem setThread_coh (s : State) (w t : Nat) (x : Thread) : (s.setThread w t x).coh = s.coh := rfl
@[simp] theorem setThread_plc (s : State) (w t : Nat) (x : Thread) : (s.setThread w t x).plc = s.plc := rfl
@[simp] theorem setThread_stow (s : State) (w t : Nat) (x : Thread) : (s.setThread w t x).stow = s.stow := rfl
@[simp] theorem setThread_sealing (s : State) (w t : Nat) (x : Thread) : (s.setThread w t x).sealing = s.sealing := rfl
@[simp] theorem setThread_dram (s : State) (w t : Nat) (x : Thread) : (s.setThread w t x).dram = s.dram := rfl
@[simp] theorem setThread_traffic (s : State) (w t : Nat) (x : Thread) : (s.setThread w t x).traffic = s.traffic := rfl
@[simp] theorem setThread_aon (s : State) (w t : Nat) (x : Thread) : (s.setThread w t x).aon = s.aon := rfl
@[simp] theorem setThread_mile (s : State) (w t : Nat) (x : Thread) : (s.setThread w t x).mile = s.mile := rfl
@[simp] theorem setThread_freeUsed (s : State) (w t : Nat) (x : Thread) : (s.setThread w t x).freeUsed = s.freeUsed := rfl
@[simp] theorem setThread_out (s : State) (w t : Nat) (x : Thread) : (s.setThread w t x).out = s.out := rfl
@[simp] theorem setThread_pending (s : State) (w t : Nat) (x : Thread) : (s.setThread w t x).pending = s.pending := rfl
@[simp] theorem wf_setThread (s : State) (w t : Nat) (x : Thread) : (s.setThread w t x).wf = s.wf := rfl
@[simp] theorem g_setThread (s : State) (w t : Nat) (x : Thread) : (s.setThread w t x).g = s.g := rfl
@[simp] theorem program_setThread (s : State) (w t : Nat) (x : Thread) : (s.setThread w t x).program = s.program := rfl
@[simp] theorem ring_setThread (s : State) (w t : Nat) (x : Thread) : (s.setThread w t x).ring = s.ring := rfl
@[simp] theorem mailbox_setThread (s : State) (w t : Nat) (x : Thread) : (s.setThread w t x).mailbox = s.mailbox := rfl
@[simp] theorem bell_setThread (s : State) (w t : Nat) (x : Thread) : (s.setThread w t x).bell = s.bell := rfl
@[simp] theorem link_setThread (s : State) (w t : Nat) (x : Thread) : (s.setThread w t x).link = s.link := rfl
@[simp] theorem decoder_setThread (s : State) (w t : Nat) (x : Thread) : (s.setThread w t x).decoder = s.decoder := rfl
@[simp] theorem page_setThread (s : State) (w t : Nat) (x : Thread) : (s.setThread w t x).page = s.page := rfl
@[simp] theorem region_setThread (s : State) (w t : Nat) (x : Thread) : (s.setThread w t x).region = s.region := rfl
@[simp] theorem frame_setThread (s : State) (w t : Nat) (x : Thread) : (s.setThread w t x).frame = s.frame := rfl
@[simp] theorem pool_setThread (s : State) (w t : Nat) (x : Thread) : (s.setThread w t x).pool = s.pool := rfl
@[simp] theorem ctx_setThread (s : State) (w t : Nat) (x : Thread) : (s.setThread w t x).ctx = s.ctx := rfl
@[simp] theorem chan_setThread (s : State) (w t : Nat) (x : Thread) : (s.setThread w t x).chan = s.chan := rfl
@[simp] theorem toll_setThread (s : State) (w t : Nat) (x : Thread) : (s.setThread w t x).toll = s.toll := rfl
@[simp] theorem rb_setThread (s : State) (w t : Nat) (x : Thread) : (s.setThread w t x).rb = s.rb := rfl
@[simp] theorem wordAt_setThread (s : State) (w t : Nat) (x : Thread) : (s.setThread w t x).wordAt = s.wordAt := rfl
@[simp] theorem rd_setThread (s : State) (w t : Nat) (x : Thread) : (s.setThread w t x).rd = s.rd := rfl
@[simp] theorem rdB_setThread (s : State) (w t : Nat) (x : Thread) : (s.setThread w t x).rdB = s.rdB := rfl

/-! ### setWf -/
@[simp] theorem setWf_board (s : State) (w : Nat) (x : Wf) : (s.setWf w x).board = s.board := rfl
@[simp] theorem setWf_time (s : State) (w : Nat) (x : Wf) : (s.setWf w x).time = s.time := rfl
@[simp] theorem setWf_own (s : State) (w : Nat) (x : Wf) : (s.setWf w x).own = s.own := rfl
@[simp] theorem setWf_svc (s : State) (w : Nat) (x : Wf) : (s.setWf w x).svc = s.svc := rfl
@[simp] theorem setWf_tab (s : State) (w : Nat) (x : Wf) : (s.setWf w x).tab = s.tab := rfl
@[simp] theorem setWf_uncommitted (s : State) (w : Nat) (x : Wf) : (s.setWf w x).uncommitted = s.uncommitted := rfl
@[simp] theorem setWf_stamps (s : State) (w : Nat) (x : Wf) : (s.setWf w x).stamps = s.stamps := rfl
@[simp] theorem setWf_regs (s : State) (w : Nat) (x : Wf) : (s.setWf w x).regs = s.regs := rfl
@[simp] theorem setWf_links (s : State) (w : Nat) (x : Wf) : (s.setWf w x).links = s.links := rfl
@[simp] theorem setWf_decoders (s : State) (w : Nat) (x : Wf) : (s.setWf w x).decoders = s.decoders := rfl
@[simp] theorem setWf_coh (s : State) (w : Nat) (x : Wf) : (s.setWf w x).coh = s.coh := rfl
@[simp] theorem setWf_plc (s : State) (w : Nat) (x : Wf) : (s.setWf w x).plc = s.plc := rfl
@[simp] theorem setWf_stow (s : State) (w : Nat) (x : Wf) : (s.setWf w x).stow = s.stow := rfl
@[simp] theorem setWf_sealing (s : State) (w : Nat) (x : Wf) : (s.setWf w x).sealing = s.sealing := rfl
@[simp] theorem setWf_dram (s : State) (w : Nat) (x : Wf) : (s.setWf w x).dram = s.dram := rfl
@[simp] theorem setWf_traffic (s : State) (w : Nat) (x : Wf) : (s.setWf w x).traffic = s.traffic := rfl
@[simp] theorem setWf_aon (s : State) (w : Nat) (x : Wf) : (s.setWf w x).aon = s.aon := rfl
@[simp] theorem setWf_mile (s : State) (w : Nat) (x : Wf) : (s.setWf w x).mile = s.mile := rfl
@[simp] theorem setWf_freeUsed (s : State) (w : Nat) (x : Wf) : (s.setWf w x).freeUsed = s.freeUsed := rfl
@[simp] theorem setWf_out (s : State) (w : Nat) (x : Wf) : (s.setWf w x).out = s.out := rfl
@[simp] theorem setWf_pending (s : State) (w : Nat) (x : Wf) : (s.setWf w x).pending = s.pending := rfl
@[simp] theorem thread_setWf (s : State) (w : Nat) (x : Wf) : (s.setWf w x).thread = s.thread := rfl
@[simp] theorem g_setWf (s : State) (w : Nat) (x : Wf) : (s.setWf w x).g = s.g := rfl
@[simp] theorem program_setWf (s : State) (w : Nat) (x : Wf) : (s.setWf w x).program = s.program := rfl
@[simp] theorem ring_setWf (s : State) (w : Nat) (x : Wf) : (s.setWf w x).ring = s.ring := rfl
@[simp] theorem mailbox_setWf (s : State) (w : Nat) (x : Wf) : (s.setWf w x).mailbox = s.mailbox := rfl
@[simp] theorem bell_setWf (s : State) (w : Nat) (x : Wf) : (s.setWf w x).bell = s.bell := rfl
@[simp] theorem link_setWf (s : State) (w : Nat) (x : Wf) : (s.setWf w x).link = s.link := rfl
@[simp] theorem decoder_setWf (s : State) (w : Nat) (x : Wf) : (s.setWf w x).decoder = s.decoder := rfl
@[simp] theorem page_setWf (s : State) (w : Nat) (x : Wf) : (s.setWf w x).page = s.page := rfl
@[simp] theorem region_setWf (s : State) (w : Nat) (x : Wf) : (s.setWf w x).region = s.region := rfl
@[simp] theorem frame_setWf (s : State) (w : Nat) (x : Wf) : (s.setWf w x).frame = s.frame := rfl
@[simp] theorem pool_setWf (s : State) (w : Nat) (x : Wf) : (s.setWf w x).pool = s.pool := rfl
@[simp] theorem ctx_setWf (s : State) (w : Nat) (x : Wf) : (s.setWf w x).ctx = s.ctx := rfl
@[simp] theorem chan_setWf (s : State) (w : Nat) (x : Wf) : (s.setWf w x).chan = s.chan := rfl
@[simp] theorem toll_setWf (s : State) (w : Nat) (x : Wf) : (s.setWf w x).toll = s.toll := rfl
@[simp] theorem rb_setWf (s : State) (w : Nat) (x : Wf) : (s.setWf w x).rb = s.rb := rfl
@[simp] theorem wordAt_setWf (s : State) (w : Nat) (x : Wf) : (s.setWf w x).wordAt = s.wordAt := rfl
@[simp] theorem rd_setWf (s : State) (w : Nat) (x : Wf) : (s.setWf w x).rd = s.rd := rfl
@[simp] theorem rdB_setWf (s : State) (w : Nat) (x : Wf) : (s.setWf w x).rdB = s.rdB := rfl

/-! ### setProgram -/
@[simp] theorem setProgram_board (s : State) (n : Nat) (x : Option Program) : (s.setProgram n x).board = s.board := rfl
@[simp] theorem setProgram_time (s : State) (n : Nat) (x : Option Program) : (s.setProgram n x).time = s.time := rfl
@[simp] theorem setProgram_own (s : State) (n : Nat) (x : Option Program) : (s.setProgram n x).own = s.own := rfl
@[simp] theorem setProgram_svc (s : State) (n : Nat) (x : Option Program) : (s.setProgram n x).svc = s.svc := rfl
@[simp] theorem setProgram_tab (s : State) (n : Nat) (x : Option Program) : (s.setProgram n x).tab = s.tab := rfl
@[simp] theorem setProgram_uncommitted (s : State) (n : Nat) (x : Option Program) : (s.setProgram n x).uncommitted = s.uncommitted := rfl
@[simp] theorem setProgram_stamps (s : State) (n : Nat) (x : Option Program) : (s.setProgram n x).stamps = s.stamps := rfl
@[simp] theorem setProgram_regs (s : State) (n : Nat) (x : Option Program) : (s.setProgram n x).regs = s.regs := rfl
@[simp] theorem setProgram_links (s : State) (n : Nat) (x : Option Program) : (s.setProgram n x).links = s.links := rfl
@[simp] theorem setProgram_decoders (s : State) (n : Nat) (x : Option Program) : (s.setProgram n x).decoders = s.decoders := rfl
@[simp] theorem setProgram_coh (s : State) (n : Nat) (x : Option Program) : (s.setProgram n x).coh = s.coh := rfl
@[simp] theorem setProgram_plc (s : State) (n : Nat) (x : Option Program) : (s.setProgram n x).plc = s.plc := rfl
@[simp] theorem setProgram_stow (s : State) (n : Nat) (x : Option Program) : (s.setProgram n x).stow = s.stow := rfl
@[simp] theorem setProgram_sealing (s : State) (n : Nat) (x : Option Program) : (s.setProgram n x).sealing = s.sealing := rfl
@[simp] theorem setProgram_dram (s : State) (n : Nat) (x : Option Program) : (s.setProgram n x).dram = s.dram := rfl
@[simp] theorem setProgram_traffic (s : State) (n : Nat) (x : Option Program) : (s.setProgram n x).traffic = s.traffic := rfl
@[simp] theorem setProgram_aon (s : State) (n : Nat) (x : Option Program) : (s.setProgram n x).aon = s.aon := rfl
@[simp] theorem setProgram_mile (s : State) (n : Nat) (x : Option Program) : (s.setProgram n x).mile = s.mile := rfl
@[simp] theorem setProgram_freeUsed (s : State) (n : Nat) (x : Option Program) : (s.setProgram n x).freeUsed = s.freeUsed := rfl
@[simp] theorem setProgram_out (s : State) (n : Nat) (x : Option Program) : (s.setProgram n x).out = s.out := rfl
@[simp] theorem setProgram_pending (s : State) (n : Nat) (x : Option Program) : (s.setProgram n x).pending = s.pending := rfl
@[simp] theorem thread_setProgram (s : State) (n : Nat) (x : Option Program) : (s.setProgram n x).thread = s.thread := rfl
@[simp] theorem wf_setProgram (s : State) (n : Nat) (x : Option Program) : (s.setProgram n x).wf = s.wf := rfl
@[simp] theorem g_setProgram (s : State) (n : Nat) (x : Option Program) : (s.setProgram n x).g = s.g := rfl
@[simp] theorem ring_setProgram (s : State) (n : Nat) (x : Option Program) : (s.setProgram n x).ring = s.ring := rfl
@[simp] theorem mailbox_setProgram (s : State) (n : Nat) (x : Option Program) : (s.setProgram n x).mailbox = s.mailbox := rfl
@[simp] theorem bell_setProgram (s : State) (n : Nat) (x : Option Program) : (s.setProgram n x).bell = s.bell := rfl
@[simp] theorem link_setProgram (s : State) (n : Nat) (x : Option Program) : (s.setProgram n x).link = s.link := rfl
@[simp] theorem decoder_setProgram (s : State) (n : Nat) (x : Option Program) : (s.setProgram n x).decoder = s.decoder := rfl
@[simp] theorem page_setProgram (s : State) (n : Nat) (x : Option Program) : (s.setProgram n x).page = s.page := rfl
@[simp] theorem region_setProgram (s : State) (n : Nat) (x : Option Program) : (s.setProgram n x).region = s.region := rfl
@[simp] theorem frame_setProgram (s : State) (n : Nat) (x : Option Program) : (s.setProgram n x).frame = s.frame := rfl
@[simp] theorem pool_setProgram (s : State) (n : Nat) (x : Option Program) : (s.setProgram n x).pool = s.pool := rfl
@[simp] theorem ctx_setProgram (s : State) (n : Nat) (x : Option Program) : (s.setProgram n x).ctx = s.ctx := rfl
@[simp] theorem chan_setProgram (s : State) (n : Nat) (x : Option Program) : (s.setProgram n x).chan = s.chan := rfl
@[simp] theorem toll_setProgram (s : State) (n : Nat) (x : Option Program) : (s.setProgram n x).toll = s.toll := rfl
@[simp] theorem rb_setProgram (s : State) (n : Nat) (x : Option Program) : (s.setProgram n x).rb = s.rb := rfl
@[simp] theorem wordAt_setProgram (s : State) (n : Nat) (x : Option Program) : (s.setProgram n x).wordAt = s.wordAt := rfl
@[simp] theorem rd_setProgram (s : State) (n : Nat) (x : Option Program) : (s.setProgram n x).rd = s.rd := rfl
@[simp] theorem rdB_setProgram (s : State) (n : Nat) (x : Option Program) : (s.setProgram n x).rdB = s.rdB := rfl

/-! ### setScr -/
@[simp] theorem setScr_board (s : State) (w a : Nat) (x : List (BitVec 8)) : (s.setScr w a x).board = s.board := rfl
@[simp] theorem setScr_time (s : State) (w a : Nat) (x : List (BitVec 8)) : (s.setScr w a x).time = s.time := rfl
@[simp] theorem setScr_own (s : State) (w a : Nat) (x : List (BitVec 8)) : (s.setScr w a x).own = s.own := rfl
@[simp] theorem setScr_svc (s : State) (w a : Nat) (x : List (BitVec 8)) : (s.setScr w a x).svc = s.svc := rfl
@[simp] theorem setScr_tab (s : State) (w a : Nat) (x : List (BitVec 8)) : (s.setScr w a x).tab = s.tab := rfl
@[simp] theorem setScr_uncommitted (s : State) (w a : Nat) (x : List (BitVec 8)) : (s.setScr w a x).uncommitted = s.uncommitted := rfl
@[simp] theorem setScr_stamps (s : State) (w a : Nat) (x : List (BitVec 8)) : (s.setScr w a x).stamps = s.stamps := rfl
@[simp] theorem setScr_regs (s : State) (w a : Nat) (x : List (BitVec 8)) : (s.setScr w a x).regs = s.regs := rfl
@[simp] theorem setScr_links (s : State) (w a : Nat) (x : List (BitVec 8)) : (s.setScr w a x).links = s.links := rfl
@[simp] theorem setScr_decoders (s : State) (w a : Nat) (x : List (BitVec 8)) : (s.setScr w a x).decoders = s.decoders := rfl
@[simp] theorem setScr_coh (s : State) (w a : Nat) (x : List (BitVec 8)) : (s.setScr w a x).coh = s.coh := rfl
@[simp] theorem setScr_plc (s : State) (w a : Nat) (x : List (BitVec 8)) : (s.setScr w a x).plc = s.plc := rfl
@[simp] theorem setScr_stow (s : State) (w a : Nat) (x : List (BitVec 8)) : (s.setScr w a x).stow = s.stow := rfl
@[simp] theorem setScr_sealing (s : State) (w a : Nat) (x : List (BitVec 8)) : (s.setScr w a x).sealing = s.sealing := rfl
@[simp] theorem setScr_dram (s : State) (w a : Nat) (x : List (BitVec 8)) : (s.setScr w a x).dram = s.dram := rfl
@[simp] theorem setScr_traffic (s : State) (w a : Nat) (x : List (BitVec 8)) : (s.setScr w a x).traffic = s.traffic := rfl
@[simp] theorem setScr_aon (s : State) (w a : Nat) (x : List (BitVec 8)) : (s.setScr w a x).aon = s.aon := rfl
@[simp] theorem setScr_mile (s : State) (w a : Nat) (x : List (BitVec 8)) : (s.setScr w a x).mile = s.mile := rfl
@[simp] theorem setScr_freeUsed (s : State) (w a : Nat) (x : List (BitVec 8)) : (s.setScr w a x).freeUsed = s.freeUsed := rfl
@[simp] theorem setScr_out (s : State) (w a : Nat) (x : List (BitVec 8)) : (s.setScr w a x).out = s.out := rfl
@[simp] theorem setScr_pending (s : State) (w a : Nat) (x : List (BitVec 8)) : (s.setScr w a x).pending = s.pending := rfl
@[simp] theorem thread_setScr (s : State) (w a : Nat) (x : List (BitVec 8)) : (s.setScr w a x).thread = s.thread := rfl
@[simp] theorem wf_setScr (s : State) (w a : Nat) (x : List (BitVec 8)) : (s.setScr w a x).wf = s.wf := rfl
@[simp] theorem g_setScr (s : State) (w a : Nat) (x : List (BitVec 8)) : (s.setScr w a x).g = s.g := rfl
@[simp] theorem program_setScr (s : State) (w a : Nat) (x : List (BitVec 8)) : (s.setScr w a x).program = s.program := rfl
@[simp] theorem ring_setScr (s : State) (w a : Nat) (x : List (BitVec 8)) : (s.setScr w a x).ring = s.ring := rfl
@[simp] theorem mailbox_setScr (s : State) (w a : Nat) (x : List (BitVec 8)) : (s.setScr w a x).mailbox = s.mailbox := rfl
@[simp] theorem bell_setScr (s : State) (w a : Nat) (x : List (BitVec 8)) : (s.setScr w a x).bell = s.bell := rfl
@[simp] theorem link_setScr (s : State) (w a : Nat) (x : List (BitVec 8)) : (s.setScr w a x).link = s.link := rfl
@[simp] theorem decoder_setScr (s : State) (w a : Nat) (x : List (BitVec 8)) : (s.setScr w a x).decoder = s.decoder := rfl
@[simp] theorem page_setScr (s : State) (w a : Nat) (x : List (BitVec 8)) : (s.setScr w a x).page = s.page := rfl
@[simp] theorem region_setScr (s : State) (w a : Nat) (x : List (BitVec 8)) : (s.setScr w a x).region = s.region := rfl
@[simp] theorem frame_setScr (s : State) (w a : Nat) (x : List (BitVec 8)) : (s.setScr w a x).frame = s.frame := rfl
@[simp] theorem pool_setScr (s : State) (w a : Nat) (x : List (BitVec 8)) : (s.setScr w a x).pool = s.pool := rfl
@[simp] theorem ctx_setScr (s : State) (w a : Nat) (x : List (BitVec 8)) : (s.setScr w a x).ctx = s.ctx := rfl
@[simp] theorem chan_setScr (s : State) (w a : Nat) (x : List (BitVec 8)) : (s.setScr w a x).chan = s.chan := rfl
@[simp] theorem toll_setScr (s : State) (w a : Nat) (x : List (BitVec 8)) : (s.setScr w a x).toll = s.toll := rfl
@[simp] theorem rb_setScr (s : State) (w a : Nat) (x : List (BitVec 8)) : (s.setScr w a x).rb = s.rb := rfl
@[simp] theorem wordAt_setScr (s : State) (w a : Nat) (x : List (BitVec 8)) : (s.setScr w a x).wordAt = s.wordAt := rfl
@[simp] theorem rd_setScr (s : State) (w a : Nat) (x : List (BitVec 8)) : (s.setScr w a x).rd = s.rd := rfl
@[simp] theorem rdB_setScr (s : State) (w a : Nat) (x : List (BitVec 8)) : (s.setScr w a x).rdB = s.rdB := rfl

/-! ### setRing -/
@[simp] theorem setRing_board (s : State) (ld r : Nat) (x : Ring) : (s.setRing ld r x).board = s.board := rfl
@[simp] theorem setRing_time (s : State) (ld r : Nat) (x : Ring) : (s.setRing ld r x).time = s.time := rfl
@[simp] theorem setRing_own (s : State) (ld r : Nat) (x : Ring) : (s.setRing ld r x).own = s.own := rfl
@[simp] theorem setRing_svc (s : State) (ld r : Nat) (x : Ring) : (s.setRing ld r x).svc = s.svc := rfl
@[simp] theorem setRing_tab (s : State) (ld r : Nat) (x : Ring) : (s.setRing ld r x).tab = s.tab := rfl
@[simp] theorem setRing_uncommitted (s : State) (ld r : Nat) (x : Ring) : (s.setRing ld r x).uncommitted = s.uncommitted := rfl
@[simp] theorem setRing_stamps (s : State) (ld r : Nat) (x : Ring) : (s.setRing ld r x).stamps = s.stamps := rfl
@[simp] theorem setRing_regs (s : State) (ld r : Nat) (x : Ring) : (s.setRing ld r x).regs = s.regs := rfl
@[simp] theorem setRing_links (s : State) (ld r : Nat) (x : Ring) : (s.setRing ld r x).links = s.links := rfl
@[simp] theorem setRing_decoders (s : State) (ld r : Nat) (x : Ring) : (s.setRing ld r x).decoders = s.decoders := rfl
@[simp] theorem setRing_coh (s : State) (ld r : Nat) (x : Ring) : (s.setRing ld r x).coh = s.coh := rfl
@[simp] theorem setRing_plc (s : State) (ld r : Nat) (x : Ring) : (s.setRing ld r x).plc = s.plc := rfl
@[simp] theorem setRing_stow (s : State) (ld r : Nat) (x : Ring) : (s.setRing ld r x).stow = s.stow := rfl
@[simp] theorem setRing_sealing (s : State) (ld r : Nat) (x : Ring) : (s.setRing ld r x).sealing = s.sealing := rfl
@[simp] theorem setRing_dram (s : State) (ld r : Nat) (x : Ring) : (s.setRing ld r x).dram = s.dram := rfl
@[simp] theorem setRing_traffic (s : State) (ld r : Nat) (x : Ring) : (s.setRing ld r x).traffic = s.traffic := rfl
@[simp] theorem setRing_aon (s : State) (ld r : Nat) (x : Ring) : (s.setRing ld r x).aon = s.aon := rfl
@[simp] theorem setRing_mile (s : State) (ld r : Nat) (x : Ring) : (s.setRing ld r x).mile = s.mile := rfl
@[simp] theorem setRing_freeUsed (s : State) (ld r : Nat) (x : Ring) : (s.setRing ld r x).freeUsed = s.freeUsed := rfl
@[simp] theorem setRing_out (s : State) (ld r : Nat) (x : Ring) : (s.setRing ld r x).out = s.out := rfl
@[simp] theorem setRing_pending (s : State) (ld r : Nat) (x : Ring) : (s.setRing ld r x).pending = s.pending := rfl
@[simp] theorem thread_setRing (s : State) (ld r : Nat) (x : Ring) : (s.setRing ld r x).thread = s.thread := rfl
@[simp] theorem wf_setRing (s : State) (ld r : Nat) (x : Ring) : (s.setRing ld r x).wf = s.wf := rfl
@[simp] theorem g_setRing (s : State) (ld r : Nat) (x : Ring) : (s.setRing ld r x).g = s.g := rfl
@[simp] theorem program_setRing (s : State) (ld r : Nat) (x : Ring) : (s.setRing ld r x).program = s.program := rfl
@[simp] theorem mailbox_setRing (s : State) (ld r : Nat) (x : Ring) : (s.setRing ld r x).mailbox = s.mailbox := rfl
@[simp] theorem bell_setRing (s : State) (ld r : Nat) (x : Ring) : (s.setRing ld r x).bell = s.bell := rfl
@[simp] theorem link_setRing (s : State) (ld r : Nat) (x : Ring) : (s.setRing ld r x).link = s.link := rfl
@[simp] theorem decoder_setRing (s : State) (ld r : Nat) (x : Ring) : (s.setRing ld r x).decoder = s.decoder := rfl
@[simp] theorem page_setRing (s : State) (ld r : Nat) (x : Ring) : (s.setRing ld r x).page = s.page := rfl
@[simp] theorem region_setRing (s : State) (ld r : Nat) (x : Ring) : (s.setRing ld r x).region = s.region := rfl
@[simp] theorem frame_setRing (s : State) (ld r : Nat) (x : Ring) : (s.setRing ld r x).frame = s.frame := rfl
@[simp] theorem pool_setRing (s : State) (ld r : Nat) (x : Ring) : (s.setRing ld r x).pool = s.pool := rfl
@[simp] theorem ctx_setRing (s : State) (ld r : Nat) (x : Ring) : (s.setRing ld r x).ctx = s.ctx := rfl
@[simp] theorem chan_setRing (s : State) (ld r : Nat) (x : Ring) : (s.setRing ld r x).chan = s.chan := rfl
@[simp] theorem toll_setRing (s : State) (ld r : Nat) (x : Ring) : (s.setRing ld r x).toll = s.toll := rfl
@[simp] theorem rb_setRing (s : State) (ld r : Nat) (x : Ring) : (s.setRing ld r x).rb = s.rb := rfl
@[simp] theorem wordAt_setRing (s : State) (ld r : Nat) (x : Ring) : (s.setRing ld r x).wordAt = s.wordAt := rfl
@[simp] theorem rd_setRing (s : State) (ld r : Nat) (x : Ring) : (s.setRing ld r x).rd = s.rd := rfl
@[simp] theorem rdB_setRing (s : State) (ld r : Nat) (x : Ring) : (s.setRing ld r x).rdB = s.rdB := rfl

/-! ### setMailbox -/
@[simp] theorem setMailbox_board (s : State) (f : Nat) (b : Bool) (m : Nat) (x : Mailbox) : (s.setMailbox f b m x).board = s.board := rfl
@[simp] theorem setMailbox_time (s : State) (f : Nat) (b : Bool) (m : Nat) (x : Mailbox) : (s.setMailbox f b m x).time = s.time := rfl
@[simp] theorem setMailbox_own (s : State) (f : Nat) (b : Bool) (m : Nat) (x : Mailbox) : (s.setMailbox f b m x).own = s.own := rfl
@[simp] theorem setMailbox_svc (s : State) (f : Nat) (b : Bool) (m : Nat) (x : Mailbox) : (s.setMailbox f b m x).svc = s.svc := rfl
@[simp] theorem setMailbox_tab (s : State) (f : Nat) (b : Bool) (m : Nat) (x : Mailbox) : (s.setMailbox f b m x).tab = s.tab := rfl
@[simp] theorem setMailbox_uncommitted (s : State) (f : Nat) (b : Bool) (m : Nat) (x : Mailbox) : (s.setMailbox f b m x).uncommitted = s.uncommitted := rfl
@[simp] theorem setMailbox_stamps (s : State) (f : Nat) (b : Bool) (m : Nat) (x : Mailbox) : (s.setMailbox f b m x).stamps = s.stamps := rfl
@[simp] theorem setMailbox_regs (s : State) (f : Nat) (b : Bool) (m : Nat) (x : Mailbox) : (s.setMailbox f b m x).regs = s.regs := rfl
@[simp] theorem setMailbox_links (s : State) (f : Nat) (b : Bool) (m : Nat) (x : Mailbox) : (s.setMailbox f b m x).links = s.links := rfl
@[simp] theorem setMailbox_decoders (s : State) (f : Nat) (b : Bool) (m : Nat) (x : Mailbox) : (s.setMailbox f b m x).decoders = s.decoders := rfl
@[simp] theorem setMailbox_coh (s : State) (f : Nat) (b : Bool) (m : Nat) (x : Mailbox) : (s.setMailbox f b m x).coh = s.coh := rfl
@[simp] theorem setMailbox_plc (s : State) (f : Nat) (b : Bool) (m : Nat) (x : Mailbox) : (s.setMailbox f b m x).plc = s.plc := rfl
@[simp] theorem setMailbox_stow (s : State) (f : Nat) (b : Bool) (m : Nat) (x : Mailbox) : (s.setMailbox f b m x).stow = s.stow := rfl
@[simp] theorem setMailbox_sealing (s : State) (f : Nat) (b : Bool) (m : Nat) (x : Mailbox) : (s.setMailbox f b m x).sealing = s.sealing := rfl
@[simp] theorem setMailbox_dram (s : State) (f : Nat) (b : Bool) (m : Nat) (x : Mailbox) : (s.setMailbox f b m x).dram = s.dram := rfl
@[simp] theorem setMailbox_traffic (s : State) (f : Nat) (b : Bool) (m : Nat) (x : Mailbox) : (s.setMailbox f b m x).traffic = s.traffic := rfl
@[simp] theorem setMailbox_aon (s : State) (f : Nat) (b : Bool) (m : Nat) (x : Mailbox) : (s.setMailbox f b m x).aon = s.aon := rfl
@[simp] theorem setMailbox_mile (s : State) (f : Nat) (b : Bool) (m : Nat) (x : Mailbox) : (s.setMailbox f b m x).mile = s.mile := rfl
@[simp] theorem setMailbox_freeUsed (s : State) (f : Nat) (b : Bool) (m : Nat) (x : Mailbox) : (s.setMailbox f b m x).freeUsed = s.freeUsed := rfl
@[simp] theorem setMailbox_out (s : State) (f : Nat) (b : Bool) (m : Nat) (x : Mailbox) : (s.setMailbox f b m x).out = s.out := rfl
@[simp] theorem setMailbox_pending (s : State) (f : Nat) (b : Bool) (m : Nat) (x : Mailbox) : (s.setMailbox f b m x).pending = s.pending := rfl
@[simp] theorem thread_setMailbox (s : State) (f : Nat) (b : Bool) (m : Nat) (x : Mailbox) : (s.setMailbox f b m x).thread = s.thread := rfl
@[simp] theorem wf_setMailbox (s : State) (f : Nat) (b : Bool) (m : Nat) (x : Mailbox) : (s.setMailbox f b m x).wf = s.wf := rfl
@[simp] theorem g_setMailbox (s : State) (f : Nat) (b : Bool) (m : Nat) (x : Mailbox) : (s.setMailbox f b m x).g = s.g := rfl
@[simp] theorem program_setMailbox (s : State) (f : Nat) (b : Bool) (m : Nat) (x : Mailbox) : (s.setMailbox f b m x).program = s.program := rfl
@[simp] theorem ring_setMailbox (s : State) (f : Nat) (b : Bool) (m : Nat) (x : Mailbox) : (s.setMailbox f b m x).ring = s.ring := rfl
@[simp] theorem bell_setMailbox (s : State) (f : Nat) (b : Bool) (m : Nat) (x : Mailbox) : (s.setMailbox f b m x).bell = s.bell := rfl
@[simp] theorem link_setMailbox (s : State) (f : Nat) (b : Bool) (m : Nat) (x : Mailbox) : (s.setMailbox f b m x).link = s.link := rfl
@[simp] theorem decoder_setMailbox (s : State) (f : Nat) (b : Bool) (m : Nat) (x : Mailbox) : (s.setMailbox f b m x).decoder = s.decoder := rfl
@[simp] theorem page_setMailbox (s : State) (f : Nat) (b : Bool) (m : Nat) (x : Mailbox) : (s.setMailbox f b m x).page = s.page := rfl
@[simp] theorem region_setMailbox (s : State) (f : Nat) (b : Bool) (m : Nat) (x : Mailbox) : (s.setMailbox f b m x).region = s.region := rfl
@[simp] theorem frame_setMailbox (s : State) (f : Nat) (b : Bool) (m : Nat) (x : Mailbox) : (s.setMailbox f b m x).frame = s.frame := rfl
@[simp] theorem pool_setMailbox (s : State) (f : Nat) (b : Bool) (m : Nat) (x : Mailbox) : (s.setMailbox f b m x).pool = s.pool := rfl
@[simp] theorem ctx_setMailbox (s : State) (f : Nat) (b : Bool) (m : Nat) (x : Mailbox) : (s.setMailbox f b m x).ctx = s.ctx := rfl
@[simp] theorem chan_setMailbox (s : State) (f : Nat) (b : Bool) (m : Nat) (x : Mailbox) : (s.setMailbox f b m x).chan = s.chan := rfl
@[simp] theorem toll_setMailbox (s : State) (f : Nat) (b : Bool) (m : Nat) (x : Mailbox) : (s.setMailbox f b m x).toll = s.toll := rfl
@[simp] theorem rb_setMailbox (s : State) (f : Nat) (b : Bool) (m : Nat) (x : Mailbox) : (s.setMailbox f b m x).rb = s.rb := rfl
@[simp] theorem wordAt_setMailbox (s : State) (f : Nat) (b : Bool) (m : Nat) (x : Mailbox) : (s.setMailbox f b m x).wordAt = s.wordAt := rfl
@[simp] theorem rd_setMailbox (s : State) (f : Nat) (b : Bool) (m : Nat) (x : Mailbox) : (s.setMailbox f b m x).rd = s.rd := rfl
@[simp] theorem rdB_setMailbox (s : State) (f : Nat) (b : Bool) (m : Nat) (x : Mailbox) : (s.setMailbox f b m x).rdB = s.rdB := rfl

/-! ### setBell -/
@[simp] theorem setBell_board (s : State) (f : Nat) (x : Doorbell) : (s.setBell f x).board = s.board := rfl
@[simp] theorem setBell_time (s : State) (f : Nat) (x : Doorbell) : (s.setBell f x).time = s.time := rfl
@[simp] theorem setBell_own (s : State) (f : Nat) (x : Doorbell) : (s.setBell f x).own = s.own := rfl
@[simp] theorem setBell_svc (s : State) (f : Nat) (x : Doorbell) : (s.setBell f x).svc = s.svc := rfl
@[simp] theorem setBell_tab (s : State) (f : Nat) (x : Doorbell) : (s.setBell f x).tab = s.tab := rfl
@[simp] theorem setBell_uncommitted (s : State) (f : Nat) (x : Doorbell) : (s.setBell f x).uncommitted = s.uncommitted := rfl
@[simp] theorem setBell_stamps (s : State) (f : Nat) (x : Doorbell) : (s.setBell f x).stamps = s.stamps := rfl
@[simp] theorem setBell_regs (s : State) (f : Nat) (x : Doorbell) : (s.setBell f x).regs = s.regs := rfl
@[simp] theorem setBell_links (s : State) (f : Nat) (x : Doorbell) : (s.setBell f x).links = s.links := rfl
@[simp] theorem setBell_decoders (s : State) (f : Nat) (x : Doorbell) : (s.setBell f x).decoders = s.decoders := rfl
@[simp] theorem setBell_coh (s : State) (f : Nat) (x : Doorbell) : (s.setBell f x).coh = s.coh := rfl
@[simp] theorem setBell_plc (s : State) (f : Nat) (x : Doorbell) : (s.setBell f x).plc = s.plc := rfl
@[simp] theorem setBell_stow (s : State) (f : Nat) (x : Doorbell) : (s.setBell f x).stow = s.stow := rfl
@[simp] theorem setBell_sealing (s : State) (f : Nat) (x : Doorbell) : (s.setBell f x).sealing = s.sealing := rfl
@[simp] theorem setBell_dram (s : State) (f : Nat) (x : Doorbell) : (s.setBell f x).dram = s.dram := rfl
@[simp] theorem setBell_traffic (s : State) (f : Nat) (x : Doorbell) : (s.setBell f x).traffic = s.traffic := rfl
@[simp] theorem setBell_aon (s : State) (f : Nat) (x : Doorbell) : (s.setBell f x).aon = s.aon := rfl
@[simp] theorem setBell_mile (s : State) (f : Nat) (x : Doorbell) : (s.setBell f x).mile = s.mile := rfl
@[simp] theorem setBell_freeUsed (s : State) (f : Nat) (x : Doorbell) : (s.setBell f x).freeUsed = s.freeUsed := rfl
@[simp] theorem setBell_out (s : State) (f : Nat) (x : Doorbell) : (s.setBell f x).out = s.out := rfl
@[simp] theorem setBell_pending (s : State) (f : Nat) (x : Doorbell) : (s.setBell f x).pending = s.pending := rfl
@[simp] theorem thread_setBell (s : State) (f : Nat) (x : Doorbell) : (s.setBell f x).thread = s.thread := rfl
@[simp] theorem wf_setBell (s : State) (f : Nat) (x : Doorbell) : (s.setBell f x).wf = s.wf := rfl
@[simp] theorem g_setBell (s : State) (f : Nat) (x : Doorbell) : (s.setBell f x).g = s.g := rfl
@[simp] theorem program_setBell (s : State) (f : Nat) (x : Doorbell) : (s.setBell f x).program = s.program := rfl
@[simp] theorem ring_setBell (s : State) (f : Nat) (x : Doorbell) : (s.setBell f x).ring = s.ring := rfl
@[simp] theorem mailbox_setBell (s : State) (f : Nat) (x : Doorbell) : (s.setBell f x).mailbox = s.mailbox := rfl
@[simp] theorem link_setBell (s : State) (f : Nat) (x : Doorbell) : (s.setBell f x).link = s.link := rfl
@[simp] theorem decoder_setBell (s : State) (f : Nat) (x : Doorbell) : (s.setBell f x).decoder = s.decoder := rfl
@[simp] theorem page_setBell (s : State) (f : Nat) (x : Doorbell) : (s.setBell f x).page = s.page := rfl
@[simp] theorem region_setBell (s : State) (f : Nat) (x : Doorbell) : (s.setBell f x).region = s.region := rfl
@[simp] theorem frame_setBell (s : State) (f : Nat) (x : Doorbell) : (s.setBell f x).frame = s.frame := rfl
@[simp] theorem pool_setBell (s : State) (f : Nat) (x : Doorbell) : (s.setBell f x).pool = s.pool := rfl
@[simp] theorem ctx_setBell (s : State) (f : Nat) (x : Doorbell) : (s.setBell f x).ctx = s.ctx := rfl
@[simp] theorem chan_setBell (s : State) (f : Nat) (x : Doorbell) : (s.setBell f x).chan = s.chan := rfl
@[simp] theorem toll_setBell (s : State) (f : Nat) (x : Doorbell) : (s.setBell f x).toll = s.toll := rfl
@[simp] theorem rb_setBell (s : State) (f : Nat) (x : Doorbell) : (s.setBell f x).rb = s.rb := rfl
@[simp] theorem wordAt_setBell (s : State) (f : Nat) (x : Doorbell) : (s.setBell f x).wordAt = s.wordAt := rfl
@[simp] theorem rd_setBell (s : State) (f : Nat) (x : Doorbell) : (s.setBell f x).rd = s.rd := rfl
@[simp] theorem rdB_setBell (s : State) (f : Nat) (x : Doorbell) : (s.setBell f x).rdB = s.rdB := rfl

/-! ### setLink -/
@[simp] theorem setLink_board (s : State) (l : Nat) (x : Link) : (s.setLink l x).board = s.board := rfl
@[simp] theorem setLink_time (s : State) (l : Nat) (x : Link) : (s.setLink l x).time = s.time := rfl
@[simp] theorem setLink_own (s : State) (l : Nat) (x : Link) : (s.setLink l x).own = s.own := rfl
@[simp] theorem setLink_svc (s : State) (l : Nat) (x : Link) : (s.setLink l x).svc = s.svc := rfl
@[simp] theorem setLink_tab (s : State) (l : Nat) (x : Link) : (s.setLink l x).tab = s.tab := rfl
@[simp] theorem setLink_uncommitted (s : State) (l : Nat) (x : Link) : (s.setLink l x).uncommitted = s.uncommitted := rfl
@[simp] theorem setLink_stamps (s : State) (l : Nat) (x : Link) : (s.setLink l x).stamps = s.stamps := rfl
@[simp] theorem setLink_soft (s : State) (l : Nat) (x : Link) : (s.setLink l x).soft = s.soft := rfl
@[simp] theorem setLink_regs (s : State) (l : Nat) (x : Link) : (s.setLink l x).regs = s.regs := rfl
@[simp] theorem setLink_decoders (s : State) (l : Nat) (x : Link) : (s.setLink l x).decoders = s.decoders := rfl
@[simp] theorem setLink_coh (s : State) (l : Nat) (x : Link) : (s.setLink l x).coh = s.coh := rfl
@[simp] theorem setLink_plc (s : State) (l : Nat) (x : Link) : (s.setLink l x).plc = s.plc := rfl
@[simp] theorem setLink_stow (s : State) (l : Nat) (x : Link) : (s.setLink l x).stow = s.stow := rfl
@[simp] theorem setLink_sealing (s : State) (l : Nat) (x : Link) : (s.setLink l x).sealing = s.sealing := rfl
@[simp] theorem setLink_dram (s : State) (l : Nat) (x : Link) : (s.setLink l x).dram = s.dram := rfl
@[simp] theorem setLink_traffic (s : State) (l : Nat) (x : Link) : (s.setLink l x).traffic = s.traffic := rfl
@[simp] theorem setLink_aon (s : State) (l : Nat) (x : Link) : (s.setLink l x).aon = s.aon := rfl
@[simp] theorem setLink_mile (s : State) (l : Nat) (x : Link) : (s.setLink l x).mile = s.mile := rfl
@[simp] theorem setLink_freeUsed (s : State) (l : Nat) (x : Link) : (s.setLink l x).freeUsed = s.freeUsed := rfl
@[simp] theorem setLink_out (s : State) (l : Nat) (x : Link) : (s.setLink l x).out = s.out := rfl
@[simp] theorem setLink_pending (s : State) (l : Nat) (x : Link) : (s.setLink l x).pending = s.pending := rfl
@[simp] theorem thread_setLink (s : State) (l : Nat) (x : Link) : (s.setLink l x).thread = s.thread := rfl
@[simp] theorem wf_setLink (s : State) (l : Nat) (x : Link) : (s.setLink l x).wf = s.wf := rfl
@[simp] theorem g_setLink (s : State) (l : Nat) (x : Link) : (s.setLink l x).g = s.g := rfl
@[simp] theorem program_setLink (s : State) (l : Nat) (x : Link) : (s.setLink l x).program = s.program := rfl
@[simp] theorem ring_setLink (s : State) (l : Nat) (x : Link) : (s.setLink l x).ring = s.ring := rfl
@[simp] theorem mailbox_setLink (s : State) (l : Nat) (x : Link) : (s.setLink l x).mailbox = s.mailbox := rfl
@[simp] theorem bell_setLink (s : State) (l : Nat) (x : Link) : (s.setLink l x).bell = s.bell := rfl
@[simp] theorem decoder_setLink (s : State) (l : Nat) (x : Link) : (s.setLink l x).decoder = s.decoder := rfl
@[simp] theorem page_setLink (s : State) (l : Nat) (x : Link) : (s.setLink l x).page = s.page := rfl
@[simp] theorem region_setLink (s : State) (l : Nat) (x : Link) : (s.setLink l x).region = s.region := rfl
@[simp] theorem frame_setLink (s : State) (l : Nat) (x : Link) : (s.setLink l x).frame = s.frame := rfl
@[simp] theorem pool_setLink (s : State) (l : Nat) (x : Link) : (s.setLink l x).pool = s.pool := rfl
@[simp] theorem ctx_setLink (s : State) (l : Nat) (x : Link) : (s.setLink l x).ctx = s.ctx := rfl
@[simp] theorem chan_setLink (s : State) (l : Nat) (x : Link) : (s.setLink l x).chan = s.chan := rfl
@[simp] theorem toll_setLink (s : State) (l : Nat) (x : Link) : (s.setLink l x).toll = s.toll := rfl
@[simp] theorem rb_setLink (s : State) (l : Nat) (x : Link) : (s.setLink l x).rb = s.rb := rfl
@[simp] theorem wordAt_setLink (s : State) (l : Nat) (x : Link) : (s.setLink l x).wordAt = s.wordAt := rfl
@[simp] theorem rd_setLink (s : State) (l : Nat) (x : Link) : (s.setLink l x).rd = s.rd := rfl
@[simp] theorem rdB_setLink (s : State) (l : Nat) (x : Link) : (s.setLink l x).rdB = s.rdB := rfl

/-! ### setDecoder -/
@[simp] theorem setDecoder_board (s : State) (ld n : Nat) (x : Decoder) : (s.setDecoder ld n x).board = s.board := rfl
@[simp] theorem setDecoder_time (s : State) (ld n : Nat) (x : Decoder) : (s.setDecoder ld n x).time = s.time := rfl
@[simp] theorem setDecoder_own (s : State) (ld n : Nat) (x : Decoder) : (s.setDecoder ld n x).own = s.own := rfl
@[simp] theorem setDecoder_svc (s : State) (ld n : Nat) (x : Decoder) : (s.setDecoder ld n x).svc = s.svc := rfl
@[simp] theorem setDecoder_tab (s : State) (ld n : Nat) (x : Decoder) : (s.setDecoder ld n x).tab = s.tab := rfl
@[simp] theorem setDecoder_uncommitted (s : State) (ld n : Nat) (x : Decoder) : (s.setDecoder ld n x).uncommitted = s.uncommitted := rfl
@[simp] theorem setDecoder_stamps (s : State) (ld n : Nat) (x : Decoder) : (s.setDecoder ld n x).stamps = s.stamps := rfl
@[simp] theorem setDecoder_soft (s : State) (ld n : Nat) (x : Decoder) : (s.setDecoder ld n x).soft = s.soft := rfl
@[simp] theorem setDecoder_regs (s : State) (ld n : Nat) (x : Decoder) : (s.setDecoder ld n x).regs = s.regs := rfl
@[simp] theorem setDecoder_links (s : State) (ld n : Nat) (x : Decoder) : (s.setDecoder ld n x).links = s.links := rfl
@[simp] theorem setDecoder_coh (s : State) (ld n : Nat) (x : Decoder) : (s.setDecoder ld n x).coh = s.coh := rfl
@[simp] theorem setDecoder_plc (s : State) (ld n : Nat) (x : Decoder) : (s.setDecoder ld n x).plc = s.plc := rfl
@[simp] theorem setDecoder_stow (s : State) (ld n : Nat) (x : Decoder) : (s.setDecoder ld n x).stow = s.stow := rfl
@[simp] theorem setDecoder_sealing (s : State) (ld n : Nat) (x : Decoder) : (s.setDecoder ld n x).sealing = s.sealing := rfl
@[simp] theorem setDecoder_dram (s : State) (ld n : Nat) (x : Decoder) : (s.setDecoder ld n x).dram = s.dram := rfl
@[simp] theorem setDecoder_traffic (s : State) (ld n : Nat) (x : Decoder) : (s.setDecoder ld n x).traffic = s.traffic := rfl
@[simp] theorem setDecoder_aon (s : State) (ld n : Nat) (x : Decoder) : (s.setDecoder ld n x).aon = s.aon := rfl
@[simp] theorem setDecoder_mile (s : State) (ld n : Nat) (x : Decoder) : (s.setDecoder ld n x).mile = s.mile := rfl
@[simp] theorem setDecoder_freeUsed (s : State) (ld n : Nat) (x : Decoder) : (s.setDecoder ld n x).freeUsed = s.freeUsed := rfl
@[simp] theorem setDecoder_out (s : State) (ld n : Nat) (x : Decoder) : (s.setDecoder ld n x).out = s.out := rfl
@[simp] theorem setDecoder_pending (s : State) (ld n : Nat) (x : Decoder) : (s.setDecoder ld n x).pending = s.pending := rfl
@[simp] theorem thread_setDecoder (s : State) (ld n : Nat) (x : Decoder) : (s.setDecoder ld n x).thread = s.thread := rfl
@[simp] theorem wf_setDecoder (s : State) (ld n : Nat) (x : Decoder) : (s.setDecoder ld n x).wf = s.wf := rfl
@[simp] theorem g_setDecoder (s : State) (ld n : Nat) (x : Decoder) : (s.setDecoder ld n x).g = s.g := rfl
@[simp] theorem program_setDecoder (s : State) (ld n : Nat) (x : Decoder) : (s.setDecoder ld n x).program = s.program := rfl
@[simp] theorem ring_setDecoder (s : State) (ld n : Nat) (x : Decoder) : (s.setDecoder ld n x).ring = s.ring := rfl
@[simp] theorem mailbox_setDecoder (s : State) (ld n : Nat) (x : Decoder) : (s.setDecoder ld n x).mailbox = s.mailbox := rfl
@[simp] theorem bell_setDecoder (s : State) (ld n : Nat) (x : Decoder) : (s.setDecoder ld n x).bell = s.bell := rfl
@[simp] theorem link_setDecoder (s : State) (ld n : Nat) (x : Decoder) : (s.setDecoder ld n x).link = s.link := rfl
@[simp] theorem page_setDecoder (s : State) (ld n : Nat) (x : Decoder) : (s.setDecoder ld n x).page = s.page := rfl
@[simp] theorem region_setDecoder (s : State) (ld n : Nat) (x : Decoder) : (s.setDecoder ld n x).region = s.region := rfl
@[simp] theorem frame_setDecoder (s : State) (ld n : Nat) (x : Decoder) : (s.setDecoder ld n x).frame = s.frame := rfl
@[simp] theorem pool_setDecoder (s : State) (ld n : Nat) (x : Decoder) : (s.setDecoder ld n x).pool = s.pool := rfl
@[simp] theorem ctx_setDecoder (s : State) (ld n : Nat) (x : Decoder) : (s.setDecoder ld n x).ctx = s.ctx := rfl
@[simp] theorem chan_setDecoder (s : State) (ld n : Nat) (x : Decoder) : (s.setDecoder ld n x).chan = s.chan := rfl
@[simp] theorem toll_setDecoder (s : State) (ld n : Nat) (x : Decoder) : (s.setDecoder ld n x).toll = s.toll := rfl
@[simp] theorem rb_setDecoder (s : State) (ld n : Nat) (x : Decoder) : (s.setDecoder ld n x).rb = s.rb := rfl
@[simp] theorem wordAt_setDecoder (s : State) (ld n : Nat) (x : Decoder) : (s.setDecoder ld n x).wordAt = s.wordAt := rfl
@[simp] theorem rd_setDecoder (s : State) (ld n : Nat) (x : Decoder) : (s.setDecoder ld n x).rd = s.rd := rfl
@[simp] theorem rdB_setDecoder (s : State) (ld n : Nat) (x : Decoder) : (s.setDecoder ld n x).rdB = s.rdB := rfl

/-! ### setPage -/
@[simp] theorem setPage_board (s : State) (p : Nat) (x : Page) : (s.setPage p x).board = s.board := rfl
@[simp] theorem setPage_time (s : State) (p : Nat) (x : Page) : (s.setPage p x).time = s.time := rfl
@[simp] theorem setPage_own (s : State) (p : Nat) (x : Page) : (s.setPage p x).own = s.own := rfl
@[simp] theorem setPage_svc (s : State) (p : Nat) (x : Page) : (s.setPage p x).svc = s.svc := rfl
@[simp] theorem setPage_tab (s : State) (p : Nat) (x : Page) : (s.setPage p x).tab = s.tab := rfl
@[simp] theorem setPage_uncommitted (s : State) (p : Nat) (x : Page) : (s.setPage p x).uncommitted = s.uncommitted := rfl
@[simp] theorem setPage_stamps (s : State) (p : Nat) (x : Page) : (s.setPage p x).stamps = s.stamps := rfl
@[simp] theorem setPage_soft (s : State) (p : Nat) (x : Page) : (s.setPage p x).soft = s.soft := rfl
@[simp] theorem setPage_regs (s : State) (p : Nat) (x : Page) : (s.setPage p x).regs = s.regs := rfl
@[simp] theorem setPage_links (s : State) (p : Nat) (x : Page) : (s.setPage p x).links = s.links := rfl
@[simp] theorem setPage_decoders (s : State) (p : Nat) (x : Page) : (s.setPage p x).decoders = s.decoders := rfl
@[simp] theorem setPage_coh (s : State) (p : Nat) (x : Page) : (s.setPage p x).coh = s.coh := rfl
@[simp] theorem setPage_stow (s : State) (p : Nat) (x : Page) : (s.setPage p x).stow = s.stow := rfl
@[simp] theorem setPage_sealing (s : State) (p : Nat) (x : Page) : (s.setPage p x).sealing = s.sealing := rfl
@[simp] theorem setPage_dram (s : State) (p : Nat) (x : Page) : (s.setPage p x).dram = s.dram := rfl
@[simp] theorem setPage_traffic (s : State) (p : Nat) (x : Page) : (s.setPage p x).traffic = s.traffic := rfl
@[simp] theorem setPage_aon (s : State) (p : Nat) (x : Page) : (s.setPage p x).aon = s.aon := rfl
@[simp] theorem setPage_mile (s : State) (p : Nat) (x : Page) : (s.setPage p x).mile = s.mile := rfl
@[simp] theorem setPage_freeUsed (s : State) (p : Nat) (x : Page) : (s.setPage p x).freeUsed = s.freeUsed := rfl
@[simp] theorem setPage_out (s : State) (p : Nat) (x : Page) : (s.setPage p x).out = s.out := rfl
@[simp] theorem setPage_pending (s : State) (p : Nat) (x : Page) : (s.setPage p x).pending = s.pending := rfl
@[simp] theorem thread_setPage (s : State) (p : Nat) (x : Page) : (s.setPage p x).thread = s.thread := rfl
@[simp] theorem wf_setPage (s : State) (p : Nat) (x : Page) : (s.setPage p x).wf = s.wf := rfl
@[simp] theorem g_setPage (s : State) (p : Nat) (x : Page) : (s.setPage p x).g = s.g := rfl
@[simp] theorem program_setPage (s : State) (p : Nat) (x : Page) : (s.setPage p x).program = s.program := rfl
@[simp] theorem ring_setPage (s : State) (p : Nat) (x : Page) : (s.setPage p x).ring = s.ring := rfl
@[simp] theorem mailbox_setPage (s : State) (p : Nat) (x : Page) : (s.setPage p x).mailbox = s.mailbox := rfl
@[simp] theorem bell_setPage (s : State) (p : Nat) (x : Page) : (s.setPage p x).bell = s.bell := rfl
@[simp] theorem link_setPage (s : State) (p : Nat) (x : Page) : (s.setPage p x).link = s.link := rfl
@[simp] theorem decoder_setPage (s : State) (p : Nat) (x : Page) : (s.setPage p x).decoder = s.decoder := rfl
@[simp] theorem region_setPage (s : State) (p : Nat) (x : Page) : (s.setPage p x).region = s.region := rfl
@[simp] theorem frame_setPage (s : State) (p : Nat) (x : Page) : (s.setPage p x).frame = s.frame := rfl
@[simp] theorem pool_setPage (s : State) (p : Nat) (x : Page) : (s.setPage p x).pool = s.pool := rfl
@[simp] theorem ctx_setPage (s : State) (p : Nat) (x : Page) : (s.setPage p x).ctx = s.ctx := rfl
@[simp] theorem chan_setPage (s : State) (p : Nat) (x : Page) : (s.setPage p x).chan = s.chan := rfl
@[simp] theorem toll_setPage (s : State) (p : Nat) (x : Page) : (s.setPage p x).toll = s.toll := rfl
@[simp] theorem rb_setPage (s : State) (p : Nat) (x : Page) : (s.setPage p x).rb = s.rb := rfl
@[simp] theorem wordAt_setPage (s : State) (p : Nat) (x : Page) : (s.setPage p x).wordAt = s.wordAt := rfl
@[simp] theorem rd_setPage (s : State) (p : Nat) (x : Page) : (s.setPage p x).rd = s.rd := rfl
@[simp] theorem rdB_setPage (s : State) (p : Nat) (x : Page) : (s.setPage p x).rdB = s.rdB := rfl

/-! ### setRegion -/
@[simp] theorem setRegion_board (s : State) (r : Nat) (x : Region) : (s.setRegion r x).board = s.board := rfl
@[simp] theorem setRegion_time (s : State) (r : Nat) (x : Region) : (s.setRegion r x).time = s.time := rfl
@[simp] theorem setRegion_own (s : State) (r : Nat) (x : Region) : (s.setRegion r x).own = s.own := rfl
@[simp] theorem setRegion_svc (s : State) (r : Nat) (x : Region) : (s.setRegion r x).svc = s.svc := rfl
@[simp] theorem setRegion_tab (s : State) (r : Nat) (x : Region) : (s.setRegion r x).tab = s.tab := rfl
@[simp] theorem setRegion_uncommitted (s : State) (r : Nat) (x : Region) : (s.setRegion r x).uncommitted = s.uncommitted := rfl
@[simp] theorem setRegion_stamps (s : State) (r : Nat) (x : Region) : (s.setRegion r x).stamps = s.stamps := rfl
@[simp] theorem setRegion_soft (s : State) (r : Nat) (x : Region) : (s.setRegion r x).soft = s.soft := rfl
@[simp] theorem setRegion_regs (s : State) (r : Nat) (x : Region) : (s.setRegion r x).regs = s.regs := rfl
@[simp] theorem setRegion_links (s : State) (r : Nat) (x : Region) : (s.setRegion r x).links = s.links := rfl
@[simp] theorem setRegion_decoders (s : State) (r : Nat) (x : Region) : (s.setRegion r x).decoders = s.decoders := rfl
@[simp] theorem setRegion_coh (s : State) (r : Nat) (x : Region) : (s.setRegion r x).coh = s.coh := rfl
@[simp] theorem setRegion_stow (s : State) (r : Nat) (x : Region) : (s.setRegion r x).stow = s.stow := rfl
@[simp] theorem setRegion_sealing (s : State) (r : Nat) (x : Region) : (s.setRegion r x).sealing = s.sealing := rfl
@[simp] theorem setRegion_dram (s : State) (r : Nat) (x : Region) : (s.setRegion r x).dram = s.dram := rfl
@[simp] theorem setRegion_traffic (s : State) (r : Nat) (x : Region) : (s.setRegion r x).traffic = s.traffic := rfl
@[simp] theorem setRegion_aon (s : State) (r : Nat) (x : Region) : (s.setRegion r x).aon = s.aon := rfl
@[simp] theorem setRegion_mile (s : State) (r : Nat) (x : Region) : (s.setRegion r x).mile = s.mile := rfl
@[simp] theorem setRegion_freeUsed (s : State) (r : Nat) (x : Region) : (s.setRegion r x).freeUsed = s.freeUsed := rfl
@[simp] theorem setRegion_out (s : State) (r : Nat) (x : Region) : (s.setRegion r x).out = s.out := rfl
@[simp] theorem setRegion_pending (s : State) (r : Nat) (x : Region) : (s.setRegion r x).pending = s.pending := rfl
@[simp] theorem thread_setRegion (s : State) (r : Nat) (x : Region) : (s.setRegion r x).thread = s.thread := rfl
@[simp] theorem wf_setRegion (s : State) (r : Nat) (x : Region) : (s.setRegion r x).wf = s.wf := rfl
@[simp] theorem g_setRegion (s : State) (r : Nat) (x : Region) : (s.setRegion r x).g = s.g := rfl
@[simp] theorem program_setRegion (s : State) (r : Nat) (x : Region) : (s.setRegion r x).program = s.program := rfl
@[simp] theorem ring_setRegion (s : State) (r : Nat) (x : Region) : (s.setRegion r x).ring = s.ring := rfl
@[simp] theorem mailbox_setRegion (s : State) (r : Nat) (x : Region) : (s.setRegion r x).mailbox = s.mailbox := rfl
@[simp] theorem bell_setRegion (s : State) (r : Nat) (x : Region) : (s.setRegion r x).bell = s.bell := rfl
@[simp] theorem link_setRegion (s : State) (r : Nat) (x : Region) : (s.setRegion r x).link = s.link := rfl
@[simp] theorem decoder_setRegion (s : State) (r : Nat) (x : Region) : (s.setRegion r x).decoder = s.decoder := rfl
@[simp] theorem page_setRegion (s : State) (r : Nat) (x : Region) : (s.setRegion r x).page = s.page := rfl
@[simp] theorem frame_setRegion (s : State) (r : Nat) (x : Region) : (s.setRegion r x).frame = s.frame := rfl
@[simp] theorem pool_setRegion (s : State) (r : Nat) (x : Region) : (s.setRegion r x).pool = s.pool := rfl
@[simp] theorem ctx_setRegion (s : State) (r : Nat) (x : Region) : (s.setRegion r x).ctx = s.ctx := rfl
@[simp] theorem chan_setRegion (s : State) (r : Nat) (x : Region) : (s.setRegion r x).chan = s.chan := rfl
@[simp] theorem toll_setRegion (s : State) (r : Nat) (x : Region) : (s.setRegion r x).toll = s.toll := rfl
@[simp] theorem rb_setRegion (s : State) (r : Nat) (x : Region) : (s.setRegion r x).rb = s.rb := rfl
@[simp] theorem wordAt_setRegion (s : State) (r : Nat) (x : Region) : (s.setRegion r x).wordAt = s.wordAt := rfl
@[simp] theorem rd_setRegion (s : State) (r : Nat) (x : Region) : (s.setRegion r x).rd = s.rd := rfl
@[simp] theorem rdB_setRegion (s : State) (r : Nat) (x : Region) : (s.setRegion r x).rdB = s.rdB := rfl

/-! ### setFrame -/
@[simp] theorem setFrame_board (s : State) (k : Nat) (x : Frame) : (s.setFrame k x).board = s.board := rfl
@[simp] theorem setFrame_time (s : State) (k : Nat) (x : Frame) : (s.setFrame k x).time = s.time := rfl
@[simp] theorem setFrame_own (s : State) (k : Nat) (x : Frame) : (s.setFrame k x).own = s.own := rfl
@[simp] theorem setFrame_svc (s : State) (k : Nat) (x : Frame) : (s.setFrame k x).svc = s.svc := rfl
@[simp] theorem setFrame_tab (s : State) (k : Nat) (x : Frame) : (s.setFrame k x).tab = s.tab := rfl
@[simp] theorem setFrame_uncommitted (s : State) (k : Nat) (x : Frame) : (s.setFrame k x).uncommitted = s.uncommitted := rfl
@[simp] theorem setFrame_stamps (s : State) (k : Nat) (x : Frame) : (s.setFrame k x).stamps = s.stamps := rfl
@[simp] theorem setFrame_soft (s : State) (k : Nat) (x : Frame) : (s.setFrame k x).soft = s.soft := rfl
@[simp] theorem setFrame_regs (s : State) (k : Nat) (x : Frame) : (s.setFrame k x).regs = s.regs := rfl
@[simp] theorem setFrame_links (s : State) (k : Nat) (x : Frame) : (s.setFrame k x).links = s.links := rfl
@[simp] theorem setFrame_decoders (s : State) (k : Nat) (x : Frame) : (s.setFrame k x).decoders = s.decoders := rfl
@[simp] theorem setFrame_coh (s : State) (k : Nat) (x : Frame) : (s.setFrame k x).coh = s.coh := rfl
@[simp] theorem setFrame_stow (s : State) (k : Nat) (x : Frame) : (s.setFrame k x).stow = s.stow := rfl
@[simp] theorem setFrame_sealing (s : State) (k : Nat) (x : Frame) : (s.setFrame k x).sealing = s.sealing := rfl
@[simp] theorem setFrame_dram (s : State) (k : Nat) (x : Frame) : (s.setFrame k x).dram = s.dram := rfl
@[simp] theorem setFrame_traffic (s : State) (k : Nat) (x : Frame) : (s.setFrame k x).traffic = s.traffic := rfl
@[simp] theorem setFrame_aon (s : State) (k : Nat) (x : Frame) : (s.setFrame k x).aon = s.aon := rfl
@[simp] theorem setFrame_mile (s : State) (k : Nat) (x : Frame) : (s.setFrame k x).mile = s.mile := rfl
@[simp] theorem setFrame_freeUsed (s : State) (k : Nat) (x : Frame) : (s.setFrame k x).freeUsed = s.freeUsed := rfl
@[simp] theorem setFrame_out (s : State) (k : Nat) (x : Frame) : (s.setFrame k x).out = s.out := rfl
@[simp] theorem setFrame_pending (s : State) (k : Nat) (x : Frame) : (s.setFrame k x).pending = s.pending := rfl
@[simp] theorem thread_setFrame (s : State) (k : Nat) (x : Frame) : (s.setFrame k x).thread = s.thread := rfl
@[simp] theorem wf_setFrame (s : State) (k : Nat) (x : Frame) : (s.setFrame k x).wf = s.wf := rfl
@[simp] theorem g_setFrame (s : State) (k : Nat) (x : Frame) : (s.setFrame k x).g = s.g := rfl
@[simp] theorem program_setFrame (s : State) (k : Nat) (x : Frame) : (s.setFrame k x).program = s.program := rfl
@[simp] theorem ring_setFrame (s : State) (k : Nat) (x : Frame) : (s.setFrame k x).ring = s.ring := rfl
@[simp] theorem mailbox_setFrame (s : State) (k : Nat) (x : Frame) : (s.setFrame k x).mailbox = s.mailbox := rfl
@[simp] theorem bell_setFrame (s : State) (k : Nat) (x : Frame) : (s.setFrame k x).bell = s.bell := rfl
@[simp] theorem link_setFrame (s : State) (k : Nat) (x : Frame) : (s.setFrame k x).link = s.link := rfl
@[simp] theorem decoder_setFrame (s : State) (k : Nat) (x : Frame) : (s.setFrame k x).decoder = s.decoder := rfl
@[simp] theorem page_setFrame (s : State) (k : Nat) (x : Frame) : (s.setFrame k x).page = s.page := rfl
@[simp] theorem region_setFrame (s : State) (k : Nat) (x : Frame) : (s.setFrame k x).region = s.region := rfl
@[simp] theorem pool_setFrame (s : State) (k : Nat) (x : Frame) : (s.setFrame k x).pool = s.pool := rfl
@[simp] theorem ctx_setFrame (s : State) (k : Nat) (x : Frame) : (s.setFrame k x).ctx = s.ctx := rfl
@[simp] theorem chan_setFrame (s : State) (k : Nat) (x : Frame) : (s.setFrame k x).chan = s.chan := rfl
@[simp] theorem toll_setFrame (s : State) (k : Nat) (x : Frame) : (s.setFrame k x).toll = s.toll := rfl
@[simp] theorem rb_setFrame (s : State) (k : Nat) (x : Frame) : (s.setFrame k x).rb = s.rb := rfl
@[simp] theorem wordAt_setFrame (s : State) (k : Nat) (x : Frame) : (s.setFrame k x).wordAt = s.wordAt := rfl
@[simp] theorem rd_setFrame (s : State) (k : Nat) (x : Frame) : (s.setFrame k x).rd = s.rd := rfl
@[simp] theorem rdB_setFrame (s : State) (k : Nat) (x : Frame) : (s.setFrame k x).rdB = s.rdB := rfl

/-! ### setPool -/
@[simp] theorem setPool_board (s : State) (u : Nat) (x : Pool) : (s.setPool u x).board = s.board := rfl
@[simp] theorem setPool_time (s : State) (u : Nat) (x : Pool) : (s.setPool u x).time = s.time := rfl
@[simp] theorem setPool_own (s : State) (u : Nat) (x : Pool) : (s.setPool u x).own = s.own := rfl
@[simp] theorem setPool_svc (s : State) (u : Nat) (x : Pool) : (s.setPool u x).svc = s.svc := rfl
@[simp] theorem setPool_tab (s : State) (u : Nat) (x : Pool) : (s.setPool u x).tab = s.tab := rfl
@[simp] theorem setPool_uncommitted (s : State) (u : Nat) (x : Pool) : (s.setPool u x).uncommitted = s.uncommitted := rfl
@[simp] theorem setPool_stamps (s : State) (u : Nat) (x : Pool) : (s.setPool u x).stamps = s.stamps := rfl
@[simp] theorem setPool_soft (s : State) (u : Nat) (x : Pool) : (s.setPool u x).soft = s.soft := rfl
@[simp] theorem setPool_regs (s : State) (u : Nat) (x : Pool) : (s.setPool u x).regs = s.regs := rfl
@[simp] theorem setPool_links (s : State) (u : Nat) (x : Pool) : (s.setPool u x).links = s.links := rfl
@[simp] theorem setPool_decoders (s : State) (u : Nat) (x : Pool) : (s.setPool u x).decoders = s.decoders := rfl
@[simp] theorem setPool_coh (s : State) (u : Nat) (x : Pool) : (s.setPool u x).coh = s.coh := rfl
@[simp] theorem setPool_stow (s : State) (u : Nat) (x : Pool) : (s.setPool u x).stow = s.stow := rfl
@[simp] theorem setPool_sealing (s : State) (u : Nat) (x : Pool) : (s.setPool u x).sealing = s.sealing := rfl
@[simp] theorem setPool_dram (s : State) (u : Nat) (x : Pool) : (s.setPool u x).dram = s.dram := rfl
@[simp] theorem setPool_traffic (s : State) (u : Nat) (x : Pool) : (s.setPool u x).traffic = s.traffic := rfl
@[simp] theorem setPool_aon (s : State) (u : Nat) (x : Pool) : (s.setPool u x).aon = s.aon := rfl
@[simp] theorem setPool_mile (s : State) (u : Nat) (x : Pool) : (s.setPool u x).mile = s.mile := rfl
@[simp] theorem setPool_freeUsed (s : State) (u : Nat) (x : Pool) : (s.setPool u x).freeUsed = s.freeUsed := rfl
@[simp] theorem setPool_out (s : State) (u : Nat) (x : Pool) : (s.setPool u x).out = s.out := rfl
@[simp] theorem setPool_pending (s : State) (u : Nat) (x : Pool) : (s.setPool u x).pending = s.pending := rfl
@[simp] theorem thread_setPool (s : State) (u : Nat) (x : Pool) : (s.setPool u x).thread = s.thread := rfl
@[simp] theorem wf_setPool (s : State) (u : Nat) (x : Pool) : (s.setPool u x).wf = s.wf := rfl
@[simp] theorem g_setPool (s : State) (u : Nat) (x : Pool) : (s.setPool u x).g = s.g := rfl
@[simp] theorem program_setPool (s : State) (u : Nat) (x : Pool) : (s.setPool u x).program = s.program := rfl
@[simp] theorem ring_setPool (s : State) (u : Nat) (x : Pool) : (s.setPool u x).ring = s.ring := rfl
@[simp] theorem mailbox_setPool (s : State) (u : Nat) (x : Pool) : (s.setPool u x).mailbox = s.mailbox := rfl
@[simp] theorem bell_setPool (s : State) (u : Nat) (x : Pool) : (s.setPool u x).bell = s.bell := rfl
@[simp] theorem link_setPool (s : State) (u : Nat) (x : Pool) : (s.setPool u x).link = s.link := rfl
@[simp] theorem decoder_setPool (s : State) (u : Nat) (x : Pool) : (s.setPool u x).decoder = s.decoder := rfl
@[simp] theorem page_setPool (s : State) (u : Nat) (x : Pool) : (s.setPool u x).page = s.page := rfl
@[simp] theorem region_setPool (s : State) (u : Nat) (x : Pool) : (s.setPool u x).region = s.region := rfl
@[simp] theorem frame_setPool (s : State) (u : Nat) (x : Pool) : (s.setPool u x).frame = s.frame := rfl
@[simp] theorem ctx_setPool (s : State) (u : Nat) (x : Pool) : (s.setPool u x).ctx = s.ctx := rfl
@[simp] theorem chan_setPool (s : State) (u : Nat) (x : Pool) : (s.setPool u x).chan = s.chan := rfl
@[simp] theorem toll_setPool (s : State) (u : Nat) (x : Pool) : (s.setPool u x).toll = s.toll := rfl
@[simp] theorem rb_setPool (s : State) (u : Nat) (x : Pool) : (s.setPool u x).rb = s.rb := rfl
@[simp] theorem wordAt_setPool (s : State) (u : Nat) (x : Pool) : (s.setPool u x).wordAt = s.wordAt := rfl
@[simp] theorem rd_setPool (s : State) (u : Nat) (x : Pool) : (s.setPool u x).rd = s.rd := rfl
@[simp] theorem rdB_setPool (s : State) (u : Nat) (x : Pool) : (s.setPool u x).rdB = s.rdB := rfl

/-! ### setCtx -/
@[simp] theorem setCtx_board (s : State) (c : Nat) (x : Ctx) : (s.setCtx c x).board = s.board := rfl
@[simp] theorem setCtx_time (s : State) (c : Nat) (x : Ctx) : (s.setCtx c x).time = s.time := rfl
@[simp] theorem setCtx_own (s : State) (c : Nat) (x : Ctx) : (s.setCtx c x).own = s.own := rfl
@[simp] theorem setCtx_svc (s : State) (c : Nat) (x : Ctx) : (s.setCtx c x).svc = s.svc := rfl
@[simp] theorem setCtx_tab (s : State) (c : Nat) (x : Ctx) : (s.setCtx c x).tab = s.tab := rfl
@[simp] theorem setCtx_uncommitted (s : State) (c : Nat) (x : Ctx) : (s.setCtx c x).uncommitted = s.uncommitted := rfl
@[simp] theorem setCtx_stamps (s : State) (c : Nat) (x : Ctx) : (s.setCtx c x).stamps = s.stamps := rfl
@[simp] theorem setCtx_soft (s : State) (c : Nat) (x : Ctx) : (s.setCtx c x).soft = s.soft := rfl
@[simp] theorem setCtx_regs (s : State) (c : Nat) (x : Ctx) : (s.setCtx c x).regs = s.regs := rfl
@[simp] theorem setCtx_links (s : State) (c : Nat) (x : Ctx) : (s.setCtx c x).links = s.links := rfl
@[simp] theorem setCtx_decoders (s : State) (c : Nat) (x : Ctx) : (s.setCtx c x).decoders = s.decoders := rfl
@[simp] theorem setCtx_coh (s : State) (c : Nat) (x : Ctx) : (s.setCtx c x).coh = s.coh := rfl
@[simp] theorem setCtx_plc (s : State) (c : Nat) (x : Ctx) : (s.setCtx c x).plc = s.plc := rfl
@[simp] theorem setCtx_sealing (s : State) (c : Nat) (x : Ctx) : (s.setCtx c x).sealing = s.sealing := rfl
@[simp] theorem setCtx_dram (s : State) (c : Nat) (x : Ctx) : (s.setCtx c x).dram = s.dram := rfl
@[simp] theorem setCtx_traffic (s : State) (c : Nat) (x : Ctx) : (s.setCtx c x).traffic = s.traffic := rfl
@[simp] theorem setCtx_aon (s : State) (c : Nat) (x : Ctx) : (s.setCtx c x).aon = s.aon := rfl
@[simp] theorem setCtx_mile (s : State) (c : Nat) (x : Ctx) : (s.setCtx c x).mile = s.mile := rfl
@[simp] theorem setCtx_freeUsed (s : State) (c : Nat) (x : Ctx) : (s.setCtx c x).freeUsed = s.freeUsed := rfl
@[simp] theorem setCtx_out (s : State) (c : Nat) (x : Ctx) : (s.setCtx c x).out = s.out := rfl
@[simp] theorem setCtx_pending (s : State) (c : Nat) (x : Ctx) : (s.setCtx c x).pending = s.pending := rfl
@[simp] theorem thread_setCtx (s : State) (c : Nat) (x : Ctx) : (s.setCtx c x).thread = s.thread := rfl
@[simp] theorem wf_setCtx (s : State) (c : Nat) (x : Ctx) : (s.setCtx c x).wf = s.wf := rfl
@[simp] theorem g_setCtx (s : State) (c : Nat) (x : Ctx) : (s.setCtx c x).g = s.g := rfl
@[simp] theorem program_setCtx (s : State) (c : Nat) (x : Ctx) : (s.setCtx c x).program = s.program := rfl
@[simp] theorem ring_setCtx (s : State) (c : Nat) (x : Ctx) : (s.setCtx c x).ring = s.ring := rfl
@[simp] theorem mailbox_setCtx (s : State) (c : Nat) (x : Ctx) : (s.setCtx c x).mailbox = s.mailbox := rfl
@[simp] theorem bell_setCtx (s : State) (c : Nat) (x : Ctx) : (s.setCtx c x).bell = s.bell := rfl
@[simp] theorem link_setCtx (s : State) (c : Nat) (x : Ctx) : (s.setCtx c x).link = s.link := rfl
@[simp] theorem decoder_setCtx (s : State) (c : Nat) (x : Ctx) : (s.setCtx c x).decoder = s.decoder := rfl
@[simp] theorem page_setCtx (s : State) (c : Nat) (x : Ctx) : (s.setCtx c x).page = s.page := rfl
@[simp] theorem region_setCtx (s : State) (c : Nat) (x : Ctx) : (s.setCtx c x).region = s.region := rfl
@[simp] theorem frame_setCtx (s : State) (c : Nat) (x : Ctx) : (s.setCtx c x).frame = s.frame := rfl
@[simp] theorem pool_setCtx (s : State) (c : Nat) (x : Ctx) : (s.setCtx c x).pool = s.pool := rfl
@[simp] theorem chan_setCtx (s : State) (c : Nat) (x : Ctx) : (s.setCtx c x).chan = s.chan := rfl
@[simp] theorem toll_setCtx (s : State) (c : Nat) (x : Ctx) : (s.setCtx c x).toll = s.toll := rfl
@[simp] theorem rb_setCtx (s : State) (c : Nat) (x : Ctx) : (s.setCtx c x).rb = s.rb := rfl
@[simp] theorem wordAt_setCtx (s : State) (c : Nat) (x : Ctx) : (s.setCtx c x).wordAt = s.wordAt := rfl
@[simp] theorem rd_setCtx (s : State) (c : Nat) (x : Ctx) : (s.setCtx c x).rd = s.rd := rfl
@[simp] theorem rdB_setCtx (s : State) (c : Nat) (x : Ctx) : (s.setCtx c x).rdB = s.rdB := rfl

/-! ### setChan -/
@[simp] theorem setChan_board (s : State) (u : Nat) (x : Chan) : (s.setChan u x).board = s.board := rfl
@[simp] theorem setChan_time (s : State) (u : Nat) (x : Chan) : (s.setChan u x).time = s.time := rfl
@[simp] theorem setChan_own (s : State) (u : Nat) (x : Chan) : (s.setChan u x).own = s.own := rfl
@[simp] theorem setChan_svc (s : State) (u : Nat) (x : Chan) : (s.setChan u x).svc = s.svc := rfl
@[simp] theorem setChan_tab (s : State) (u : Nat) (x : Chan) : (s.setChan u x).tab = s.tab := rfl
@[simp] theorem setChan_uncommitted (s : State) (u : Nat) (x : Chan) : (s.setChan u x).uncommitted = s.uncommitted := rfl
@[simp] theorem setChan_stamps (s : State) (u : Nat) (x : Chan) : (s.setChan u x).stamps = s.stamps := rfl
@[simp] theorem setChan_soft (s : State) (u : Nat) (x : Chan) : (s.setChan u x).soft = s.soft := rfl
@[simp] theorem setChan_regs (s : State) (u : Nat) (x : Chan) : (s.setChan u x).regs = s.regs := rfl
@[simp] theorem setChan_links (s : State) (u : Nat) (x : Chan) : (s.setChan u x).links = s.links := rfl
@[simp] theorem setChan_decoders (s : State) (u : Nat) (x : Chan) : (s.setChan u x).decoders = s.decoders := rfl
@[simp] theorem setChan_coh (s : State) (u : Nat) (x : Chan) : (s.setChan u x).coh = s.coh := rfl
@[simp] theorem setChan_plc (s : State) (u : Nat) (x : Chan) : (s.setChan u x).plc = s.plc := rfl
@[simp] theorem setChan_stow (s : State) (u : Nat) (x : Chan) : (s.setChan u x).stow = s.stow := rfl
@[simp] theorem setChan_sealing (s : State) (u : Nat) (x : Chan) : (s.setChan u x).sealing = s.sealing := rfl
@[simp] theorem setChan_traffic (s : State) (u : Nat) (x : Chan) : (s.setChan u x).traffic = s.traffic := rfl
@[simp] theorem setChan_aon (s : State) (u : Nat) (x : Chan) : (s.setChan u x).aon = s.aon := rfl
@[simp] theorem setChan_mile (s : State) (u : Nat) (x : Chan) : (s.setChan u x).mile = s.mile := rfl
@[simp] theorem setChan_freeUsed (s : State) (u : Nat) (x : Chan) : (s.setChan u x).freeUsed = s.freeUsed := rfl
@[simp] theorem setChan_out (s : State) (u : Nat) (x : Chan) : (s.setChan u x).out = s.out := rfl
@[simp] theorem setChan_pending (s : State) (u : Nat) (x : Chan) : (s.setChan u x).pending = s.pending := rfl
@[simp] theorem thread_setChan (s : State) (u : Nat) (x : Chan) : (s.setChan u x).thread = s.thread := rfl
@[simp] theorem wf_setChan (s : State) (u : Nat) (x : Chan) : (s.setChan u x).wf = s.wf := rfl
@[simp] theorem g_setChan (s : State) (u : Nat) (x : Chan) : (s.setChan u x).g = s.g := rfl
@[simp] theorem program_setChan (s : State) (u : Nat) (x : Chan) : (s.setChan u x).program = s.program := rfl
@[simp] theorem ring_setChan (s : State) (u : Nat) (x : Chan) : (s.setChan u x).ring = s.ring := rfl
@[simp] theorem mailbox_setChan (s : State) (u : Nat) (x : Chan) : (s.setChan u x).mailbox = s.mailbox := rfl
@[simp] theorem bell_setChan (s : State) (u : Nat) (x : Chan) : (s.setChan u x).bell = s.bell := rfl
@[simp] theorem link_setChan (s : State) (u : Nat) (x : Chan) : (s.setChan u x).link = s.link := rfl
@[simp] theorem decoder_setChan (s : State) (u : Nat) (x : Chan) : (s.setChan u x).decoder = s.decoder := rfl
@[simp] theorem page_setChan (s : State) (u : Nat) (x : Chan) : (s.setChan u x).page = s.page := rfl
@[simp] theorem region_setChan (s : State) (u : Nat) (x : Chan) : (s.setChan u x).region = s.region := rfl
@[simp] theorem frame_setChan (s : State) (u : Nat) (x : Chan) : (s.setChan u x).frame = s.frame := rfl
@[simp] theorem pool_setChan (s : State) (u : Nat) (x : Chan) : (s.setChan u x).pool = s.pool := rfl
@[simp] theorem ctx_setChan (s : State) (u : Nat) (x : Chan) : (s.setChan u x).ctx = s.ctx := rfl
@[simp] theorem toll_setChan (s : State) (u : Nat) (x : Chan) : (s.setChan u x).toll = s.toll := rfl
@[simp] theorem rb_setChan (s : State) (u : Nat) (x : Chan) : (s.setChan u x).rb = s.rb := rfl
@[simp] theorem wordAt_setChan (s : State) (u : Nat) (x : Chan) : (s.setChan u x).wordAt = s.wordAt := rfl
@[simp] theorem rd_setChan (s : State) (u : Nat) (x : Chan) : (s.setChan u x).rd = s.rd := rfl
@[simp] theorem rdB_setChan (s : State) (u : Nat) (x : Chan) : (s.setChan u x).rdB = s.rdB := rfl

/-! ### setToll -/
@[simp] theorem setToll_board (s : State) (g : Nat) (x : Toll) : (s.setToll g x).board = s.board := rfl
@[simp] theorem setToll_time (s : State) (g : Nat) (x : Toll) : (s.setToll g x).time = s.time := rfl
@[simp] theorem setToll_own (s : State) (g : Nat) (x : Toll) : (s.setToll g x).own = s.own := rfl
@[simp] theorem setToll_svc (s : State) (g : Nat) (x : Toll) : (s.setToll g x).svc = s.svc := rfl
@[simp] theorem setToll_tab (s : State) (g : Nat) (x : Toll) : (s.setToll g x).tab = s.tab := rfl
@[simp] theorem setToll_uncommitted (s : State) (g : Nat) (x : Toll) : (s.setToll g x).uncommitted = s.uncommitted := rfl
@[simp] theorem setToll_stamps (s : State) (g : Nat) (x : Toll) : (s.setToll g x).stamps = s.stamps := rfl
@[simp] theorem setToll_soft (s : State) (g : Nat) (x : Toll) : (s.setToll g x).soft = s.soft := rfl
@[simp] theorem setToll_regs (s : State) (g : Nat) (x : Toll) : (s.setToll g x).regs = s.regs := rfl
@[simp] theorem setToll_links (s : State) (g : Nat) (x : Toll) : (s.setToll g x).links = s.links := rfl
@[simp] theorem setToll_decoders (s : State) (g : Nat) (x : Toll) : (s.setToll g x).decoders = s.decoders := rfl
@[simp] theorem setToll_coh (s : State) (g : Nat) (x : Toll) : (s.setToll g x).coh = s.coh := rfl
@[simp] theorem setToll_plc (s : State) (g : Nat) (x : Toll) : (s.setToll g x).plc = s.plc := rfl
@[simp] theorem setToll_stow (s : State) (g : Nat) (x : Toll) : (s.setToll g x).stow = s.stow := rfl
@[simp] theorem setToll_sealing (s : State) (g : Nat) (x : Toll) : (s.setToll g x).sealing = s.sealing := rfl
@[simp] theorem setToll_dram (s : State) (g : Nat) (x : Toll) : (s.setToll g x).dram = s.dram := rfl
@[simp] theorem setToll_aon (s : State) (g : Nat) (x : Toll) : (s.setToll g x).aon = s.aon := rfl
@[simp] theorem setToll_mile (s : State) (g : Nat) (x : Toll) : (s.setToll g x).mile = s.mile := rfl
@[simp] theorem setToll_freeUsed (s : State) (g : Nat) (x : Toll) : (s.setToll g x).freeUsed = s.freeUsed := rfl
@[simp] theorem setToll_out (s : State) (g : Nat) (x : Toll) : (s.setToll g x).out = s.out := rfl
@[simp] theorem setToll_pending (s : State) (g : Nat) (x : Toll) : (s.setToll g x).pending = s.pending := rfl
@[simp] theorem thread_setToll (s : State) (g : Nat) (x : Toll) : (s.setToll g x).thread = s.thread := rfl
@[simp] theorem wf_setToll (s : State) (g : Nat) (x : Toll) : (s.setToll g x).wf = s.wf := rfl
@[simp] theorem g_setToll (s : State) (g : Nat) (x : Toll) : (s.setToll g x).g = s.g := rfl
@[simp] theorem program_setToll (s : State) (g : Nat) (x : Toll) : (s.setToll g x).program = s.program := rfl
@[simp] theorem ring_setToll (s : State) (g : Nat) (x : Toll) : (s.setToll g x).ring = s.ring := rfl
@[simp] theorem mailbox_setToll (s : State) (g : Nat) (x : Toll) : (s.setToll g x).mailbox = s.mailbox := rfl
@[simp] theorem bell_setToll (s : State) (g : Nat) (x : Toll) : (s.setToll g x).bell = s.bell := rfl
@[simp] theorem link_setToll (s : State) (g : Nat) (x : Toll) : (s.setToll g x).link = s.link := rfl
@[simp] theorem decoder_setToll (s : State) (g : Nat) (x : Toll) : (s.setToll g x).decoder = s.decoder := rfl
@[simp] theorem page_setToll (s : State) (g : Nat) (x : Toll) : (s.setToll g x).page = s.page := rfl
@[simp] theorem region_setToll (s : State) (g : Nat) (x : Toll) : (s.setToll g x).region = s.region := rfl
@[simp] theorem frame_setToll (s : State) (g : Nat) (x : Toll) : (s.setToll g x).frame = s.frame := rfl
@[simp] theorem pool_setToll (s : State) (g : Nat) (x : Toll) : (s.setToll g x).pool = s.pool := rfl
@[simp] theorem ctx_setToll (s : State) (g : Nat) (x : Toll) : (s.setToll g x).ctx = s.ctx := rfl
@[simp] theorem chan_setToll (s : State) (g : Nat) (x : Toll) : (s.setToll g x).chan = s.chan := rfl
@[simp] theorem rb_setToll (s : State) (g : Nat) (x : Toll) : (s.setToll g x).rb = s.rb := rfl
@[simp] theorem wordAt_setToll (s : State) (g : Nat) (x : Toll) : (s.setToll g x).wordAt = s.wordAt := rfl
@[simp] theorem rd_setToll (s : State) (g : Nat) (x : Toll) : (s.setToll g x).rd = s.rd := rfl
@[simp] theorem rdB_setToll (s : State) (g : Nat) (x : Toll) : (s.setToll g x).rdB = s.rdB := rfl

/-! ### setRb -/
@[simp] theorem setRb_board (s : State) (r : Nat) (x : Rb) : (s.setRb r x).board = s.board := rfl
@[simp] theorem setRb_time (s : State) (r : Nat) (x : Rb) : (s.setRb r x).time = s.time := rfl
@[simp] theorem setRb_own (s : State) (r : Nat) (x : Rb) : (s.setRb r x).own = s.own := rfl
@[simp] theorem setRb_svc (s : State) (r : Nat) (x : Rb) : (s.setRb r x).svc = s.svc := rfl
@[simp] theorem setRb_tab (s : State) (r : Nat) (x : Rb) : (s.setRb r x).tab = s.tab := rfl
@[simp] theorem setRb_uncommitted (s : State) (r : Nat) (x : Rb) : (s.setRb r x).uncommitted = s.uncommitted := rfl
@[simp] theorem setRb_stamps (s : State) (r : Nat) (x : Rb) : (s.setRb r x).stamps = s.stamps := rfl
@[simp] theorem setRb_soft (s : State) (r : Nat) (x : Rb) : (s.setRb r x).soft = s.soft := rfl
@[simp] theorem setRb_regs (s : State) (r : Nat) (x : Rb) : (s.setRb r x).regs = s.regs := rfl
@[simp] theorem setRb_links (s : State) (r : Nat) (x : Rb) : (s.setRb r x).links = s.links := rfl
@[simp] theorem setRb_decoders (s : State) (r : Nat) (x : Rb) : (s.setRb r x).decoders = s.decoders := rfl
@[simp] theorem setRb_coh (s : State) (r : Nat) (x : Rb) : (s.setRb r x).coh = s.coh := rfl
@[simp] theorem setRb_plc (s : State) (r : Nat) (x : Rb) : (s.setRb r x).plc = s.plc := rfl
@[simp] theorem setRb_stow (s : State) (r : Nat) (x : Rb) : (s.setRb r x).stow = s.stow := rfl
@[simp] theorem setRb_sealing (s : State) (r : Nat) (x : Rb) : (s.setRb r x).sealing = s.sealing := rfl
@[simp] theorem setRb_dram (s : State) (r : Nat) (x : Rb) : (s.setRb r x).dram = s.dram := rfl
@[simp] theorem setRb_aon (s : State) (r : Nat) (x : Rb) : (s.setRb r x).aon = s.aon := rfl
@[simp] theorem setRb_mile (s : State) (r : Nat) (x : Rb) : (s.setRb r x).mile = s.mile := rfl
@[simp] theorem setRb_freeUsed (s : State) (r : Nat) (x : Rb) : (s.setRb r x).freeUsed = s.freeUsed := rfl
@[simp] theorem setRb_out (s : State) (r : Nat) (x : Rb) : (s.setRb r x).out = s.out := rfl
@[simp] theorem setRb_pending (s : State) (r : Nat) (x : Rb) : (s.setRb r x).pending = s.pending := rfl
@[simp] theorem thread_setRb (s : State) (r : Nat) (x : Rb) : (s.setRb r x).thread = s.thread := rfl
@[simp] theorem wf_setRb (s : State) (r : Nat) (x : Rb) : (s.setRb r x).wf = s.wf := rfl
@[simp] theorem g_setRb (s : State) (r : Nat) (x : Rb) : (s.setRb r x).g = s.g := rfl
@[simp] theorem program_setRb (s : State) (r : Nat) (x : Rb) : (s.setRb r x).program = s.program := rfl
@[simp] theorem ring_setRb (s : State) (r : Nat) (x : Rb) : (s.setRb r x).ring = s.ring := rfl
@[simp] theorem mailbox_setRb (s : State) (r : Nat) (x : Rb) : (s.setRb r x).mailbox = s.mailbox := rfl
@[simp] theorem bell_setRb (s : State) (r : Nat) (x : Rb) : (s.setRb r x).bell = s.bell := rfl
@[simp] theorem link_setRb (s : State) (r : Nat) (x : Rb) : (s.setRb r x).link = s.link := rfl
@[simp] theorem decoder_setRb (s : State) (r : Nat) (x : Rb) : (s.setRb r x).decoder = s.decoder := rfl
@[simp] theorem page_setRb (s : State) (r : Nat) (x : Rb) : (s.setRb r x).page = s.page := rfl
@[simp] theorem region_setRb (s : State) (r : Nat) (x : Rb) : (s.setRb r x).region = s.region := rfl
@[simp] theorem frame_setRb (s : State) (r : Nat) (x : Rb) : (s.setRb r x).frame = s.frame := rfl
@[simp] theorem pool_setRb (s : State) (r : Nat) (x : Rb) : (s.setRb r x).pool = s.pool := rfl
@[simp] theorem ctx_setRb (s : State) (r : Nat) (x : Rb) : (s.setRb r x).ctx = s.ctx := rfl
@[simp] theorem chan_setRb (s : State) (r : Nat) (x : Rb) : (s.setRb r x).chan = s.chan := rfl
@[simp] theorem toll_setRb (s : State) (r : Nat) (x : Rb) : (s.setRb r x).toll = s.toll := rfl
@[simp] theorem wordAt_setRb (s : State) (r : Nat) (x : Rb) : (s.setRb r x).wordAt = s.wordAt := rfl
@[simp] theorem rd_setRb (s : State) (r : Nat) (x : Rb) : (s.setRb r x).rd = s.rd := rfl
@[simp] theorem rdB_setRb (s : State) (r : Nat) (x : Rb) : (s.setRb r x).rdB = s.rdB := rfl

/-! ### send -/
@[simp] theorem send_board (s : State) (m : Out) : (s.send m).board = s.board := rfl
@[simp] theorem send_time (s : State) (m : Out) : (s.send m).time = s.time := rfl
@[simp] theorem send_own (s : State) (m : Out) : (s.send m).own = s.own := rfl
@[simp] theorem send_svc (s : State) (m : Out) : (s.send m).svc = s.svc := rfl
@[simp] theorem send_tab (s : State) (m : Out) : (s.send m).tab = s.tab := rfl
@[simp] theorem send_uncommitted (s : State) (m : Out) : (s.send m).uncommitted = s.uncommitted := rfl
@[simp] theorem send_stamps (s : State) (m : Out) : (s.send m).stamps = s.stamps := rfl
@[simp] theorem send_soft (s : State) (m : Out) : (s.send m).soft = s.soft := rfl
@[simp] theorem send_regs (s : State) (m : Out) : (s.send m).regs = s.regs := rfl
@[simp] theorem send_links (s : State) (m : Out) : (s.send m).links = s.links := rfl
@[simp] theorem send_decoders (s : State) (m : Out) : (s.send m).decoders = s.decoders := rfl
@[simp] theorem send_coh (s : State) (m : Out) : (s.send m).coh = s.coh := rfl
@[simp] theorem send_plc (s : State) (m : Out) : (s.send m).plc = s.plc := rfl
@[simp] theorem send_stow (s : State) (m : Out) : (s.send m).stow = s.stow := rfl
@[simp] theorem send_sealing (s : State) (m : Out) : (s.send m).sealing = s.sealing := rfl
@[simp] theorem send_dram (s : State) (m : Out) : (s.send m).dram = s.dram := rfl
@[simp] theorem send_traffic (s : State) (m : Out) : (s.send m).traffic = s.traffic := rfl
@[simp] theorem send_aon (s : State) (m : Out) : (s.send m).aon = s.aon := rfl
@[simp] theorem send_mile (s : State) (m : Out) : (s.send m).mile = s.mile := rfl
@[simp] theorem send_freeUsed (s : State) (m : Out) : (s.send m).freeUsed = s.freeUsed := rfl
@[simp] theorem send_pending (s : State) (m : Out) : (s.send m).pending = s.pending := rfl
@[simp] theorem thread_send (s : State) (m : Out) : (s.send m).thread = s.thread := rfl
@[simp] theorem wf_send (s : State) (m : Out) : (s.send m).wf = s.wf := rfl
@[simp] theorem g_send (s : State) (m : Out) : (s.send m).g = s.g := rfl
@[simp] theorem program_send (s : State) (m : Out) : (s.send m).program = s.program := rfl
@[simp] theorem ring_send (s : State) (m : Out) : (s.send m).ring = s.ring := rfl
@[simp] theorem mailbox_send (s : State) (m : Out) : (s.send m).mailbox = s.mailbox := rfl
@[simp] theorem bell_send (s : State) (m : Out) : (s.send m).bell = s.bell := rfl
@[simp] theorem link_send (s : State) (m : Out) : (s.send m).link = s.link := rfl
@[simp] theorem decoder_send (s : State) (m : Out) : (s.send m).decoder = s.decoder := rfl
@[simp] theorem page_send (s : State) (m : Out) : (s.send m).page = s.page := rfl
@[simp] theorem region_send (s : State) (m : Out) : (s.send m).region = s.region := rfl
@[simp] theorem frame_send (s : State) (m : Out) : (s.send m).frame = s.frame := rfl
@[simp] theorem pool_send (s : State) (m : Out) : (s.send m).pool = s.pool := rfl
@[simp] theorem ctx_send (s : State) (m : Out) : (s.send m).ctx = s.ctx := rfl
@[simp] theorem chan_send (s : State) (m : Out) : (s.send m).chan = s.chan := rfl
@[simp] theorem toll_send (s : State) (m : Out) : (s.send m).toll = s.toll := rfl
@[simp] theorem rb_send (s : State) (m : Out) : (s.send m).rb = s.rb := rfl
@[simp] theorem wordAt_send (s : State) (m : Out) : (s.send m).wordAt = s.wordAt := rfl
@[simp] theorem rd_send (s : State) (m : Out) : (s.send m).rd = s.rd := rfl
@[simp] theorem rdB_send (s : State) (m : Out) : (s.send m).rdB = s.rdB := rfl

/-! ### took -/
@[simp] theorem took_board (s : State) : (s.took).board = s.board := rfl
@[simp] theorem took_time (s : State) : (s.took).time = s.time := rfl
@[simp] theorem took_own (s : State) : (s.took).own = s.own := rfl
@[simp] theorem took_svc (s : State) : (s.took).svc = s.svc := rfl
@[simp] theorem took_tab (s : State) : (s.took).tab = s.tab := rfl
@[simp] theorem took_uncommitted (s : State) : (s.took).uncommitted = s.uncommitted := rfl
@[simp] theorem took_stamps (s : State) : (s.took).stamps = s.stamps := rfl
@[simp] theorem took_soft (s : State) : (s.took).soft = s.soft := rfl
@[simp] theorem took_regs (s : State) : (s.took).regs = s.regs := rfl
@[simp] theorem took_links (s : State) : (s.took).links = s.links := rfl
@[simp] theorem took_decoders (s : State) : (s.took).decoders = s.decoders := rfl
@[simp] theorem took_coh (s : State) : (s.took).coh = s.coh := rfl
@[simp] theorem took_plc (s : State) : (s.took).plc = s.plc := rfl
@[simp] theorem took_stow (s : State) : (s.took).stow = s.stow := rfl
@[simp] theorem took_sealing (s : State) : (s.took).sealing = s.sealing := rfl
@[simp] theorem took_dram (s : State) : (s.took).dram = s.dram := rfl
@[simp] theorem took_traffic (s : State) : (s.took).traffic = s.traffic := rfl
@[simp] theorem took_aon (s : State) : (s.took).aon = s.aon := rfl
@[simp] theorem took_mile (s : State) : (s.took).mile = s.mile := rfl
@[simp] theorem took_out (s : State) : (s.took).out = s.out := rfl
@[simp] theorem took_pending (s : State) : (s.took).pending = s.pending := rfl
@[simp] theorem thread_took (s : State) : (s.took).thread = s.thread := rfl
@[simp] theorem wf_took (s : State) : (s.took).wf = s.wf := rfl
@[simp] theorem g_took (s : State) : (s.took).g = s.g := rfl
@[simp] theorem program_took (s : State) : (s.took).program = s.program := rfl
@[simp] theorem ring_took (s : State) : (s.took).ring = s.ring := rfl
@[simp] theorem mailbox_took (s : State) : (s.took).mailbox = s.mailbox := rfl
@[simp] theorem bell_took (s : State) : (s.took).bell = s.bell := rfl
@[simp] theorem link_took (s : State) : (s.took).link = s.link := rfl
@[simp] theorem decoder_took (s : State) : (s.took).decoder = s.decoder := rfl
@[simp] theorem page_took (s : State) : (s.took).page = s.page := rfl
@[simp] theorem region_took (s : State) : (s.took).region = s.region := rfl
@[simp] theorem frame_took (s : State) : (s.took).frame = s.frame := rfl
@[simp] theorem pool_took (s : State) : (s.took).pool = s.pool := rfl
@[simp] theorem ctx_took (s : State) : (s.took).ctx = s.ctx := rfl
@[simp] theorem chan_took (s : State) : (s.took).chan = s.chan := rfl
@[simp] theorem toll_took (s : State) : (s.took).toll = s.toll := rfl
@[simp] theorem rb_took (s : State) : (s.took).rb = s.rb := rfl
@[simp] theorem wordAt_took (s : State) : (s.took).wordAt = s.wordAt := rfl
@[simp] theorem rd_took (s : State) : (s.took).rd = s.rd := rfl
@[simp] theorem rdB_took (s : State) : (s.took).rdB = s.rdB := rfl

/-! ### setG, which discards a write to g0 -/
@[simp] theorem setG_board (s : State) (w t r : Nat) (v : BitVec 64) : (s.setG w t r v).board = s.board := by unfold setG; split <;> rfl
@[simp] theorem setG_time (s : State) (w t r : Nat) (v : BitVec 64) : (s.setG w t r v).time = s.time := by unfold setG; split <;> rfl
@[simp] theorem setG_own (s : State) (w t r : Nat) (v : BitVec 64) : (s.setG w t r v).own = s.own := by unfold setG; split <;> rfl
@[simp] theorem setG_svc (s : State) (w t r : Nat) (v : BitVec 64) : (s.setG w t r v).svc = s.svc := by unfold setG; split <;> rfl
@[simp] theorem setG_tab (s : State) (w t r : Nat) (v : BitVec 64) : (s.setG w t r v).tab = s.tab := by unfold setG; split <;> rfl
@[simp] theorem setG_uncommitted (s : State) (w t r : Nat) (v : BitVec 64) : (s.setG w t r v).uncommitted = s.uncommitted := by unfold setG; split <;> rfl
@[simp] theorem setG_stamps (s : State) (w t r : Nat) (v : BitVec 64) : (s.setG w t r v).stamps = s.stamps := by unfold setG; split <;> rfl
@[simp] theorem setG_soft (s : State) (w t r : Nat) (v : BitVec 64) : (s.setG w t r v).soft = s.soft := by unfold setG; split <;> rfl
@[simp] theorem setG_links (s : State) (w t r : Nat) (v : BitVec 64) : (s.setG w t r v).links = s.links := by unfold setG; split <;> rfl
@[simp] theorem setG_decoders (s : State) (w t r : Nat) (v : BitVec 64) : (s.setG w t r v).decoders = s.decoders := by unfold setG; split <;> rfl
@[simp] theorem setG_coh (s : State) (w t r : Nat) (v : BitVec 64) : (s.setG w t r v).coh = s.coh := by unfold setG; split <;> rfl
@[simp] theorem setG_plc (s : State) (w t r : Nat) (v : BitVec 64) : (s.setG w t r v).plc = s.plc := by unfold setG; split <;> rfl
@[simp] theorem setG_stow (s : State) (w t r : Nat) (v : BitVec 64) : (s.setG w t r v).stow = s.stow := by unfold setG; split <;> rfl
@[simp] theorem setG_sealing (s : State) (w t r : Nat) (v : BitVec 64) : (s.setG w t r v).sealing = s.sealing := by unfold setG; split <;> rfl
@[simp] theorem setG_dram (s : State) (w t r : Nat) (v : BitVec 64) : (s.setG w t r v).dram = s.dram := by unfold setG; split <;> rfl
@[simp] theorem setG_traffic (s : State) (w t r : Nat) (v : BitVec 64) : (s.setG w t r v).traffic = s.traffic := by unfold setG; split <;> rfl
@[simp] theorem setG_aon (s : State) (w t r : Nat) (v : BitVec 64) : (s.setG w t r v).aon = s.aon := by unfold setG; split <;> rfl
@[simp] theorem setG_mile (s : State) (w t r : Nat) (v : BitVec 64) : (s.setG w t r v).mile = s.mile := by unfold setG; split <;> rfl
@[simp] theorem setG_freeUsed (s : State) (w t r : Nat) (v : BitVec 64) : (s.setG w t r v).freeUsed = s.freeUsed := by unfold setG; split <;> rfl
@[simp] theorem setG_out (s : State) (w t r : Nat) (v : BitVec 64) : (s.setG w t r v).out = s.out := by unfold setG; split <;> rfl
@[simp] theorem setG_pending (s : State) (w t r : Nat) (v : BitVec 64) : (s.setG w t r v).pending = s.pending := by unfold setG; split <;> rfl
@[simp] theorem thread_setG (s : State) (w t r : Nat) (v : BitVec 64) : (s.setG w t r v).thread = s.thread := by unfold setG; split <;> rfl
@[simp] theorem wf_setG (s : State) (w t r : Nat) (v : BitVec 64) : (s.setG w t r v).wf = s.wf := by unfold setG; split <;> rfl
@[simp] theorem program_setG (s : State) (w t r : Nat) (v : BitVec 64) : (s.setG w t r v).program = s.program := by unfold setG; split <;> rfl
@[simp] theorem ring_setG (s : State) (w t r : Nat) (v : BitVec 64) : (s.setG w t r v).ring = s.ring := by unfold setG; split <;> rfl
@[simp] theorem mailbox_setG (s : State) (w t r : Nat) (v : BitVec 64) : (s.setG w t r v).mailbox = s.mailbox := by unfold setG; split <;> rfl
@[simp] theorem bell_setG (s : State) (w t r : Nat) (v : BitVec 64) : (s.setG w t r v).bell = s.bell := by unfold setG; split <;> rfl
@[simp] theorem link_setG (s : State) (w t r : Nat) (v : BitVec 64) : (s.setG w t r v).link = s.link := by unfold setG; split <;> rfl
@[simp] theorem decoder_setG (s : State) (w t r : Nat) (v : BitVec 64) : (s.setG w t r v).decoder = s.decoder := by unfold setG; split <;> rfl
@[simp] theorem page_setG (s : State) (w t r : Nat) (v : BitVec 64) : (s.setG w t r v).page = s.page := by unfold setG; split <;> rfl
@[simp] theorem region_setG (s : State) (w t r : Nat) (v : BitVec 64) : (s.setG w t r v).region = s.region := by unfold setG; split <;> rfl
@[simp] theorem frame_setG (s : State) (w t r : Nat) (v : BitVec 64) : (s.setG w t r v).frame = s.frame := by unfold setG; split <;> rfl
@[simp] theorem pool_setG (s : State) (w t r : Nat) (v : BitVec 64) : (s.setG w t r v).pool = s.pool := by unfold setG; split <;> rfl
@[simp] theorem ctx_setG (s : State) (w t r : Nat) (v : BitVec 64) : (s.setG w t r v).ctx = s.ctx := by unfold setG; split <;> rfl
@[simp] theorem chan_setG (s : State) (w t r : Nat) (v : BitVec 64) : (s.setG w t r v).chan = s.chan := by unfold setG; split <;> rfl
@[simp] theorem toll_setG (s : State) (w t r : Nat) (v : BitVec 64) : (s.setG w t r v).toll = s.toll := by unfold setG; split <;> rfl
@[simp] theorem rb_setG (s : State) (w t r : Nat) (v : BitVec 64) : (s.setG w t r v).rb = s.rb := by unfold setG; split <;> rfl
@[simp] theorem wordAt_setG (s : State) (w t r : Nat) (v : BitVec 64) : (s.setG w t r v).wordAt = s.wordAt := by unfold setG; split <;> rfl
@[simp] theorem rd_setG (s : State) (w t r : Nat) (v : BitVec 64) : (s.setG w t r v).rd = s.rd := by unfold setG; split <;> rfl
@[simp] theorem rdB_setG (s : State) (w t r : Nat) (v : BitVec 64) : (s.setG w t r v).rdB = s.rdB := by unfold setG; split <;> rfl

/-! ### Reads after writes -/

theorem thread_setThread (s : State) (w t : Nat) (x : Thread) (w' t' : Nat) :
    (s.setThread w t x).thread w' t' = if thKey w' t' = thKey w t then x else s.thread w' t' :=
  tget_tset _ _ _ _ _

@[simp] theorem thread_setThread_self (s : State) (w t : Nat) (x : Thread) : (s.setThread w t x).thread w t = x :=
  tget_tset_self _ _ _ _

/-- The later of two updates of a thread stands. -/
@[simp] theorem setThread_setThread (s : State) (w t : Nat) (x y : Thread) :
    (s.setThread w t x).setThread w t y = s.setThread w t y := by
  unfold setThread; simp

theorem wordAt_setWord (s : State) (tbl idx word : Nat) (v : BitVec 64) (tbl' idx' word' : Nat) :
    (s.setWord tbl idx word v).wordAt tbl' idx' word' =
      if handle tbl' idx' word' = handle tbl idx word then v else s.wordAt tbl' idx' word' :=
  tget_tset _ _ _ _ _

@[simp] theorem wordAt_setWord_self (s : State) (tbl idx word : Nat) (v : BitVec 64) :
    (s.setWord tbl idx word v).wordAt tbl idx word = v := tget_tset_self _ _ _ _

theorem g_setG (s : State) (w t r : Nat) (v : BitVec 64) (w' t' r' : Nat) :
    (s.setG w t r v).g w' t' r' =
      if r' = 0 then 0 else if r ≠ 0 ∧ thKey w' t' * 32 + r' = thKey w t * 32 + r then v else s.g w' t' r' := by
  unfold setG g
  by_cases hr : r = 0
  · by_cases hr' : r' = 0 <;> simp [hr, hr']
  · by_cases hr' : r' = 0
    · simp [hr']
    · simp [hr, hr', tget_tset]

@[simp] theorem ring_setRing_self (s : State) (ld r : Nat) (x : Ring) : (s.setRing ld r x).ring ld r = x :=
  tget_tset_self _ _ _ _

@[simp] theorem mailbox_setMailbox_self (s : State) (f : Nat) (b : Bool) (m : Nat) (x : Mailbox) :
    (s.setMailbox f b m x).mailbox f b m = x := tget_tset_self _ _ _ _

@[simp] theorem bell_setBell_self (s : State) (f : Nat) (x : Doorbell) : (s.setBell f x).bell f = x :=
  tget_tset_self _ _ _ _

@[simp] theorem link_setLink_self (s : State) (l : Nat) (x : Link) : (s.setLink l x).link l = x :=
  tget_tset_self _ _ _ _

@[simp] theorem chan_setChan_self (s : State) (u : Nat) (x : Chan) : (s.setChan u x).chan u = x :=
  tget_tset_self _ _ _ _

@[simp] theorem toll_setToll_self (s : State) (t : Nat) (x : Toll) : (s.setToll t x).toll t = x :=
  tget_tset_self _ _ _ _

@[simp] theorem wf_setWf_self (s : State) (w : Nat) (x : Wf) : (s.setWf w x).wf w = x := tget_tset_self _ _ _ _

@[simp] theorem page_setPage_self (s : State) (p : Nat) (x : Page) : (s.setPage p x).page p = x :=
  tget_tset_self _ _ _ _

end State
end Sys2Proof.Machine
end

