-- ==== Sys2Proof/Laws/Fields.lean ====
section
/-! SUPPORT. A field written reads back, and every other field reads as before (R3, R167): what every proof about a
table word cites instead of its bits. -/
namespace Sys2Proof.Machine

/-- The field lies inside one word. -/
def Fld.fits (f : Fld) : Bool := decide (f.bit + f.w ≤ 64)

/-- Two fields hold no bit in common, whatever entry of their table they are in. -/
def Fld.apart (f g : Fld) : Bool :=
  decide (f.lay.tbl ≠ g.lay.tbl) || decide (f.word ≠ g.word) || decide (f.bit + f.w ≤ g.bit) || decide (g.bit + g.w ≤ f.bit)

theorem Fld.mask_bit (f : Fld) (h : f.fits = true) (i : Nat) :
    f.mask.getLsbD i = (decide (f.bit ≤ i) && decide (i < f.bit + f.w)) := by
  have h : f.bit + f.w ≤ 64 := by simpa [Fld.fits] using h
  unfold Fld.mask
  rw [BitVec.getLsbD_ofNat, Nat.testBit_mul_two_pow, Nat.testBit_two_pow_sub_one]
  by_cases h1 : f.bit ≤ i <;> by_cases h2 : i < f.bit + f.w <;> simp [h1, h2] <;> omega

theorem Fld.put_bit (f : Fld) (h : f.fits = true) (x : BitVec 64) (v i : Nat) :
    (f.put x v).getLsbD i =
      if f.bit ≤ i ∧ i < f.bit + f.w then v.testBit (i - f.bit) else x.getLsbD i := by
  have h' : f.bit + f.w ≤ 64 := by simpa [Fld.fits] using h
  unfold Fld.put
  simp only [BitVec.getLsbD_or, BitVec.getLsbD_and, BitVec.getLsbD_not, Fld.mask_bit f h, BitVec.getLsbD_ofNat,
    Nat.testBit_mul_two_pow, Nat.testBit_mod_two_pow]
  by_cases h1 : f.bit ≤ i <;> by_cases h2 : i < f.bit + f.w <;> by_cases h3 : i < 64 <;>
    simp [h1, h2, h3] <;>
    first | omega | (rw [BitVec.getLsbD_of_ge _ _ (by omega)])

theorem Fld.get_bit (f : Fld) (x : BitVec 64) (i : Nat) :
    (f.get x).testBit i = (decide (i < f.w) && x.getLsbD (f.bit + i)) := by
  unfold Fld.get
  rw [Nat.testBit_mod_two_pow, Nat.testBit_div_two_pow, Nat.add_comm]
  rfl

theorem Fld.get_put_self (f : Fld) (h : f.fits = true) (x : BitVec 64) (v : Nat) : f.get (f.put x v) = v % 2 ^ f.w := by
  apply Nat.eq_of_testBit_eq
  intro i
  rw [Fld.get_bit, Nat.testBit_mod_two_pow, Fld.put_bit f h]
  by_cases hi : i < f.w
  · simp [hi]
  · simp [hi]

theorem Fld.get_put_apart (f g : Fld) (h : g.fits = true) (x : BitVec 64) (v : Nat)
    (ha : f.bit + f.w ≤ g.bit ∨ g.bit + g.w ≤ f.bit) : f.get (g.put x v) = f.get x := by
  apply Nat.eq_of_testBit_eq
  intro i
  rw [Fld.get_bit, Fld.get_bit, Fld.put_bit g h]
  by_cases hi : i < f.w
  · rw [if_neg (by omega)]
  · simp [hi]

theorem Fld.get_lt (f : Fld) (x : BitVec 64) : f.get x < 2 ^ f.w := Nat.mod_lt _ (Nat.two_pow_pos _)

theorem State.rd_lt (s : State) (f : Fld) (i : Nat) : s.rd f i < 2 ^ f.w := Fld.get_lt _ _

/-- The field as written, modulo its width. -/
theorem State.rd_wr_self (s : State) (f : Fld) (i v : Nat) (h : f.fits = true) : (s.wr f i v).rd f i = v % 2 ^ f.w := by
  unfold State.rd State.wr
  rw [wordAt_setWord, if_pos rfl, Fld.get_put_self f h]

/-- A field apart from the one written. -/
theorem State.rd_wr_apart (s : State) (f g : Fld) (i j v : Nat) (h : g.fits = true) (ha : f.apart g = true)
    (hi : i < 2 ^ 48) (hj : j < 2 ^ 48) (hf : f.word < 256) (hg : g.word < 256) : (s.wr g j v).rd f i = s.rd f i := by
  unfold State.rd State.wr
  rw [wordAt_setWord]
  split
  · rename_i he
    simp only [handle] at he
    have h1 : f.lay.tbl = g.lay.tbl := by omega
    have h2 : i = j := by omega
    have h3 : f.word = g.word := by omega
    simp only [Fld.apart, h1, h3, ne_eq, not_true_eq_false, decide_false, Bool.false_or, Bool.or_eq_true,
      decide_eq_true_eq] at ha
    rw [Fld.get_put_apart f g h _ _ ha, h1, h2, h3]
  · rfl

/-- The same field of another entry, or any field of another entry. -/
theorem State.rd_wr_entry (s : State) (f g : Fld) (i j v : Nat) (hij : i ≠ j) (hi : i < 2 ^ 48) (hj : j < 2 ^ 48)
    (hf : f.word < 256) (hg : g.word < 256) : (s.wr g j v).rd f i = s.rd f i := by
  unfold State.rd State.wr
  rw [wordAt_setWord, if_neg]
  simp only [handle]; omega

/-- The value in force of a field apart from the one written. -/
theorem State.inf_wr_apart (s : State) (f g : Fld) (i j v : Nat) (h : g.fits = true) (ha : f.apart g = true)
    (hi : i < 2 ^ 48) (hj : j < 2 ^ 48) (hf : f.word < 256) (hg : g.word < 256) : (s.wr g j v).inf f i = s.inf f i := by
  have base : ∀ k < f.w, (f.get ((s.wr g j v).wordAt f.lay.tbl i f.word)).testBit k =
      (f.get (s.wordAt f.lay.tbl i f.word)).testBit k := by
    intro k _
    have := State.rd_wr_apart s f g i j v h ha hi hj hf hg
    unfold State.rd at this
    rw [this]
  unfold State.inf State.wordInForce
  show f.get (s.uncommitted.foldl _ _) = _
  have key : ∀ (l : List Uncommitted) (x y : BitVec 64), (∀ k < f.w, (f.get x).testBit k = (f.get y).testBit k) →
      ∀ k < f.w, (f.get (l.foldl (fun x u => if u.tbl = f.lay.tbl ∧ u.idx = i ∧ u.word = f.word then
        (x &&& ~~~ u.mask) ||| (u.old &&& u.mask) else x) x)).testBit k =
      (f.get (l.foldl (fun x u => if u.tbl = f.lay.tbl ∧ u.idx = i ∧ u.word = f.word then
        (x &&& ~~~ u.mask) ||| (u.old &&& u.mask) else x) y)).testBit k := by
    intro l
    induction l with
    | nil => intro x y hxy k hk; exact hxy k hk
    | cons u l ih =>
      intro x y hxy k hk
      refine ih _ _ ?_ k hk
      intro k hk
      have := hxy k hk
      dsimp only
      split
      · rw [Fld.get_bit, Fld.get_bit] at this ⊢
        simp only [hk, decide_true, Bool.true_and] at this
        simp [this]
      · exact this
  apply Nat.eq_of_testBit_eq
  intro k
  by_cases hk : k < f.w
  · exact key _ _ _ base k hk
  · rw [Fld.get_bit, Fld.get_bit]; simp [hk]

end Sys2Proof.Machine
end

