-- ==== Sys2Proof/Laws/Milepost.lean ====
section
/-! SUPPORT. What counting a milepost event can change (R467-R472): the MILEPOST table and the mileposts' own state. -/
namespace Sys2Proof.Machine

/-- The parts that milepost counting leaves alone. -/
def CountFrame (s u : State) : Prop :=
  SameDevice s u ∧ SameTables s u ∧ u.soft = s.soft ∧ u.regs = s.regs

theorem CountFrame.refl (s : State) : CountFrame s s := by
  refine ⟨?_, fun _ _ _ _ _ _ => rfl, rfl, rfl⟩
  repeat' constructor

/-- Frames compose. -/
theorem CountFrame.trans {s u v : State} (a : CountFrame s u) (b : CountFrame u v) : CountFrame s v := by
  obtain ⟨a1, a2, a3, a4⟩ := a
  obtain ⟨b1, b2, b3, b4⟩ := b
  refine ⟨?_, fun x y z h1 h2 h3 => (b2 x y z h1 h2 h3).trans (a2 x y z h1 h2 h3), b3.trans a3, b4.trans a4⟩
  obtain ⟨h1,h2,h3,h4,h5,h6,h7,h8,h9,h10,h11,h12,h13,h14,h15,h16,h17⟩ := a1
  obtain ⟨k1,k2,k3,k4,k5,k6,k7,k8,k9,k10,k11,k12,k13,k14,k15,k16,k17⟩ := b1
  exact ⟨k1.trans h1,k2.trans h2,k3.trans h3,k4.trans h4,k5.trans h5,k6.trans h6,k7.trans h7,k8.trans h8,k9.trans h9,k10.trans h10,k11.trans h11,k12.trans h12,k13.trans h13,k14.trans h14,k15.trans h15,k16.trans h16,k17.trans h17⟩

theorem countFrame_wr (s : State) (f : Fld) (i v : Nat) (h : f.lay.tbl = 0x0F) (hi : i < 2^48) (hw : f.word < 2^8) : CountFrame s (s.wr f i v) := by
  refine ⟨by repeat' constructor, ?_, rfl, rfl⟩
  intro tbl idx word ht hx hwd
  simp only [State.wr, State.wordAt_setWord]
  rw [if_neg]
  rw [h]; simp only [handle]; omega

theorem countFrame_incSat (s : State) (f : Fld) (i v : Nat) (h : f.lay.tbl = 0x0F) (hi : i < 2^48) (hw : f.word < 2^8) : CountFrame s (s.incSat f i v) := countFrame_wr s f i _ h hi hw

theorem countFrame_sample (s : State) (n : Nat) (o : Occ) : CountFrame s (s.sample n o) := by
  unfold State.sample
  dsimp only
  split
  · exact countFrame_incSat _ _ _ _ rfl (by norm_num) (by decide)
  · refine CountFrame.trans ?_ (countFrame_wr _ _ _ _ rfl (by norm_num) (by decide))
    exact ⟨by repeat' constructor, fun _ _ _ _ _ _ => rfl, rfl, rfl⟩

/-- Marking bits as set in this cycle (R423) touches no table. -/
theorem countFrame_stamp (s : State) (tbl idx word : Nat) (m : BitVec 64) : CountFrame s (s.stamp tbl idx word m) :=
  ⟨by repeat' constructor, fun _ _ _ _ _ _ => rfl, rfl, rfl⟩

theorem countFrame_setW1c (s : State) (f : Fld) (i v : Nat) (h : f.lay.tbl = 0x0F) (hi : i < 2^48) (hw : f.word < 2^8) : CountFrame s (s.setW1c f i v) :=
  (countFrame_wr s f i v h hi hw).trans (countFrame_stamp _ _ _ _ _)

theorem countFrame_wrapped (s : State) (n : Nat) (o : Occ) (hn : n < 2^48) : CountFrame s (s.wrapped n o) := by
  unfold State.wrapped
  have h1 := countFrame_setW1c s MILEPOST.OVF n 1 rfl hn (by decide)
  refine h1.trans ?_
  generalize s.setW1c MILEPOST.OVF n 1 = a
  have key : ∀ b : State, CountFrame b (if n < 512 && b.rdB MILEPOST.FRZ_OVF n then b.wr MPALL.FREEZE 544 1 else b) := by
    intro b; split
    · exact countFrame_wr _ _ _ _ rfl (by norm_num) (by decide)
    · exact .refl _
  dsimp only
  split
  · exact ((countFrame_wr a MILEPOST.VALUE n _ rfl hn (by decide)).trans (countFrame_sample _ n o)).trans (key _)
  · exact (countFrame_wr a MILEPOST.VALUE n 0 rfl hn (by decide)).trans (key _)

theorem countFrame_addOne (s : State) (n : Nat) (o : Occ) (hn : n < 2^48) : CountFrame s (s.addOne n o) := by
  unfold State.addOne; dsimp only; split
  · exact countFrame_wr _ _ _ _ rfl hn (by decide)
  · exact countFrame_wrapped s n o hn

theorem countFrame_addOcc (s : State) (n : Nat) (o : Occ) (hn : n < 2^48) : CountFrame s (s.addOcc n o) := by
  unfold State.addOcc; split
  · split
    · exact .refl _
    · refine CountFrame.trans ?_ (countFrame_addOne _ n o hn)
      exact ⟨by repeat' constructor, fun _ _ _ _ _ _ => rfl, rfl, rfl⟩
  · exact countFrame_addOne _ n o hn

theorem countFrame_fold (o : Occ) (l : List Nat) (s : State) (h : ∀ n ∈ l, n < 2^48) :
    CountFrame s (l.foldl (fun s n => s.addOcc n o) s) := by
  induction l generalizing s with
  | nil => exact .refl _
  | cons a l ih => exact (countFrame_addOcc s a o (h a (by simp))).trans (ih _ (fun n hn => h n (by simp [hn])))

theorem enabledCounters_lt (s : State) (n : Nat) (h : n ∈ s.enabledCounters) : n < 2 ^ 48 := by
  simp only [State.enabledCounters, List.mem_filterMap] at h
  obtain ⟨p, _, hp⟩ := h
  split at hp
  · simp at hp; omega
  · simp at hp

/-- Counting an occurrence changes only the mileposts. -/
theorem countFrame_occur (s : State) (o : Occ) : CountFrame s (s.occur o) := by
  unfold State.occur; split
  · exact .refl _
  · exact countFrame_fold o _ s (fun n hn => enabledCounters_lt s n (List.mem_of_mem_filter hn))

theorem countFrame_event (s : State) (u e : Nat) : CountFrame s (s.event u e) := countFrame_occur s _

theorem countFrame_fixed (s : State) (n : Nat) (hn : n < 2^48) : CountFrame s (s.fixed n) := by
  unfold State.fixed; split
  · exact .refl _
  · exact countFrame_addOne s n _ hn
end Sys2Proof.Machine
end

