-- ==== Sys2Proof/Laws/Ramer.lean ====
section
/-! SUPPORT. What the shared frame of a Ramer instruction does: a thread that issues runs its body on the issued state,
and goes on, jumps, or takes an exception (R115, R120, R123, R142, R157). -/
namespace Sys2Proof.Machine

theorem issued_count (s : State) (w t : Nat) :
    CountFrame (s.setThread w t (s.thread w t).stepped) (issuedState s w t) :=
  (countFrame_event _ _ _).trans (countFrame_fixed _ _ (by norm_num))

/-- Registers are read by the body as they were. -/
@[simp] theorem issued_g (s : State) (w t w' t' r : Nat) : (issuedState s w t).g w' t' r = s.g w' t' r := by
  have h := (issued_count s w t).2.2.2
  unfold State.g; rw [h]; rfl

theorem issued_soft (s : State) (w t : Nat) :
    (issuedState s w t).soft = (s.setThread w t (s.thread w t).stepped).soft :=
  (issued_count s w t).2.2.1

theorem issued_thread (s : State) (w t : Nat) : (issuedState s w t).thread w t = (s.thread w t).stepped := by
  unfold State.thread; rw [issued_soft]; exact tget_tset_self _ _ _ _

/-- A jump to a target: a legal one becomes the PC, another is refused at the next fetch (R123). -/
theorem jumpTo_cases (x : Thread) (p : Option Program) (target : BitVec 64) :
    (x.jumpTo p target = { x with pc := BitVec.ofNat 16 target.toNat, badTarget := none } ∧ target.toNat < 65536) ∨
    x.jumpTo p target = { x with badTarget := some target } := by
  unfold Thread.jumpTo
  cases p with
  | none => right; simp
  | some q =>
    dsimp only
    split
    · rename_i h
      refine .inl ⟨rfl, ?_⟩
      simp only [Bool.and_eq_true, decide_eq_true_eq, inImage] at h
      omega
    · exact .inr rfl

/-- The thread's next fetch happens at the target. -/
theorem fetchAt_jumpTo (s : State) (w t : Nat) (x : Thread) (p : Option Program) (target : BitVec 64) :
    ((s.setThread w t (x.jumpTo p target)).fetchAt w t).1 = target := by
  unfold State.fetchAt
  rw [State.thread_setThread_self]
  rcases jumpTo_cases x p target with ⟨h, hlt⟩ | h
  · rw [h]
    apply BitVec.eq_of_toNat_eq
    simp
    omega
  · rw [h]

/-- A thread that issues a fetched instruction runs its body: the state it ends in, before `single` is cleared. -/
theorem issue_issues (s : State) (w : WfNo) (t : ThrNo) (ok : Nat → Bool) (body : State → Eff) (h : Issues s w t)
    (hf : ok (s.fetchedWord w t) = true) :
    issue w t ok body s =
      (let r := match body (issuedState s w t) with
        | .next s' => s'.setThread w t ((s'.thread w t).jumpTo (s'.imageOf (s'.thread w t)) (nextAddr s w t))
        | .jump s' target => s'.setThread w t ((s'.thread w t).jumpTo (s'.imageOf (s'.thread w t)) target)
        | .raise code trap => s.takeException w t code trap (s.fetchAt w t).1.toNat
        | .suspend s' wt =>
          let s' := s'.setThread w t ((s'.thread w t).jumpTo (s'.imageOf (s'.thread w t)) (nextAddr s w t))
          s'.setThread w t { s'.thread w t with st := .suspended, wait := wt, suspAt := s'.time.fclk }
        | .stop s' => s'
        | .retry f => f s
       if (s.thread w t).single then r.setThread w t { r.thread w t with single := false } else r) := by
  obtain ⟨h1, h2, h3⟩ := h
  unfold issue runBody
  have h3' : ¬ ((s.thread w t).budget ≠ 0 ∧ (s.thread w t).budget ≤ (s.thread w t).steps) := by omega
  simp only [h1, hf, if_true, h2, if_neg h3', Bool.true_eq_false, if_false, Bool.not_true, Bool.or_true, Bool.and_self]
  rfl

/-- Thread keys are distinct. -/
theorem thKey_inj (w w' : WfNo) (t t' : ThrNo) : thKey w t = thKey w' t' ↔ w = w' ∧ t = t' := by
  constructor
  · intro h; simp only [thKey] at h; constructor <;> (apply Fin.ext; omega)
  · rintro ⟨rfl, rfl⟩; rfl

theorem fetchAt_single (s : State) (w t : Nat) (x : Thread) (b : Bool) :
    ((s.setThread w t { x with single := b }).fetchAt w t).1 = ((s.setThread w t x).fetchAt w t).1 := by
  unfold State.fetchAt
  simp only [State.thread_setThread_self]
  split <;> rfl

/-- It changes the thread only, and of it only where it fetches next. -/
theorem finish_spec (v : State) (w t : Nat) (target : BitVec 64) (b : Bool) (hb : b = (v.thread w t).single) :
    ((finish v w t target b).fetchAt w t).1 = target ∧
    finish v w t target b = v.setThread w t ((finish v w t target b).thread w t) ∧
    ∃ pc bad, (finish v w t target b).thread w t = { v.thread w t with pc := pc, badTarget := bad, single := false } := by
  have f := fetchAt_jumpTo v w t (v.thread w t) (v.imageOf (v.thread w t)) target
  have c := jumpTo_cases (v.thread w t) (v.imageOf (v.thread w t)) target
  unfold finish
  generalize (v.thread w t).jumpTo (v.imageOf (v.thread w t)) target = y at f c
  cases b with
  | true =>
    simp only [if_true, State.thread_setThread_self, State.setThread_setThread]
    refine ⟨?_, trivial, ?_⟩
    · rw [fetchAt_single]; exact f
    · rcases c with ⟨h, _⟩ | h <;> rw [h] <;> exact ⟨_, _, rfl⟩
  | false =>
    simp only [Bool.false_eq_true, if_false, State.thread_setThread_self]
    refine ⟨f, trivial, ?_⟩
    rcases c with ⟨h, _⟩ | h <;> rw [h, hb] <;> exact ⟨_, _, rfl⟩

/-- Everything an instruction that writes one register and goes to a target does. -/
theorem goes (s : State) (w : WfNo) (t : ThrNo) (d : Reg) (x target : BitVec 64) :
    let u := finish ((issuedState s w t).setG w t d x) w t target (s.thread w t).single
    Writes s u w t d x ∧ GoesTo s u w t target ∧ RamerFrame s u w t s.soft := by
  intro u
  have cf := issued_count s w t
  have hv : ((issuedState s w t).setG w t d x).thread w t = (s.thread w t).stepped := by
    rw [State.thread_setG, issued_thread]
  obtain ⟨h1, h2, pc, bad, h3⟩ := finish_spec ((issuedState s w t).setG w t d x) w t target (s.thread w t).single (by
    rw [hv]; rfl)
  have hu : u = ((issuedState s w t).setG w t d x).setThread w t (u.thread w t) := h2
  have h3 : u.thread w t = _ := h3
  obtain ⟨c1, c2, c3, c4⟩ := cf
  have hreg : u.regs = ((issuedState s w t).setG w t d x).regs := by rw [hu]; rfl
  have hg : ∀ w' t' r : Nat, u.g w' t' r = ((issuedState s w t).setG w t d x).g w' t' r := by
    intro w' t' r; unfold State.g; rw [hreg]
  have hthr : ∀ (w' : WfNo) (t' : ThrNo), ¬ (w' = w ∧ t' = t) → u.thread w' t' = s.thread w' t' := by
    intro w' t' hne
    rw [hu, State.thread_setThread, if_neg (by rw [thKey_inj]; exact hne), State.thread_setG]
    unfold State.thread; rw [issued_soft]
    have := State.thread_setThread s w t (s.thread w t).stepped w' t'
    rw [if_neg (by rw [thKey_inj]; exact hne)] at this
    exact this
  refine ⟨?_, ⟨h1, pc, bad, ?_⟩, ?_, ?_, ?_, hthr, ?_⟩
  · intro r
    rw [hg, State.g_setG]
    by_cases hr : r = 0
    · subst hr; simp
    · have : (r : Nat) ≠ 0 := fun h => hr (Fin.ext h)
      rw [if_neg this, if_neg hr]
      by_cases hrd : r = d
      · subst hrd; simp [this]
      · rw [if_neg hrd, if_neg]
        · simp
        · rintro ⟨_, h⟩; exact hrd (Fin.ext (by omega))
  · rw [h3, hv]; rfl
  · rw [hu]
    unfold SameDevice at c1 ⊢
    simp only [State.setThread_board, State.setThread_time] at c1 ⊢
    simpa using c1
  · intro tbl idx word a b c
    have h := c2 tbl idx word a b c
    rw [State.wordAt_setThread] at h
    rw [← h, hu]
    simp
  · intro w' t' r hne
    rw [hg, State.g_setG]
    by_cases hr : (r : Nat) = 0
    · simp [hr, State.g]
    · rw [if_neg hr, if_neg]
      · simp
      · rintro ⟨_, h⟩
        apply hne
        rw [← thKey_inj]
        omega
  · rw [hu]
    show _ = _
    have : (issuedState s w t).soft = _ := c3
    simp only [State.setThread, State.setG_soft, this]

/-! ### One lemma per kind of statement -/

@[simp] theorem stepped_kind (x : Thread) : x.stepped.kind = x.kind := rfl

/-- Counting the instruction does not change whose invocation it is. -/
@[simp] theorem issued_tenant (s : State) (w t : Nat) : (issuedState s w t).tenant w t = s.tenant w t := by
  unfold State.tenant; rw [issued_thread]; rfl

theorem does_of {i : Instr} {s : State} {w : WfNo} {t : ThrNo} {body : State → Eff} {v : State} (h : Issues s w t)
    (he : exec i s = .next (issue w t (fits i) body s)) (hb : body (issuedState s w t) = .next v) : Does i s w t v := by
  intro hf; rw [he, issue_issues s w t _ body h hf, hb]; rfl

theorem raises_of {i : Instr} {s : State} {w : WfNo} {t : ThrNo} {body : State → Eff} {c r : Nat} (h : Issues s w t)
    (he : exec i s = .next (issue w t (fits i) body s)) (hb : body (issuedState s w t) = .raise c r) : Raises i s w t c r := by
  intro hf; rw [he, issue_issues s w t _ body h (hf h.2.1), hb]

theorem computes_of {i : Instr} {s : State} {w : WfNo} {t : ThrNo} {body : State → Eff} {d : Reg} {x : BitVec 64}
    (h : Issues s w t) (he : exec i s = .next (issue w t (fits i) body s))
    (hb : body (issuedState s w t) = .next ((issuedState s w t).setG w t d x)) : Computes i s w t d x :=
  fun hf => ⟨_, does_of h he hb hf, goes s w t d x (nextAddr s w t)⟩

theorem jumps_of {i : Instr} {s : State} {w : WfNo} {t : ThrNo} {body : State → Eff} {d : Reg} {x target : BitVec 64}
    (h : Issues s w t) (he : exec i s = .next (issue w t (fits i) body s))
    (hb : body (issuedState s w t) = .jump ((issuedState s w t).setG w t d x) target) : Jumps i s w t d x target := by
  intro hf
  refine ⟨_, ?_, goes s w t d x target⟩
  rw [he, issue_issues s w t _ body h hf, hb]; rfl

/-- A table store of an owner or base program with a row of its own: its word is the TST.C that submits it (R126). -/
theorem submits_of {i : Instr} {s : State} {w : WfNo} {t : ThrNo} {d : Reg} {f : State → Nat × State} (h : Issues s w t)
    (hi : fits i = (storeForm d).fits) (he : exec i s = .next (ownerStore w t d f s)) : Submits i s w t d f := by
  intro ht r hr
  subst hr
  refine does_of h (he.trans (by rw [hi]; rfl)) ?_
  dsimp only
  rw [issued_tenant, ht]; rfl

/-- The same store in a tenant. -/
theorem privileged_of {i : Instr} {s : State} {w : WfNo} {t : ThrNo} {d : Reg} {f : State → Nat × State} (h : Issues s w t)
    (hi : fits i = (storeForm d).fits) (he : exec i s = .next (ownerStore w t d f s)) (ht : (s.tenant w t).isSome = true) :
    Raises i s w t 2 0 := by
  refine raises_of h (he.trans (by rw [hi]; rfl)) ?_
  dsimp only
  rw [issued_tenant, ht]; rfl

end Sys2Proof.Machine
end

