-- ==== Sys2Proof/Tests/Slice0.lean ====
section
/-! SUPPORT. The model's own tests: a witness that meets each statement's hypotheses, clause by clause (where a clause
needs a signature to verify, the witness is a theorem with that as its hypothesis: log entry 5), ill-formed commands, and
the results of a few commands on small states. -/
open Sys2Proof Sys2Proof.Machine
namespace Sys2Proof.Tests
set_option Elab.async false
/-! ### States the witnesses start from -/

/-- A device in service with power-on complete: every host group trained in mode 2, the OWNMODE strap 2. -/
def dev : State :=
  { State.reset with
    board := { Board.init with
      power := .running, step := 12, active := true, training := true, perst := BitVec.allOnes 33,
      straps := ⟨2, 0, 0, false⟩, record := zeros 8 ++ [0xAA, 0xAA, 0xAA, 0xAA] }
    time := ⟨100, 4000, true, 0⟩ }

/-- The device with a thread of wayfinder 0 running a program of a kind at PC 0x40, with a window of 256 bytes of scratch. -/
def runs (k : Kind) : State :=
  let p : Program := { kind := k, base := 0, len := 0x100, entry := 0x40, scratch := 0x100, steps := 0, mask := 1, image := [] }
  let s : State := { dev with soft := { dev.soft with programs := [(1, some p)] } }
  let s := s.setWf 0 { Wf.init with released := true }
  s.setThread 0 1 { Thread.init with st := .running, kind := k, prog := 1, pc := 0x40, winSize := 0x100 }

/-- An owner program's thread. -/
def own : State := runs .owner
/-- A tenant program's thread, of LD 0. -/
def ten : State := runs (.tenant 0)

/-- `Issues` as a test that evaluates. -/
def issues (s : State) (w : WfNo) (t : ThrNo) : Bool :=
  s.canIssue w t && (s.fetchAt w t).2 && ((s.thread w t).budget == 0 || decide ((s.thread w t).steps < (s.thread w t).budget))

/-- What the test answers is `Issues`. -/
theorem issues_iff (s : State) (w : WfNo) (t : ThrNo) : issues s w t = true ↔ Issues s w t := by
  simp [issues, Issues, and_assoc]

/-- The state with an instruction's word in the instruction store at PC 0x40 of wayfinder 0; a word that no opcode lists for a
command that has none. -/
def codeAt (i : Instr) (s : State) : State :=
  { s with soft := { s.soft with istore := s.soft.istore.writeN (isAddr 0 0x40) (leBytes 4 (match encOf i with | some p => p.word | none => 0xFFFFFFFF)) } }

/-- Thread 1 issues the instruction whose word stands at its PC, and fetches it. -/
def fetches (i : Instr) (s : State) : Bool := issues (codeAt i s) 0 1 && fits i ((codeAt i s).fetchedWord 0 1)

/-- A link that is up. -/
def lk : Link := { Link.init with up := true }
/-- The links of heads 0 and 1 and of the endpoint are up, and the mailboxes are ready. -/
def linksUp (s : State) : State :=
  let s := ((s.setLink 0 lk).setLink 1 lk).setLink 32 lk
  { s with board := { s.board with mbReady := true } }
/-- The device with them. -/
def devUp : State := linksUp dev

/-- An owner's handle: table, index, word. -/
def hnd (tbl idx word : Nat) : BitVec 64 := BitVec.ofNat 64 (handle tbl idx word)

/-- The device at a power-on step, with a hold. -/
def powering (n : Nat) (hold : Hold := .none) : State :=
  { dev with board := { dev.board with power := .poweringOn, step := n, active := false, hold := hold }, own := Election.init }
/-- A device whose other supplies are off (R42). -/
def aonOnly (timer : Bool) : State := { State.reset with board := { Board.init with power := .aonOnly, riseTimer := timer } }
/-- A class 3 halt. -/
def halted (s : State) : State := { s with board := { s.board with halted := true } }

/-- The hypotheses of `IdleStepIsOneFclkCycle`, clause by clause. -/
theorem test_meets_IdleStepIsOneFclkCycle :
    (State.reset.pending = [] ∧ State.reset.board.power = .unpowered) ∧
    (dev.pending = [] ∧ dev.board.power ≠ .unpowered) := by
  refine ⟨?_, ?_⟩ <;> decide +kernel

/-- The hypotheses of `OnlyTestPortStops`. -/
theorem test_meets_OnlyTestPortStops :
    (dev.svc.st ≠ 1 ∧ devUp.funcUp 256 = true ∧ ({ dev with svc := { dev.svc with st := 1 } } : State).svc.st = 1) := by
  decide +kernel

/-- A thread with 7 in g1 and -2 in g2. -/
def alu : State := (own.setG 0 1 1 7).setG 0 1 2 (-2)

/-- The hypotheses of `IntegerInstructionsWriteTheirResult`. -/
theorem test_meets_IntegerInstructionsWriteTheirResult :
    [Instr.add 0 1 3 1 2, .sub 0 1 3 1 2, .and 0 1 3 1 2, .or 0 1 3 1 2, .xor 0 1 3 1 2, .shl 0 1 3 1 2, .shr 0 1 3 1 2, .sar 0 1 3 1 2, .mul 0 1 3 1 2,
      .mulh 0 1 3 1 2, .divu 0 1 3 1 2, .remu 0 1 3 1 2, .min 0 1 3 1 2, .max 0 1 3 1 2, .clz 0 1 3 1, .popc 0 1 3 1, .seq 0 1 3 1 2, .slt 0 1 3 1 2,
      .sltu 0 1 3 1 2, .addi 0 1 3 1 5, .andi 0 1 3 1 5, .ori 0 1 3 1 5, .xori 0 1 3 1 5, .shli 0 1 3 1 5, .shri 0 1 3 1 5, .sari 0 1 3 1 5, .muli 0 1 3 1 5,
      .lhi 0 1 3 5, .slti 0 1 3 1 5, .sltiu 0 1 3 1 5, .seqi 0 1 3 1 5].all (fetches · alu) = true := by
  decide +kernel

/-- The hypotheses of `BranchesAndJumpsMoveThePc`. -/
theorem test_meets_BranchesAndJumpsMoveThePc :
    ([Instr.beq 0 1 1 2 4, .bne 0 1 1 2 4, .blt 0 1 1 2 4, .bge 0 1 1 2 4, .bltu 0 1 1 2 4, .bgeu 0 1 1 2 4, .j 0 1 8, .jal 0 1 8,
      .jr 0 1 3 1].all (fetches · alu) = true ∧ alu.g 0 1 1 ≠ alu.g 0 1 2 ∧ alu.g 0 1 1 = alu.g 0 1 1 ∧ (alu.g 0 1 2).toInt < (alu.g 0 1 1).toInt ∧ ¬ (alu.g 0 1 2).toNat < (alu.g 0 1 1).toNat) := by
  decide +kernel

/-- A thread of a budget of 5 with some steps taken, at a PC. -/
def budgeted (steps : Nat) (pc : BitVec 16) : State := own.setThread 0 1 { own.thread 0 1 with budget := 5, steps := steps, pc := pc }

/-- The hypotheses of `IllegalFetchTakesTheException`, clause by clause. -/
theorem test_meets_IllegalFetchTakesTheException :
    ((budgeted 5 0x40).canIssue 0 1 = true ∧ ((budgeted 5 0x40).thread 0 1).budget ≠ 0 ∧ ((budgeted 5 0x40).thread 0 1).budget ≤ ((budgeted 5 0x40).thread 0 1).steps) ∧
    ((budgeted 4 0x100).canIssue 0 1 = true ∧ ((budgeted 4 0x100).thread 0 1).steps < ((budgeted 4 0x100).thread 0 1).budget ∧ ((budgeted 4 0x100).fetchAt 0 1).2 = false) ∧
    (((budgeted 4 0xFC).thread 0 1).badTarget = none ∧ ((budgeted 4 0xFC).fetchAt 0 1).2 = true) := by
  refine ⟨?_, ?_, ?_⟩ <;> decide +kernel

/-- A tenant's thread that answers the RUN command 5 of LD 0's ring 2. -/
def answersRun : State :=
  let s := ten.setThread 0 1 { ten.thread 0 1 with run := some (0, 2, 5) }
  { s with soft := { s.soft with cmds := [{ ld := 0, ring := 2, idx := 5, desc := zeros 64, st := .working, data := [], at_ := 0 }] } }

/-- The hypotheses of `IllegalAndTrapEndTheInvocation`, clause by clause. -/
theorem test_meets_IllegalAndTrapEndTheInvocation :
    (fetches (.illegalInstruction 0 ⟨1, false⟩) answersRun = true ∧ fetches (.trap 0 1 9) answersRun = true ∧ answersRun.movesOut 0 1 = 0 ∧ (answersRun.thread 0 1).run = some (0, 2, 5) ∧ answersRun.soft.cmds.any (fun c => c.ld == 0 && c.ring == 2 && c.idx == 5) = true) ∧
    (issues own 0 1 = true ∧ own.movesOut 0 1 = 0 ∧ (own.thread 0 1).kind = .owner ∧ (1 : ThrNo) ≠ 0) := by
  refine ⟨?_, ?_⟩ <;> decide +kernel

/-- g1 addresses the last doubleword of the window; g2 one past it. -/
def scr : State := (own.setG 0 1 1 0xF8).setG 0 1 2 0x100

/-- The hypotheses of `ScratchLoadsAndStores`, clause by clause. -/
theorem test_meets_ScratchLoadsAndStores :
    ([Instr.ldb 0 1 3 1 0, .ldbu 0 1 3 1 0, .ldh 0 1 3 1 0, .ldhu 0 1 3 1 0, .ldw 0 1 3 1 0, .ldwu 0 1 3 1 0, .ldd 0 1 3 1 0, .stb 0 1 3 1 0, .sth 0 1 3 1 0,
      .stw 0 1 3 1 0, .std 0 1 3 1 0].all (fetches · scr) = true ∧ (scr.g 0 1 1 + (0 : BitVec 16).signExtend 64).toNat % 8 = 0 ∧ (scr.g 0 1 1 + (0 : BitVec 16).signExtend 64).toNat + 8 ≤ (scr.thread 0 1).winSize) ∧
    ((scr.g 0 1 2 + (-1 : BitVec 16).signExtend 64).toNat + 1 ≤ (scr.thread 0 1).winSize) ∧
    (¬ (scr.g 0 1 2 + (0 : BitVec 16).signExtend 64).toNat + 1 ≤ (scr.thread 0 1).winSize ∧ (scr.g 0 1 1 + (4 : BitVec 16).signExtend 64).toNat % 8 ≠ 0) := by
  refine ⟨?_, ?_, ?_⟩ <;> decide +kernel

/-- g1 the handle of OWNER entry 0, g2 a word to store, g3 a walker's next unit, g4 a handle past its entry. -/
def tbl : State :=
  (((own.setG 0 1 1 (hnd 0x12 0 0)).setG 0 1 2 ((own.wordAt 0x12 0 0))).setG 0 1 3 (hnd 8 (placeCtl 2) 1)).setG 0 1 4 (hnd 0x12 0 9)

/-- The hypotheses of `TableInstructionsReadStageAndSubmit`, clause by clause. -/
theorem test_meets_TableInstructionsReadStageAndSubmit :
    ([Instr.tld 0 1 5 1, .walkerNext 0 1 5 3, .tst 0 1 5 1 2, .tstC 0 1 5 1 2, .tcas 0 1 5 1 2].all (fetches · tbl) = true ∧ tbl.tldFault (tbl.tenant 0 1) (tbl.g 0 1 1) = none ∧ isWalk (tbl.g 0 1 1) = false) ∧
    (tbl.tldFault (tbl.tenant 0 1) (tbl.g 0 1 3) = none ∧ isWalk (tbl.g 0 1 3) = true) ∧
    (tbl.storeFaults 0 1 (tbl.g 0 1 1) = none) ∧
    ((issuedState tbl 0 1).tldWord 0x12 0 0 false = tbl.g 0 1 2) ∧
    ((issuedState tbl 0 1).tldWord 0x12 0 0 false ≠ tbl.g 0 1 5) ∧
    (tbl.tldFault (tbl.tenant 0 1) (tbl.g 0 1 4) = some 3 ∧ tbl.storeFaults 0 1 (tbl.g 0 1 4) = some 3) := by
  refine ⟨?_, ?_, ?_, ?_, ?_, ?_⟩ <;> decide +kernel

/-- A thread that has staged an OWNER entry whose LAPSE_MS is 0. -/
def badStage : State := own.setThread 0 1 { own.thread 0 1 with stTbl := 0x12, stIdx := 0, staged := [(0, OWNER.LAPSE_MS.put (own.wordAt 0x12 0 0) 0)] }

/-- The hypotheses of `SubmissionIsAtomic`. -/
theorem test_meets_SubmissionIsAtomic :
    ((badStage.setThread 0 1 { badStage.thread 0 1 with staged := [] }).admission 0x12 0 (badStage.thread 0 1).staged ≠ 0) := by
  decide +kernel

/-- Event bit 7 is pending; g1 is its mask, g2 a cycle count, g3 all ones. -/
def evts : State :=
  let s := own.setThread 0 1 { own.thread 0 1 with pend := 0x80 }
  ((s.setG 0 1 1 0x80).setG 0 1 2 100).setG 0 1 3 0xFFFFFFFFFFFFFFFF

/-- The hypotheses of `WaitAndSleepFollowPendingEvents`, clause by clause. -/
theorem test_meets_WaitAndSleepFollowPendingEvents :
    (fetches (.wait 0 1 5 1 2) evts = true ∧ fetches (.sleep 0 1 2) evts = true ∧ (evts.thread 0 1).pend &&& (evts.g 0 1 1).truncate 32 &&& evts.eventMask 0 1 ≠ 0) ∧
    ((evts.thread 0 1).pend &&& (evts.g 0 1 2).truncate 32 &&& evts.eventMask 0 1 = 0 ∧ evts.g 0 1 0 = 0 ∧ evts.g 0 1 2 ≠ 0 ∧ evts.g 0 1 3 = 0xFFFFFFFFFFFFFFFF) := by
  refine ⟨?_, ?_⟩ <;> decide +kernel

/-- g1 to g4 select thread 0 of wayfinder 0, LD 3's mailbox 2 to its host, its doorbell, and its mailbox 2 from its
host, which is full; g5 selects nothing. -/
def ports : State :=
  let s := (own.wr PORT.LD_COUNT 0 4).setMailbox 3 true 2 { Mailbox.init with payload := 9, full := true }
  ((((s.setG 0 1 2 (2 ^ 30 + 2 * 2 ^ 16 + 3)).setG 0 1 3 (2 * 2 ^ 30 + 3)).setG 0 1 4 (3 * 2 ^ 30 + 2 * 2 ^ 16 + 3)).setG 0 1 5 0x200)

/-- The hypotheses of `PortInstructionsReachTheirObject`, clause by clause. -/
theorem test_meets_PortInstructionsReachTheirObject :
    ([Instr.postThread 0 1 5 1 2, .postMailbox 0 1 5 2 1, .postDoorbell 0 1 5 3 1, .mbrd 0 1 5 4, .mback 0 1 5 4, .dbtake 0 1 5 3 1].all (fetches · ports) = true ∧
      (ports.bell 3).toDev &&& (ports.g 0 1 2).truncate 16 &&& ((issuedState ports 0 1).setNow (bellTbl true) 3 0).truncate 16 = 0 ∧ ports.selectorFault 0 1 (ports.g 0 1 1) [0, 1, 2] = none ∧ pKind (ports.g 0 1 1) = 0) ∧
    (ports.selectorFault 0 1 (ports.g 0 1 2) [0, 1, 2] = none ∧ pKind (ports.g 0 1 2) = 1 ∧ (ports.mailbox 3 false 2).full = false) ∧
    (((ports.setMailbox 3 false 2 { Mailbox.init with full := true }).mailbox 3 false 2).full = true) ∧
    (ports.selectorFault 0 1 (ports.g 0 1 3) [0, 1, 2] = none ∧ pKind (ports.g 0 1 3) = 2 ∧ ports.selectorFault 0 1 (ports.g 0 1 3) [2] = none) ∧
    (ports.selectorFault 0 1 (ports.g 0 1 4) [1, 3] = none ∧ ports.selectorFault 0 1 (ports.g 0 1 4) [3] = none ∧ (ports.mailbox 3 true 2).full = true) ∧
    ((own.mailbox 3 true 2).full = false ∧ ports.selectorFault 0 1 (ports.g 0 1 5) [2] = some 3) := by
  refine ⟨?_, ?_, ?_, ?_, ?_, ?_⟩ <;> decide +kernel

/-- The tenant's thread suspended on a condition, with event bit 1 pending. -/
def waits (w : Wait) : State := ten.setThread 0 1 { ten.thread 0 1 with st := .suspended, wait := w, pend := 2 }
/-- A MOVE of the thread whose job has its status. -/
def moved : Job := { id := 1, origin := .move 0 1 0x20, kind := .zero, a := 0, b := 0, len := 4096, done := 4096, key := 0, key2 := 0, arg := 0, force := false, notify := true, ld := none, status := some 0, busy := none }
/-- The owner's thread whose MOVE is done. -/
def moveIsDone : State := { own with soft := { own.soft with jobs := [moved] } }

/-- The hypotheses of `SuspendedThreadsResumeOrExpire`, clause by clause. -/
theorem test_meets_SuspendedThreadsResumeOrExpire :
    ((waits (.sleep 4000)).live = true ∧ (waits (.sleep 4000)).wfRuns 0 = true ∧ ((waits (.sleep 4000)).thread 0 1).st = .suspended ∧ ((waits (.sleep 4000)).thread 0 1).dbg = false ∧ 4000 ≤ (waits (.sleep 4000)).time.fclk) ∧
    (((waits (.event 5 2 none)).thread 0 1).pend &&& 2 &&& (waits (.event 5 2 none)).eventMask 0 1 ≠ 0) ∧
    ((waits (.fence false true true)).fenceMet 0 1 true true = true) ∧
    ((waits (.snap 5 0 0)).snapOut 0 0 = false ∧ ((waits (.ending 0 0 0)).movesOut 0 1 = 0) ∧ ((waits (.status 5 9)).thread 0 1).wait = .status 5 9 ∧
      ((waits .dataPath).thread 0 1).wait = .dataPath ∧ ((waits (.event 5 4 (some 4000))).thread 0 1).pend &&& 4 &&& (waits (.event 5 4 (some 4000))).eventMask 0 1 = 0) ∧
    ((own.thread 0 1).st ≠ .idle ∧ (own.thread 0 1).kind = .owner) ∧
    (((waits .none).thread 0 1).wait = .none ∧ ((waits .none).tenant 0 1).isSome = true) ∧
    (moveIsDone.live = true ∧ moveIsDone.soft.jobs.find? (fun j => j.origin == .move 0 1 0x20 && j.status.isSome) = some moved ∧ (moveIsDone.thread 0 1).wait = .none) := by
  refine ⟨?_, ?_, ?_, ?_, ?_, ?_, ?_⟩ <;> decide +kernel

/-- Descriptors of each kind at 0, 32, 64 and 96, one of too many pages at 128; g1 to g4 address the last four, g5 none. -/
def mvs : State :=
  let d := fun (k pages : Nat) => [BitVec.ofNat 8 k, 0, 0, 0] ++ leBytes 4 pages ++ leBytes 8 0x1000 ++ leBytes 8 0x100000 ++ zeros 8
  let s := (((((own.setScr 0 0 (d 1 1)).setScr 0 32 (d 2 1)).setScr 0 64 (d 3 1)).setScr 0 96 (d 4 1))).setScr 0 128 (d 1 0)
  ((((s.setG 0 1 1 32).setG 0 1 2 64).setG 0 1 3 96).setG 0 1 4 128).setG 0 1 5 16

/-- The hypotheses of `MoveIsAcceptedOrRefused`, clause by clause. -/
theorem test_meets_MoveIsAcceptedOrRefused :
    ([Instr.moveTier 0 1 9 0, .moveCopy 0 1 9 1, .moveZero 0 1 9 2, .moveRekey 0 1 9 3].all (fetches · mvs) = true ∧ mvs.movesOut 0 1 < 16 ∧ mvs.scratchAt 0 1 (mvs.g 0 1 0) 32 32 = some 0 ∧ leAt (mvs.scr 0 0 32) 0 1 = 1 ∧ (issuedState mvs 0 1).moveStatus (mvs.tenant 0 1) (mvs.scr 0 0 32) = 0) ∧
    (mvs.scratchAt 0 1 (mvs.g 0 1 1) 32 32 = some 32 ∧ leAt (mvs.scr 0 32 32) 0 1 = 2 ∧ (issuedState mvs 0 1).moveStatus (mvs.tenant 0 1) (mvs.scr 0 32 32) = 0) ∧
    (mvs.scratchAt 0 1 (mvs.g 0 1 2) 32 32 = some 64 ∧ leAt (mvs.scr 0 64 32) 0 1 = 3 ∧ (issuedState mvs 0 1).moveStatus (mvs.tenant 0 1) (mvs.scr 0 64 32) = 0) ∧
    (mvs.scratchAt 0 1 (mvs.g 0 1 3) 32 32 = some 96 ∧ leAt (mvs.scr 0 96 32) 0 1 = 4 ∧ (issuedState mvs 0 1).moveStatus (mvs.tenant 0 1) (mvs.scr 0 96 32) = 0) ∧
    (mvs.scratchAt 0 1 (mvs.g 0 1 4) 32 32 = some 128 ∧ leAt (mvs.scr 0 128 32) 0 1 = 1 ∧ (issuedState mvs 0 1).moveStatus (mvs.tenant 0 1) (mvs.scr 0 128 32) = 2) ∧
    (mvs.scratchAt 0 1 (mvs.g 0 1 5) 32 32 = none) := by
  refine ⟨?_, ?_, ?_, ?_, ?_, ?_⟩ <;> decide +kernel

/-- g1 a page's address, g2 an address past the device's, g3 64, g4 not of whole lines; the page at 0x2000 is near with key slot 1. -/
def pgs : State :=
  let s : State := { own with plc := { own.plc with pages := [(2, { Page.init with st := .near, key := 1 })] } }
  (((s.setG 0 1 1 0x2000).setG 0 1 2 (2 ^ 46)).setG 0 1 3 64).setG 0 1 4 65

/-- The hypotheses of `PageAndLineInstructions`, clause by clause. -/
theorem test_meets_PageAndLineInstructions :
    ([Instr.stowInstr 0 1 5 1 2, .unstowInstr 0 1 5 1 2, .binv 0 1 5 1 3, .mread 0 1 0 0 1 3, .mwrite 0 1 0 0 1 3].all (fetches · pgs) = true ∧ (issuedState pgs 0 1).jobAddr (pgs.tenant 0 1) (pgs.g 0 1 1).toNat = some 0x2000 ∧ (issuedState pgs 0 1).jobAddr (pgs.tenant 0 1) (pgs.g 0 1 2).toNat = none) ∧
    ((pgs.g 0 1 1).toNat % 64 = 0 ∧ pgs.g 0 1 0 = 0 ∧ (pgs.g 0 1 4).toNat % 64 ≠ 0) ∧
    ((issuedState pgs 0 1).jobAddr (pgs.tenant 0 1) ((pgs.g 0 1 1).toNat + (pgs.g 0 1 3).toNat - 1) = some 0x203F ∧ ((issuedState pgs 0 1).invalidate [0x80] (.binv 0 1) true).invalsOver (.binv 0 1) = true) ∧
    (pgs.tenant 0 1 = none ∧ pgs.scratchAt 0 1 (pgs.g 0 1 0) 64 64 = some 0 ∧ lineRangeOk (pgs.g 0 1 1).toNat 64 = true ∧ (pgs.page 2).st = .near ∧ (pgs.page 2).key ≠ (pgs.g 0 1 0).toNat % 4096 ∧ (pgs.page 2).key = (pgs.g 0 1 4).toNat % 4096 - 64) ∧
    (((pgs.setG 0 1 5 1).page 2).key = ((pgs.setG 0 1 5 1).g 0 1 5).toNat % 4096 ∧ (issuedState (pgs.setG 0 1 5 1) 0 1).pageBusy 2 = false ∧ (issuedState (pgs.setG 0 1 5 1) 0 1).linesBlocked [0x80] false = 0) ∧
    ((issuedState (pgs.setG 0 1 5 1) 0 1).writeReady 2 1 = .go ∧ (issuedState (pgs.setG 0 1 5 1) 0 1).linesBlocked [0x80] true = 0) ∧
    (issues ten 0 1 = true ∧ (ten.tenant 0 1).isSome = true) := by
  refine ⟨?_, ?_, ?_, ?_, ?_, ?_, ?_⟩ <;> decide +kernel

/-- A HINT in flight. -/
def hint5 : RingCmd := { ld := 3, ring := 1, idx := 5, desc := 8 :: zeros 63, st := .working, data := [], at_ := 0 }
/-- One hot page, one HINT in the policy queue, and one handed out whose item stands in scratch at 128; g1 is 128. -/
def polq : State :=
  let s : State := { own with
    soft := { own.soft with policyQ := [hint5], cmds := [hint5, { hint5 with idx := 6 }] }
    plc := { own.plc with hot := [⟨7, 9⟩] } }
  (s.setScr 0 192 (leBytes 8 (1 + 3 * 2 ^ 8 + 6 * 2 ^ 16))).setG 0 1 1 128

/-- The hypotheses of `OwnerQueueAndHeatInstructions`, clause by clause. -/
theorem test_meets_OwnerQueueAndHeatInstructions :
    ([Instr.heat 0 1 5, .rget 0 1 5 0, .rput 0 1 5 1 2].all (fetches · polq) = true ∧ [Instr.heat 0 1 5, .rget 0 1 5 0, .rput 0 1 5 1 2].all (fetches · ten) = true ∧ polq.tenant 0 1 = none ∧ polq.hottestPage = some ⟨7, 9⟩ ∧ own.hottestPage = none) ∧
    (polq.scratchAt 0 1 (polq.g 0 1 0) 72 8 = some 0 ∧ polq.soft.policyQ = [hint5] ∧ own.soft.policyQ = []) ∧
    (polq.scratchAt 0 1 (polq.g 0 1 1) 72 8 = some 128 ∧ leNat (polq.scr 0 192 8) = 1 + 3 * 2 ^ 8 + 6 * 2 ^ 16 ∧ polq.soft.cmds.any (fun c => c.ld == 3 && c.ring == 1 && c.idx == 6 && c.opcode == 8 && c.st == .working && !polq.soft.policyQ.contains c) = true) := by
  refine ⟨?_, ?_, ?_⟩ <;> decide +kernel

/-- g1 a counter beyond the last; an owner's table store that waits for its commit point. -/
def ctr : State := { own.setG 0 1 1 544 with uncommitted := [⟨2, 0, 0, 1, 0, 0, 1⟩] }
/-- The thread has a MOVE out. -/
def mvOut : State := { own with soft := { own.soft with jobs := [{ moved with status := none }] } }

/-- The hypotheses of `CounterTimeFenceAndHaltInstructions`, clause by clause. -/
theorem test_meets_CounterTimeFenceAndHaltInstructions :
    ([Instr.mprd 0 1 5 0, .mpsnap 0 1 5 0, .time 0 1 5, .fenceS 0 1, .fenceT 0 1, .fenceD 0 1, .fenceA 0 1, .halt 0 1 1].all (fetches · own) = true ∧ (own.g 0 1 0).toNat ≤ 16 ∧ own.tenant 0 1 = none ∧ issues ctr 0 1 = true ∧ 543 < (ctr.g 0 1 1).toNat) ∧
    (own.storesOut 0 1 = false ∧ own.movesOut 0 1 = 0) ∧
    (fetches (.fenceT 0 1) ctr = true ∧ fetches (.fenceA 0 1) ctr = true ∧ ctr.storesOut 0 1 = true ∧ fetches (.fenceD 0 1) mvOut = true ∧ fetches (.halt 0 1 1) mvOut = true ∧ mvOut.movesOut 0 1 ≠ 0) := by
  refine ⟨?_, ?_, ?_⟩ <;> decide +kernel

/-- The hypotheses of `PowerPinsFollowTheirTable`, clause by clause. -/
theorem test_meets_PowerPinsFollowTheirTable :
    (State.reset.board.power = .unpowered ∧ (aonOnly false).board.power = .aonOnly ∧ (aonOnly false).board.riseTimer = false ∧ (aonOnly false).board.halted = false ∧ (aonOnly true).board.riseTimer = true) ∧
    (dev.board.power = .running ∧ dev.board.halted = false ∧ (powering 3).board.power = .poweringOn ∧ (halted dev).board.halted = true) := by
  refine ⟨?_, ?_⟩ <;> decide +kernel

/-- The hypotheses of `StrapsAreSampledOrStopPowerOn`. -/
theorem test_meets_StrapsAreSampledOrStopPowerOn :
    ((aonOnly false).board.power = .aonOnly ∧ (aonOnly false).board.riseTimer = false ∧ (aonOnly false).rd PHASE.FAILED_STEP 0 = 0 ∧ (⟨0, 3, 0, false⟩ : Straps).bootSrc = 3 ∧ ¬ ((⟨0, 1, 0, false⟩ : Straps).bootSrc = 3 ∨ (⟨0, 1, 0, false⟩ : Straps).testEn = true)) := by
  decide +kernel

/-- A unit in training at step 4. -/
def training : State := (powering 4).setUnit 5 1
/-- A boot record at which every check but the signature passes, and the shortest base program image. -/
def bootImg : List (BitVec 8) :=
  leBytes 4 0x4B5A5250 ++ [1, 0, 1, 0] ++ leBytes 4 4 ++ zeros 12 ++ leBytes 4 0 ++ [0xFF, 0xFF] ++ zeros 34 ++ zeros 4 ++ [1] ++ zeros 111
/-- Its record. -/
def bootRec : List (BitVec 8) :=
  let bay := leBytes 2 10 ++ leBytes 2 1 ++ leBytes 2 10 ++ leBytes 2 10 ++ zeros 8
  let r := leBytes 4 0x4B5A0160 ++ leBytes 2 1 ++ leBytes 2 0x0200 ++ leBytes 4 0 ++ leBytes 8 0x1111111111111111 ++ zeros 12 ++
    (bay ++ bay ++ bay ++ bay ++ bay ++ bay ++ bay ++ bay ++ bay ++ bay ++ bay ++ bay) ++ leBytes 8 0x1000 ++ leBytes 4 180 ++ zeros 272
  r ++ leBytes 4 (crc32c r).toNat
/-- The flash that holds them. -/
def flash : Flash := ⟨bootRec, bootImg⟩
set_option maxRecDepth 40000 in
/-- The flash verifies wherever Krezel's signature does (which `Config.ecdsaOk` leaves open; log entry 5). -/
theorem test_flash_verifies (s : State) (received : Bool) (h : Config.ecdsaOk none ((bootImg.drop 84).take 96) (bootImg.take 68) = true) :
    s.bootOk flash received = true := by
  have hs : s.sigOk flash.image = true := by
    have h1 : (hdrOf flash.image).kind = 1 := by decide +kernel
    have h2 : leAt (sigPart flash.image) 1 15 = 0 := by decide +kernel
    have h3 : leAt (sigPart flash.image) 0 1 = 1 := by decide +kernel
    have h4 : ((sigPart flash.image).drop 16).take 96 = (bootImg.drop 84).take 96 := by decide +kernel
    have h5 : signedPart flash.image = bootImg.take 68 := by decide +kernel
    simp [State.sigOk, h1, h2, h3, h4, h5, h]
  unfold State.bootOk
  rw [hs]
  revert received
  decide +kernel

/-- The hypotheses of `PowerOnStepsRunInOrder`, clause by clause. -/
theorem test_meets_PowerOnStepsRunInOrder :
    ((powering 2).live = true ∧ (powering 2).board.hold = .none ∧ (powering 2).board.step = 2 ∧ (powering 2).baysSettled = true) ∧
    ((powering 3).live = true ∧ (powering 3).board.hold = .none ∧ (powering 3).board.step = 3) ∧
    (training.live = true ∧ training.rd MEMCH.STATE 5 = 1 ∧ training.board.step < 10 ∧ training.board.step = 4) ∧
    ((powering 5).board.step = 5 ∧ (powering 5).board.straps.bootSrc = 0 ∧ ({ powering 5 with board := { (powering 5).board with straps := ⟨2, 2, 0, false⟩ } } : State).board.straps.bootSrc = 2) := by
  refine ⟨?_, ?_, ?_, ?_⟩ <;> decide +kernel

/-- A unit filling, the last one of power-on or one of two. -/
def filling (two : Bool) : State := if two then ((powering 6).setUnit 5 2).setUnit 6 2 else (powering 6).setUnit 5 2
/-- Power-on waits for an image with the BMC not addressed. -/
def waitsImage : State := powering 5 .recovery6

/-- The hypotheses of `FillAndBaseProgramEndPowerOn`, clause by clause. -/
theorem test_meets_FillAndBaseProgramEndPowerOn :
    ((filling false).live = true ∧ (filling false).rd MEMCH.STATE 5 = 2 ∧ 6 ≤ (filling false).board.step ∧ (∀ v : Fin 28, ((((filling false).setPool 5 { (filling false).pool 5 with filled := true }).setUnit 5 3).joinPool 5).rd MEMCH.STATE v ≠ 2) ∧ (filling true).rd MEMCH.STATE 5 = 2 ∧ ((((filling true).setPool 5 { (filling true).pool 5 with filled := true }).setUnit 5 3).joinPool 5).rd MEMCH.STATE (6 : UnitNo) = 2) ∧
    ((powering 9).live = true ∧ (powering 9).board.hold = .none ∧ (powering 9).board.step = 9) ∧
    (waitsImage.live = true ∧ waitsImage.eligible 0 = true ∧ waitsImage.board.hold = .recovery6) ∧
    (issues ten 0 1 = true ∧ (ten.tenant 0 1).isSome = true ∧ issues own 0 1 = true ∧ own.tenant 0 1 = none) ∧
    (dev.phase = 0 ∧ dev.phaseAllowed 1 = true ∧ (powering 9).phaseAllowed 1 = false) := by
  refine ⟨?_, ?_, ?_, ?_, ?_⟩ <;> decide +kernel

/-- The device with an election state. -/
def elect (o : Election) : State := { devUp with own := o }
/-- Owned by head 0 (candidate 2), with head 1's handover pending, and lapsing. -/
def owned : State := elect ⟨.owned, some 2, none, 5, 9⟩
/-- See `owned`. -/
def handing : State := elect ⟨.handover, some 2, some 3, 5, 9⟩
/-- See `owned`. -/
def lapsing : State := elect ⟨.lapsing, some 2, none, 5, 9⟩
/-- Owned by the BMC. -/
def bmcOwned : State := elect ⟨.owned, some 1, none, 5, 9⟩

/-- The hypotheses of `ElectionFollowsItsTable`, clause by clause. -/
theorem test_meets_ElectionFollowsItsTable :
    ((elect ⟨.open, none, none, 5, 0⟩).pathUp 2 = true ∧ (elect ⟨.open, none, none, 5, 0⟩).board.halted = false ∧ ((elect ⟨.open, none, none, 5, 0⟩).from_ 2).own.st = .open ∧ (elect ⟨.open, none, none, 5, 0⟩).eligible 2 = true ∧ (handing.from_ 3).own.successor = some 3 ∧ handing.pathUp 3 = true) ∧
    (owned.pathUp 2 = true ∧ (owned.from_ 2).own.owner = some 2 ∧ (owned.from_ 2).own.st = .owned ∧ (owned.from_ 2).eligible 3 = true ∧ (handing.from_ 2).own.st = .handover ∧ (owned.from_ 3).own.owner ≠ some 3) ∧
    (handing.live = true ∧ handing.own.st = .handover ∧ lapsing.own.st = .lapsing ∧ bmcOwned.bmcAnswers = true ∧ bmcOwned.own.owner = some 1 ∧ bmcOwned.own.st = .owned) := by
  refine ⟨?_, ?_, ?_⟩ <;> decide +kernel

/-- The hypotheses of `ElectionStaysLegal`. -/
theorem test_meets_ElectionStaysLegal :
    ((owned.own.owner.isSome = true ↔ owned.own.st = .owned ∨ owned.own.st = .handover ∨ owned.own.st = .lapsing) ∧ (handing.own.successor.isSome = true ↔ handing.own.st = .handover) ∧ handing.own.successor ≠ some 2 ∧ (handing.own.word = 0 ↔ handing.own.owner = none)) := by
  decide +kernel

/-- The hypotheses of `ServiceAccessStaysLockedOut`. -/
theorem test_meets_ServiceAccessStaysLockedOut :
    ((dev.svc.fails = 3 ↔ dev.svc.st = 2) ∧ (({ dev.svc with fails := 3, st := 2 } : Service).fails = 3 ↔ ({ dev.svc with fails := 3, st := 2 } : Service).st = 2) ∧ dev.pending.head? ≠ some .pwrgoodFall) := by
  decide +kernel

/-- The hypotheses of `RegistersAndMemoriesStayCanonical`. -/
theorem test_meets_RegistersAndMemoriesStayCanonical :
    (Tab.wf (fun _ => (0 : BitVec 64)) alu.regs = true ∧ Memory.wf mvs.soft.scratch = true ∧ Memory.wf mvs.soft.istore = true ∧ Memory.wf mvs.soft.win.buf = true) := by
  decide +kernel

/-- The hypotheses of `CommandsLeaveTheQueueAlone`. -/
theorem test_meets_CommandsLeaveTheQueueAlone :
    (QueueWf { dev with pending := [.tick, .shli 0 1 2 3 63] } = true) := by
  decide +kernel

/-- The hypotheses of `OwnerStoreRowsArePrivileged`. -/
theorem test_meets_OwnerStoreRowsArePrivileged :
    (ten.tenant 0 1).isSome = true ∧ own.tenant 0 1 = none ∧
    [Instr.phaseStore 0 1 5 1, .isolatedClear 0 1 5 0, .reopen 0 1 5 0, .reclaimedClear 0 1 5 0 1, .windowDisable 0 1 5 0, .evacuate 0 1 5 0, .cancel 0 1 5 0,
      .offer 0 1 5 0, .recall 0 1 5 0, .contextRelease 0 1 5 0, .install 0 1 5 1 9 3 false false, .clear 0 1 5 1, .ceClear 0 1 5 0, .memchReset 0 1 5 0,
      .resetGo 0 1 5 0x40, .checkin 0 1 5, .bayEnable 0 1 5 0, .bayDisable 0 1 5 0, .clearAll 0 1 5].all (fun i => fetches i ten && fetches i own) = true ∧
    fetches (.tst 0 1 5 1 2) ten = true := by
  decide +kernel

/-- LD 0 is in reset; the endpoint and head 0 hold their PERST_N low. -/
def inRst : State := (((dev.setInReset 0 true).setPerst 0 false).setPerst 32 false)

/-- The hypotheses of `FunctionAndHeadResets`, clause by clause. -/
theorem test_meets_FunctionAndHeadResets :
    (dev.live = true ∧ dev.ldExists 0 = true ∧ dev.ldExists 32 = true ∧ (32 : Nat) % 16 = 0 ∧ dev.inf PORT.LD_COUNT (0 / 16) = 1) ∧
    ((dev.setLink 0 { Link.init with up := true }).live = true ∧ inRst.live = true ∧ inRst.board.inReset.getLsbD 0 = true) ∧
    (dev.board.perst.getLsbD 0 = true ∧ dev.headExists 0 = true ∧ dev.board.perst.getLsbD 32 = true) := by
  refine ⟨?_, ?_, ?_⟩ <;> decide +kernel

/-- The hypotheses of `AnLdResetStopsItsRingsAndTenants`. -/
theorem test_meets_AnLdResetStopsItsRingsAndTenants :
    (ten.ldExists 0 = true) := by
  decide +kernel

/-- A ring whose registers may be enabled, and the same running with four commands offered. -/
def rg : Ring := { Ring.init with cmdBase := 0x1000, cplBase := 0x2000, cmdLog2 := 4, cplLog2 := 4 }
/-- See `rg`. -/
def rgOn : Ring := { rg with enable := true, cmdTail := 4 }
/-- LD 0 with link 0 up, credits, and a ring 0. -/
def ringed (x : Ring) : State :=
  ((dev.setLink 0 { Link.init with up := true, cxl := true, rate := 6, width := 16, trained := 16, crPosted := 4, crNonPosted := 4, crBisnp := 4 }).wr ACCESS.RINGS 0 1).setRing 0 0 x

/-- The hypotheses of `RingRegistersAndErrors`, clause by clause. -/
theorem test_meets_RingRegistersAndErrors :
    ((ringed rg).funcUp 0 = true ∧ rg.enable = false ∧ rg.cmdBase.toNat % 4096 = 0 ∧ rg.cplBase.toNat % 4096 = 0 ∧ (4 ≤ rg.cmdLog2.toNat ∧ rg.cmdLog2.toNat ≤ 16) ∧ (4 ≤ rg.cplLog2.toNat ∧ rg.cplLog2.toNat ≤ 16) ∧ (0 : RingNo).val < (ringed rg).inf ACCESS.RINGS 0 ∧ (ringed rg).inf ACCESS.RINGS 0 ≤ (1 : RingNo).val) ∧
    ({ rg with cmdLog2 := 3 }.enable = false ∧ ¬ (4 ≤ { rg with cmdLog2 := 3 }.cmdLog2.toNat ∧ { rg with cmdLog2 := 3 }.cmdLog2.toNat ≤ 16)) ∧
    (rgOn.enable = true ∧ rg.on = false ∧ (3 : BitVec 16).toNat < rgOn.cmdSize ∧ rgOn.on = true ∧ rgOn.cmdSize ≤ (16 : BitVec 16).toNat ∧ (0 : BitVec 16).toNat < rgOn.cplSize ∧ rgOn.consumed 0 ≤ rgOn.unread ∧ rgOn.cplSize ≤ (16 : BitVec 16).toNat ∧ rgOn.unread < rgOn.consumed 1) := by
  refine ⟨?_, ?_, ?_⟩ <;> decide +kernel

/-- A command of ring 0 of LD 0, index 0, with its descriptor's fields and state. -/
def cmd (op a b len a0 a1 : Nat) (st : CmdSt) : RingCmd :=
  { ld := 0, ring := 0, idx := 0, desc := leBytes 8 op ++ leBytes 8 a ++ leBytes 8 b ++ leBytes 8 len ++ leBytes 8 a0 ++ leBytes 8 a1 ++ zeros 16, st := st, data := [], at_ := 0 }
/-- The ring with a command in flight. -/
def flies (c : RingCmd) : State := let s := ringed rgOn; { s with soft := { s.soft with cmds := [c] } }

/-- The hypotheses of `CommandsAreFetchedAndCompleted`, clause by clause. -/
theorem test_meets_CommandsAreFetchedAndCompleted :
    ((ringed rgOn).funcUp 0 = true ∧ (ringed rgOn).mayFetch 0 0 = true) ∧
    ((zeros 64).length = 64 ∧ (leBytes 2 0x0101 ++ zeros 62).length = 64 ∧ ((ringed rgOn).flight 0 0) = [] ∧ (flies (cmd 2 0 0 64 0 0 .started)).flight 0 0 ≠ []) ∧
    ((flies (cmd 2 0 0 64 0 0 (.done 0 7))).live = true ∧ (flies (cmd 2 0 0 64 0 0 (.done 0 7))).cmdAt 0 0 0 = some (cmd 2 0 0 64 0 0 (.done 0 7)) ∧ (flies (cmd 2 0 0 64 0 0 (.done 0 7))).canPost 0 = true ∧ (cmd 2 0 0 64 0 0 (.done 0 7)).ld = (0 : LdNo).val) := by
  refine ⟨?_, ?_, ?_⟩ <;> decide +kernel

/-- The same, with KeyID 0 of LD 0 mapped to key slot 5. -/
def keyed (c : RingCmd) : State := ((flies c).wr KEYMAP.VALID 0 1).wr KEYMAP.SLOT 0 5
/-- The same, with a full policy queue. -/
def policyFull (c : RingCmd) : State := let s := flies c; { s with soft := { s.soft with policyQ := List.replicate 256 c } }

/-- The hypotheses of `RingCommandsOverARange`, clause by clause. -/
theorem test_meets_RingCommandsOverARange :
    ((keyed (cmd 1 0x1000 0x8000 0x1000 0 0 .started)).live = true ∧ (keyed (cmd 1 0x1000 0x8000 0x1000 0 0 .started)).cmdAt 0 0 0 = some (cmd 1 0x1000 0x8000 0x1000 0 0 .started) ∧ (cmd 1 0x1000 0x8000 0x1000 0 0 .started).opcode = 1 ∧ rangeOk (cmd 1 0x1000 0x8000 0x1000 0 0 .started).addrA (cmd 1 0x1000 0x8000 0x1000 0 0 .started).len 64 = true ∧ (cmd 1 0x1000 0x8000 0x1000 0 0 .started).addrB % 64 = 0 ∧ ¬ ((cmd 1 0x1000 0x8000 0x1000 0 0 .started).addrA < (cmd 1 0x1000 0x8000 0x1000 0 0 .started).addrB + (cmd 1 0x1000 0x8000 0x1000 0 0 .started).len ∧ (cmd 1 0x1000 0x8000 0x1000 0 0 .started).addrB < (cmd 1 0x1000 0x8000 0x1000 0 0 .started).addrA + (cmd 1 0x1000 0x8000 0x1000 0 0 .started).len) ∧ (keyed (cmd 1 0x1000 0x8000 0x1000 0 0 .started)).operandKey 0 (cmd 1 0x1000 0x8000 0x1000 0 0 .started).arg0 = some 5 ∧ (flies (cmd 1 0x1000 0x8000 0x1000 0 0 .started)).operandKey 0 (cmd 1 0x1000 0x8000 0x1000 1 0 .started).arg0 = none ∧ rangeOk (cmd 1 0x1001 0x8000 0x1000 0 0 .started).addrA (cmd 1 0x1001 0x8000 0x1000 0 0 .started).len 64 = false) ∧
    ((keyed (cmd 2 0x1000 0 0x1000 0 0 .started)).live = true ∧ (keyed (cmd 2 0x1000 0 0x1000 0 0 .started)).cmdAt 0 0 0 = some (cmd 2 0x1000 0 0x1000 0 0 .started) ∧ (cmd 2 0x1000 0 0x1000 0 0 .started).opcode = 2 ∧ rangeOk (cmd 2 0x1000 0 0x1000 0 0 .started).addrA (cmd 2 0x1000 0 0x1000 0 0 .started).len 64 = true ∧ (keyed (cmd 2 0x1000 0 0x1000 0 0 .started)).operandKey 0 (cmd 2 0x1000 0 0x1000 0 0 .started).arg0 = some 5 ∧ (flies (cmd 2 0x1000 0 0x1000 0 0 .started)).operandKey 0 (cmd 2 0x1000 0 0x1000 1 0 .started).arg0 = none ∧ rangeOk (cmd 2 0x1001 0 0x1000 0 0 .started).addrA (cmd 2 0x1001 0 0x1000 0 0 .started).len 64 = false) ∧
    ((keyed (cmd 4 0x1000 0 0x1000 7 0 .started)).live = true ∧ (keyed (cmd 4 0x1000 0 0x1000 7 0 .started)).cmdAt 0 0 0 = some (cmd 4 0x1000 0 0x1000 7 0 .started) ∧ (cmd 4 0x1000 0 0x1000 7 0 .started).opcode = 4 ∧ rangeOk (cmd 4 0x1000 0 0x1000 7 0 .started).addrA (cmd 4 0x1000 0 0x1000 7 0 .started).len 4096 = true ∧ (cmd 4 0x1000 0 0x1000 7 0 .started).arg0 ≤ 7 ∧ rangeOk (cmd 4 0x1001 0 0x1000 7 0 .started).addrA (cmd 4 0x1001 0 0x1000 7 0 .started).len 4096 = false) ∧
    ((keyed (cmd 5 0x1000 0 0x1000 1 0 .started)).live = true ∧ (keyed (cmd 5 0x1000 0 0x1000 1 0 .started)).cmdAt 0 0 0 = some (cmd 5 0x1000 0 0x1000 1 0 .started) ∧ (cmd 5 0x1000 0 0x1000 1 0 .started).opcode = 5 ∧ rangeOk (cmd 5 0x1000 0 0x1000 1 0 .started).addrA (cmd 5 0x1000 0 0x1000 1 0 .started).len 4096 = true ∧ (cmd 5 0x1000 0 0x1000 1 0 .started).arg0 ≤ 1 ∧ rangeOk (cmd 5 0x1001 0 0x1000 1 0 .started).addrA (cmd 5 0x1001 0 0x1000 1 0 .started).len 4096 = false) ∧
    ((keyed (cmd 6 0x1000 0 0x1000 1 0 .started)).live = true ∧ (keyed (cmd 6 0x1000 0 0x1000 1 0 .started)).cmdAt 0 0 0 = some (cmd 6 0x1000 0 0x1000 1 0 .started) ∧ (cmd 6 0x1000 0 0x1000 1 0 .started).opcode = 6 ∧ rangeOk (cmd 6 0x1000 0 0x1000 1 0 .started).addrA (cmd 6 0x1000 0 0x1000 1 0 .started).len 4096 = true ∧ (cmd 6 0x1000 0 0x1000 1 0 .started).arg0 ≤ 1 ∧ rangeOk (cmd 6 0x1001 0 0x1000 1 0 .started).addrA (cmd 6 0x1001 0 0x1000 1 0 .started).len 4096 = false) ∧
    ((keyed (cmd 7 0x1000 0 0x1000 1 0 .started)).live = true ∧ (keyed (cmd 7 0x1000 0 0x1000 1 0 .started)).cmdAt 0 0 0 = some (cmd 7 0x1000 0 0x1000 1 0 .started) ∧ (cmd 7 0x1000 0 0x1000 1 0 .started).opcode = 7 ∧ rangeOk (cmd 7 0x1000 0 0x1000 1 0 .started).addrA (cmd 7 0x1000 0 0x1000 1 0 .started).len 4096 = true ∧ rangeOk (cmd 7 0x1001 0 0x1000 1 0 .started).addrA (cmd 7 0x1001 0 0x1000 1 0 .started).len 4096 = false) ∧
    (((keyed (cmd 3 0x1000 0 0x1000 0 0 .started)).wr ACCESS.REKEY_OK 0 1).infB ACCESS.REKEY_OK 0 = true ∧ (keyed (cmd 3 0x1000 0 0x1000 0 0 .started)).infB ACCESS.REKEY_OK 0 = false ∧ (cmd 3 0x1000 0 0x1000 0 0 .started).opcode = 3 ∧ rangeOk (cmd 3 0x1000 0 0x1000 0 0 .started).addrA (cmd 3 0x1000 0 0x1000 0 0 .started).len 4096 = true ∧ ((keyed (cmd 3 0x1000 0 0x1000 0 0 .started)).wr ACCESS.REKEY_OK 0 1).operandKey 0 (cmd 3 0x1000 0 0x1000 0 0 .started).arg0 = some 5 ∧ ((keyed (cmd 3 0x1000 0 0x1000 0 0 .started)).wr ACCESS.REKEY_OK 0 1).operandKey 0 (cmd 3 0x1000 0 0x1000 0 0 .started).arg1 = some 5) ∧
    ((cmd 8 0x1000 0 0x1000 3 0 .started).opcode = 8 ∧ rangeOk (cmd 8 0x1000 0 0x1000 3 0 .started).addrA (cmd 8 0x1000 0 0x1000 3 0 .started).len 4096 = true ∧ (cmd 8 0x1000 0 0x1000 3 0 .started).arg0 ≤ 3 ∧ (flies (cmd 8 0x1000 0 0x1000 3 0 .started)).soft.policyQ.length < 256 ∧ 256 ≤ (policyFull (cmd 8 0x1000 0 0x1000 3 0 .started)).soft.policyQ.length) := by
  refine ⟨?_, ?_, ?_, ?_, ?_, ?_, ?_, ?_⟩ <;> decide +kernel

/-- LD 0 may stream, with a quota of one context. -/
def streams (c : RingCmd) : State := ((keyed c).wr ACCESS.STREAM_OK 0 1).wr ACCESS.CTX_QUOTA 0 1
/-- LD 0 holds context 0. -/
def holds (c : RingCmd) : State := (streams c).setCtx 0 (Ctx.opened 1 0)
/-- An image whose tag is its body's is loaded, whatever function the tag is. -/
theorem test_image_loads (s : State) (b : List (BitVec 8)) (ld : Nat) (h1 : b.length = 33008) (h3 : leAt (b.drop 32768) 1 1 = ld) :
    ∃ x, s.imageCtx (b ++ s.imageTag b) ld = some x := by
  have h2 : (s.imageTag b).length = 16 := by simp [State.imageTag, leBytes]
  have h4 : (b ++ s.imageTag b).take 33008 = b := by rw [← h1]; exact List.take_left
  have h5 : (b ++ s.imageTag b).drop 33008 = s.imageTag b := by rw [← h1]; exact List.drop_left
  have h6 : (b ++ s.imageTag b).length = 33024 := by rw [List.length_append, h1, h2]
  unfold State.imageCtx
  rw [h4, h5, h6]
  exact ⟨_, if_pos ⟨rfl, rfl, h3⟩⟩
/-- A body of zeros is one for LD 0. -/
theorem test_body_of_zeros : (zeros 33008).length = 33008 ∧ leAt ((zeros 33008).drop 32768) 1 1 = 0 := by
  refine ⟨List.length_replicate, ?_⟩
  unfold zeros
  rw [List.drop_replicate]
  decide +kernel

/-- The hypotheses of `StreamCommands`, clause by clause. -/
theorem test_meets_StreamCommands :
    ((streams (cmd 9 0x1000 0x2000 0x1000 0x1000 0x2000 .started)).live = true ∧ (streams (cmd 9 0x1000 0x2000 0x1000 0x1000 0x2000 .started)).cmdAt 0 0 0 = some (cmd 9 0x1000 0x2000 0x1000 0x1000 0x2000 .started) ∧ (cmd 9 0x1000 0x2000 0x1000 0x1000 0x2000 .started).opcode = 9 ∧ (cmd 9 0x1000 0x2000 0x1000 0x1000 0x2000 .started).ctxOp = 0 ∧ (streams (cmd 9 0x1000 0x2000 0x1000 0x1000 0x2000 .started)).infB ACCESS.STREAM_OK 0 = true ∧ (cmd 9 0x1000 0x2000 0x1000 0x1000 0x2000 .started).arg0Ok = true ∧ rangeOk (cmd 9 0x1000 0x2000 0x1000 0x1000 0x2000 .started).addrA (cmd 9 0x1000 0x2000 0x1000 0x1000 0x2000 .started).len 4096 = true ∧ (cmd 9 0x1000 0x2000 0x1000 0x1000 0x2000 .started).addrB % 64 = 0 ∧ 4101 * ((cmd 9 0x1000 0x2000 0x1000 0x1000 0x2000 .started).len / 4096) + 10 ≤ (cmd 9 0x1000 0x2000 0x1000 0x1000 0x2000 .started).arg1 ∧ (streams (cmd 9 0x1000 0x2000 0x1000 0x1000 0x2000 .started)).ctxFor (cmd 9 0x1000 0x2000 0x1000 0x1000 0x2000 .started) 1 = some (Ctx.opened 1 0)) ∧
    ((streams (cmd 10 0x1000 0x2000 64 0x1000 0 .started)).cmdAt 0 0 0 = some (cmd 10 0x1000 0x2000 64 0x1000 0 .started) ∧ (cmd 10 0x1000 0x2000 64 0x1000 0 .started).opcode = 10 ∧ (cmd 10 0x1000 0x2000 64 0x1000 0 .started).ctxOp = 0 ∧ (streams (cmd 10 0x1000 0x2000 64 0x1000 0 .started)).infB ACCESS.STREAM_OK 0 = true ∧ (cmd 10 0x1000 0x2000 64 0x1000 0 .started).arg0Ok = true ∧ (cmd 10 0x1000 0x2000 64 0x1000 0 .started).addrA % 4096 = 0 ∧ (cmd 10 0x1000 0x2000 64 0x1000 0 .started).addrB % 64 = 0 ∧ (cmd 10 0x1000 0x2000 64 0x1000 0 .started).len ≤ 2 ^ 30 ∧ 0 < (cmd 10 0x1000 0x2000 64 0x1000 0 .started).len ∧ (streams (cmd 10 0x1000 0x2000 64 0x1000 0 .started)).ctxFor (cmd 10 0x1000 0x2000 64 0x1000 0 .started) 2 = some (Ctx.opened 2 0) ∧ ((streams (cmd 10 0x1000 0x2000 64 0x1000 0 .started)).operandKey 0 (cmd 10 0x1000 0x2000 64 0x1000 0 .started).streamKey).isSome = true ∧ (streams (cmd 10 0x1000 0x2000 64 0x1000 0 .started)).canAsk 0 = true) ∧
    ((keyed (cmd 9 0x1000 0x2000 0x1000 0x1000 0x2000 .started)).infB ACCESS.STREAM_OK 0 = false ∧ (keyed (cmd 9 0x1000 0x2000 0x1000 0x1000 0x2000 .started)).cmdAt 0 0 0 = some (cmd 9 0x1000 0x2000 0x1000 0x1000 0x2000 .started) ∧ (cmd 9 0 0x2000 0 0x4000 0x10000 .started).ctxOp = 1 ∧ (cmd 10 0 0x2000 0 0x8000 0x10000 .started).ctxOp = 2) ∧
    ((cmd 9 0 0x2000 0 0x4000 0x10000 .started).opcode = 9 ∧ (cmd 9 0 0x2000 0 0x4000 0x10000 .started).ctxOp = 1 ∧ (holds (cmd 9 0 0x2000 0 0x4000 0x10000 .started)).infB ACCESS.STREAM_OK 0 = true ∧ (cmd 9 0 0x2000 0 0x4000 0x10000 .started).imageOk = true ∧ ((holds (cmd 9 0 0x2000 0 0x4000 0x10000 .started)).ctx (cmd 9 0 0x2000 0 0x4000 0x10000 .started).ctxNo).st = 1 ∧ ((holds (cmd 9 0 0x2000 0 0x4000 0x10000 .started)).ctx (cmd 9 0 0x2000 0 0x4000 0x10000 .started).ctxNo).busy = false ∧ ((holds (cmd 9 0 0x2000 0 0x4000 0x10000 .started)).ctx (cmd 9 0 0x2000 0 0x4000 0x10000 .started).ctxNo).holder = (cmd 9 0 0x2000 0 0x4000 0x10000 .started).ld ∧ (holds (cmd 9 0 0x2000 0 0x4000 0x10000 .started)).canPost 0 = true) ∧
    ((cmd 10 0 0x2000 0 0x8000 0x10000 .started).opcode = 10 ∧ (cmd 10 0 0x2000 0 0x8000 0x10000 .started).ctxOp = 2 ∧ (streams (cmd 10 0 0x2000 0 0x8000 0x10000 .started)).infB ACCESS.STREAM_OK 0 = true ∧ (cmd 10 0 0x2000 0 0x8000 0x10000 .started).imageOk = true ∧ (streams (cmd 10 0 0x2000 0 0x8000 0x10000 .started)).mayLoadCtx (cmd 10 0 0x2000 0 0x8000 0x10000 .started) = true ∧ (streams (cmd 10 0 0x2000 0 0x8000 0x10000 .started)).canAsk 0 = true ∧ ((streams (cmd 10 0 0x2000 0 0x8000 0x10000 .started)).hostAsk 0 0 (some 0) (cmd 10 0 0x2000 0 0x8000 0x10000 .started).addrB 33024 (.ok [])).mayLoadCtx (cmd 10 0 0x2000 0 0x8000 0x10000 .started) = true ∧ ((streams (cmd 10 0 0x2000 0 0x8000 0x10000 .started)).hostAsk 0 0 (some 0) (cmd 10 0 0x2000 0 0x8000 0x10000 .started).addrB 33024 (.ok [])).imageCtx [] 0 = none) ∧
    (issues own 0 1 = true ∧ own.tenant 0 1 = none) := by
  refine ⟨?_, ?_, ?_, ?_, ?_, ?_⟩ <;> decide +kernel

/-- LD 0 may run its program 1 and take snapshots, in SERVICE; every counter's view includes it. -/
def mayRun (c : RingCmd) : State :=
  let p : Program := { kind := .tenant 0, base := 0, len := 0x100, entry := 0, scratch := 4096, steps := 0, mask := 1, image := [] }
  let s := ((((flies c).wr ACCESS.RUN_OK 0 1).wr ACCESS.SNAP_OK 0 1).wr ACCESS.MILEPOST_WINDOW 0 1).wr PHASE.CURRENT 0 1
  let s := (s.setWf 0 { Wf.init with released := true }).wr MILEPOST.VIEW 3 0x100
  { s with soft := { s.soft with programs := [(1, some p)] } }
/-- A descriptor read of ring 0 is outstanding with tag 7. -/
def asked : State :=
  let s := ringed { rgOn with fetching := true }
  { s with soft := { s.soft with ioReads := [⟨0, 7, 0, 0, none⟩] } }

/-- The hypotheses of `RunAndSnapCommands`, clause by clause. -/
theorem test_meets_RunAndSnapCommands :
    ((mayRun (cmd 11 0 0x2000 64 1 0 .started)).live = true ∧ (mayRun (cmd 11 0 0x2000 64 1 0 .started)).cmdAt 0 0 0 = some (cmd 11 0 0x2000 64 1 0 .started) ∧ (cmd 11 0 0x2000 64 1 0 .started).st = .started ∧ (cmd 11 0 0x2000 64 1 0 .started).opcode = 11 ∧ (mayRun (cmd 11 0 0x2000 64 1 0 .started)).infB ACCESS.RUN_OK 0 = true ∧ (mayRun (cmd 11 0 0x2000 64 1 0 .started)).phase = 1 ∧ (cmd 11 0 0x2000 64 1 0 .started).addrB % 64 = 0 ∧ (cmd 11 0 0x2000 64 1 0 .started).len ≤ 4096 ∧ 0 < (cmd 11 0 0x2000 64 1 0 .started).len ∧ ((mayRun (cmd 11 0 0x2000 64 1 0 .started)).runProgram (cmd 11 0 0x2000 64 1 0 .started)).any (fun p => (cmd 11 0 0x2000 64 1 0 .started).len ≤ p.scratch && (mayRun (cmd 11 0 0x2000 64 1 0 .started)).holders p != []) = true ∧ (mayRun (cmd 11 0 0x2000 64 1 0 .started)).canAsk 0 = true) ∧
    ((flies (cmd 11 0 0x2000 64 1 0 .started)).infB ACCESS.RUN_OK 0 = false ∧ ((mayRun (cmd 11 0 0x2000 64 1 0 .started)).wr PHASE.CURRENT 0 3).infB ACCESS.RUN_OK 0 = true ∧ ((mayRun (cmd 11 0 0x2000 64 1 0 .started)).wr PHASE.CURRENT 0 3).phase = 3 ∧ (let s := mayRun (cmd 11 0 0x2000 64 1 0 .started); { s with soft := { s.soft with programs := [] } }).runProgram (cmd 11 0 0x2000 64 1 0 .started) = none) ∧
    ((cmd 12 0 0x2000 328 0 0 .started).opcode = 12 ∧ (mayRun (cmd 12 0 0x2000 328 0 0 .started)).cmdAt 0 0 0 = some (cmd 12 0 0x2000 328 0 0 .started) ∧ (mayRun (cmd 12 0 0x2000 328 0 0 .started)).infB ACCESS.SNAP_OK 0 = true ∧ (mayRun (cmd 12 0 0x2000 328 0 0 .started)).infB ACCESS.MILEPOST_WINDOW 0 = true ∧ (cmd 12 0 0x2000 328 0 0 .started).arg0 ≤ 16 ∧ 328 ≤ (cmd 12 0 0x2000 328 0 0 .started).len ∧ (cmd 12 0 0x2000 328 0 0 .started).len ≤ 2 ^ 30 ∧ (cmd 12 0 0x2000 328 0 0 .started).addrB % 64 = 0 ∧ (mayRun (cmd 12 0 0x2000 328 0 0 .started)).groupSeen 0 (cmd 12 0 0x2000 328 0 0 .started).arg0 = true) ∧
    ((mayRun { cmd 12 0 0x2000 328 0 0 .working with data := leBytes 4 1 }).cmdAt 0 0 0 = some { cmd 12 0 0x2000 328 0 0 .working with data := leBytes 4 1 } ∧ ({ cmd 12 0 0x2000 328 0 0 .working with data := leBytes 4 1 } : RingCmd).st = .working ∧ ({ cmd 12 0 0x2000 328 0 0 .working with data := leBytes 4 1 } : RingCmd).opcode = 12 ∧ (mayRun { cmd 12 0 0x2000 328 0 0 .working with data := leBytes 4 1 }).snapOut 0 (BitVec.ofNat 32 (leAt ({ cmd 12 0 0x2000 328 0 0 .working with data := leBytes 4 1 } : RingCmd).data 0 4)) = false ∧ (mayRun { cmd 12 0 0x2000 328 0 0 .working with data := leBytes 4 1 }).canPost 0 = true) ∧
    ((asked.link 0).up = true ∧ (∀ q ∈ asked.soft.ioReads, ¬ (q.head = 0 ∧ q.tag = 8)) ∧ asked.soft.ioReads.find? (fun q => q.head == 0 && q.tag == 7) = some ⟨0, 7, 0, 0, none⟩ ∧ (asked.ring 0 0).fetching = true) := by
  refine ⟨?_, ?_, ?_, ?_, ?_⟩ <;> decide +kernel

/-- Mailboxes 1 in both directions of LD 0 are full; TO_HOST bit 0 stands, masked. -/
def mailed : State :=
  let s := ringed rg
  ((s.setMailbox 0 true 1 { Mailbox.init with full := true }).setMailbox 0 false 1 { Mailbox.init with full := true }).setBell 0 { Doorbell.init with toHost := 1 }

/-- The hypotheses of `MailboxesAndDoorbellsOfTheHost`. -/
theorem test_meets_MailboxesAndDoorbellsOfTheHost :
    (mailed.funcUp 0 = true ∧ (2 : BitVec 4).toNat < mailboxes 0 ∧ (mailed.mailbox 0 true 2).full = false ∧ (mailed.mailbox 0 true 1).full = true ∧ (mailed.mailbox 0 false 1).full = true ∧ (mailed.mailbox 0 false 2).full = false) := by
  decide +kernel

/-- Field service access in a state. -/
def svc (v : Service) : State := { devUp with svc := v }
/-- A challenge stands, unanswered; some failures counted. -/
def asks (fails : BitVec 2) : Service := { Service.init with hasChallenge := true, fails := fails }
/-- An HMAC key is set and allowed, and the response is the HMAC of the challenge. -/
def hmacd : State :=
  let s := ((svc (asks 0)).wr OWNER.SA_KEY_SET 0 1).wr OWNER.SA_HMAC_OK 0 1
  { s with svc := { s.svc with response := BitVec.ofNat 1024 (Config.hmacSha256 s.saKey s.svc.bytes).toNat } }

/-- The hypotheses of `ServiceAccessOpensAndCloses`, clause by clause. -/
theorem test_meets_ServiceAccessOpensAndCloses :
    (devUp.mayService 0 = true ∧ (devUp.from_ 0).svc.st ≠ 2 ∧ (devUp.from_ 0).svc.hasChallenge = false ∧ ((svc (asks 2)).from_ 0).svc.hasChallenge = true ∧ ((svc (asks 2)).from_ 0).svc.fails = 2 ∧ ((svc (asks 1)).from_ 0).svc.fails ≠ 2 ∧ ((svc (asks 1)).from_ 0).infB OWNER.SA_KEY_SET 0 = false ∧ (hmacd.from_ 0).infB OWNER.SA_KEY_SET 0 = true ∧ (hmacd.from_ 0).infB OWNER.SA_HMAC_OK 0 = true) ∧
    (((svc { asks 3 with st := 2 }).from_ 0).svc.st = 2 ∧ (svc { asks 0 with st := 1 }).mayService 0 = true ∧ ((svc { asks 0 with st := 1 }).from_ 0).svc.dbgBusy = false ∧ ((svc { asks 0 with st := 1, dbgAddr := 7 }).from_ 0).svc.dbgAddr.toNat % 64 ≠ 0 ∧ ((svc { asks 0 with st := 1, dbgAddr := 128 }).from_ 0).svc.dbgAddr.toNat % 64 = 0 ∧ (dev.from_ 0).board.halted = false) ∧
    ((let s := halted (svc { asks 0 with st := 1, dbgAddr := 128 }); (s.mayService 1 = true ∧ (s.from_ 1).board.halted = true))) := by
  refine ⟨?_, ?_, ?_⟩ <;> decide +kernel

/-- A debug read of line 128 (page 2) is ready; the page is given. -/
def dbgOf (x : Page) : State :=
  { dev with svc := { Service.init with st := 1, dbgBusy := true, dbgReady := true, dbgLine := 128 }, plc := { dev.plc with pages := [(2, x)] } }
/-- The running thread with the port open, in debug halt or not. -/
def debugged (d : Bool) : State := let s := { own with svc := { own.svc with st := 1 } }; s.setThread 0 1 { s.thread 0 1 with dbg := d }

/-- The hypotheses of `DebugReadsAndThreadDebug`, clause by clause. -/
theorem test_meets_DebugReadsAndThreadDebug :
    ((dbgOf Page.init).live = true ∧ (dbgOf Page.init).svc.dbgBusy = true ∧ (dbgOf Page.init).svc.dbgReady = true ∧ ((dbgOf Page.init).page (128 / 64)).st = .blank ∧ ((dbgOf { Page.init with st := .lost }).page 2).st = .lost) ∧
    ((let s := (dbgOf { Page.init with st := .near, key := 5 }).wr KEYSLOT.ACTIVE_MODE 5 2; (s.page 2).st ≠ .blank ∧ (s.page 2).st ≠ .lost ∧ s.mode 5 ≠ 0 ∧ s.rdB KEYSLOT.ACTIVE_DEBUGGABLE 5 = false) ∧ (let s := dbgOf { Page.init with st := .near, key := 5 }; (s.page 2).st = .near ∧ s.mode 5 = 0 ∧ s.pageBusy (128 / 64) = false)) ∧
    ((debugged false).mayDebug 0 1 = true ∧ ((debugged false).thread 0 1).dbg = false ∧ (debugged true).mayDebug 0 1 = true ∧ ((debugged true).thread 0 1).dbg = true ∧ ((debugged true).thread 0 1).st = .running) := by
  refine ⟨?_, ?_, ?_⟩ <;> decide +kernel

/-- The endpoint owns the device; wayfinder 0 runs an owner program 1 on thread 1, restarting or not. -/
def loads (restarting : Bool) : State :=
  let s : State := { linksUp own with own := ⟨.owned, some 0, none, 1, 9⟩ }
  s.setWf 0 { Wf.init with released := true, restarting := restarting }
/-- The shortest owner program image, with Krezel's signature. -/
def ownerImg : List (BitVec 8) :=
  leBytes 4 0x4B5A5250 ++ [2, 0, 1, 0] ++ leBytes 4 4 ++ leBytes 4 0x1000 ++ zeros 8 ++ leBytes 4 0 ++ [0xFF, 0xFF] ++ zeros 34 ++ zeros 4 ++ [1] ++ zeros 111
/-- It loads wherever Krezel's signature verifies (log entry 5). -/
theorem test_image_verifies (h : Config.ecdsaOk none ((ownerImg.drop 84).take 96) (ownerImg.take 68) = true) :
    (loads false).loadStatus .ep 1 ownerImg = 0 := by
  have hs : (loads false).sigOk ownerImg = true := by
    have h1 : (hdrOf ownerImg).kind = 2 := by decide +kernel
    have h2 : leAt (sigPart ownerImg) 1 15 = 0 := by decide +kernel
    have h3 : leAt (sigPart ownerImg) 0 1 = 1 := by decide +kernel
    have h4 : ((sigPart ownerImg).drop 16).take 96 = (ownerImg.drop 84).take 96 := by decide +kernel
    have h5 : signedPart ownerImg = ownerImg.take 68 := by decide +kernel
    simp [State.sigOk, h1, h2, h3, h4, h5, h]
  unfold State.loadStatus
  rw [hs]
  decide +kernel

/-- The hypotheses of `LoaderRequests`, clause by clause. -/
theorem test_meets_LoaderRequests :
    ((loads false).loaderUp .ep = true ∧ (loads false).loadStatus .ep 0 [] = 2 ∧ (loads false).unloadStatus .ep 1 = 8 ∧ ((loads false).setThread 0 1 Thread.init).unloadStatus .ep 1 = 0) ∧
    (oneWf 1 = some 0 ∧ (loads false).startStatus .ep 1 2 1 [] = 0 ∧ (loads false).stopStatus .ep 1 1 = 0 ∧ (loads false).isOwner .ep = true ∧ (loads false).wfAvail 0 = true) ∧
    ((loads false).isOwner .bmc = false ∧ (loads false).loaderUp .bmc = true ∧ devUp.funcUp 256 = true ∧ devUp.soft.win.busy = false ∧ (loads true).live = true ∧ ((loads true).wf 0).restarting = true ∧ (loads true).board.hold = .none) := by
  refine ⟨?_, ?_, ?_⟩ <;> decide +kernel

/-- Head 0 may train, up to rate 6. -/
def trainable : State := dev.wr PORT.MAXRATE 0 6
/-- Head 0's link is up, head 0 owns the device, and LD 0 has 2^30 bytes. -/
def linked : State := { (ringed rg).wr TAG.LD_SIZE_LOG2 0 30 with own := ⟨.owned, some 2, none, 5, 9⟩ }
/-- The endpoint's link is up and the endpoint owns the device. -/
def epUp : State := { dev.setLink 32 { Link.init with up := true } with own := ⟨.owned, some 0, none, 5, 9⟩ }

/-- The hypotheses of `LinksTrainAndGoDown`, clause by clause. -/
theorem test_meets_LinksTrainAndGoDown :
    (trainable.mayTrain 0 = true ∧ (6 : BitVec 4).toNat ≤ (trainable.commitL 0).maxRate 0 ∧ Sys2Proof.widthOk 8 = true ∧ (8 : BitVec 5).toNat ≤ trainable.fullWidth 0 ∧ trainable.coh.snoops = []) ∧
    (dev.mayTrain 32 = true ∧ Sys2Proof.widthOk 4 = true ∧ dev.coh.snoops = []) ∧
    ((linked.link 0).up = true ∧ linked.own.owner = some 2 ∧ linked.own.st = .owned ∧ (epUp.link 32).up = true ∧ epUp.own.owner = some 0 ∧ (dev.link 0).up = false) ∧
    ((ringed rg).funcUp 0 = true ∧ ((ringed rg).link 0).up = true ∧ (ringed rg).inf TAG.LD_SIZE_LOG2 0 = 0) ∧
    (linked.funcUp 0 = true ∧ linked.inf TAG.LD_SIZE_LOG2 0 = 30 ∧ Sys2Proof.widthOk 2 = true ∧ (∀ m : Fin 4, (linked.decoder 0 m).committed = false) ∧ (0x1000 : BitVec 64).toNat + (2 ^ 21 : BitVec 64).toNat / 2 ≤ 2 ^ (linked.inf TAG.LD_SIZE_LOG2 0 + linked.inf TAG.KEYID_WIDTH 0 + linked.inf TAG.CLASS_WIDTH 0)) := by
  refine ⟨?_, ?_, ?_, ?_, ?_⟩ <;> decide +kernel

/-- The hypotheses of `RegisterWritesActOrAreTurnedAway`, clause by clause. -/
theorem test_meets_RegisterWritesActOrAreTurnedAway :
    ((ringed rg).funcUp 0 = true ∧ outsideBar 0 0x80004 = false ∧ 0x80004 % 4096 + 8 ≤ 4096 ∧ 0x80004 % (8 : BitVec 8).toNat ≠ 0 ∧ 4096 < 0x80FFC % 4096 + (8 : BitVec 8).toNat ∧ (ringed rg).infB ACCESS.MILEPOST_WINDOW 0 = false) ∧
    (((ringed rg).ring 0 0).enable = false ∧ devUp.funcUp 256 = true ∧ dev.board.halted = false ∧ (1 : BitVec 64).getLsbD 0 = true) := by
  refine ⟨?_, ?_⟩ <;> decide +kernel

/-- LD 0 of 2^30 bytes, with a private window of its first 2 MiB and a committed decoder at HPA 0. -/
def mapped : State :=
  let s := (((linked.wr WINDOW.ENABLE 0 1).wr WINDOW.SIZE 0 1).wr WINDOW.DEV_BASE 0 5).wr WINDOW.STATE 0 1
  s.setDecoder 0 0 { Decoder.init with committed := true, size := 2 ^ 30, way := some 0 }
/-- The same before Memory_Active. -/
def inactive : State := { mapped with board := { mapped.board with active := false } }

/-- The hypotheses of `HostRequestsMeetTheHeadChecks`, clause by clause. -/
theorem test_meets_HostRequestsMeetTheHeadChecks :
    (inactive.live = true ∧ (inactive.link 0).up = true ∧ (inactive.link 0).cxl = true ∧ inactive.ldExists 0 = true ∧ inactive.board.active = false ∧ mapped.board.active = true ∧ mapped.rdB PORT.ISOLATED 0 = false) ∧
    ((match mapped.mapReq 0 (2 ^ 30) with | .bad 2 0 0 false => true | _ => false) = true ∧ mapped.decoderAt 0 (2 ^ 30) = none ∧ (match mapped.mapReq 0 (2 ^ 22) with | .bad 3 _ _ false => true | _ => false) = true ∧ (match mapped.mapReq 0 0x1000 with | .ok 0 0 _ _ _ false => true | _ => false) = true ∧ mapped.infB WINDOW.TYPE 0 = false ∧ (mapped.decoder 0 0).way.isSome = true) := by
  refine ⟨?_, ?_⟩ <;> decide +kernel

/-- Head 0 shares line 0x40 of a shared window, and is snooped for it; or for nothing. -/
def snoops (l : List Snoop) : State :=
  let s := (((ringed rg).wr WINDOW.ENABLE 0 1).wr WINDOW.TYPE 0 1).wr WINDOW.SIZE 0 1
  let s := (s.wr WINDOW.STATE 0 1).setWay (lineSlice 0x40) (lineSet 0x40) 0 ⟨true, 0, 1, false⟩
  { s with coh := { s.coh with snoops := l } }
/-- A BISnpInv or a BISnpData for the line. -/
def snp (inv : Bool) : Snoop := { head := 0, line := 0x40, inv := inv, why := .conflict, reserved := false, sent := true, at_ := 4000 }

/-- The hypotheses of `SnoopResponsesAreApplied`, clause by clause. -/
theorem test_meets_SnoopResponsesAreApplied :
    ((snoops [snp true]).live = true ∧ ((snoops [snp true]).link 0).up = true ∧ (0x1000 : BitVec 46).toNat / 64 = 0x40 ∧ ((snoops [snp true]).wakeUnit (sliceUid 0x40)).coh.snoops.find? (fun n => n.head == 0 && n.line == 0x40) = some (snp true) ∧ (((snoops [snp true]).wakeUnit (sliceUid 0x40)).entry 0x40).valid = true ∧ (((snoops [snp true]).wakeUnit (sliceUid 0x40)).entry 0x40).sharers.getLsbD 0 = true ∧ ((snoops [snp false]).wakeUnit (sliceUid 0x40)).coh.snoops.any (fun n => n.head == 0 && n.line == 0x40) = true) ∧
    ((∀ n ∈ ((snoops []).wakeUnit (sliceUid 0x40)).coh.snoops, ¬ (n.head = 0 ∧ n.line = 0x40)) ∧ ((snoops []).wakeUnit (sliceUid 0x40)).lineGroup 0x40 = some 0 ∧ ((snoops []).wakeUnit (sliceUid 0x40)).fenced 0 0 = false ∧ ((snoops []).wakeUnit (sliceUid 0x40)).timedOut 0 0x40 = false) := by
  refine ⟨?_, ?_⟩ <;> decide +kernel

/-- A violation log entry of LD 0 with code 2. -/
def vio (n : Nat) : Violation := ⟨BitVec.ofNat 16 n, 2, 1, 0, 1, 0, 0, 0⟩
/-- Head 0 with a log of n entries; ISO_LIMIT 2, one violation counted; head 0 owns the device. -/
def logged (n : Nat) : State :=
  (linked.wr PORT.ISO_LIMIT 0 2).setLink 0 { linked.link 0 with log := (List.range n).map vio, seq := BitVec.ofNat 16 n, counted := 1 }

/-- The hypotheses of `ViolationLogAndIsolation`, clause by clause. -/
theorem test_meets_ViolationLogAndIsolation :
    ((((logged 1).link 0).log.getLast?.any (fun v => v.code == BitVec.ofNat 8 3 && v.ld == 0)) = false ∧ ((logged 1).link 0).log.length < 64 ∧ ((logged 64).link 0).log.length = 64 ∧ (((logged 64).link 0).log.getLast?.any (fun v => v.code == BitVec.ofNat 8 3 && v.ld == 0)) = false ∧ ((logged 1).link 0).log = [] ++ [vio 0] ∧ (vio 0).code = BitVec.ofNat 8 2 ∧ (vio 0).ld = 0) ∧
    (countsIso 2 = true ∧ (logged 1).inf PORT.ISO_LIMIT 0 ≠ 0 ∧ (logged 1).inf PORT.ISO_LIMIT 0 ≤ ((logged 1).link 0).counted + 1 ∧ (logged 1).rdB PORT.ISOLATED 0 = false ∧ (logged 1).live = true ∧ issues own 0 1 = true ∧ own.tenant 0 1 = none) ∧
    ((1 : LdNo).val % 16 ≠ 0 ∧ (logged 1).isOwner (.ld 0) = true ∧ (logged 1).own.owner ≠ some 1) := by
  refine ⟨?_, ?_, ?_⟩ <;> decide +kernel

/-- Head 0 at 8 lanes of 16, with a line of its link changed, L0p and L1 enabled, and a hold of 0. -/
def l0p (k : Link) : State := ((((dev.setLink 0 k).wr PORT.L0P_ENABLE 0 1).wr PORT.L1_ENABLE 0 1).wr PORT.L0P_NARROW_PCT 0 20).wr PORT.L0P_WIDEN_PCT 0 60
/-- See `l0p`. -/
def lanes8 : Link := { Link.init with up := true, cxl := true, rate := 6, width := 8, trained := 16, lowSince := some 0 }

/-- The hypotheses of `LinkWidthAndL1`, clause by clause. -/
theorem test_meets_LinkWidthAndL1 :
    ((l0p lanes8).live = true ∧ ((l0p lanes8).link 0).up = true ∧ (l0p lanes8).infB PORT.L0P_ENABLE 0 = true ∧ ((dev.setLink 0 lanes8).wr PORT.L0P_ENABLE 0 0).infB PORT.L0P_ENABLE 0 = false ∧ (l0p lanes8).inf PORT.L0P_WIDEN_PCT 0 < (90 : BitVec 7).toNat ∧ lanes8.byHost = false ∧ lanes8.l0p = .stable ∧ lanes8.width ≠ lanes8.trained) ∧
    ((10 : BitVec 7).toNat < (l0p { lanes8 with width := 16 }).inf PORT.L0P_NARROW_PCT 0 ∧ { lanes8 with width := 16 }.lowSince = some 0 ∧ 0 + (l0p { lanes8 with width := 16 }).l0pHold 0 ≤ ({ l0p { lanes8 with width := 16 } with time := ⟨10, 10 ^ 9, true, 0⟩ } : State).time.fclk ∧ minLanes ((l0p { lanes8 with width := 16 }).inf PORT.L0P_MIN_WIDTH 0) ≤ 16 / 2) ∧
    (Sys2Proof.widthOk (4 : BitVec 5).toNat = true ∧ (4 : BitVec 5).toNat ≤ lanes8.trained ∧ { lanes8 with l0p := .host 4 }.l0p = .host 4 ∧ lanes8.express = false ∧ (l0p lanes8).infB PORT.L1_ENABLE 0 = true ∧ (dev.setLink 0 lanes8).infB PORT.L1_ENABLE 0 = false) := by
  refine ⟨?_, ?_, ?_⟩ <;> decide +kernel

/-- A host's read of line 0x40 of class 2. -/
def rd0 : MemReq := { src := .host 0 0 7 0x1000, kind := .read, mv := .invalid, line := 0x40, key := 0, cls := 2, data := 0, mask := 0, poison := false, throttled := false, at_ := 3000 }
/-- It waits at head 0's tollgate, and another at home slice 1. -/
def tolled : State :=
  let s := mapped.setToll 0 { Toll.init with queue := [rd0], noLimit := [true, true, false, true, true, true, true, false], tokens := [0, 0, 300000, 0, 0, 0, 0, 0] }
  (s.setRb 1 { Rb.init with queue := [(0, rd0)] }).wr MEMCH.DELIVERABLE 5 1

/-- The hypotheses of `TollgatesAdmitAndRoundaboutsGrant`, clause by clause. -/
theorem test_meets_TollgatesAdmitAndRoundaboutsGrant :
    (tolled.live = true ∧ tolled.rd MEMCH.DELIVERABLE 5 ≠ 0 ∧ tolled.domActive (uid 0 0) = true ∧ tolled.aon.shutdown = false ∧ (tolled.toll 0).queue[0]? = some rd0 ∧ ([7, 6, 5, 4, 3, 2, 1, 0].filter (fun c => (tolled.toll 0).may c tolled.time.fclk)).findSome? (fun c => ((tolled.toll 0).front c).map (fun i => (c, i))) = some (2, 0) ∧ (tolled.toll 1).queue = []) ∧
    (tolled.time.locked = true ∧ tolled.domActive (rbUid 1) = true ∧ 0 ∈ tolled.present 1 ∧ ((tolled.present 1).map (fun p => tolled.rd RB.WEIGHT (rbIdx 1 p))).sum ≠ 0) ∧
    (tolled.rbTakes 1 = true ∧ tolled.rbPick 1 = some (0, false) ∧ (tolled.rb 1).queue[0]? = some (0, rd0) ∧ tolled.rbPick 2 = none) := by
  refine ⟨?_, ?_, ?_⟩ <;> decide +kernel

/-- A dwell window of the line runs, or the window is being disabled. -/
def dwells : State := let s := snoops [snp true]; { s with coh := { s.coh with dwells := [⟨0x40, 0, 5000⟩] } }
/-- See `dwells`. -/
def disabling : State := (snoops []).wr WINDOW.STATE 0 3

/-- The hypotheses of `CoherenceEventsAndSharedWindows`, clause by clause. -/
theorem test_meets_CoherenceEventsAndSharedWindows :
    (dwells.live = true ∧ dwells.dwelling ((0x1000 : BitVec 46).toNat / 64) = true) ∧
    (dwells.coh.snoops.any (fun n => n.head == 0 && n.line == (0x1000 : BitVec 46).toNat / 64) = true ∧ dwells.lineGroup 0x40 = some 0 ∧ bitOf ((dwells.dropSnoop 0 0x40).rd SNOOP.TIMED_OUT 0) 0 = false ∧ dwells.closedRoad 0 = false ∧ dwells.infB SNOOP.DEAD_POLICY 0 = false) ∧
    (dwells.domActive (uid 2 (⟨lineSlice 0x40, by decide⟩ : SliceNo)) = true ∧ (dwells.way (lineSlice 0x40) (lineSet 0x40) 0).valid = true ∧ lineSet 0x40 < 2 ^ 14) ∧
    (issues own 0 1 = true ∧ own.tenant 0 1 = none ∧ disabling.live = true ∧ disabling.winState 0 = 3 ∧ disabling.invalsOver (.disable 0) = true) := by
  refine ⟨?_, ?_, ?_, ?_⟩ <;> decide +kernel

/-- A page move in a pass with its redo lines. -/
def mv (kind : MoveKind) (pass : Nat) (redo : BitVec 64) : Move := { page := 3, kind := kind, mover := 0, target := 2 ^ 31 + 8, tgtClass := 0, redo := redo, pass := pass, retried := false, held := [], near := false, force := false }
/-- Page 3 is near and in motion. -/
def moves (m : Move) : State :=
  { dev with plc := { dev.plc with pages := [(3, { Page.init with st := .moving, src := .near, loc := 8 })], moves := [m], hot := [⟨3, 1⟩, ⟨4, 2⟩] } }
/-- A slot was freed in frame 1, which holds slots or is free; frame 2 has page 5 in its slot 0. -/
def slots (u : Use) : State :=
  { dev with plc := { dev.plc with pages := [(5, { Page.init with st := .stowed, loc := 16, slotClass := 2 })], compact := [8], frames := [(1, ⟨u, false⟩), (2, ⟨.slots 2 [some 5, none, none, none], false⟩)] } }

/-- The hypotheses of `PagesMove`, clause by clause. -/
theorem test_meets_PagesMove :
    ((moves (mv .tier 1 5)).live = true ∧ (moves (mv .tier 1 5)).moveOf 3 = some (mv .tier 1 5) ∧ redoCount 5 ≠ 0 ∧ redoCount 0 = 0 ∧ 8 < redoCount 0x3FF ∧ redoCount 5 ≤ 8) ∧
    ((moves (mv .tier 4 0)).moveOf 3 = some (mv .tier 4 0) ∧ (mv .tier 4 0).kind ≠ .relocate ∧ (moves (mv .relocate 4 0)).moveOf 3 = some (mv .relocate 4 0) ∧ dev.moveOf 3 = none) ∧
    ((slots .free).plc.compact.contains 8 = true ∧ (slots .free).moversOk = true ∧ ((slots .free).frame (locFrame 8)).use = .free ∧ ((slots (.slots 2 [none, some 6, none, none])).frame (locFrame 8)).use = .slots 2 [none, some 6, none, none] ∧ [none, some 6, none, none].getD (slotIdx 8 2) none = none) ∧
    ((let s := slots (.slots 2 [none, some 6, none, none]); s.plc.frames.filter (fun f => f.1 / 2 ^ 28 == frUnit (locFrame 8) && f.1 != locFrame 8 && !f.2.retiring && (match f.2.use with | .slots c qs => c == 2 && qs.any Option.isNone && qs.any Option.isSome | _ => false)) = [(2, ⟨.slots 2 [some 5, none, none, none], false⟩)] ∧ (([some 5, none, none, none].zipIdx).filter (fun x => x.1.isSome)).getLast? = some (some 5, 0) ∧ (s.page 5).st = .stowed ∧ s.opOn 5 = false ∧ s.stow.decoding.any (fun d => d.q.page == 5) = false ∧ locFrame (s.page 5).loc = 2)) := by
  refine ⟨?_, ?_, ?_, ?_⟩ <;> decide +kernel

/-- A stow or promotion of a page. -/
def que (p : Nat) (buffer : Bool := false) : Queued := { page := p, level := 0, force := false, target := 1, buffer := buffer, cls := 0, reqs := [] }
/-- Region 0 is MIXED and has a private window that stows; page 3 is near; unit 1 has 16 frames. -/
def stowing (st : Stow) : State :=
  let s := ((((dev.wr WINDOW.ENABLE 0 1).wr WINDOW.SIZE 0 1).wr WINDOW.STATE 0 1).wr WINDOW.STOW 0 1)
  let s : State := { s with stow := st, plc := { s.plc with regions := [(0, { Region.init with kind := 2 })], pages := [(3, { Page.init with st := .near, loc := 24 * 2 ^ 31 + 8 }), (5, { Page.init with st := .stowed, loc := 2 ^ 31 + 16, slotClass := 2 })] } }
  (s.setPool 1 { Pool.init with frames := 16, inPool := true, present := true, filled := true }).setUnit 1 3
/-- The stow of page 3 is in coder 0, with its move. -/
def coding (retried : Bool) : State :=
  let s := stowing { Stow.init with coding := [(0, { que 3 with retried := retried })] }
  { s with plc := { s.plc with moves := [{ mv (.stow 0 0) 1 0 with target := 0 }] } }
/-- Page 5 is being decoded, into a frame or a buffer. -/
def decoding (buffer : Bool) : State :=
  let s := stowing { Stow.init with decoding := [⟨0, que 5 buffer⟩] }
  if buffer then s else { s with plc := { s.plc with moves := [{ mv (.promote 0) 1 0 with page := 5 }] } }

/-- The hypotheses of `StowEnginesTakeAndFinishWork`, clause by clause. -/
theorem test_meets_StowEnginesTakeAndFinishWork :
    (dev.stow.waiting = [] ∧ (stowing { Stow.init with waiting := [que 4] }).stow.waiting.find? (fun q => ((stowing { Stow.init with waiting := [que 4] }).page q.page).st != .moving && !(stowing { Stow.init with waiting := [que 4] }).pageBusy q.page) = some (que 4) ∧ (stowing { Stow.init with waiting := [que 4] }).stowCheck 4 false = some 0) ∧
    ((let s := stowing { Stow.init with waiting := [que 3] }; s.live = true ∧ s.stowCheck 3 false = none ∧ s.pageTracked 3 = false ∧ s.invalsOver (.stowForce 3) = true ∧ s.codersOk = true ∧ s.freeCoder = some 0)) ∧
    ((coding false).stow.coding.find? (fun x => x.2.page == 3) = some (0, que 3) ∧ (coding false).domActive (uid 6 0) = true ∧ ({ coding false with stow := { (coding false).stow with coding := [] } } : State).moveOf 3 = some { mv (.stow 0 0) 1 0 with target := 0 } ∧ ((({ coding false with stow := { (coding false).stow with coding := [], stopped := [uid 6 0] } } : State).report (uid 6 0) 0x22 2 0).codersOk = true)) ∧
    ((let s := stowing { Stow.init with promos := [que 5] }; s.nextDecode = some (que 5) ∧ (s.page 5).st = .stowed ∧ s.decodersOk ≠ [] ∧ s.freeDecoder = some 0 ∧ ((s.dropPromo (que 5)).wakeDom 32).grantable 0 = true ∧ ((s.dropPromo (que 5)).wakeDom 32).promoUnit (que 5) = some 1) ∧ (let s := stowing { Stow.init with promos := [que 5 true] }; s.nextDecode = some (que 5 true) ∧ s.freeDecoder = some 0)) ∧
    ((decoding false).stow.decoding.find? (fun x => x.q.page == 5 && !x.q.buffer) = some ⟨0, que 5⟩ ∧ (decoding false).domActive (uid 6 32) = true ∧ ((decoding false).decoded 0).moveOf 5 = some { mv (.promote 0) 1 0 with page := 5 } ∧ (decoding true).stow.decoding.find? (fun x => x.q.page == 5 && x.q.buffer) = some ⟨0, que 5 true⟩ ∧ ((decoding true).page 5).slot ≠ 0) := by
  refine ⟨?_, ?_, ?_, ?_, ?_⟩ <;> decide +kernel

/-- Extent 1 is offered to head 0, or releasing. -/
def extent (st : Nat) : State :=
  (((mapped.wr EXTENT.COUNT 1 1).wr EXTENT.STATE 1 st).wr EXTENT.WINDOW 1 0)

/-- The hypotheses of `CapacityIsOfferedAndEvacuated`. -/
theorem test_meets_CapacityIsOfferedAndEvacuated :
    (issues own 0 1 = true ∧ own.tenant 0 1 = none ∧ (extent 1).live = true ∧ (extent 1).rd EXTENT.STATE (0 + 1) = 1 ∧ 0 ∈ (extent 1).extHeads (0 + 1) ∧ 1 ∉ (extent 1).extHeads (0 + 1) ∧ (extent 3).rd EXTENT.STATE 1 = 3 ∧ (extent 3).rd EXTENT.ACCEPTED 1 = 0) := by
  decide +kernel

/-- Slot 5 is installed: named by a KEYMAP entry, used by a page, or neither. -/
def slotUsed (named paged : Bool) : State :=
  let s := dev.wr KEYSLOT.INSTALLED 5 1
  let s := if named then (s.wr KEYMAP.VALID 1 1).wr KEYMAP.SLOT 1 5 else s
  if paged then { s with plc := { s.plc with pages := [(3, { Page.init with st := .near, key := 5, loc := 8 })] } } else s
/-- A merge entry, a page being re-encrypted, a dirty node, a node being re-based, and a store that waits for its commit point. -/
def seals : State :=
  { dev with
    sealing := { dev.sealing with merges := [⟨1, 2, 3, 9, 0, List.replicate 4 (0, 0, false), 4000⟩], reenc := [9], dirty := [(1, 7)], rebase := [(2, 8)] }
    uncommitted := [⟨3, 0, 0, 0xFF, 0, 0, 1⟩] }

/-- The hypotheses of `SealingEventsAndKeySlots`, clause by clause. -/
theorem test_meets_SealingEventsAndKeySlots :
    (issues own 0 1 = true ∧ own.tenant 0 1 = none ∧ (slotUsed true true).rdB KEYSLOT.INSTALLED 5 = true ∧ (slotUsed true true).keyMaps 5 ≠ 0 ∧ (slotUsed false true).keyMaps 5 = 0 ∧ (slotUsed false true).keyPages 5 ≠ 0 ∧ (slotUsed false false).keyMaps 5 = 0 ∧ (slotUsed false false).keyPages 5 = 0) ∧
    (seals.live = true ∧ (seals.mergeAt 1 2 3).isSome = true ∧ (seals.mergeAt 1 2 3).any (fun m => m.until_ ≤ seals.time.fclk) = true ∧ 9 ∈ seals.sealing.reenc ∧ (1, 7) ∈ seals.sealing.dirty ∧ (2, 8) ∈ seals.sealing.rebase ∧ seals.uncommitted.any (fun u => u.tbl == 3 && u.idx == 0) = true) := by
  refine ⟨?_, ?_⟩ <;> decide +kernel

/-- Unit 2 is ACTIVE with queues. -/
def chanOf (c : Chan) : State := ((dev.setUnit 2 3).setChan 2 c).wr MEMCH.CAPACITY_GIB 2 64
/-- A read of a line and a write of it. -/
def rdq : Rd := ⟨rd0, 5, 3000⟩
/-- See `rdq`. -/
def wrq : Wr := ⟨5, 9, false, false⟩

/-- The hypotheses of `ControllersIssueAndComplete`, clause by clause. -/
theorem test_meets_ControllersIssueAndComplete :
    ((chanOf { Chan.init with rq := [rdq] }).mayIssue 2 = true ∧ (chanOf { Chan.init with rq := [rdq] }).nextRead 2 = some rdq ∧ (chanOf { Chan.init with rq := [rdq] }).drainNow 2 = false ∧ (chanOf { Chan.init with rq := [rdq] }).rd MEMCH.DIMMS 2 ≠ 2 ∧ { Chan.init with wq := [wrq] }.nextWrite = some wrq ∧ (chanOf { Chan.init with wq := [wrq] }).nextRead 2 = none ∧ ((chanOf { Chan.init with wq := [wrq] }).wr MEMCH.WQ_HIGH 2 0).drainNow 2 = true) ∧
    (((chanOf { Chan.init with rq := [rdq], wq := [wrq] }).wr MEMCH.DIMMS 2 2).rd MEMCH.DIMMS 2 = 2 ∧ { Chan.init with wq := [wrq] }.wq.find? (fun x => !x.low && (chanOf Chan.init).rowKey 2 x.addr == (chanOf Chan.init).rowKey 2 5) = some wrq ∧ ((chanOf { Chan.init with inflight := some rdq }).chan 2).inflight = some rdq ∧ ((chanOf Chan.init).chan 2).inflight = none) ∧
    ((chanOf Chan.init).unitRuns 2 = true ∧ (chanOf Chan.init).unitActive 2 = true ∧ (chanOf Chan.init).domActive (memUid 2) = true ∧ (5 : BitVec 34).toNat < (chanOf Chan.init).unitLines 2 ∧ (chanOf Chan.init).unitPresent 2 = true) := by
  refine ⟨?_, ?_, ?_⟩ <;> decide +kernel

/-- Unit 2 in a state, with its domain in another and the domain's level. -/
def unitIn (st pow level : Nat) : State := ((dev.setUnit 2 st).wr POWER.STATE 52 pow).setDom 52 { Dom.init with level := level }

/-- The hypotheses of `UnitsRecoverStopAndLayBy`. -/
theorem test_meets_UnitsRecoverStopAndLayBy :
    ((unitIn 3 0 0).unitRuns 2 = true ∧ (unitIn 5 0 0).live = true ∧ (unitIn 5 0 0).rd MEMCH.STATE 2 = 5 ∧ ((unitIn 3 4 1).dom (50 + 2)).level = 1 ∧ (unitIn 3 4 1).rd POWER.STATE (50 + 2) = 4 ∧ (unitIn 4 5 1).rd MEMCH.STATE 2 = 4 ∧ (unitIn 4 5 1).rd POWER.STATE (50 + 2) = 5 ∧ issues own 0 1 = true ∧ own.tenant 0 1 = none) := by
  decide +kernel

/-- The BMC owns the device; two reports are pending, record 0 is acknowledgeable, record 1 in handling, a unit in reset. -/
def faults : State :=
  let r : Report := ⟨uid 6 3, 0x22, 2, false, 1, 0, 0⟩
  let s : State := { dev with own := ⟨.owned, some 1, none, 5, 9⟩, aon := { dev.aon with reports := [⟨uid 3 0, 1, 0, false, 1, 0, 0⟩, r], reset := some ⟨uid 6 3⟩ } }
  ((s.wr RECORD.VALID 1 1).wr RECORD.VALID 2 1).wr RECORD.HANDLING 2 1

/-- The hypotheses of `FaultsAreCollectedAndReset`, clause by clause. -/
theorem test_meets_FaultsAreCollectedAndReset :
    (faults.board.power ≠ .unpowered ∧ nextReport faults.aon.reports = some ⟨uid 6 3, 0x22, 2, false, 1, 0, 0⟩ ∧ ⟨uid 3 0, 1, 0, false, 1, 0, 0⟩ ∈ faults.aon.reports ∧ (faults.from_ 1).ownerActs 1 = true ∧ (faults.from_ 1).rdB RECORD.VALID (0 + 1) = true ∧ (faults.from_ 1).rdB RECORD.HANDLING (0 + 1) = false ∧ (faults.from_ 1).rdB RECORD.HANDLING (1 + 1) = true ∧ (dev.from_ 1).own.owner ≠ some 1 ∧ dev.bmcAnswers = true) ∧
    (issues own 0 1 = true ∧ own.tenant 0 1 = none ∧ faults.aon.reset = some ⟨uid 6 3⟩ ∧ faults.board.halted = false ∧ (dev.wr FAULT.CHECKIN_EN 0 1).rdB FAULT.CHECKIN_EN 0 = true ∧ (dev.wr FAULT.CHECKIN_EN 0 1).live = true ∧ ({ dev with board := { dev.board with heartOn := true } } : State).board.heartOn = true) := by
  refine ⟨?_, ?_⟩ <;> decide +kernel

/-- Domain 16 of policy AUTO in a state, with deep levels allowed. -/
def domain (st : Nat) : State := (((dev.wr POWER.POLICY 16 1).wr POWER.STATE 16 st).wr POWER.DEEP_EN 16 1).setDom 16 { Dom.init with level := 1 }

/-- The hypotheses of `PowerDomainsEnterWakeAndReturn`, clause by clause. -/
theorem test_meets_PowerDomainsEnterWakeAndReturn :
    ((domain 0).live = true ∧ (domain 0).time.locked = true ∧ ((domain 0).commitTbl 0x10 (· == 16)).rd POWER.STATE 16 ≠ 6 ∧ ((domain 0).commitTbl 0x10 (· == 16)).pgDead 16 = false ∧ ((domain 0).commitTbl 0x10 (· == 16)).held 16 = false ∧ ((domain 0).commitTbl 0x10 (· == 16)).inf POWER.POLICY 16 = 1 ∧ ((domain 0).commitTbl 0x10 (· == 16)).inf POWER.IDLE1 16 ≤ (0xFFFFFFFF : BitVec 32).toNat ∧ ((dev.wr POWER.POLICY 16 0).commitTbl 0x10 (· == 16)).held 16 = true ∧ ((domain 1).commitTbl 0x10 (· == 16)).infB POWER.DEEP_EN 16 = true ∧ ((domain 1).commitTbl 0x10 (· == 16)).inf POWER.IDLE2 16 * 100 ≤ (0xFFFFFFFF : BitVec 32).toNat) ∧
    (((domain 0).commitTbl 0x10 (· == 16)).inf POWER.IDLE1 16 > 0 ∧ (domain 4).rd POWER.STATE 16 = 4 ∧ (domain 5).rd POWER.STATE 16 = 5 ∧ (domain 1).pgDead 16 = false ∧ (domain 1).rd POWER.STATE 16 = 1) := by
  refine ⟨?_, ?_⟩ <;> decide +kernel

/-- A shutdown's grace runs. -/
def shutting : State := { dev with aon := { dev.aon with shutdown := true, shutdownBy := 3 } }

/-- The hypotheses of `TemperaturesThrottleAndAge`. -/
theorem test_meets_TemperaturesThrottleAndAge :
    (dev.board.power ≠ .unpowered ∧ (47 : ThNo).val < 48 ∧ (48 : ThNo).val ≥ 48 ∧ dev.rdB THERMAL.FAILED 48 = false ∧ shutting.aon.shutdown = true ∧ (dev.setUnit 2 3).live = true ∧ (dev.setUnit 2 3).unitPresent 2 = true ∧ 340 ≤ (340 : BitVec 16).toInt ∧ (331 : BitVec 16).toInt < 332 ∧ 332 ≤ (335 : BitVec 16).toInt ∧ dev.ledgerRuns = true) := by
  decide +kernel

/-- Bay 2 in a state, with 12 V at its input. -/
def bay (st : Nat) : State := ((dev.wr BAY.LIMIT 2 100).wr BAY.STATE 2 st).wr BAY.BAYVIN_MV 2 12000
/-- The same at power-on step 2. -/
def bayEarly (st : Nat) : State := ((powering 2).wr BAY.STATE 2 st).wr BAY.BAYVIN_MV 2 12000

/-- The hypotheses of `BaysPowerUpTripAndPowerDown`, clause by clause. -/
theorem test_meets_BaysPowerUpTripAndPowerDown :
    ((bay 0).supplied = true ∧ (bay 0).rd BAY.STATE 2 = 0 ∧ (bay 0).bayPowered 2 = false ∧ (bay 6).bayPowered 2 = true ∧ 6 ≤ (bay 1).board.step ∧ (bay 1).rd BAY.STATE 2 = 1 ∧ (bay 2).rd BAY.STATE 2 = 2 ∧ (((bay 2).wr BAY.LATCH 2 1).wr BAY.BAYVIN_MV 2 12000).rdB BAY.LATCH 2 = true ∧ ((bay 2).wr BAY.BAYVIN_MV 2 12000).rdB BAY.LATCH 2 = false ∧ (((bay 2).wr BAY.ENABLE 2 0).wr BAY.BAYVIN_MV 2 12000).infB BAY.ENABLE 2 = false ∧ (((bay 2).wr BAY.ENABLE 2 1).wr BAY.BAYVIN_MV 2 12000).infB BAY.ENABLE 2 = true) ∧
    ((bayEarly 1).live = true ∧ (bayEarly 1).board.hold = .none ∧ (bayEarly 1).board.step = 2 ∧ (bayEarly 1).board.turn ≤ 2 ∧ (∀ c : Fin 12, (bayEarly 1).rd BAY.STATE c ≠ 4 ∧ (bayEarly 1).rd BAY.STATE c ≠ 5) ∧ (bay 4).rd BAY.STATE 2 = 4 ∧ 9 * (bay 4).rd BAY.BAYVIN_MV 2 ≤ 10 * (10800 : BitVec 16).toNat ∧ (bayEarly 5).rd BAY.STATE 2 = 5 ∧ (bayEarly 5).board.step < 6) ∧
    (2 * (bay 6).bayLimit 2 ≤ (0xFFFF : BitVec 16).toNat ∧ (0 : BitVec 16).toNat < 2 * (bay 6).bayLimit 2 ∧ (bay 6).bayLimit 2 < (0xFFFF : BitVec 16).toNat ∧ (∀ c : Fin 12, dev.bayPowered c = false) ∧ bayvinOk (5000 : BitVec 16).toNat = false ∧ ((bay 7).wr PLACE.DRAINED (placeCtl 0) (2 ^ 4 + 2 ^ 5)).bayDrained 2 = true ∧ ((bay 7).wr PLACE.DRAINED (placeCtl 0) (2 ^ 4 + 2 ^ 5)).rd BAY.STATE 2 = 7 ∧ issues own 0 1 = true ∧ own.tenant 0 1 = none) := by
  refine ⟨?_, ?_, ?_⟩ <;> decide +kernel

/-- Counters 3, enabled, and 520 at their last value; the endpoint owns the device; group 1 is in progress. -/
def miles : State :=
  let s := ((((dev.wr MILEPOST.VALUE 3 (2 ^ 48 - 1)).wr MILEPOST.ENABLE 3 1).wr MILEPOST.VALUE 520 (2 ^ 48 - 1)).wr MILEPOST.UNIT 3 (uid 8 0)).wr MILEPOST.EVENT 3 1
  let s := s.wr MILEPOST.FILTER_LD 3 0x1FF
  { s with own := ⟨.owned, some 0, none, 5, 9⟩, mile := { s.mile with inProgress := [(1, { Bank.init with time := 9 })] } }

/-- The hypotheses of `MilepostsWrapAndSnapshot`, clause by clause. -/
theorem test_meets_MilepostsWrapAndSnapshot :
    (miles.live = true ∧ miles.time.locked = true ∧ miles.rd MILEPOST.VALUE 520 = 2 ^ 48 - 1 ∧ miles.rd MILEPOST.VALUE 3 = 2 ^ 48 - 1 ∧ miles.rdB MILEPOST.SAMPLE 3 = false ∧ miles.rdB MILEPOST.ENABLE 3 = true ∧ miles.rdB MPALL.FREEZE 544 = false ∧ miles.domActive (uid 8 0) = true ∧ miles.counts 3 { unit := uid 8 0, event := 1, ld := none, qual := none, addr := none } = true ∧ (miles.wr MILEPOST.FRZ_OVF 3 1).rdB MILEPOST.FRZ_OVF 3 = true) ∧
    (issues own 0 1 = true ∧ own.tenant 0 1 = none ∧ miles.own.owner = some 0 ∧ dev.own.owner ≠ some 0 ∧ miles.mile.inProgress.find? (fun p => p.1 == 1) = some (1, { Bank.init with time := 9 }) ∧ miles.mile.again.contains 1 = false ∧ (∀ p ∈ dev.mile.inProgress, p.1 ≠ 1)) := by
  refine ⟨?_, ?_⟩ <;> decide +kernel

/-! ### A stowed page that decodes -/

/-- A coded page of zeros: 29 bytes of fixed Huffman code. -/
def codedZeros : List (BitVec 8) :=
  [99, 24, 5, 163, 96, 20, 140, 130, 81, 48, 10, 70, 193, 40, 24, 5, 163, 96, 20, 140, 130, 81, 48, 10, 70, 193, 176, 7, 0]
/-- Page 5 is stowed, readable, and being decoded, into a frame or a buffer. -/
def readable (buffer : Bool) : State :=
  let s := decoding buffer
  let s : State := { s with plc := { s.plc with pages := [(5, { Page.init with st := .stowed, loc := 2 ^ 31 + 16, slotClass := 6 })] } }
  s.putSlot (2 ^ 31 + 16) 6 (zeros 4 ++ leBytes 4 2566472073 ++ zeros 8 ++ codedZeros ++ zeros 19)

/-- The number of zero bytes that a block of zeros and copies of them gives. -/
def zeroRun : Nat → List Bool → Nat → Option (Nat × List Bool)
  | 0, _, _ => none
  | f + 1, bs, n => match readSym bs with
    | .eob r => some (n, r)
    | .tok (.lit b) r => if b = 0 ∧ n < 4096 then zeroRun f r (n + 1) else none
    | .tok (.copy l d) r => if d ≤ n ∧ d ≤ 4096 ∧ n + l ≤ 4096 then zeroRun f r (n + l) else none
    | _ => none

/-- Copies of zeros are zeros. -/
theorem copyBack_zeros (l d n : Nat) : copyBack l d (Array.replicate n 0) = Array.replicate (n + l) 0 := by
  induction l generalizing n with
  | zero => rfl
  | succ l ih =>
    have h : (Array.replicate n (0 : BitVec 8)).getD ((Array.replicate n (0 : BitVec 8)).size - d) 0 = 0 := by
      simp [Array.getD]
    rw [copyBack, h, ← Array.replicate_succ, ih, Nat.add_right_comm, Nat.add_assoc]

/-- `zeroRun` is what such a block decodes to. -/
theorem decodeFixed_zeros (f : Nat) (bs r : List Bool) (n m : Nat) (h : zeroRun f bs n = some (m, r)) :
    decodeFixed 4096 4096 f bs (Array.replicate n 0) = some (Array.replicate m 0, r) := by
  induction f generalizing bs n with
  | zero => simp [zeroRun] at h
  | succ f ih =>
    unfold zeroRun at h
    unfold decodeFixed
    split at h
    · rename_i hs
      obtain ⟨rfl, rfl⟩ := Prod.mk.inj (Option.some.inj h)
      first | rfl | rw [hs]
    · rename_i hs
      try rw [hs]
      split at h
      · rename_i hb
        show (if _ then none else _) = _
        rw [if_neg (by simpa using hb.2), hb.1, ← Array.replicate_succ]
        exact ih _ _ h
      · cases h
    · rename_i hs
      try rw [hs]
      split at h
      · rename_i hb
        show (if _ then none else _) = _
        rw [if_neg (by simp; omega), copyBack_zeros]
        exact ih _ _ h
      · cases h
    · cases h

/-- 512 zero bytes of a CRC at a time. -/
theorem crcRun_zeros {c d : BitVec 32} (n : Nat) (h : crcRun c (zeros 512) = d) : crcRun c (zeros (512 + n)) = crcRun d (zeros n) := by
  have app : ∀ (a b : List (BitVec 8)) (c : BitVec 32), crcRun c (a ++ b) = crcRun (crcRun c a) b := by
    intro a b
    induction a with
    | nil => intro c; rfl
    | cons x a ih => intro c; exact ih _
  have : zeros (512 + n) = zeros 512 ++ zeros n := List.replicate_append_replicate.symm
  rw [this, app, h]

set_option maxRecDepth 100000 in
/-- CRC-32C of a page of zeros. -/
theorem crc_of_zeros : crc32c (zeros 4096) = 2566472073 := by
  have h : crcRun 0xFFFFFFFF (zeros (512 + 3584)) = 1728495222 :=
    (crcRun_zeros 3584 (d := 3473084991) (by decide +kernel)).trans <| (crcRun_zeros 3072 (d := 290529667) (by decide +kernel)).trans <|
    (crcRun_zeros 2560 (d := 175100626) (by decide +kernel)).trans <| (crcRun_zeros 2048 (d := 1534491824) (by decide +kernel)).trans <|
    (crcRun_zeros 1536 (d := 1307576961) (by decide +kernel)).trans <| (crcRun_zeros 1024 (d := 3746741852) (by decide +kernel)).trans <|
    (crcRun_zeros 512 (d := 4151263722) (by decide +kernel)).trans (crcRun_zeros 0 (d := 1728495222) (by decide +kernel))
  unfold crc32c
  rw [show 4096 = 512 + 3584 from rfl, h]
  decide

/-- A page whose code is such a block is zeros. -/
theorem decodePage_zeros (p : List (BitVec 8)) (bs r : List Bool) (h0 : unpackBits p = true :: true :: false :: bs)
    (hr : zeroRun bs.length bs 0 = some (4096, r)) (hz : (r.take (r.length % 8)).all (! ·) = true) : decodePage p = some (zeros 4096) := by
  have h1 := decodeFixed_zeros _ _ _ _ _ hr
  rw [show Array.replicate 0 (0 : BitVec 8) = #[] from rfl] at h1
  unfold decodePage
  rw [h0]
  simp only [h1]
  rw [if_pos ⟨Array.size_replicate, hz⟩, Array.toList_replicate]
  rfl

/-- The coded page decodes to zeros. -/
theorem test_coded_page_decodes : decodePage (codedZeros ++ zeros 19) = some (zeros 4096) := by
  have key : ∀ o : Option (Nat × List Bool), o.any (fun x => x.1 == 4096 && (x.2.take (x.2.length % 8)).all (! ·)) = true →
      ∃ r, o = some (4096, r) ∧ (r.take (r.length % 8)).all (! ·) = true := by
    intro o h
    match o, h with
    | some (m, r), h =>
      rw [Option.any_some, Bool.and_eq_true, beq_iff_eq] at h
      exact ⟨r, by rw [show m = 4096 from h.1], h.2⟩
  obtain ⟨r, hr, hz⟩ := key (zeroRun ((unpackBits (codedZeros ++ zeros 19)).drop 3).length ((unpackBits (codedZeros ++ zeros 19)).drop 3) 0)
    (by decide +kernel)
  exact decodePage_zeros _ _ r (by decide +kernel) hr hz

/-- What the checks of a slot pass. -/
theorem decodeStowed_of (a : State) (p : Nat) (hdr body out : List (BitVec 8))
    (h : a.openSlot p (a.page p).key (a.page p).loc (a.page p).slotClass = .ok hdr body) (hd : decodePage body = some out)
    (hc : (crc32c out).toNat = leAt hdr 4 4) : a.decodeStowed p = .ok out := by
  unfold State.decodeStowed
  simp only [h, hd, hc, if_true]

/-- The clauses of `StowEnginesTakeAndFinishWork` about a decode that succeeds: a stowed page of zeros. -/
theorem test_meets_decode (buffer : Bool) (ev : Nat) (hev : ev = 3 ∨ ev = 4) :
    (((readable buffer).decoded 0).occur ⟨uid 6 32, ev, none, none, some (5 * 4096, 0)⟩).decodeStowed 5 = .ok (zeros 4096) ∧
      (readable buffer).stow.decoding.find? (fun x => x.q.page == 5 && x.q.buffer == buffer) = some ⟨0, que 5 buffer⟩ ∧
      ((readable buffer).page 5).slot ≠ 0 ∧ (buffer = true ∨ (((readable buffer).decoded 0).moveOf 5).isSome = true) := by
  refine ⟨decodeStowed_of _ 5 (zeros 4 ++ leBytes 4 2566472073) _ _ ?_ test_coded_page_decodes ?_, ?_⟩
  · rcases hev with rfl | rfl <;> revert buffer <;> decide +kernel
  · rw [crc_of_zeros]; decide +kernel
  · revert buffer; decide +kernel

/-! ### Further witnesses: the clauses about awaited pages, register paths, shared windows, events and early steps -/

/-- A stowed page 5 that owner thread 1 reads, its promotion or decode answered with a status; g1 its address. -/
def awaits (st : Option Nat) : State :=
  let s : State := { readable true with soft := own.soft, stow := Stow.init }
  (s.setThread 0 1 { own.thread 0 1 with stall := some (5, st) }).setG 0 1 1 (5 * 4096)

/-- The hypotheses of `PageAndLineInstructions` about stowed pages and earlier MOVEs. -/
theorem test_meets_PageAndLineInstructions_stowed :
    ((issuedState pgs 0 1).rangeAwaits 0 1 (pgs.g 0 1 1).toNat 64 = false ∧ (issuedState pgs 0 1).pageAwaits 0 1 (pgs.g 0 1 1).toNat = false) ∧
    (fetches (.mread 0 1 0 0 1 0) (awaits (some 0)) = true ∧ fetches (.mwrite 0 1 0 0 1 0) (awaits (some 0x206)) = true ∧ (awaits (some 0)).tenant 0 1 = none ∧
      (awaits (some 0)).scratchAt 0 1 ((awaits (some 0)).g 0 1 0) 64 64 = some 0 ∧ lineRangeOk ((awaits (some 0)).g 0 1 1).toNat 64 = true ∧
      ((issuedState (awaits (some 0)) 0 1).jobAddr none ((awaits (some 0)).g 0 1 1).toNat).isSome = true ∧ (issuedState (awaits (some 0)) 0 1).pageAwaits 0 1 ((awaits (some 0)).g 0 1 1).toNat = false) ∧
    (((awaits (some 0)).page 5).st = .stowed ∧ ((awaits (some 0)).page 5).key = ((awaits (some 0)).g 0 1 0).toNat % 4096 ∧ (issuedState (awaits (some 0)) 0 1).pageBusy 5 = false ∧
      (issuedState (awaits (some 0)) 0 1).linesBlocked (spanOfLines 5 0 64) false = 0 ∧ (awaits (some 0)).stallOf 0 1 5 = some (some 0) ∧ (awaits (some 0x206)).stallOf 0 1 5 = some (some 0x206) ∧
      (issuedState (awaits (some 0x206)) 0 1).writeReady 5 0 = .promote) := by
  refine ⟨?_, ?_, ?_⟩ <;> decide +kernel
/-- The page decodes there. -/
theorem test_meets_PageAndLineInstructions_decode : (issuedState (awaits (some 0)) 0 1).decodeStowed 5 = .ok (zeros 4096) := by
  refine decodeStowed_of _ 5 (zeros 4 ++ leBytes 4 2566472073) _ _ ?_ test_coded_page_decodes ?_
  · decide +kernel
  · rw [crc_of_zeros]; decide +kernel

/-- A fill that ends early in power-on, and a phase in which FCLK has not locked. -/
theorem test_meets_FillAndBaseProgramEndPowerOn_early :
    ((training.setUnit 5 2).board.step = 4 ∧ ((filling true).setUnit 5 3).board.step ≠ 4 ∧ (powering 9).rd PHASE.CURRENT 0 ≠ 3 ∧
      ((powering 9).wr PHASE.CURRENT 0 3).rd PHASE.CURRENT 0 = 3 ∧ (1 : Nat) ≠ dev.rd PHASE.CURRENT 0 ∧ dev.time.locked = true ∧ ({ dev with time := { dev.time with locked := false } } : State).time.locked = false) := by
  decide +kernel

/-- Head 0's port group is ACTIVE or shelved. -/
theorem test_meets_FunctionAndHeadResets_rise :
    (((dev.setPerst 0 false).setPerst 0 true).rd POWER.STATE ((0 : HeadNo).val / 2) = 0 ∧ (((dev.shelve 0).setPerst 0 false).setPerst 0 true).rd POWER.STATE 0 ≠ 0) := by
  decide +kernel

/-- A RUN's argument read is outstanding with tag 7. -/
def askedRun : State := let s := mayRun (cmd 11 0 0x2000 64 1 0 .reading); { s with soft := { s.soft with ioReads := [⟨0, 7, 0, 0, some 0⟩] } }
/-- The hypotheses of `RunAndSnapCommands` about such a completion. -/
theorem test_meets_RunAndSnapCommands_reading :
    ((askedRun.link 0).up = true ∧ (HostResp.failed ≠ .outstanding) ∧ askedRun.soft.ioReads.find? (fun q => q.head == (0 : HeadNo).val && q.tag == 7) = some ⟨0, 7, 0, 0, some 0⟩ ∧
      askedRun.cmdAt 0 0 0 = some (cmd 11 0 0x2000 64 1 0 .reading) ∧ (cmd 11 0 0x2000 64 1 0 .reading).st = .reading) := by
  decide +kernel

/-- The hypotheses of `MailboxesAndDoorbellsOfTheHost` about events: bits that raise none, bits that raise one, and no bit
set in this cycle. -/
theorem test_meets_MailboxesAndDoorbellsOfTheHost_events :
    ((1 : BitVec 32).truncate 16 &&& ~~~ ((mailed.wr ACCESS.DB_WF_MASK 0 0).bell 0).toDev &&& ~~~ (mailed.wr ACCESS.DB_WF_MASK 0 0).devMask 0 ≠ (0 : BitVec 16)) ∧
    ((1 : BitVec 32).truncate 16 &&& ~~~ ((mailed.wr ACCESS.DB_WF_MASK 0 0xFFFF).bell 0).toDev &&& ~~~ (mailed.wr ACCESS.DB_WF_MASK 0 0xFFFF).devMask 0 = (0 : BitVec 16)) ∧
    ((mailed.setNow (bellTbl false) 0 0).truncate 16 &&& ((0x10000 : BitVec 32) >>> 16).truncate 16 = (0 : BitVec 16)) := by
  decide +kernel

/-- The hypotheses of `DebugReadsAndThreadDebug` about a stowed page and a suspended thread. -/
theorem test_meets_DebugReadsAndThreadDebug_stowed :
    ((let s := dbgOf { Page.init with st := .stowed }; (s.page (s.svc.dbgLine.toNat / 64)).st = .stowed ∧ s.mode 0 = 0 ∧ s.pageBusy 2 = false) ∧
      (let s := debugged true; let s := s.setThread 0 1 { s.thread 0 1 with st := .suspended, wait := .sleep 9000 }; s.mayDebug 0 1 = true ∧ (s.thread 0 1).dbg = true ∧ (s.thread 0 1).st = .suspended)) := by
  decide +kernel

/-- The hypotheses of `LinksTrainAndGoDown` about what a head offers and about configuration requests. -/
theorem test_meets_LinksTrainAndGoDown_offers :
    (cxlOffered (6 : BitVec 4).toNat true true = true ∧ cxlOffered (1 : BitVec 4).toNat false false = true ∧ (ringed rg).funcUp 0 = true ∧ (0 : Func).val ≠ 256 ∧ devUp.funcUp 256 = true) := by
  decide +kernel

/-- The hypotheses of `RegisterWritesActOrAreTurnedAway` about reads and the BMC's path. -/
theorem test_meets_RegisterWritesActOrAreTurnedAway_reads :
    ((ringed rg).badAccess 0 0x80000 8 = none ∧ ((ringed rg).barRead 0 (0x80000 - 0x80000 % 8)).isSome = true ∧ devUp.mayService 1 = true ∧ (0x200 : BitVec 24).toNat = 0x200) := by
  decide +kernel

/-- The window is shared, and head 0 in 256-byte flits with BI on its decoder, or not. -/
def sharedReq (bi : Bool) : State :=
  let s := mapped.wr WINDOW.TYPE 0 1
  (s.setLink 0 { s.link 0 with flit256 := true }).setDecoder 0 0 { s.decoder 0 0 with bi := bi }
/-- The hypotheses of `HostRequestsMeetTheHeadChecks` about shared windows and an isolated head. -/
theorem test_meets_HostRequestsMeetTheHeadChecks_shared :
    ((match (sharedReq true).mapReq 0 0x1000 with | .ok 0 0 l _ _ false => !(sharedReq true).lineClosed l | _ => false) = true ∧ (sharedReq true).infB WINDOW.TYPE 0 = true ∧ ((sharedReq true).link 0).flit256 = true ∧ ((sharedReq true).decoder 0 0).bi = true ∧
      (match (sharedReq false).mapReq 0 0x1000 with | .ok 0 0 _ _ _ false => true | _ => false) = true ∧ ((sharedReq false).decoder 0 0).bi = false ∧ ((sharedReq false).decoder 0 0).way.isSome = true ∧ (mapped.wr PORT.ISOLATED 0 1).rdB PORT.ISOLATED 0 = true) := by
  decide +kernel

/-- The hypotheses of `SnoopResponsesAreApplied`: a snoop answered, none, and none after a timeout. -/
theorem test_meets_SnoopResponsesAreApplied_each :
    (((snoops [snp true]).wakeUnit (sliceUid 0x40)).bisnp 0 0x40 = some (snp true) ∧ ((snoops [snp true]).wakeUnit (sliceUid 0x40)).lineGroup 0x40 = some 0 ∧ ((snoops [snp true]).wakeUnit (sliceUid 0x40)).fenced 0 0 = false ∧
      ((snoops [snp false]).wakeUnit (sliceUid 0x40)).bisnp 0 0x40 = some (snp false) ∧ ((snoops []).wakeUnit (sliceUid 0x40)).bisnp 0 0x40 = none) ∧
    (let s := ((snoops []).wr SNOOP.TIMED_OUT 0 1); (s.wakeUnit (sliceUid 0x40)).bisnp 0 0x40 = none ∧ (s.wakeUnit (sliceUid 0x40)).lineGroup 0x40 = some 0 ∧ (s.wakeUnit (sliceUid 0x40)).timedOut 0 0x40 = true) ∧
    ((⟨true, 0, 1, false⟩ : SfEntry).valid = true ∧ (⟨true, 0, 1, false⟩ : SfEntry).sharers.getLsbD 0 = true ∧ ({ snp true with done := some false } : Snoop).done = some false) := by
  refine ⟨?_, ?_, ?_⟩ <;> decide +kernel

/-- The hypotheses of `LinkWidthAndL1` about the trained width still due, and about a completed change. -/
theorem test_meets_LinkWidthAndL1_due :
    ((let s := dev.setLink 0 { lanes8 with toFull := true }; let s : State := { (s.wr PORT.L0P_ENABLE 0 0) with time := ⟨10, 10 ^ 9, true, 0⟩ };
        s.infB PORT.L0P_ENABLE 0 = false ∧ (s.link 0).toFull = true ∧ (s.link 0).l0p = .stable ∧ (s.link 0).holdAt + s.l0pHold 0 ≤ s.time.fclk ∧ (s.link 0).width ≠ (s.link 0).trained) ∧
      ((dev.setLink 0 { lanes8 with l0p := .device 4 }).link 0).l0p = .device 4 ∧ ({ lanes8 with l0p := L0p.device 4 } : Link).toFull = false ∧ ({ lanes8 with l0p := L0p.device 4 } : Link).load = 0 ∧ ({ lanes8 with l0p := L0p.device 4 } : Link).express = false ∧ ∀ x, lanes8.l0p ≠ .host x) := by
  refine ⟨by decide +kernel, by decide +kernel, by decide +kernel, by decide +kernel, by decide +kernel, ?_⟩
  intro x h; cases h

/-- The hypotheses of `CoherenceEventsAndSharedWindows` about a timeout and a slice's events. -/
theorem test_meets_CoherenceEventsAndSharedWindows_timeout :
    ((dwells.bisnp 0 ((0x1000 : BitVec 46).toNat / 64)).isSome = true ∧ ((dwells.snoopTimeout 0 0x40).fixed 521).lineGroup 0x40 = some 0 ∧
      (((dwells.snoopTimeout 0 0x40).fixed 521).group 0).all (fun i => ((dwells.snoopTimeout 0 0x40).fixed 521).winState i != 3) = true ∧ dwells.domActive (uid 2 0) = true) := by
  decide +kernel

/-- The hypotheses of `PagesMove` and `StowEnginesTakeAndFinishWork` about merge entries and a split. -/
theorem test_meets_PagesMove_merges :
    ((mv .tier 4 0).kind = .tier ∧ (moves (mv .tier 4 0)).mergesOf (locFrame ((moves (mv .tier 4 0)).page 3).loc) = [] ∧ (moves (mv .relocate 4 0)).mergesOf (locFrame ((moves (mv .relocate 4 0)).page 3).loc) = [] ∧
      (moves (mv .run 2 0x3FF)).moveOf 3 = some (mv .run 2 0x3FF)) ∧
    ((stowing { Stow.init with waiting := [que 3] }).canSplit (3 / 512) = true) ∧
    (({ coding false with stow := { (coding false).stow with coding := [] } } : State).mergesOf (locFrame ((coding false).page 3).loc) = []) := by
  refine ⟨?_, ?_, ?_⟩ <;> decide +kernel

/-- The hypotheses of `ControllersIssueAndComplete` about a stack, and of `UnitsRecoverStopAndLayBy` and
`PowerDomainsEnterWakeAndReturn` about merge entries. -/
theorem test_meets_units_of_both_kinds :
    ((dev.setUnit 24 3).unitRuns 24 = true ∧ 24 ≤ (24 : UnitNo).val) ∧
    ((∀ m ∈ (unitIn 3 4 1).sealing.merges, m.unit ≠ (2 : UnitNo).val) ∧ (∀ m ∈ (domain 4).sealing.merges, domUnit 16 ≠ some m.unit)) := by
  refine ⟨?_, ?_⟩ <;> decide +kernel

/-- The hypotheses of `FaultsAreCollectedAndReset` about a latch, of `TemperaturesThrottleAndAge` about each kind of sensor, and
of `BaysPowerUpTripAndPowerDown` about the early steps. -/
theorem test_meets_latches_sensors_and_bays :
    ((faults.from_ 1).stamps = [] ∧ (48 ≤ (48 : ThNo).val ∧ (3 : ThNo).val < 32) ∧ dev.rdB THERMAL.FAILED 3 = false) ∧
    ((((bayEarly 2).wr BAY.ENABLE 2 1).wr BAY.BAYVIN_MV 2 12000).rdB BAY.LATCH 2 = false ∧ (((bayEarly 2).wr BAY.ENABLE 2 1).wr BAY.BAYVIN_MV 2 12000).infB BAY.ENABLE 2 = true ∧ (bayEarly 2).board.step < 10 ∧ 10 ≤ (bay 2).board.step) ∧
    ((bay 5).rd BAY.STATE 2 = 5 ∧ 6 ≤ (bay 5).board.step ∧ (bay 5).board.halted = false ∧ (bayEarly 2).supplied = true ∧ (bay 5).supplied = true) := by
  refine ⟨?_, ?_, ?_⟩ <;> decide +kernel

/-! ### Well-formedness: one ill-formed command for each check -/

/-- Operand values their interface cannot carry. -/
theorem test_ill_formed :
    [Instr.shli 0 1 2 3 64, .shri 0 1 2 3 64, .sari 0 1 2 3 64, .moveDone 0 1 4, .linkTrainingComplete 0 0 8 true true,
      .linkTrainingComplete 0 7 8 true true, .linkTrainingComplete 0 6 3 true true, .hdmDecoderCommit 0 0 ⟨0, 64, 5, 256, 0, false⟩,
      .registerWrite (.bar 0 ⟨0x40, 1, 0⟩) 0 0 (.write 1), .l0pSample 0 101, .hostL0pRequest 0 3, .queueLevelReport 0 101, .writeCrcAlert 0 20,
      .ledgerSecond 101].all (fun i => !i.wf) = true := by decide +kernel
/-- An image of more than 128 KiB and an argument block of more than 4 KiB. -/
theorem test_ill_formed_lengths (img args : List (BitVec 8)) (hi : img.length = 131073) (ha : args.length = 4097) :
    (Instr.load .ep 1 img).wf = false ∧ (Instr.start .ep 1 1 1 args).wf = false := by
  simp [Instr.wf, hi, ha]
/-- The bounds themselves are well formed. -/
theorem test_well_formed :
    [Instr.shli 0 1 2 3 63, .moveDone 0 1 8, .linkTrainingComplete 0 6 16 true true, .hdmDecoderCommit 0 0 ⟨0, 64, 12, 256, 0, false⟩,
      .registerWrite (.bar 0 ⟨0x40, 1, 0⟩) 0 8 (.write 1), .l0pSample 0 100, .queueLevelReport 0 100, .writeCrcAlert 0 19, .ledgerSecond 100, .tick].all Instr.wf = true := by
  decide +kernel
/-- The table gives no row bits. -/
theorem test_no_word_is_a_command : decodeTableWord 16 0 = none ∧ decodeTableWord 0 0 = none := ⟨rfl, rfl⟩

/-! ### One command's result on a small state. The rule each value comes from is named -/

/-- What a command's next state satisfies. -/
def after (i : Instr) (s : State) (p : State → Bool) : Bool := match exec i s with | .next u => p u | _ => false
/-- The same of an instruction that the thread fetches. -/
def ran (i : Instr) (s : State) (p : State → Bool) : Bool := after i (codeAt i s) p

/-- R116, R118, R119: words written out from the four forms and the opcode and fn tables, with their instructions. -/
theorem test_words :
    [(Instr.add 0 1 3 1 2, (0x00611000 : Nat)), (.sub 0 1 3 1 2, 0x00611001), (.addi 0 1 3 1 (-1), 0x0461FFFF), (.shli 0 1 3 1 5, 0x14610005),
      (.beq 0 1 1 2 4, 0x40220004), (.jal 0 1 8, 0x5C000008), (.ldd 0 1 3 1 8, 0x78610008), (.stw 0 1 2 1 4, 0x88410004), (.tld 0 1 5 1, 0xA0A10000),
      (.tstC 0 1 5 1 2, 0xA0A11009), (.wait 0 1 5 1 2, 0xA4A11000), (.mread 0 1 2 0 1 3, 0xA8011825)].all (fun x => fits x.1 x.2) = true := by decide +kernel
/-- R117: an unused field is ignored (SHLI's imm16[15:6]), another fn is another instruction, and an unlisted fn or opcode is ILLEGAL. -/
theorem test_words_listed : fits (.shli 0 1 3 1 5) 0x14610045 = true ∧ fits (.add 0 1 3 1 2) 0x00611001 = false ∧
    fits (.illegalInstruction 0 ⟨1, false⟩) 0x00611013 = true ∧ fits (.illegalInstruction 0 ⟨1, false⟩) 0xFC000000 = true ∧ fits (.illegalInstruction 0 ⟨1, false⟩) 0x00611000 = false := by decide +kernel
/-- R121: DIVU by zero gives all ones, REMU the dividend; CLZ of 7 is 61; SAR keeps the sign. -/
theorem test_integer : ran (.divu 0 1 3 1 0) alu (fun u => u.g 0 1 3 == 0xFFFFFFFFFFFFFFFF) &&
    ran (.remu 0 1 3 1 0) alu (fun u => u.g 0 1 3 == 7) && ran (.clz 0 1 3 1) alu (fun u => u.g 0 1 3 == 61) &&
    ran (.sar 0 1 3 2 1) alu (fun u => u.g 0 1 3 == 0xFFFFFFFFFFFFFFFF) = true := by decide +kernel
/-- R121: LHI sets [31:16] and extends the sign; R112: a write to g0 is discarded. -/
theorem test_lhi_and_g0 : ran (.lhi 0 1 3 0x8000) own (fun u => u.g 0 1 3 == 0xFFFFFFFF80000000) &&
    ran (.addi 0 1 0 1 5) alu (fun u => u.g 0 1 0 == 0) = true := by decide +kernel
/-- R122: JAL saves the address after itself in g31 and goes to 4 × imm26. -/
theorem test_jal : ran (.jal 0 1 8) own (fun u => u.g 0 1 31 == 0x44 && (u.thread 0 1).pc == 0x20) = true := by decide +kernel
/-- R124: STH is little-endian, and reaches no further. -/
theorem test_sth : ran (.sth 0 1 2 1 0) (alu.setG 0 1 1 0x10) (fun u => u.scr 0 0x0F 4 == [0, 0xFE, 0xFF, 0]) = true := by
  decide +kernel
/-- R84: a claim takes the open election; its epoch rises. -/
theorem test_claim : after (.claim 2 7) (elect ⟨.open, none, none, 0xFFF, 0⟩) (fun u => u.own == ⟨.owned, some 2, none, 0, 7⟩) = true := by
  decide +kernel
/-- R87: an enabled ring starts at index 0 in phase 1. -/
theorem test_ring_enable : after (.ringEnable 0 0) (ringed { rg with cmdHead := 9, phase := false }) (fun u =>
    u.ring 0 0 == { rg with enable := true }) = true := by decide +kernel
/-- R97: a post to a full mailbox is dropped and counted. -/
theorem test_full_mailbox : after (.mailboxSend 0 1 ⟨9, ⟨0x40, 1, 0⟩⟩) mailed (fun u =>
    u.mailbox 0 true 1 == { Mailbox.init with full := true, rejects := 1 }) = true := by decide +kernel
/-- R473: a counter at 2^48 - 1 wraps to 0 with OVF. -/
theorem test_wrap : after (.counterWrap 520 ⟨0, 0, 0, 0⟩) miles (fun u => u.rd MILEPOST.VALUE 520 == 0 && u.rd MILEPOST.OVF 520 == 1) = true := by
  decide +kernel
/-- R450: a bay pre-charged to 90 % of its input ramps. -/
theorem test_precharge : after (.prechargeComplete 2 10800) (bay 4) (fun u => u.rd BAY.STATE 2 == 5) &&
    after (.prechargeComplete 2 10799) (bay 4) (fun u => u.rd BAY.STATE 2 == 4) = true := by decide +kernel
/-- R376: a failed recovery stops the unit. -/
theorem test_recovery : after (.recoveryRetrainingEnd 2 false) (unitIn 5 0 0) (fun u => u.rd MEMCH.STATE 2 == 6) = true := by decide +kernel

end Sys2Proof.Tests
end

section
/-! PROOFS. Accesses to a function's BAR2 and to the BMC's service registers (R3, R97, R100, R103, R106, R193, R482):
which access is turned away, the bytes an aligned access carries, and the register that acts. -/
namespace Sys2Proof.Machine

/-! ### The bytes that an access aligned to its word carries (R3) -/

theorem getLsbD_laneMask {off size : Nat} (h : off % 8 = 0) (i : Nat) :
    (laneMask off size).getLsbD i = (decide (i < 64) && decide (i < 8 * size)) := by
  simp [laneMask, h, BitVec.getLsbD_ofNat, Nat.testBit_two_pow_sub_one]

theorem laneData_aligned {off : Nat} (h : off % 8 = 0) (size : Nat) (v : BitVec 64) :
    laneData off size v = v &&& laneMask off size := by
  simp [laneData, h]

/-- The low bits that the access covers are the value's. -/
theorem setWidth_laneData {off size n : Nat} (h : off % 8 = 0) (hn : n ≤ 8 * size) (hn' : n ≤ 64) (v : BitVec 64) :
    (laneData off size v).setWidth n = v.setWidth n := by
  apply BitVec.eq_of_getLsbD_eq
  intro i hi
  have hcov : i < 8 * size := by omega
  have hword : i < 64 := by omega
  simp only [laneData_aligned h, BitVec.getLsbD_setWidth, BitVec.getLsbD_and, getLsbD_laneMask h]
  simp [hi, hcov, hword]

/-- A register field that the access covers takes the value's bits, whatever it held. -/
theorem setWidth_merge_lane {off size n : Nat} (h : off % 8 = 0) (hn : n ≤ 8 * size) (hn' : n ≤ 64)
    (old v : BitVec 64) : (merge old (laneData off size v) (laneMask off size)).setWidth n = v.setWidth n := by
  apply BitVec.eq_of_getLsbD_eq
  intro i hi
  have hcov : i < 8 * size := by omega
  have hword : i < 64 := by omega
  simp only [merge, laneData_aligned h, BitVec.getLsbD_setWidth, BitVec.getLsbD_or, BitVec.getLsbD_and,
    BitVec.getLsbD_not, getLsbD_laneMask h]
  simp [hi, hcov, hword]

theorem laneData_whole {off : Nat} (h : off % 8 = 0) (v : BitVec 64) : laneData off 8 v = v := by
  simpa using setWidth_laneData (n := 64) h (by omega) (by omega) v

theorem merge_whole {off : Nat} (h : off % 8 = 0) (old v : BitVec 64) : merge old v (laneMask off 8) = v := by
  simpa [laneData_whole h] using setWidth_merge_lane (size := 8) (n := 64) h (by omega) (by omega) old v

theorem ofNat_bitsAt_zero (w : BitVec 64) (n : Nat) : BitVec.ofNat n (bitsAt w 0 n) = w.setWidth n := by
  apply BitVec.eq_of_toNat_eq
  simp [bitsAt]

/-- An aligned access covers every low field of its word. -/
theorem covers_laneMask {off size n : Nat} (h : off % 8 = 0) (hs : 0 < size) (hn : 0 < n) :
    covers (laneMask off size) 0 n = true := by
  have hbit : (laneMask off size).getLsbD 0 = true := by
    rw [getLsbD_laneMask h]
    simp [hs]
  simp only [covers, pow_zero, Nat.div_one, bne_iff_ne, ne_eq]
  intro hzero
  have hbit' := Nat.testBit_mod_two_pow (laneMask off size).toNat n 0
  rw [hzero, decide_eq_true hn, Bool.true_and, BitVec.testBit_toNat, hbit] at hbit'
  simp at hbit'

theorem laneBytes_whole {off : Nat} (h : off % 8 = 0) (w : BitVec 64) : laneBytes w off 8 = leBytes 8 w.toNat := by
  rw [laneBytes, h]; rfl

/-! ### Which accesses are turned away (R193, R482) -/

theorem badAccess_outside (s : State) {f off size : Nat} (h : outsideBar f off = true ∨ 4096 < off % 4096 + size) :
    s.badAccess f off size = some 0x0C := by
  rw [State.badAccess, if_pos]
  simpa using h

theorem badAccess_misaligned (s : State) {f off size : Nat} (hin : outsideBar f off = false)
    (hpage : off % 4096 + size ≤ 4096) (h : size ∉ [1, 2, 4, 8] ∨ off % size ≠ 0) :
    s.badAccess f off size = some 0x0D := by
  rw [State.badAccess, if_neg (by simp [hin, hpage]), if_pos]
  simpa [or_iff_not_imp_left] using h

/-- An aligned access stays in its page. -/
theorem le_page_of_aligned {off size : Nat} (hs : size ∈ [1, 2, 4, 8]) (h : off % size = 0) :
    off % 4096 + size ≤ 4096 := by
  simp only [List.mem_cons, List.not_mem_nil, or_false] at hs
  rcases hs with rfl | rfl | rfl | rfl <;> omega

/-- A word's first byte is aligned for every size that an access may have. -/
theorem aligned_of_word {off size : Nat} (hs : size ∈ [1, 2, 4, 8]) (h8 : off % 8 = 0) : off % size = 0 := by
  simp only [List.mem_cons, List.not_mem_nil, or_false] at hs
  rcases hs with rfl | rfl | rfl | rfl <;> omega

theorem toNat_not_mem_sizes (size : BitVec 8) (h : size ∉ [(1 : BitVec 8), 2, 4, 8]) : size.toNat ∉ [1, 2, 4, 8] := by
  simpa [← BitVec.toNat_inj] using h

/-- An aligned access within the BAR is turned away only for an absent window. -/
theorem badAccess_aligned (s : State) {f off size : Nat} (hin : outsideBar f off = false) (hs : size ∈ [1, 2, 4, 8])
    (h : off % size = 0) : s.badAccess f off size = if s.noWindow f off then some 0x0C else none := by
  have hpage := le_page_of_aligned hs h
  have hsize : [1, 2, 4, 8].contains size = true := List.contains_iff_mem.mpr hs
  rw [State.badAccess, if_neg (by simp [hin, hpage]), if_neg (by rw [hsize, h]; decide)]

theorem outsideBar_of_ld {f off : Nat} (hf : f < 256) (h : off < 0xA0000) : outsideBar f off = false := by
  simp [outsideBar, show f ≠ 256 by omega, show ¬ 0xA0000 ≤ off by omega]

/-- Below its milepost window a logical device takes every aligned access. -/
theorem badAccess_ld (s : State) {f off size : Nat} (hf : f < 256) (hoff : off < 0x90000) (hs : size ∈ [1, 2, 4, 8])
    (h : off % size = 0) : s.badAccess f off size = none := by
  rw [badAccess_aligned s (outsideBar_of_ld hf (by omega)) hs h, if_neg]
  simp [State.noWindow, show ¬ 0x90000 ≤ off by omega]

/-- The management endpoint takes every aligned access to the blocks of R103. -/
theorem badAccess_endpoint (s : State) {off size : Nat} (hoff : off < 0x40280) (hs : size ∈ [1, 2, 4, 8])
    (h : off % size = 0) : s.badAccess 256 off size = none := by
  have hin : outsideBar 256 off = false := by simp [outsideBar, show ¬ 0x40280 ≤ off by omega]
  rw [badAccess_aligned s hin hs h, if_neg]
  simp [State.noWindow]

theorem badAccess_window (s : State) {f off : Nat} (hf : f < 256) (hlo : 0x90000 ≤ off) (hhi : off < 0xA0000)
    (h : off % 8 = 0) (hw : s.infB ACCESS.MILEPOST_WINDOW f = false) : s.badAccess f off 8 = some 0x0C := by
  rw [badAccess_aligned s (outsideBar_of_ld hf hhi) (by decide) h, if_pos]
  simp [State.noWindow, hf, hlo, hhi, hw]

/-! ### The command on a function that is up, and on the sideband -/

section Bar
variable {s : State} {f : Func} (up : s.funcUp f = true) (p : Tlp) (off : BitVec 24) (size : BitVec 8) (v : BitVec 64)
include up

theorem exec_barWrite :
    exec (.registerWrite (.bar f p) off size (.write v)) s = .next (s.regWrite f p off.toNat size.toNat v) := by
  change execRegisterWrite (.bar f p) off size (.write v) s = _
  simp [execRegisterWrite, up]

theorem exec_barRead :
    exec (.registerWrite (.bar f p) off size .read) s = .next (s.regRead f p off.toNat size.toNat) := by
  change execRegisterWrite (.bar f p) off size .read s = _
  simp [execRegisterWrite, up]

theorem exec_barMalformed : exec (.registerWrite (.bar f p) off size .malformed) s = .next (s.tlpError f p) := by
  change execRegisterWrite (.bar f p) off size .malformed s = _
  simp [execRegisterWrite, up]

/-- A bad access, write or read, is turned away with its violation. -/
theorem exec_bar_turnAway {code : Nat} (hbad : s.badAccess f off.toNat size.toNat = some code) {op : RegOp}
    (hop : op ∈ [RegOp.write v, .read]) :
    exec (.registerWrite (.bar f p) off size op) s = .next (s.turnAway f code p) := by
  simp only [List.mem_cons, List.not_mem_nil, or_false] at hop
  rcases hop with rfl | rfl
  · rw [exec_barWrite up, State.regWrite, hbad]
  · rw [exec_barRead up, State.regRead, hbad]

/-- A write from a word's first byte acts on that word of a logical device. -/
theorem exec_ldWrite (hf : f.val < 256) (hoff : off.toNat < 0x90000) (h8 : off.toNat % 8 = 0)
    (hs : size.toNat ∈ [1, 2, 4, 8]) :
    exec (.registerWrite (.bar f p) off size (.write v)) s =
      .next (s.ldWord f off.toNat (laneData off.toNat size.toNat v) (laneMask off.toNat size.toNat) p) := by
  rw [exec_barWrite up, State.regWrite, badAccess_ld s hf hoff hs (aligned_of_word hs h8)]
  simp only [h8, Nat.sub_zero, if_neg (show (f : Nat) ≠ 256 by omega)]

/-- A write of a logical device's whole word carries its value. -/
theorem exec_ldWrite_whole (hf : f.val < 256) (hoff : off.toNat < 0x90000) (h8 : off.toNat % 8 = 0) :
    exec (.registerWrite (.bar f p) off 8 (.write v)) s = .next (s.ldWord f off.toNat v (laneMask off.toNat 8) p) := by
  rw [exec_ldWrite up p off 8 v hf hoff h8 (by decide), show (8 : BitVec 8).toNat = 8 from rfl, laneData_whole h8]

/-- A read that no check turns away answers the bytes of its word. -/
theorem exec_barRead_answers (hok : s.badAccess f off.toNat size.toNat = none) {x : BitVec 64}
    (hx : s.barRead f (off.toNat - off.toNat % 8) = some x) :
    exec (.registerWrite (.bar f p) off size .read) s =
      .next (s.send (.regData f (laneBytes x off.toNat size.toNat))) := by
  rw [exec_barRead up, State.regRead, hok]
  simp only [hx]

end Bar

/-- A write from a word's first byte acts on that word of the management endpoint. -/
theorem exec_endpointWrite {s : State} (up : s.funcUp 256 = true) (p : Tlp) (off : BitVec 24) (size : BitVec 8)
    (v : BitVec 64) (hoff : off.toNat < 0x40280) (h8 : off.toNat % 8 = 0) (hs : size.toNat ∈ [1, 2, 4, 8]) :
    exec (.registerWrite (.bar 256 p) off size (.write v)) s =
      .next (s.endpointWord off.toNat (laneData off.toNat size.toNat v) (laneMask off.toNat size.toNat) p) := by
  have hval : ((256 : Func) : Nat) = 256 := rfl
  rw [exec_barWrite (by rwa [hval]), hval, State.regWrite, badAccess_endpoint s hoff hs (aligned_of_word hs h8)]
  simp only [h8, Nat.sub_zero, if_true]

/-- A service message of the BMC, while its path is up and OWNMODE lets it stand. -/
theorem exec_bmc {s : State} (may : s.mayService 1 = true) (off : BitVec 24) (size : BitVec 8) (op : RegOp) :
    exec (.registerWrite .bmc off size op) s = .next (s.saMessage off.toNat size.toNat op) := by
  change execRegisterWrite .bmc off size op s = _
  simp [execRegisterWrite, may]

/-! ### The registers' words (R84, R87, R97, R100, R107) -/

/-- SEND of a logical device's mailbox posts. -/
theorem ldWord_send (s : State) (f : Nat) (m : Fin 4) (w mask : BitVec 64) (p : Tlp) :
    s.ldWord f (0x80000 + 64 * m) w mask p = s.hostPosts f m w p := by
  have hm := m.isLt
  rw [State.ldWord, if_neg (by omega), if_pos (by omega), State.mailOut, if_pos (by omega)]
  congr 1
  omega

/-- ACK of a logical device's mailbox empties it, on any write. -/
theorem ldWord_ack (s : State) (f : Nat) (m : Fin 4) (w mask : BitVec 64) (p : Tlp) :
    s.ldWord f (0x80110 + 64 * m) w mask p = s.hostAcks f m := by
  have hm := m.isLt
  rw [State.ldWord, if_neg (by omega), if_neg (by omega), if_pos (by omega), State.mailIn, if_pos (by omega)]
  congr 1
  omega

/-- The first doorbell word clears TO_HOST bits and sets TO_DEV bits. -/
theorem ldWord_bell (s : State) (f : Nat) (w mask : BitVec 64) (p : Tlp) :
    s.ldWord f 0x81000 w mask p =
      (s.bellClear f (BitVec.ofNat 16 (bitsAt w 16 16))).setToDev f (BitVec.ofNat 16 (bitsAt w 32 16)) := rfl

/-- A ring's doorbell page, register by register. -/
theorem ldWord_ring (s : State) (f : Nat) (r : RingNo) {b : Nat} (hb : b < 0x1000) (w mask : BitVec 64) (p : Tlp) :
    s.ldWord f (0x1000 * r + b) w mask p = s.ringWord f r b w mask := by
  have hr := r.isLt
  rw [State.ldWord, if_pos (by omega), show (0x1000 * (r : Nat) + b) / 0x1000 = r by omega,
    show (0x1000 * (r : Nat) + b) % 0x1000 = b by omega]

/-- CMD_BASE of a ring that is not enabled takes what is written. -/
theorem ringWord_cmdBase {s : State} {f r : Nat} (hdis : (s.ring f r).enable = false) (w mask : BitVec 64) :
    s.ringWord f r 0 w mask = s.setRing f r { s.ring f r with cmdBase := merge (s.ring f r).cmdBase w mask } := by
  simp [State.ringWord, hdis]

/-- A write that covers CMD_TAIL is a write of CMD_TAIL. -/
theorem ringWord_cmdTail (s : State) (f r : Nat) (w mask : BitVec 64) (hcov : covers mask 0 16 = true) :
    s.ringWord f r 0x20 w mask = s.tailWrite f r ((merge ((s.ring f r).cmdTail.setWidth 64) w mask).setWidth 16) := by
  simp [State.ringWord, hcov, ofNat_bitsAt_zero]

/-- The management endpoint's ownership registers act at once, outside a halt; its path carries no answer. -/
theorem ownerOp_endpoint {s : State} (up : s.funcUp 256 = true) (hrun : s.board.halted = false) (g : State → State) :
    s.ownerOp 0 g = g s := by
  simp [State.ownerOp, State.pathUp, State.from_, State.ownerReply, up, hrun]

theorem endpointWord_claim {s : State} (up : s.funcUp 256 = true) (hrun : s.board.halted = false) (w mask : BitVec 64)
    (p : Tlp) (hcov : covers mask 0 32 = true) : s.endpointWord 0 w mask p = s.claimBy 0 (w.setWidth 32) := by
  simp [State.endpointWord, State.ownerWord, ownerOp_endpoint up hrun, hcov, ofNat_bitsAt_zero]

theorem endpointWord_release {s : State} (up : s.funcUp 256 = true) (hrun : s.board.halted = false) (w mask : BitVec 64)
    (p : Tlp) (hbit : w.getLsbD 0 = true) : s.endpointWord 0x18 w mask p = s.releaseBy 0 := by
  simp [State.endpointWord, State.ownerWord, ownerOp_endpoint up hrun, hbit]

/-- That a request shows the BMC's path to be back changes nothing that service access asks. -/
theorem mayService_from (s : State) (c d : Nat) : (s.from_ c).mayService d = s.mayService d := by
  have hback : ∀ (u : State) (e : Nat), (u.ownerBack e).mayService d = u.mayService d := by
    intro u e
    unfold State.ownerBack
    split <;> rfl
  unfold State.from_
  split
  · rw [hback]; rfl
  · rfl

/-- The debug address takes what is written. -/
theorem serviceWord_dbgAddr {s : State} {c : Nat} (may : s.mayService c = true) (w mask : BitVec 64) :
    s.serviceWord c 0x200 w mask =
      { s with svc := { s.svc with dbgAddr := (merge (s.svc.dbgAddr.setWidth 64) w mask).setWidth 46 } } := by
  simp [State.serviceWord, may, ofNat_bitsAt_zero]

theorem saMessage_writes_dbgAddr {s : State} (may : s.mayService 1 = true) (v : BitVec 64) :
    s.saMessage 0x200 8 (.write v) = { s.from_ 1 with svc := { (s.from_ 1).svc with dbgAddr := v.truncate 46 } } := by
  change (s.from_ 1).serviceWord 1 0x200 (laneData 0x200 8 v) (laneMask 0x200 8) = _
  rw [serviceWord_dbgAddr (by rwa [mayService_from]), laneData_whole (by decide), merge_whole (by decide)]

theorem saMessage_reads_dbgAddr (s : State) :
    s.saMessage 0x200 8 .read = (s.from_ 1).send (.answer (leBytes 8 (s.from_ 1).svc.dbgAddr.toNat)) := by
  change (s.from_ 1).send (.answer (laneBytes ((s.from_ 1).svc.dbgAddr.setWidth 64) 0x200 8)) = _
  rw [laneBytes_whole (by decide), BitVec.toNat_setWidth_of_le (by decide)]

/-! ### The statement -/

/-- Settles O43: the checks turn an access away by `exec_bar_turnAway`; every other one reaches its register's word. -/
theorem registerWritesActOrAreTurnedAway : Obligations.RegisterWritesActOrAreTurnedAway := by
  unfold Obligations.RegisterWritesActOrAreTurnedAway
  intro s f p off v up
  refine ⟨?misaligned, ?outside, ?window, ?send, ?ack, ?bell, ?cmdBase, ?cmdTail, ?claim, ?release, ?read, ?malformed,
    ?sideband⟩
  case misaligned =>
    intro size op hop hin hpage hbad
    refine exec_bar_turnAway up p off size v (badAccess_misaligned s hin hpage ?_) hop
    exact hbad.imp_left (toNat_not_mem_sizes size)
  case outside =>
    intro size op hop hout
    exact exec_bar_turnAway up p off size v (badAccess_outside s hout) hop
  case window =>
    intro hf hlo hhi h8 hw op hop
    exact exec_bar_turnAway up p off 8 v (badAccess_window s hf hlo hhi h8 hw) hop
  case send =>
    intro m hf hoff
    rw [exec_ldWrite_whole up p off v hf (by omega) (by omega), hoff, ldWord_send]
  case ack =>
    intro m hf hoff
    rw [exec_ldWrite_whole up p off v hf (by omega) (by omega), hoff, ldWord_ack]
  case bell =>
    intro hf hoff
    rw [exec_ldWrite_whole up p off v hf (by omega) (by omega), hoff, ldWord_bell]
  case cmdBase =>
    intro r hf hoff hdis
    rw [exec_ldWrite_whole up p off v hf (by omega) (by omega), hoff, ← Nat.add_zero (0x1000 * (r : Nat)),
      ldWord_ring s f r (by decide), ringWord_cmdBase hdis, merge_whole (by omega)]
  case cmdTail =>
    intro r hf hoff
    rw [exec_ldWrite up p off 2 v hf (by omega) (by omega) (by decide), show (2 : BitVec 8).toNat = 2 from rfl, hoff,
      ldWord_ring s f r (by decide), ringWord_cmdTail _ _ _ _ _ (covers_laneMask (by omega) (by decide) (by decide)),
      setWidth_merge_lane (by omega) (by decide) (by decide)]
  case claim =>
    rintro rfl rfl hrun
    rw [exec_endpointWrite up p 0 4 v (by decide) (by decide) (by decide),
      show (0 : BitVec 24).toNat = 0 from rfl, show (4 : BitVec 8).toNat = 4 from rfl,
      endpointWord_claim up hrun _ _ _ (covers_laneMask (by decide) (by decide) (by decide)),
      setWidth_laneData (by decide) (by decide) (by decide)]
  case release =>
    rintro rfl rfl hrun hbit
    rw [exec_endpointWrite up p 0x18 8 v (by decide) (by decide) (by decide),
      show (0x18 : BitVec 24).toNat = 0x18 from rfl, show (8 : BitVec 8).toNat = 8 from rfl,
      laneData_whole (by decide), endpointWord_release up hrun _ _ _ hbit]
  case read =>
    intro size hok x hx
    exact exec_barRead_answers up p off size hok hx
  case malformed => exact fun size => exec_barMalformed up p off size
  case sideband =>
    intro may hoff
    rw [exec_bmc may, exec_bmc may, hoff, show (8 : BitVec 8).toNat = 8 from rfl]
    exact ⟨congrArg _ (saMessage_writes_dbgAddr may v), congrArg _ (saMessage_reads_dbgAddr s)⟩

end Sys2Proof.Machine
end

section
/-! PROOFS. The cycle that passes on an empty queue (R10, R141): the mileposts count, the clocks advance, and the rest
of the device stands still (R467, R471, R472; log entry 7). -/
namespace Sys2Proof.Machine

/-! ### Counting a cycle's conditions and fixed events changes only the mileposts -/

theorem CountFrame.time {s u : State} (frame : CountFrame s u) : u.time = s.time := by
  obtain ⟨⟨-, htime, -⟩, -⟩ := frame
  exact htime

/-- Only the mileposts change along a list if each of its entries changes only them. -/
theorem countFrame_foldl {α : Type} (f : State → α → State) (l : List α)
    (h : ∀ x ∈ l, ∀ s, CountFrame s (f s x)) (s : State) : CountFrame s (l.foldl f s) := by
  induction l generalizing s with
  | nil => exact .refl _
  | cons x l ih =>
    have hx : CountFrame s (f s x) := h x List.mem_cons_self s
    exact hx.trans (ih (fun y hy => h y (List.mem_cons_of_mem x hy)) _)

theorem countFrame_condCycle (s : State) (n : Nat) (us : List Nat) (hn : n < 2 ^ 48) :
    CountFrame s (s.condCycle n us) := by
  refine countFrame_foldl _ us (fun u _ s => ?_) s
  split
  · exact .refl _
  · exact countFrame_addOne s n _ hn

theorem countFrame_tickConds (s : State) : CountFrame s s.tickConds := by
  have counted : ∀ x ∈ s.enabledCounters.map (fun n => (n, s.condUnits n)),
      ∀ v : State, CountFrame v (v.condCycle x.1 x.2) := by
    intro x hx v
    obtain ⟨n, hn, rfl⟩ := List.mem_map.mp hx
    exact countFrame_condCycle v n _ (enabledCounters_lt s n hn)
  -- What is kept for the next cycle's edges is a part of the mileposts.
  have kept : ∀ (v : State) (m : Mile), CountFrame v { v with mile := m } :=
    fun v m => ⟨by repeat' constructor, fun _ _ _ _ _ _ => rfl, rfl, rfl⟩
  exact (countFrame_foldl _ _ counted s).trans (kept _ _)

theorem countFrame_tickFixed (s : State) : CountFrame s s.tickFixed := by
  have hcycle : CountFrame s (s.fixed 512) := countFrame_fixed s 512 (by decide)
  have hstalls : ∀ v : State, CountFrame v
      (((List.range 16).filter v.allocStalls).foldl (fun (v : State) _ => v.fixed 522) v) :=
    fun v => countFrame_foldl _ _ (fun _ _ w => countFrame_fixed w 522 (by decide)) v
  refine (hcycle.trans (hstalls _)).trans ?_
  unfold State.tickFixed
  dsimp only
  split
  · exact .refl _
  · exact countFrame_fixed _ 534 (by decide)

/-! ### The cycle -/

theorem tickClock_unpowered {s : State} (h : s.board.power = .unpowered) : s.tickClock = s := by
  simp [State.tickClock, h]

/-- With supplies the clocks advance on a state in which only the mileposts have counted; a device without its FCLK
clock, or in a class 3 halt, counts none. -/
theorem tickClock_powered {s : State} (h : s.board.power ≠ .unpowered) :
    ∃ v, CountFrame s v ∧ s.tickClock = { v with time := s.time.tick } := by
  unfold State.tickClock
  rw [if_neg (by simpa using h)]
  by_cases hcount : (s.time.locked && !s.board.halted) = true
  · have frame : CountFrame s s.tickConds.tickFixed :=
      (countFrame_tickConds s).trans (countFrame_tickFixed _)
    exact ⟨_, frame, by simp only [if_pos hcount, frame.time]⟩
  · exact ⟨s, .refl s, by simp only [if_neg hcount]⟩

theorem step_of_idle {s : State} (h : s.pending = []) : step s = .next s.tickClock := by
  simp only [step, h]

/-! ### The statement -/

/-- Settles O2: without supplies by `tickClock_unpowered`; with them the clocks advance and the rest is the mileposts'
frame. -/
theorem idleStepIsOneFclkCycle : Obligations.IdleStepIsOneFclkCycle := by
  unfold Obligations.IdleStepIsOneFclkCycle
  refine ⟨fun s hidle hoff => ?unpowered, fun s hidle hon => ?powered⟩
  case unpowered => rw [step_of_idle hidle, tickClock_unpowered hoff]
  case powered =>
    obtain ⟨v, ⟨device, tables, soft, regs⟩, hv⟩ := tickClock_powered hon
    obtain ⟨-, -, own, svc, -, links, -, coh, plc, -, -, dram, -⟩ := device
    refine ⟨s.tickClock, step_of_idle hidle, ?_⟩
    rw [hv]
    have aon : s.time.tick.aon = if 39 ≤ s.time.sub then s.time.aon + 1 else s.time.aon := by simp [Time.tick]
    exact ⟨rfl, aon, regs, own, svc, soft, dram, plc, coh, links, tables⟩

end Sys2Proof.Machine
end

section
/-! PROOFS. Frames that the proofs about the package, power-on, bays and power domains share: updates that change only
table words, and what memory units' comings and goings leave alone. -/
namespace Sys2Proof.Machine

/-! ### Updates of table words only -/

/-- The states differ at most in committed table words. -/
def OnlyTables (s u : State) : Prop := u = { s with tab := u.tab }

theorem OnlyTables.refl (s : State) : OnlyTables s s := rfl

theorem OnlyTables.trans {s u v : State} (h : OnlyTables s u) (k : OnlyTables u v) : OnlyTables s v :=
  Eq.trans k (by rw [h])

theorem onlyTables_wr (s : State) (f : Fld) (i v : Nat) : OnlyTables s (s.wr f i v) := rfl

theorem onlyTables_foldl {α : Type} (f : State → α → State) (l : List α) (h : ∀ x ∈ l, ∀ v, OnlyTables v (f v x))
    (s : State) : OnlyTables s (l.foldl f s) :=
  List.foldlRecOn l f (.refl s) (fun _ hv x hx => hv.trans (h x hx _))

/-- An update that is made only where a condition holds. -/
theorem onlyTables_ite {s u : State} (c : Prop) [Decidable c] (h : OnlyTables s u) : OnlyTables s (if c then u else s) := by
  split
  · exact h
  · exact .refl s

theorem onlyTables_endHandling (s : State) (unit : Nat) (codes : List Nat) :
    OnlyTables s (s.endHandling unit codes) :=
  onlyTables_foldl _ _ (fun _ _ v => onlyTables_ite _ (onlyTables_wr v _ _ _)) s

theorem onlyTables_resetReturns (s : State) : OnlyTables s s.resetReturns :=
  onlyTables_foldl _ _ (fun _ _ v => onlyTables_ite _ (onlyTables_wr v _ _ _)) s

/-! ### Fields of other tables -/

/-- A field of another table than the one written reads as before. -/
theorem rd_wr_otherTable (s : State) (f g : Fld) (i j v : Nat) (h : f.lay.tbl ≠ g.lay.tbl)
    (hi : i < 2 ^ 48) (hj : j < 2 ^ 48) (hf : f.word < 256) (hg : g.word < 256) : (s.wr g j v).rd f i = s.rd f i := by
  have hkey : handle f.lay.tbl i f.word ≠ handle g.lay.tbl j g.word := by
    simp only [handle]; omega
  unfold State.rd State.wr
  rw [State.wordAt_setWord, if_neg hkey]

theorem records_lt {s : State} {i : Nat} (h : i ∈ s.records) : i < 256 :=
  List.mem_range.mp (List.mem_of_mem_filter h)

/-- The end of handling changes the fault records only. -/
theorem rd_endHandling (s : State) (unit : Nat) (codes : List Nat) (f : Fld) (i : Nat) (h : f.lay.tbl ≠ 0x0E)
    (hi : i < 2 ^ 48) (hf : f.word < 256) : (s.endHandling unit codes).rd f i = s.rd f i := by
  refine List.foldlRecOn (motive := fun (v : State) => v.rd f i = s.rd f i) s.records _ rfl (fun v hv j hj => ?_)
  have hlt := records_lt hj
  split
  · rw [rd_wr_otherTable v f RECORD.HANDLING i (j + 1) 0 h hi (by omega) hf (by decide), hv]
  · exact hv

/-! ### Fault reports (R416) -/

@[simp] theorem report_board (s : State) (unit code cls detail : Nat) (alarm : Bool) :
    (s.report unit code cls detail alarm).board = s.board := by
  unfold State.report; split <;> rfl

@[simp] theorem report_time (s : State) (unit code cls detail : Nat) (alarm : Bool) :
    (s.report unit code cls detail alarm).time = s.time := by
  unfold State.report; split <;> rfl

@[simp] theorem report_doms (s : State) (unit code cls detail : Nat) (alarm : Bool) :
    (s.report unit code cls detail alarm).aon.doms = s.aon.doms := by
  unfold State.report; split <;> rfl

@[simp] theorem report_rd (s : State) (unit code cls detail : Nat) (alarm : Bool) :
    (s.report unit code cls detail alarm).rd = s.rd := by
  unfold State.report; split <;> rfl

@[simp] theorem report_own (s : State) (unit code cls detail : Nat) (alarm : Bool) :
    (s.report unit code cls detail alarm).own = s.own := by
  unfold State.report; split <;> rfl

@[simp] theorem report_soft (s : State) (unit code cls detail : Nat) (alarm : Bool) :
    (s.report unit code cls detail alarm).soft = s.soft := by
  unfold State.report; split <;> rfl

@[simp] theorem report_svc (s : State) (unit code cls detail : Nat) (alarm : Bool) :
    (s.report unit code cls detail alarm).svc = s.svc := by
  unfold State.report; split <;> rfl

/-- A fault that occurs has a pending report, whether it is the first one of its kind or not. -/
theorem report_pends (s : State) (unit code cls detail : Nat) (alarm : Bool) :
    ∃ r ∈ (s.report unit code cls detail alarm).aon.reports, r.unit = unit ∧ r.code = code := by
  unfold State.report
  split
  case isTrue h =>
    obtain ⟨r, hr, hmatch⟩ := List.any_eq_true.mp h
    have hkind : r.unit = unit ∧ r.code = code := by simpa using hmatch
    exact ⟨_, List.mem_map_of_mem hr, by simp [hkind]⟩
  case isFalse => exact ⟨_, List.mem_append_right _ (List.mem_singleton_self _), rfl, rfl⟩

/-! ### What memory units' changes leave alone (R352, R376, R384) -/

/-- The board, the clocks and what the power domains keep beside their tables are the same. -/
structure UnitFrame (s u : State) : Prop where
  board : u.board = s.board
  time : u.time = s.time
  doms : u.aon.doms = s.aon.doms

theorem UnitFrame.refl (s : State) : UnitFrame s s := ⟨rfl, rfl, rfl⟩

theorem UnitFrame.trans {s u v : State} (h : UnitFrame s u) (k : UnitFrame u v) : UnitFrame s v :=
  ⟨k.board.trans h.board, k.time.trans h.time, k.doms.trans h.doms⟩

theorem OnlyTables.unitFrame {s u : State} (h : OnlyTables s u) : UnitFrame s u := by
  rw [h]; exact ⟨rfl, rfl, rfl⟩

theorem unitFrame_foldl {α : Type} (f : State → α → State) (l : List α) (h : ∀ x ∈ l, ∀ v, UnitFrame v (f v x))
    (s : State) : UnitFrame s (l.foldl f s) :=
  List.foldlRecOn l f (.refl s) (fun _ hv x hx => hv.trans (h x hx _))

theorem unitFrame_report (s : State) (unit code cls detail : Nat) (alarm : Bool) :
    UnitFrame s (s.report unit code cls detail alarm) := ⟨by simp, by simp, by simp⟩

theorem unitFrame_wr (s : State) (f : Fld) (i v : Nat) : UnitFrame s (s.wr f i v) := (onlyTables_wr s f i v).unitFrame

theorem unitFrame_setPool (s : State) (u : Nat) (x : Pool) : UnitFrame s (s.setPool u x) := ⟨rfl, rfl, rfl⟩

theorem unitFrame_setChan (s : State) (u : Nat) (x : Chan) : UnitFrame s (s.setChan u x) := ⟨rfl, rfl, rfl⟩

theorem unitFrame_took (s : State) : UnitFrame s s.took := ⟨rfl, rfl, rfl⟩

/-- A unit's change brings BOOKABLE up to date, and notes a shortfall (R396, R400). -/
theorem unitFrame_rebook (s : State) (u : Nat) : UnitFrame s (s.rebook u) := by
  have changed : ∀ v : State, UnitFrame v { v with traffic := { v.traffic with changed := u } } :=
    fun v => ⟨rfl, rfl, rfl⟩
  have latched : ∀ v : State, UnitFrame v (v.setW1c TOLLDEV.SHORTFALL 0 1) := fun v => ⟨rfl, rfl, rfl⟩
  unfold State.rebook
  dsimp only
  refine (unitFrame_wr s TOLLDEV.BOOKABLE 0 s.bookable).trans ?_
  generalize s.wr TOLLDEV.BOOKABLE 0 s.bookable = v
  split
  · exact .refl v
  · split
    · exact ((changed v).trans (latched _)).trans (unitFrame_report _ _ _ _ _ _)
    · exact changed v

theorem unitFrame_setUnit (s : State) (u st : Nat) : UnitFrame s (s.setUnit u st) := by
  unfold State.setUnit State.redeliver
  exact ((unitFrame_wr s MEMCH.STATE u st).trans (unitFrame_wr _ MEMCH.DELIVERABLE u _)).trans (unitFrame_rebook _ u)

theorem unitFrame_exclude (s : State) (u code detail : Nat) : UnitFrame s (s.exclude u code detail) := by
  unfold State.exclude
  exact (((unitFrame_setPool s u _).trans (unitFrame_setUnit _ u 0)).trans (unitFrame_wr _ POWER.STATE (50 + u) 6)).trans
    (unitFrame_report _ _ _ _ _ _)

theorem unitFrame_describe (s : State) (u width dimms ranks gib speed : Nat) :
    UnitFrame s (s.describe u width dimms ranks gib speed) :=
  (onlyTables_foldl _ _ (fun x _ v => onlyTables_wr v x.1 u x.2) s).unitFrame.trans (unitFrame_setPool _ u _)

theorem unitFrame_applySpd (s : State) (u : Nat) (ds : List Dimm) (inService : Bool) :
    UnitFrame s (s.applySpd u ds inService) := by
  unfold State.applySpd
  dsimp only
  split
  · exact unitFrame_setPool s u _
  · refine (unitFrame_describe s u _ _ _ _ _).trans (unitFrame_foldl _ _ (fun x _ v => ?_) _)
    exact (unitFrame_took v).trans (unitFrame_exclude _ u x.1 _)

theorem unitFrame_train (s : State) (u : Nat) : UnitFrame s (s.train u) := by
  unfold State.train
  split
  · exact ((unitFrame_setChan s u _).trans (unitFrame_setUnit _ u 1)).trans (unitFrame_wr _ POWER.STATE (50 + u) 0)
  · exact (unitFrame_setUnit s u 0).trans (unitFrame_wr _ POWER.STATE (50 + u) 6)

/-- A fall of BOOKABLE writes fields of TOLL only. -/
theorem rd_rebook (s : State) (u : Nat) (f : Fld) (i : Nat) (h : f.lay.tbl ≠ 0x06) (hi : i < 2 ^ 48)
    (hf : f.word < 256) : (s.rebook u).rd f i = s.rd f i := by
  have bookable : (s.wr TOLLDEV.BOOKABLE 0 s.bookable).rd f i = s.rd f i :=
    rd_wr_otherTable s f _ i 0 _ h hi (by decide) hf (by decide)
  have shortfall : ∀ v : State, (v.setW1c TOLLDEV.SHORTFALL 0 1).rd f i = v.rd f i :=
    fun v => rd_wr_otherTable v f TOLLDEV.SHORTFALL i 0 1 h hi (by decide) hf (by decide)
  unfold State.rebook
  dsimp only
  split
  · exact bookable
  · split
    · rw [report_rd, shortfall]; exact bookable
    · exact bookable

/-- A unit's state changes fields of MEMCH and TOLL only. -/
theorem rd_setUnit (s : State) (u st : Nat) (f : Fld) (i : Nat) (hm : f.lay.tbl ≠ 0x0B) (ht : f.lay.tbl ≠ 0x06)
    (hi : i < 2 ^ 48) (hu : u < 2 ^ 48) (hf : f.word < 256) : (s.setUnit u st).rd f i = s.rd f i := by
  unfold State.setUnit State.redeliver
  rw [rd_rebook _ u f i ht hi hf, rd_wr_otherTable _ f MEMCH.DELIVERABLE i u _ hm hi hu hf (by decide),
    rd_wr_otherTable s f MEMCH.STATE i u st hm hi hu hf (by decide)]

end Sys2Proof.Machine
end

section
/-! PROOFS. The bay state machine (R46, R450-R456, R487). -/
namespace Sys2Proof.Machine

/-! ### Fields of a bay's entry -/

theorem bayNo_lt (b : BayNo) : (b : Nat) < 2 ^ 48 := by omega

theorem rd_bayState_wr (s : State) (b : Nat) {v : Nat} (h : v < 16) : (s.wr BAY.STATE b v).rd BAY.STATE b = v := by
  rw [State.rd_wr_self _ _ _ _ (by decide)]
  exact Nat.mod_eq_of_lt h

/-- The insertion's end leaves everything but table words alone (R427). -/
theorem onlyTables_insertionDone (s : State) (b : Nat) : OnlyTables s (s.insertionDone b) := by
  unfold State.insertionDone
  split
  · exact (onlyTables_endHandling s _ _).trans (onlyTables_foldl _ _ (fun u _ v => onlyTables_endHandling v _ _) _)
  · exact .refl s

/-- The insertion's end changes the fault records only (R427). -/
theorem rd_insertionDone (s : State) (b : Nat) (f : Fld) (i : Nat) (h : f.lay.tbl ≠ 0x0E) (hi : i < 2 ^ 48)
    (hf : f.word < 256) : (s.insertionDone b).rd f i = s.rd f i := by
  unfold State.insertionDone
  split
  · refine List.foldlRecOn (motive := fun (v : State) => v.rd f i = s.rd f i) _ _ ?_ (fun v hv u _ => ?_)
    · exact rd_endHandling s _ _ f i h hi hf
    · exact (rd_endHandling v _ _ f i h hi hf).trans hv
  · rfl

/-! ### Trips (R452) -/

/-- A measurement of the current does not move the limit. -/
theorem bayLimit_current (s : State) (b : BayNo) (i : BitVec 16) : (s.current b i).bayLimit b = s.bayLimit b := by
  have limit : ∀ (v : State) (g : Fld) (x : Nat), g.fits = true → BAY.LIMIT.apart g = true → g.word < 256 →
      (v.wr g b x).bayLimit b = v.bayLimit b := by
    intro v g x hfit hapart hword
    unfold State.bayLimit
    rw [State.wr_board, State.inf_wr_apart v _ g b b x hfit hapart (bayNo_lt b) (bayNo_lt b) (by decide) hword]
  have measured := limit s BAY.CURRENT i.toNat (by decide) (by decide) (by decide)
  unfold State.current
  dsimp only
  split
  · rw [limit _ BAY.PEAK i.toNat (by decide) (by decide) (by decide), measured]
  · exact measured

/-- A bay's fault is pending in the collector, also when it is noted for power-on's report. -/
theorem bayFault_pends (s : State) (b code detail : Nat) :
    ∃ r ∈ (s.bayFault b code detail).aon.reports, r.unit = uid 9 b ∧ r.code = code := by
  have pends := report_pends s (uid 9 b) code 2 detail false
  unfold State.bayFault
  dsimp only
  split
  · exact pends
  · exact pends

theorem tripBay_reports (s : State) (b cause code detail : Nat) :
    ∃ r ∈ (s.tripBay b cause code detail).aon.reports, r.unit = uid 9 b ∧ r.code = code :=
  bayFault_pends (s.forceOff b 9 false) b code detail

theorem tripBay_latch (s : State) (b : BayNo) (cause code detail : Nat) :
    (s.tripBay b cause code detail).rd BAY.LATCH b = 1 := by
  have hb := bayNo_lt b
  unfold State.tripBay State.incSat
  dsimp only
  rw [State.rd_wr_apart _ _ BAY.TRIPS _ _ _ (by decide) (by decide) hb hb (by decide) (by decide),
    State.rd_wr_apart _ _ BAY.TRIP _ _ _ (by decide) (by decide) hb hb (by decide) (by decide),
    State.rd_wr_self _ _ _ _ (by decide)]
  rfl

theorem tripBay_cause (s : State) (b : BayNo) {cause : Nat} (h : cause < 4) (code detail : Nat) :
    (s.tripBay b cause code detail).rd BAY.TRIP b = cause := by
  have hb := bayNo_lt b
  unfold State.tripBay State.incSat
  dsimp only
  rw [State.rd_wr_apart _ _ BAY.TRIPS _ _ _ (by decide) (by decide) hb hb (by decide) (by decide),
    State.rd_wr_self _ _ _ _ (by decide)]
  exact Nat.mod_eq_of_lt h

/-! ### A gate that is fully driven (R450) -/

/-- What a fully driven gate makes of a bay, before its channels' SPD is read (R450). -/
def gateOn (s : State) (b : Nat) (mv : BitVec 16) : State :=
  let a := ((s.wr BAY.BAYVS_MV b mv.toNat).wr BAY.STATE b 6).insertionDone b
  { a with board := { a.board with baypg := bayBit a.board.baypg b true, baypre := bayBit a.board.baypre b false }
           aon := { a.aon with inserting := bayBit a.aon.inserting b false } }

/-- The bay is ON, with its balls as R450 has them; nothing else of the board and no page changes. -/
theorem gateOn_spec (s : State) (b : BayNo) (mv : BitVec 16) :
    (gateOn s b mv).rd BAY.STATE b = 6 ∧
    (gateOn s b mv).board = { s.board with baypg := bayBit s.board.baypg b true, baypre := bayBit s.board.baypre b false } ∧
    (gateOn s b mv).plc = s.plc := by
  have frame := onlyTables_insertionDone ((s.wr BAY.BAYVS_MV b mv.toNat).wr BAY.STATE b 6) b
  refine ⟨?_, ?_, ?_⟩
  · exact (rd_insertionDone _ b BAY.STATE b (by decide) (bayNo_lt b) (by decide)).trans (rd_bayState_wr _ b (by decide))
  · unfold gateOn
    rw [frame]
    rfl
  · unfold gateOn
    rw [frame]
    rfl

/-! ### The commands of the bay supervisor, once AON has its clock -/

section Supplied
variable {s : State} (powered : s.supplied = true) (b : BayNo)
include powered

theorem exec_bayPresenceValid_empty (h : s.rd BAY.STATE b = 0) :
    exec (.bayPresenceValid b) s =
      .next (({ s with aon := { s.aon with present := bayBit s.aon.present b true } }).wr BAY.STATE b 1) := by
  change execBayPresenceValid b s = _
  have empty : ({ s with aon := { s.aon with present := bayBit s.aon.present b true } } : State).rd BAY.STATE b = 0 := h
  simp only [execBayPresenceValid, powered, Bool.not_true, Bool.false_eq_true, if_false, if_pos empty]

theorem exec_bayPresenceLost :
    exec (.bayPresenceLost b) s =
      .next (if s.bayPowered b
        then ({ s with aon := { s.aon with present := bayBit s.aon.present b false } }).forceOff b 0 true
        else ({ s with aon := { s.aon with present := bayBit s.aon.present b false } }).wr BAY.STATE b 0) := by
  change execBayPresenceLost b s = _
  simp only [execBayPresenceLost, powered, Bool.not_true, Bool.false_eq_true, if_false]
  rfl

/-- HOLDOFF_EXPIRY of a bay in HOLDOFF, by LATCH, ENABLE and the power-on step (R450, R63). -/
theorem exec_holdoffExpiry (mv : BitVec 16) (h : s.rd BAY.STATE b = 2) {a : State} (ha : a = s.wr BAY.BAYVIN_MV b mv.toNat) :
    exec (.holdoffExpiry b mv) s =
      .next (if a.rdB BAY.LATCH b then a.wr BAY.STATE b 9
        else if !a.infB BAY.ENABLE b then a.wr BAY.STATE b 3
        else if s.board.step < 10 then a
        else a.startBay b true) := by
  subst ha
  change execHoldoffExpiry b mv s = _
  simp only [execHoldoffExpiry, powered, h, Bool.not_true, bne_self_eq_false, Bool.or_self, Bool.false_eq_true, if_false]
  rfl

/-- PRECHARGE_COMPLETE of a bay in PRECHARGE at 90 % of its input (R450). -/
theorem exec_prechargeComplete (mv : BitVec 16) (h : s.rd BAY.STATE b = 4)
    (hmv : 9 * s.rd BAY.BAYVIN_MV b ≤ 10 * mv.toNat) :
    exec (.prechargeComplete b mv) s =
      .next (let a := (s.wr BAY.BAYVS_MV b mv.toNat).wr BAY.STATE b 5
        { a with board := { a.board with baygate := bayBit a.board.baygate b true } }) := by
  change execPrechargeComplete b mv s = _
  simp only [execPrechargeComplete, powered, h, hmv, beq_self_eq_true, decide_true, Bool.and_self, if_true]

theorem exec_gateFullyOn (mv : BitVec 16) (ds : List Dimm) (h : s.rd BAY.STATE b = 5) :
    exec (.gateFullyOn b mv ds) s =
      .next (if s.board.step < 6 ∨ s.board.halted = true then gateOn s b mv
        else (bayUnits b).foldl (fun x u => (x.applySpd u ds true).train u) (gateOn s b mv)) := by
  obtain ⟨-, hboard, -⟩ := gateOn_spec s b mv
  have hstep : (gateOn s b mv).board.step = s.board.step := by rw [hboard]
  have hhalt : (gateOn s b mv).board.halted = s.board.halted := by rw [hboard]
  rw [← hstep, ← hhalt]
  change execGateFullyOn b mv ds s = _
  simp only [execGateFullyOn, powered, h, beq_self_eq_true, Bool.and_self, if_true]
  rfl

/-- DEBOUNCE_EXPIRY once step 6 has applied the boot record (R63). -/
theorem exec_debounceExpiry (h6 : 6 ≤ s.board.step) (h : s.rd BAY.STATE b = 1) :
    exec (.debounceExpiry b) s = .next (s.wr BAY.STATE b 2) := by
  change execDebounceExpiry b s = _
  simp only [execDebounceExpiry, powered, h6, h, decide_true, beq_self_eq_true, Bool.and_self, if_true]

theorem exec_prechargeTimeout (mv : BitVec 16) (h : s.rd BAY.STATE b = 4) :
    exec (.prechargeTimeout b mv) s = .next ((s.wr BAY.BAYVS_MV b mv.toNat).tripBay b 3 0x26 mv.toNat) := by
  change execPrechargeTimeout b mv s = _
  simp only [execPrechargeTimeout, powered, h, beq_self_eq_true, Bool.and_self, if_true]

theorem exec_rampTimeout (mv : BitVec 16) (h : s.rd BAY.STATE b = 5) :
    exec (.rampTimeout b mv) s = .next ((s.wr BAY.BAYVS_MV b mv.toNat).tripBay b 3 0x26 mv.toNat) := by
  change execRampTimeout b mv s = _
  simp only [execRampTimeout, powered, h, beq_self_eq_true, Bool.and_self, if_true]

/-- FAST_TRIP of a powered bay (R452). -/
theorem exec_fastTrip (i : BitVec 16) (h : s.bayPowered b = true) :
    exec (.fastTrip b i) s = .next (if 2 * s.bayLimit b ≤ i.toNat then (s.current b i).tripBay b 1 0x24 i.toNat
      else s.current b i) := by
  change execFastTrip b i s = _
  simp only [execFastTrip, powered, h, bayLimit_current, Bool.and_self, if_true]

/-- SLOW_TRIP of a powered bay (R452). -/
theorem exec_slowTrip (i : BitVec 16) (h : s.bayPowered b = true) :
    exec (.slowTrip b i) s = .next (if s.bayLimit b < i.toNat then (s.current b i).tripBay b 2 0x25 i.toNat
      else s.current b i) := by
  change execSlowTrip b i s = _
  simp only [execSlowTrip, powered, h, bayLimit_current, Bool.and_self, if_true]

theorem exec_vbaydrvLoss (mv : BitVec 16) {a : State}
    (ha : a = { s with board := { s.board with vbaydrvLow := true, vbaydrvMv := mv.toNat } }) :
    exec (.vbaydrvLoss mv) s = .next ((List.range 12).foldl (fun (x : State) c =>
      if x.bayPowered c then (x.forceOff c 3 false).bayFault c 0x27 mv.toNat else x) a) := by
  subst ha
  change execVbaydrvLoss mv s = _
  simp only [execVbaydrvLoss, powered, Bool.not_true, Bool.false_eq_true, if_false]

theorem exec_vbaydrvPassesAgain :
    exec .vbaydrvPassesAgain s = .next { s with board := { s.board with vbaydrvLow := false } } := by
  change execVbaydrvPassesAgain s = _
  simp only [execVbaydrvPassesAgain, powered, if_true]

theorem exec_bayvinExcursion (mv : BitVec 16) (h : bayvinOk mv.toNat = false) {a : State}
    (ha : a = s.wr BAY.BAYVIN_MV b mv.toNat) :
    exec (.bayvinExcursion b mv) s =
      .next (if a.bayPowered b then (a.forceOff b 3 false).bayFault b 0x34 mv.toNat else a) := by
  subst ha
  change execBayvinExcursion b mv s = _
  simp only [execBayvinExcursion, powered, h, Bool.not_false, Bool.and_self, if_true]

end Supplied

/-! ### The commands that ask for more than supplies -/

/-- BAY_TURN at step 3 (R61). -/
theorem exec_bayTurn {s : State} {b : BayNo} (mv : BitVec 16) (hlive : s.live = true) (hhold : s.board.hold = .none)
    (hstep : s.board.step = 2) (hturn : s.board.turn ≤ b.val) (h : s.rd BAY.STATE b = 1)
    (hidle : ∀ c < 12, s.rd BAY.STATE c ≠ 4 ∧ s.rd BAY.STATE c ≠ 5) :
    exec (.bayTurn b mv) s = .next ((({ s with board := { s.board with turn := b.val + 1 } }).wr BAY.BAYVIN_MV b
      mv.toNat).startBay b false) := by
  have hnone : (List.range 12).any (fun c => s.rd BAY.STATE c == 4 || s.rd BAY.STATE c == 5) = false := by
    simpa [List.any_eq_false] using hidle
  change execBayTurn b mv s = _
  simp only [execBayTurn, hlive, hhold, hstep, hturn, h, hnone, beq_self_eq_true, decide_true, Bool.not_false,
    Bool.and_self, if_true]

/-- BAY_POWER_DOWN of a drained bay (R454). -/
theorem exec_bayPowerDown {s : State} {b : BayNo} (hlive : s.live = true) (h : s.rd BAY.STATE b = 7)
    (hdrained : s.bayDrained b = true) :
    exec (.bayPowerDown b) s = .next (((s.gatesLow b).wr BAY.STATE b 8).bayUnitsGone b).1 := by
  change execBayPowerDown b s = _
  simp only [execBayPowerDown, hlive, h, hdrained, beq_self_eq_true, Bool.and_self, if_true]

/-! ### The loss of VBAYDRV with no bay powered -/

theorem vbaydrv_fold_idle (mv : Nat) (a : State) (h : ∀ c < 12, a.bayPowered c = false) :
    (List.range 12).foldl (fun (x : State) c =>
      if x.bayPowered c then (x.forceOff c 3 false).bayFault c 0x27 mv else x) a = a := by
  refine List.foldlRecOn (motive := fun x => x = a) (List.range 12) _ rfl (fun x hx c hc => ?_)
  have hoff : x.bayPowered c = false := by rw [hx]; exact h c (List.mem_range.mp hc)
  rw [if_neg (by simp [hoff]), hx]

/-! ### Other bays (R450) -/

/-- A field of another bay's entry. -/
theorem rd_wr_otherBay (s : State) (f g : Fld) {b c : BayNo} (h : c ≠ b) (v : Nat) (hf : f.word < 256) (hg : g.word < 256) :
    (s.wr g b v).rd f c = s.rd f c :=
  State.rd_wr_entry s f g c b v (fun e => h (Fin.ext e)) (bayNo_lt c) (bayNo_lt b) hf hg

theorem bayPresenceValid_otherBay (s : State) {b c : BayNo} (h : c ≠ b) :
    ∃ u, exec (.bayPresenceValid b) s = .next u ∧ u.rd BAY.STATE c = s.rd BAY.STATE c := by
  refine ⟨_, rfl, ?_⟩
  split
  · rfl
  · dsimp only
    split
    · exact rd_wr_otherBay _ BAY.STATE BAY.STATE h 1 (by decide) (by decide)
    · rfl

theorem debounceExpiry_otherBay (s : State) {b c : BayNo} (h : c ≠ b) :
    ∃ u, exec (.debounceExpiry b) s = .next u ∧ u.rd BAY.STATE c = s.rd BAY.STATE c := by
  refine ⟨_, rfl, ?_⟩
  split
  · exact rd_wr_otherBay s BAY.STATE BAY.STATE h 2 (by decide) (by decide)
  · rfl

theorem prechargeComplete_otherBay (s : State) {b c : BayNo} (h : c ≠ b) (mv : BitVec 16) :
    ∃ u, exec (.prechargeComplete b mv) s = .next u ∧ u.rd BAY.STATE c = s.rd BAY.STATE c := by
  refine ⟨_, rfl, ?_⟩
  split
  · exact (rd_wr_otherBay _ BAY.STATE BAY.STATE h 5 (by decide) (by decide)).trans
      (rd_wr_otherBay s BAY.STATE BAY.BAYVS_MV h mv.toNat (by decide) (by decide))
  · rfl

/-! ### The statement -/

/-- Settles O59: each clause is its command's equation above; a trip by the fields and the report it leaves. -/
theorem baysPowerUpTripAndPowerDown : Obligations.BaysPowerUpTripAndPowerDown := by
  unfold Obligations.BaysPowerUpTripAndPowerDown
  intro s b powered
  refine ⟨exec_bayPresenceValid_empty powered b, ?lostOff, ?lostOn, exec_debounceExpiry powered b, ?holdoff,
    fun mv => exec_bayTurn mv, ?precharged,
    fun mv => ⟨exec_prechargeTimeout powered b mv, exec_rampTimeout powered b mv⟩, ?gateEarly, ?gateInService, ?currents, ?trip,
    ?vbaydrv, exec_vbaydrvPassesAgain powered, fun mv hmv a => exec_bayvinExcursion powered b mv hmv, ?stores,
    exec_bayPowerDown, ?otherBays⟩
  case lostOff => intro hoff; rw [exec_bayPresenceLost powered, if_neg (by simp [hoff])]
  case lostOn => intro hon; rw [exec_bayPresenceLost powered, if_pos hon]
  case holdoff =>
    intro mv h a ha
    rw [exec_holdoffExpiry powered b mv h ha]
    refine ⟨fun hlatch => ?_, fun hlatch hen => ?_, fun hlatch hen h10 => ?_, fun hlatch hen h10 => ?_⟩
    · simp [hlatch]
    · simp [hlatch, hen]
    · simp [hlatch, hen, Nat.not_lt.mpr h10]
    · simp [hlatch, hen, h10]
  case precharged =>
    intro mv h hmv
    exact ⟨_, exec_prechargeComplete powered b mv h hmv, rd_bayState_wr _ b (by decide), rfl, rfl⟩
  case gateEarly =>
    intro mv ds h h6
    obtain ⟨hstate, hboard, hplc⟩ := gateOn_spec s b mv
    refine ⟨gateOn s b mv, ?_, hstate, by rw [hboard], by rw [hboard], hplc⟩
    rw [exec_gateFullyOn powered b mv ds h, if_pos (.inl h6)]
  case gateInService =>
    intro mv ds h h6 hrun
    obtain ⟨hstate, hboard, -⟩ := gateOn_spec s b mv
    refine ⟨gateOn s b mv, ?_, hstate, by rw [hboard], by rw [hboard]⟩
    rw [exec_gateFullyOn powered b mv ds h, if_neg (by simp [hrun, Nat.not_lt.mpr h6])]
  case currents =>
    intro i hon
    refine ⟨fun htwice => ?_, fun hbelow => ?_, fun habove => ?_⟩
    · rw [exec_fastTrip powered b i hon, if_pos htwice]
    · rw [exec_fastTrip powered b i hon, if_neg (Nat.not_le.mpr hbelow)]
    · rw [exec_slowTrip powered b i hon, if_pos habove]
  case trip =>
    intro cause code detail hcause
    exact ⟨tripBay_latch s b cause code detail, tripBay_cause s b hcause code detail, tripBay_reports s b cause code detail⟩
  case vbaydrv =>
    intro mv a ha
    refine ⟨exec_vbaydrvLoss powered mv ha, fun hoff => ?_⟩
    rw [exec_vbaydrvLoss powered mv ha, vbaydrv_fold_idle]
    subst ha
    exact hoff
  case stores =>
    exact fun w t d issues => ⟨submits_of issues rfl rfl, submits_of issues rfl rfl⟩
  case otherBays =>
    intro c mv hne i hi
    simp only [List.mem_cons, List.not_mem_nil, or_false] at hi
    rcases hi with rfl | rfl | rfl
    · exact bayPresenceValid_otherBay s hne
    · exact debounceExpiry_otherBay s hne
    · exact prechargeComplete_otherBay s hne mv

end Sys2Proof.Machine
end

section
/-! PROOFS. Which commands stop the model (R51), and what reset leaves (R3, R42, R86, R87, R97, R100, R104, R112, R248,
R302). -/
namespace Sys2Proof.Machine

/-! ### The test access port is the only command that can stop (R51) -/

theorem exec_tap_inReset (ins : TapIns) (s : State) : exec (.testAccessPortInstruction ⟨ins, true⟩) s = .next s := rfl

/-- TRST_N low or high, boundary scan reaches no state of the device. -/
theorem exec_tap_boundaryScan (low : Bool) (s : State) :
    exec (.testAccessPortInstruction ⟨.boundaryScan, low⟩) s = .next s := by
  cases low <;> rfl

theorem exec_tap_bypass (low : Bool) (s : State) : exec (.testAccessPortInstruction ⟨.bypass, low⟩) s = .next s := by
  cases low <;> rfl

/-- With TRST_N high another instruction stops the model exactly where service access is OPEN. -/
theorem exec_tap_other (code : BitVec 8) (s : State) :
    exec (.testAccessPortInstruction ⟨.other code, false⟩) s =
      if s.svc.st = 1 then .fault (.testPortUndescribed code) else .next s := rfl

/-- Every other command's meaning ends in a next state. -/
theorem exec_next (c : Instr) (s : State) (h : ∀ code, c ≠ .testAccessPortInstruction ⟨.other code, false⟩) :
    ∃ u, exec c s = .next u := by
  cases c with
  | testAccessPortInstruction p =>
    match p with
    | ⟨ins, true⟩ => exact ⟨s, exec_tap_inReset ins s⟩
    | ⟨.boundaryScan, false⟩ => exact ⟨s, exec_tap_boundaryScan false s⟩
    | ⟨.bypass, false⟩ => exact ⟨s, exec_tap_bypass false s⟩
    | ⟨.other code, false⟩ => exact absurd rfl (h code)
  | _ => exact ⟨_, rfl⟩

/-- Settles O3: `exec_next`, and the test access port's equations. -/
theorem onlyTestPortStops : Obligations.OnlyTestPortStops := by
  unfold Obligations.OnlyTestPortStops
  refine ⟨exec_next, exec_tap_inReset, fun code s locked => ?_, fun code s opened => ?_, exec_tap_boundaryScan, exec_tap_bypass⟩
  · rw [exec_tap_other, if_neg locked]
  · rw [exec_tap_other, if_pos opened]

/-! ### Table words at reset (R3, R4) -/

theorem resetWord_handle (tbl : Nat) {idx word : Nat} (hi : idx < 2 ^ 48) (hw : word < 256) :
    resetWord (handle tbl idx word) =
      BitVec.ofNat 64 (((fieldsOf tbl idx).filter (fun f => f.word == word)).foldl
        (fun acc f => acc + rstOf f idx % 2 ^ f.w * 2 ^ f.bit) 0) := by
  have htbl : handle tbl idx word / 2 ^ 56 = tbl := by simp only [handle]; omega
  have hidx : handle tbl idx word / 2 ^ 8 % 2 ^ 48 = idx := by simp only [handle]; omega
  have hword : handle tbl idx word % 2 ^ 8 = word := by simp only [handle]; omega
  rw [resetWord, htbl, hidx, hword]

/-- Entries with the same fields and the same reset values of them hold the same words. -/
theorem resetWord_congr (tbl : Nat) {i j word : Nat} (hi : i < 2 ^ 48) (hj : j < 2 ^ 48) (hw : word < 256)
    (fields : fieldsOf tbl i = fieldsOf tbl j) (values : ∀ f ∈ fieldsOf tbl j, rstOf f i = rstOf f j) :
    resetWord (handle tbl i word) = resetWord (handle tbl j word) := by
  rw [resetWord_handle tbl hi hw, resetWord_handle tbl hj hw, fields]
  congr 1
  refine List.foldl_ext _ _ _ (fun acc f hf => ?_)
  rw [values f (List.mem_of_mem_filter hf)]

theorem reset_rd_congr (f : Fld) {i j : Nat} (hi : i < 2 ^ 48) (hj : j < 2 ^ 48) (hw : f.word < 256)
    (fields : fieldsOf f.lay.tbl i = fieldsOf f.lay.tbl j)
    (values : ∀ g ∈ fieldsOf f.lay.tbl j, rstOf g i = rstOf g j) :
    State.reset.rd f i = State.reset.rd f j :=
  congrArg f.get (resetWord_congr f.lay.tbl hi hj hw fields values)

/-- The fields whose reset value the spec gives by index. -/
def indexedFields : List Fld :=
  [KEYMAP.VALID, KEYSLOT.INSTALLED, KEYSLOT.MAPS, TOLL.CAP, RB.WEIGHT, RBOWN.CAP, MILEPOST.ENABLE, THERMAL.ENABLE,
    THERMAL.THROTTLE_C, THERMAL.SHUTDOWN_C, THERMAL.TRIP_C, POWER.POLICY, POWER.DEEP_EN, POWER.IDLE1, POWER.IDLE2]

theorem rstOf_of_not_indexed {f : Fld} (h : f ∉ indexedFields) (i : Nat) : rstOf f i = f.rst := by
  simp only [indexedFields, List.mem_cons, List.not_mem_nil, or_false, not_or] at h
  simp [rstOf, h]

/-- Every head's PORT entry is at reset what head 0's is. -/
theorem reset_rd_port (f : Fld) (h : HeadNo) (hf : f.lay.tbl = 0x01) (hw : f.word < 256) :
    State.reset.rd f h = State.reset.rd f 0 := by
  refine reset_rd_congr f (by omega) (by decide) hw (by rw [hf]; rfl) (fun g hg => ?_)
  have plain : ∀ g ∈ Lay.portFields, g ∉ indexedFields := by decide
  rw [hf] at hg
  rw [rstOf_of_not_indexed (plain g hg), rstOf_of_not_indexed (plain g hg)]

/-- Every programmable counter's entry is at reset what counter 0's is. -/
theorem reset_rd_counter (f : Fld) (n : Fin 512) (hf : f.lay.tbl = 0x0F) (hw : f.word < 256) :
    State.reset.rd f n = State.reset.rd f 0 := by
  have entry : ∀ i < 512, fieldsOf 0x0F i = Lay.milepostFields := fun i hi => if_neg (by omega)
  have plain : ∀ g ∈ Lay.milepostFields, g ≠ MILEPOST.ENABLE → g ∉ indexedFields := by decide
  have disabled : ∀ i < 512, rstOf MILEPOST.ENABLE i = 0 := by
    intro i hi
    have hlow : ¬ 512 ≤ i := by omega
    simp [rstOf, hlow, MILEPOST.ENABLE, KEYMAP.VALID, KEYSLOT.INSTALLED, KEYSLOT.MAPS, TOLL.CAP, RB.WEIGHT, RBOWN.CAP]
  refine reset_rd_congr f (by omega) (by decide) hw ?_ (fun g hg => ?_)
  · rw [hf, entry n n.isLt, entry 0 (by decide)]
  · rw [hf, entry 0 (by decide)] at hg
    by_cases hg' : g = MILEPOST.ENABLE
    · rw [hg', disabled n n.isLt, disabled 0 (by decide)]
    · rw [rstOf_of_not_indexed (plain g hg hg'), rstOf_of_not_indexed (plain g hg hg')]

theorem reset_phase : State.reset.phase = 0 := by decide

theorem reset_g (w : WfNo) (t : ThrNo) (r : Reg) : State.reset.g w t r = 0 := by
  unfold State.g
  split <;> rfl

/-- Settles O18: the maps list nothing, and the table words are those of `resetWord`. -/
theorem resetValues : Obligations.ResetValues := by
  unfold Obligations.ResetValues
  refine ⟨rfl, rfl, rfl, rfl, rfl, rfl, rfl, rfl, reset_g, fun w t => ⟨rfl, rfl, rfl⟩, fun ld r => ⟨rfl, rfl, rfl, rfl⟩,
    fun f m d => ⟨rfl, rfl, rfl⟩, fun f => ⟨rfl, rfl, rfl⟩, fun p => ⟨rfl, rfl⟩, fun c => rfl, rfl, rfl, rfl, rfl,
    reset_phase, ?lapse, ?lastStep, ?failedStep, ?halted, ?heads, rfl, ?counters⟩
  case lapse => decide
  case lastStep => decide
  case failedStep => decide
  case halted => decide
  case heads =>
    intro h
    rw [reset_rd_port PORT.ISOLATED h (by decide) (by decide), reset_rd_port PORT.LINK_RATE h (by decide) (by decide)]
    exact ⟨rfl, by decide, by decide⟩
  case counters =>
    intro n
    rw [reset_rd_counter MILEPOST.VALUE n (by decide) (by decide), reset_rd_counter MILEPOST.ENABLE n (by decide) (by decide)]
    exact ⟨by decide, by decide⟩

end Sys2Proof.Machine
end

section
/-! PROOFS. The power pins, the straps, and steps 3 to 6 of power-on (R42, R49, R50, R55, R56, R64, R65, R72, R73, R425). -/
namespace Sys2Proof.Machine

/-! ### The records of power-on's progress (R55, R56) -/

theorem onlyTables_stepFailed (s : State) (n : Nat) : OnlyTables s (s.stepFailed n) := by
  unfold State.stepFailed
  exact onlyTables_ite _ (onlyTables_wr s _ _ _)

theorem stepDone_board (s : State) (n : Nat) : (s.stepDone n).board = { s.board with step := n } := rfl

theorem stepDone_lastStep (s : State) {n : Nat} (h : n < 256) : (s.stepDone n).rd PHASE.LAST_STEP 0 = n := by
  unfold State.stepDone
  rw [State.rd_wr_self _ _ _ _ (by decide)]
  exact Nat.mod_eq_of_lt h

theorem stepDone_failedStep (s : State) (n : Nat) : (s.stepDone n).rd PHASE.FAILED_STEP 0 = s.rd PHASE.FAILED_STEP 0 :=
  State.rd_wr_apart _ _ PHASE.LAST_STEP _ _ _ (by decide) (by decide) (by decide) (by decide) (by decide) (by decide)

theorem stepFailed_lastStep (s : State) (n : Nat) : (s.stepFailed n).rd PHASE.LAST_STEP 0 = s.rd PHASE.LAST_STEP 0 := by
  unfold State.stepFailed
  split
  · exact State.rd_wr_apart _ _ PHASE.FAILED_STEP _ _ _ (by decide) (by decide) (by decide) (by decide) (by decide) (by decide)
  · rfl

/-- The first step that fails is recorded. -/
theorem stepFailed_first (s : State) {n : Nat} (h : n < 256) (h0 : s.rd PHASE.FAILED_STEP 0 = 0) :
    (s.stepFailed n).rd PHASE.FAILED_STEP 0 = n := by
  unfold State.stepFailed
  rw [if_pos h0, State.rd_wr_self _ _ _ _ (by decide)]
  exact Nat.mod_eq_of_lt h

/-! ### PWRGOOD and SYSRST_N (R42) -/

/-- SYSRST_N low keeps of the state what the AON units keep: all else is at reset but for table words. -/
theorem deviceReset_frame (s : State) : ∃ v, OnlyTables v s.deviceReset ∧ v.board.power = .aonOnly ∧
    v.own = State.reset.own ∧ v.regs = [] ∧ v.dram = State.reset.dram ∧ v.plc = State.reset.plc ∧
    v.svc.fails = s.svc.fails ∧ v.pending = s.pending := by
  unfold State.deviceReset
  dsimp only
  refine ⟨_, ((onlyTables_foldl _ _ (fun i _ v => ?maxima) _).trans (onlyTables_foldl _ _ (fun b _ v => ?bays) _)).trans
    (onlyTables_resetReturns _), rfl, rfl, rfl, rfl, rfl, ?fails, rfl⟩
  case maxima => split <;> exact onlyTables_wr v _ _ _
  case bays => exact onlyTables_ite _ (onlyTables_wr v _ _ _)
  case fails => dsimp only; split <;> rfl

theorem deviceReset_spec (s : State) : s.deviceReset.board.power = .aonOnly ∧ s.deviceReset.own = State.reset.own ∧
    s.deviceReset.regs = [] ∧ s.deviceReset.dram = State.reset.dram ∧ s.deviceReset.plc = State.reset.plc ∧
    s.deviceReset.svc.fails = s.svc.fails ∧ s.deviceReset.pending = s.pending := by
  obtain ⟨v, frame, facts⟩ := deviceReset_frame s
  rw [frame]
  exact facts

theorem exec_pwrgoodRise {s : State} (high : Bool) (h : s.board.power = .unpowered) :
    exec (.pwrgoodRise high) s = .next { s with board := { s.board with power := .aonOnly, riseTimer := high } } := by
  change execPwrgoodRise high s = _
  rw [execPwrgoodRise, if_pos h]

theorem exec_sysrstNRise {s : State} (st : Straps) (hpower : s.board.power = .aonOnly) (htimer : s.board.riseTimer = false)
    (hrun : s.board.halted = false) : exec (.sysrstNRise st) s = .next (s.powerOn st) := by
  change execSysrstNRise st s = _
  rw [execSysrstNRise, if_pos ⟨hpower, htimer, hrun⟩]

theorem exec_sysrstNTakenAsRising {s : State} (st : Straps) (hpower : s.board.power = .aonOnly)
    (htimer : s.board.riseTimer = true) (hrun : s.board.halted = false) :
    exec (.sysrstNTakenAsRising st) s = .next (s.powerOn st) := by
  change execSysrstNTakenAsRising st s = _
  rw [execSysrstNTakenAsRising, if_pos ⟨hpower, htimer, hrun⟩]

theorem exec_sysrstNFall_up {s : State} (hup : s.board.power = .poweringOn ∨ s.board.power = .running)
    (hrun : s.board.halted = false) : exec .sysrstNFall s = .next s.deviceReset := by
  change execSysrstNFall s = _
  rcases hup with hpower | hpower <;> simp [execSysrstNFall, hrun, hpower]

theorem exec_sysrstNFall_halted {s : State} (h : s.board.halted = true) : exec .sysrstNFall s = .next s := by
  change execSysrstNFall s = _
  rw [execSysrstNFall, if_pos h]

/-- Settles O19: each pin's equation; SYSRST_N's low level by `deviceReset_spec`. -/
theorem powerPinsFollowTheirTable : Obligations.PowerPinsFollowTheirTable := by
  unfold Obligations.PowerPinsFollowTheirTable
  intro s
  exact ⟨exec_pwrgoodRise, exec_sysrstNRise, exec_sysrstNTakenAsRising,
    fun hup hrun => ⟨exec_sysrstNFall_up hup hrun, deviceReset_spec s⟩, exec_sysrstNFall_halted,
    _, rfl, rfl, rfl, rfl, rfl, rfl, rfl, rfl, rfl, rfl, rfl⟩

/-! ### The straps at t0 (R49, R50) -/

/-- Drawing random bits takes free values and changes nothing else. -/
theorem draw_snd (n : Nat) (s : State) : (State.draw n s).2 = { s with freeUsed := s.freeUsed + n } := by
  induction n generalizing s with
  | zero => rfl
  | succ n ih =>
    change (State.draw n s.took).2 = _
    rw [ih, Nat.add_comm n 1, ← Nat.add_assoc]
    rfl

/-- The board once the straps are sampled: powering on, with HEARTBEAT started. -/
def sampledBoard (b : Board) (st : Straps) : Board :=
  { b with power := .poweringOn, riseTimer := false, straps := st, heartOn := true, turn := 0, reported := 0, hold := .none,
           vbayFail := b.vbaydrvLow }

/-- Where straps that R50 names stop power-on. -/
def strapStop (v : State) (detail : Nat) : State :=
  let a := ((v.stepDone 1).stepFailed 2).report (uid 12 4) 0x31 2 detail
  { a with board := { a.board with hold := .strapStop } }

/-- Power-on samples the straps and draws the random values of sealing; then the straps decide. -/
theorem powerOn_eq (s : State) (st : Straps) : ∃ (x : Seal) (n detail : Nat) (v : State),
    v = { s with sealing := x, freeUsed := n, board := sampledBoard s.board st } ∧
    s.powerOn st = if st.bootSrc = 3 ∨ st.testEn = true then strapStop v detail else v.stepDone 2 := by
  have drawn : ∃ n, (State.draw 4 (State.draw 2 (State.draw 4 (State.draw 1 s).2).2).2).2 = { s with freeUsed := n } := by
    simp only [draw_snd]
    exact ⟨_, rfl⟩
  obtain ⟨n, hn⟩ := drawn
  unfold State.powerOn
  dsimp only
  rw [hn]
  exact ⟨_, n, _, _, rfl, rfl⟩

/-- The step before the straps is the last completed, and the straps' fault is pending. -/
theorem strapStop_spec (v : State) (detail : Nat) :
    (strapStop v detail).board = { v.board with step := 1, hold := .strapStop } ∧
    (strapStop v detail).rd PHASE.LAST_STEP 0 = 1 ∧
    (v.rd PHASE.FAILED_STEP 0 = 0 → (strapStop v detail).rd PHASE.FAILED_STEP 0 = 2) ∧
    (∃ r ∈ (strapStop v detail).aon.reports, r.unit = uid 12 4 ∧ r.code = 0x31) := by
  have frame := onlyTables_stepFailed (v.stepDone 1) 2
  have reads : ∀ f, (strapStop v detail).rd f 0 = ((v.stepDone 1).stepFailed 2).rd f 0 := fun f =>
    congrFun (congrFun (report_rd ((v.stepDone 1).stepFailed 2) (uid 12 4) 0x31 2 detail false) f) 0
  refine ⟨?_, ?_, fun h0 => ?_, report_pends _ _ _ _ _ _⟩
  · unfold strapStop
    dsimp only
    rw [report_board, frame]
    rfl
  · rw [reads, stepFailed_lastStep, stepDone_lastStep v (by decide)]
  · rw [reads, stepFailed_first _ (by decide) ((stepDone_failedStep v 1).trans h0)]

/-- The straps touch neither the election nor the programs nor service access. -/
theorem strapStop_frame (v : State) (detail : Nat) :
    (strapStop v detail).own = v.own ∧ (strapStop v detail).soft = v.soft ∧ (strapStop v detail).svc = v.svc := by
  have frame := onlyTables_stepFailed (v.stepDone 1) 2
  unfold strapStop
  dsimp only
  rw [report_own, report_soft, report_svc, frame]
  exact ⟨rfl, rfl, rfl⟩

/-- Settles O20: `powerOn_eq`, and what either branch leaves. -/
theorem strapsAreSampledOrStopPowerOn : Obligations.StrapsAreSampledOrStopPowerOn := by
  unfold Obligations.StrapsAreSampledOrStopPowerOn
  intro s st hpower htimer hrun
  refine ⟨s.powerOn st, exec_sysrstNRise st hpower htimer hrun, ?_⟩
  obtain ⟨x, n, detail, v, rfl, heq⟩ := powerOn_eq s st
  rw [heq]
  by_cases hillegal : st.bootSrc = 3 ∨ st.testEn = true
  · obtain ⟨hboard, hlast, hfailed, hreport⟩ := strapStop_spec _ detail
    obtain ⟨hown, hsoft, hsvc⟩ := strapStop_frame _ detail
    rw [if_pos hillegal, hboard, hown, hsoft, hsvc]
    exact ⟨rfl, rfl, rfl, rfl, rfl, rfl, fun _ => ⟨rfl, rfl, hlast, hfailed, hreport⟩, fun hlegal => absurd hillegal hlegal⟩
  · rw [if_neg hillegal]
    exact ⟨rfl, rfl, rfl, rfl, rfl, rfl, fun h => absurd h hillegal,
      fun _ => ⟨rfl, rfl, stepDone_lastStep _ (by decide), rfl⟩⟩

/-! ### Steps 3 and 4 (R11, R55, R73) -/

theorem exec_spdReadsComplete {s : State} (ds : List Dimm) (hlive : s.live = true) (hhold : s.board.hold = .none)
    (hstep : s.board.step = 2) (hbays : s.baysSettled = true) : ∃ v : State, exec (.spdReadsComplete ds) s = .next (v.stepDone 3) ∧
      v.board.ckSlow = ((List.range 24).filter (fun u => s.rd BAY.STATE (u / 2) == 6)).any
        (fun u => (ds.filter (fun d => d.chan.val == u)).length == 2) := by
  have ready : (s.live && s.board.hold == .none && s.board.step == 2 && s.baysSettled) = true := by
    simp [hlive, hhold, hstep, hbays]
  have exec_eq : exec (.spdReadsComplete ds) s = execSpdReadsComplete ds s := rfl
  rw [exec_eq, execSpdReadsComplete, if_pos ready]
  refine ⟨_, rfl, ?_⟩
  have frame := unitFrame_foldl (fun (v : State) u => v.applySpd u ds false)
  rw [(frame _ (fun u _ v => unitFrame_applySpd v u ds false) _).board]

/-- DRAM CK is slow exactly where a channel of a bay that is ON holds two DIMMs (R11). -/
theorem twoDimms_iff (s : State) (ds : List Dimm) :
    ((List.range 24).filter (fun u => s.rd BAY.STATE (u / 2) == 6)).any
      (fun u => (ds.filter (fun d => d.chan.val == u)).length == 2) = true ↔
    ∃ c ∈ List.range 24, s.rd BAY.STATE (c / 2) = 6 ∧ (ds.filter (fun d => d.chan.val == c)).length = 2 := by
  simp only [List.any_eq_true, List.mem_filter, beq_iff_eq, and_assoc]

theorem exec_rootPllLock {s : State} (hlive : s.live = true) (hhold : s.board.hold = .none) (hstep : s.board.step = 3) :
    ∃ v : State, exec .rootPllLock s = .next (v.stepDone 4) ∧ v.time = { s.time with locked := true, fclk := 0 } := by
  have ready : (s.live && s.board.hold == .none && s.board.step == 3) = true := by simp [hlive, hhold, hstep]
  have exec_eq : exec .rootPllLock s = execRootPllLock s := rfl
  rw [exec_eq, execRootPllLock, if_pos ready]
  refine ⟨_, rfl, ?_⟩
  have hbm := unitFrame_foldl (fun (v : State) u => v.describe u 3 0 0 48 3) [24, 25, 26, 27]
    (fun u _ v => unitFrame_describe v u 3 0 0 48 3)
  have units := unitFrame_foldl (fun (v : State) u => v.train u) (List.range 28) (fun u _ v => unitFrame_train v u)
  rw [(units _).time, (hbm _).time]

theorem exec_pllLockTimeout {s : State} (hlive : s.live = true) (hhold : s.board.hold = .none) (hstep : s.board.step = 3) :
    exec .pllLockTimeout s = .next ((s.stepFailed 4).fatal (uid 0xB 0) 0x30 0) := by
  change execPllLockTimeout s = _
  simp only [execPllLockTimeout, hlive, hhold, hstep, beq_self_eq_true, Bool.and_self, if_true]

/-! ### Step 5: self-test (R64, R65) -/

theorem exec_selfTest_pass {s : State} (c : UnitNo) (hlive : s.live = true) (h : s.rd MEMCH.STATE c = 1)
    (hstep : s.board.step < 10) : exec (.selfTestComplete c .pass) s = .next ((s.setUnit c 2).stepEnds 0) := by
  have early : ¬ 10 ≤ (s.setUnit c 2).board.step := by
    rw [(unitFrame_setUnit s c 2).board]
    omega
  change execSelfTestComplete c .pass s = _
  simp only [execSelfTestComplete, hlive, h, early, Bool.not_true, Bool.false_eq_true, if_false, if_true]

theorem exec_selfTest_trainFail {s : State} (c : UnitNo) (hlive : s.live = true) (h : s.rd MEMCH.STATE c = 1) :
    exec (.selfTestComplete c .trainFail) s =
      .next (((s.exclude c 0x0E (2 ^ 64 - 1)).joinPool c).stepEnds 0) := by
  change execSelfTestComplete c .trainFail s = _
  simp only [execSelfTestComplete, hlive, h, Bool.not_true, Bool.false_eq_true, if_false, if_true]

theorem exec_selfTest_fail {s : State} (c : UnitNo) (hlive : s.live = true) (h : s.rd MEMCH.STATE c = 1) (a : BitVec 64) :
    exec (.selfTestComplete c (.fail a)) s = .next (((s.exclude c 0x0E a.toNat).joinPool c).stepEnds 0) := by
  change execSelfTestComplete c (.fail a) s = _
  simp only [execSelfTestComplete, hlive, h, Bool.not_true, Bool.false_eq_true, if_false, if_true]

/-- An SRAM array fails at step 4; a spare row repairs it (R65). -/
theorem exec_selfTest_sram {s : State} (c : UnitNo) (v : BitVec 10) (spare : Bool) (hlive : s.live = true)
    (hstep : s.board.step = 4) :
    exec (.selfTestComplete c (.sram v spare)) s = .next (if spare = false then s.sramFails v.toNat else s) := by
  change execSelfTestComplete c (.sram v spare) s = _
  simp only [execSelfTestComplete, hlive, hstep, Bool.not_true, Bool.false_eq_true, if_false, true_and]

/-! ### Step 6: the boot image (R49, R71-R73, R460) -/

/-- The life ledger touches neither the board nor power-on. -/
theorem loadLedger_board (s : State) (l : LedgerRec) : (s.loadLedger l).board = s.board := by
  have lifeUp : ∀ v : State, v.lifeUp.board = v.board := fun v => rfl
  have fields : ∀ (fs : List (Fld × Nat)) (v : State), (fs.foldl (fun v f => v.wr f.1 52 f.2) v).board = v.board :=
    fun fs v => (onlyTables_foldl _ fs (fun f _ w => onlyTables_wr w f.1 52 f.2) v).unitFrame.board
  have bins : ∀ v : State,
      ((List.range 32).foldl (fun v i => v.wr (LEDGER.BIN_H i) 52 ((l.bins.getD i 0).toNat)) v).board = v.board :=
    fun v => (onlyTables_foldl _ _ (fun i _ w => onlyTables_wr w (LEDGER.BIN_H i) 52 _) v).unitFrame.board
  unfold State.loadLedger
  dsimp only
  rw [lifeUp, State.wr_board]
  dsimp only
  rw [bins, fields]

/-- The step's state with the ledger of the flash in it, when there is one (R460). -/
def ledgerOf (lg : Option LedgerRec) (b : State) : State :=
  match lg with
  | some l => b.loadLedger l
  | none => b

theorem ledgerOf_board (lg : Option LedgerRec) (b : State) : (ledgerOf lg b).board = b.board := by
  cases lg with
  | none => rfl
  | some l => exact loadLedger_board b l

/-- A flash image that is there and verifies. -/
def bootable (a : State) (x : Nat × Option Flash) : Bool :=
  match x.2 with
  | some fl => a.bootOk fl false
  | none => false

/-- The image found is applied; with none power-on waits in RECOVERY, and step 6 has failed. -/
def takeImage (a : State) (x : Option (Nat × Option Flash)) : State :=
  match x with
  | some (n, some fl) => a.applyBoot fl n
  | _ => (a.bootWaits 2 1).stepFailed 6

/-- The images in the order in which BOOTSRC has them tried (R49). -/
def imageOrder (st : Straps) (f0 f1 : Option Flash) : List (Nat × Option Flash) :=
  if st.bootSrc.toNat = 0 then [(0, f0), (1, f1)] else [(1, f1), (0, f0)]

theorem exec_bootImageVerify {s : State} (f0 f1 : Option Flash) (lg : Option LedgerRec) (refclk : BitVec 16)
    (hlive : s.live = true) (hhold : s.board.hold = .none) (hstep : s.board.step = 5) {a : State}
    (ha : a = ledgerOf lg { s with board := { s.board with refclk := refclk } }) :
    exec (.bootImageVerify f0 f1 lg refclk) s = .next (if s.board.straps.bootSrc.toNat = 2 then a.bootWaits 3 2
      else takeImage a ((imageOrder s.board.straps f0 f1).find? (bootable a))) := by
  have hstraps : a.board.straps = s.board.straps := by rw [ha, ledgerOf_board]
  have ready : (s.live && s.board.hold == .none && s.board.step == 5) = true := by simp [hlive, hhold, hstep]
  rw [← hstraps]
  change execBootImageVerify f0 f1 lg refclk s = _
  rw [execBootImageVerify, if_pos ready]
  subst ha
  rfl

/-- Settles O21: each command's equation; the boot image by the order in which BOOTSRC has the flash's images tried. -/
theorem powerOnStepsRunInOrder : Obligations.PowerOnStepsRunInOrder := by
  unfold Obligations.PowerOnStepsRunInOrder
  intro s hlive
  refine ⟨?spd, ?pll, exec_pllLockTimeout hlive, ?units, ?sram, ?boot⟩
  case spd =>
    intro ds hhold hstep hbays
    obtain ⟨v, hexec, hslow⟩ := exec_spdReadsComplete ds hlive hhold hstep hbays
    refine ⟨_, hexec, rfl, stepDone_lastStep v (by decide), ?_⟩
    rw [stepDone_board, hslow, twoDimms_iff]
  case pll =>
    intro hhold hstep
    obtain ⟨v, hexec, htime⟩ := exec_rootPllLock hlive hhold hstep
    have hkept : (v.stepDone 4).time = { s.time with locked := true, fclk := 0 } := htime
    exact ⟨_, hexec, by rw [hkept], by rw [hkept], rfl, stepDone_lastStep v (by decide)⟩
  case units =>
    intro c h hstep
    exact ⟨exec_selfTest_pass c hlive h hstep, exec_selfTest_trainFail c hlive h, exec_selfTest_fail c hlive h⟩
  case sram =>
    intro c v hstep
    exact ⟨exec_selfTest_sram c v false hlive hstep, exec_selfTest_sram c v true hlive hstep⟩
  case boot =>
    intro f0 f1 lg refclk hhold hstep b hb a ha
    have hledger : a = ledgerOf lg { s with board := { s.board with refclk := refclk } } := by
      subst hb
      cases lg with
      | none => exact ha
      | some l => exact ha
    rw [exec_bootImageVerify f0 f1 lg refclk hlive hhold hstep hledger]
    refine ⟨fun h2 => ?_, fun fl h0 hf hok => ?_, fun fl h0 hf0 hf1 hok => ?_, fun fl h1 hf hok => ?_, fun h0 hf0 hf1 => ?_⟩
    · simp [h2]
    · simp [h0, hf, hok, imageOrder, bootable, takeImage]
    · simp [h0, hf0, hf1, hok, imageOrder, bootable, takeImage]
    · simp [h1, hf, hok, imageOrder, bootable, takeImage]
    · simp [h0, hf0, hf1, imageOrder, bootable, takeImage]

end Sys2Proof.Machine
end

section
/-! PROOFS. Resets of functions, logical devices, heads and the management endpoint (R43, R83, R102), and the power domains'
evaluation, entry, wake and return (R54, R213, R409, R436-R441). -/
namespace Sys2Proof.Machine

/-! ### What a function's reset is (R83, R102) -/

/-- A logical device's reset; LD 0 is its head's ownership path. -/
theorem functionReset_ld (s : State) {f : Nat} (h : f ≠ 256) :
    s.functionReset f = if f % 16 = 0 then ((s.setInReset f true).resetLd f).ownerDown (f / 16 + 2)
      else (s.setInReset f true).resetLd f := by
  simp only [State.functionReset, if_neg h]

theorem functionReset_endpoint (s : State) :
    s.functionReset 256 = ((s.setInReset 256 true).resetBell 256).ownerDown 0 := rfl

section Live
variable {s : State} (hlive : s.live = true)
include hlive

theorem exec_ldReset (ld : LdNo) (h : s.ldExists ld = true) : exec (.ldReset ld) s = .next (s.functionReset ld) := by
  change execLdReset ld s = _
  simp only [execLdReset, hlive, h, Bool.and_self, if_true]

theorem exec_functionLevelReset_endpoint : exec (.functionLevelReset 256) s = .next (s.functionReset 256) := by
  change execFunctionLevelReset 256 s = _
  have endpoint : ((256 : Func) : Nat) = 256 := rfl
  simp only [execFunctionLevelReset, hlive, endpoint, beq_self_eq_true, Bool.true_or, Bool.and_self, if_true]

/-- FUNCTION_LEVEL_RESET of a single-LD head's function. -/
theorem exec_functionLevelReset_head (f : Func) (h : s.ldExists f = true) (h0 : f.val % 16 = 0)
    (hcount : s.inf PORT.LD_COUNT (f / 16) = 1) : exec (.functionLevelReset f) s = .next (s.functionReset f) := by
  change execFunctionLevelReset f s = _
  simp only [execFunctionLevelReset, hlive, h, h0, hcount, beq_self_eq_true, Bool.or_true, Bool.and_self, if_true]

theorem exec_functionOutOfReset (f : Func) (h : s.board.inReset.getLsbD f = true) :
    exec (.functionOutOfReset f) s = .next ((s.setInReset f false).funcBack (if f.val = 256 then 32 else f / 16)) := by
  change execFunctionOutOfReset f s = _
  simp only [execFunctionOutOfReset, hlive, h, Bool.and_self, if_true]

/-! ### The reset pins (R43) -/

omit hlive in
/-- A reset pin's level is no supply and no halt. -/
theorem live_setPerst (s : State) (l : Nat) (v : Bool) : (s.setPerst l v).live = s.live := rfl

theorem exec_hdperstNFall (h : HeadNo) (hpin : s.board.perst.getLsbD h = true) (hhead : s.headExists h = true) {a : State}
    (ha : a = (s.setPerst h false).linkLost h) :
    exec (.hdperstNFall h) s = .next (((List.range 16).foldl (fun (x : State) i =>
      if x.ldExists (16 * h + i) then x.resetLd (16 * h + i) else x) a).ownerDown (h + 2)) := by
  have falls : (s.board.perst.getLsbD h && (s.setPerst h false).live && (s.setPerst h false).headExists h) = true := by
    have hkept : (s.setPerst h false).headExists h = true := hhead
    simp [hpin, hkept, live_setPerst, hlive]
  change execHdperstNFall h s = _
  rw [execHdperstNFall, if_pos falls, ha]

theorem exec_hdperstNRise (h : HeadNo) {a : State} (ha : a = s.setPerst h true) :
    exec (.hdperstNRise h) s =
      .next (if a.rd POWER.STATE (h / 2) = 0 then a.startTrain h else a.wakeDom (h / 2)) := by
  change execHdperstNRise h s = _
  simp only [execHdperstNRise, live_setPerst, hlive, if_true, ha]

theorem exec_mgPerstNFall (hpin : s.board.perst.getLsbD 32 = true) :
    exec .mgPerstNFall s = .next ((((s.setPerst 32 false).linkLost 32).resetBell 256).ownerDown 0) := by
  change execMgPerstNFall s = _
  simp only [execMgPerstNFall, live_setPerst, hlive, hpin, Bool.and_self, if_true]

end Live

/-- Settles O31: each reset's equation, and `functionReset` of a logical device and of the endpoint. -/
theorem functionAndHeadResets : Obligations.FunctionAndHeadResets := by
  unfold Obligations.FunctionAndHeadResets
  intro s hlive
  refine ⟨?ld, ?endpoint, ?head, exec_functionOutOfReset hlive,
    fun h hpin hhead a => exec_hdperstNFall hlive h hpin hhead, ?rise, exec_mgPerstNFall hlive, rfl⟩
  case ld =>
    intro ld h
    rw [exec_ldReset hlive ld h, functionReset_ld s (by omega)]
  case endpoint => rw [exec_functionLevelReset_endpoint hlive, functionReset_endpoint]
  case head =>
    intro f hf h h0 hcount
    rw [exec_functionLevelReset_head hlive f h h0 hcount, functionReset_ld s hf, if_pos h0]
  case rise =>
    intro h a ha
    rw [exec_hdperstNRise hlive h ha]
    refine ⟨fun active => ?_, fun away => ?_⟩
    · rw [if_pos active, State.startTrain]
    · rw [if_neg away]

/-! ### DOMAIN_EVALUATION (R437, R438) -/

/-- An evaluation, once the domain's POWER stores are committed, of a domain that can change its level. -/
theorem exec_domainEvaluation {s : State} (dom : DomNo) (idle : BitVec 32) (hlive : s.live = true)
    (hlock : s.time.locked = true) {a : State} (ha : a = s.commitTbl 0x10 (· == dom.val)) (hon : a.rd POWER.STATE dom ≠ 6)
    (hclock : a.pgDead dom = false) :
    exec (.domainEvaluation dom idle) s = .next (
      if a.held dom then a.wakeDom dom
      else if a.inf POWER.POLICY dom ≠ 1 then a
      else if a.rd POWER.STATE dom = 0 then (if a.inf POWER.IDLE1 dom ≤ idle.toNat then a.tryLevel dom 1 else a)
      else if (a.rd POWER.STATE dom = 1 ∨ a.rd POWER.STATE dom = 3) ∧ a.infB POWER.DEEP_EN dom = true ∧
          a.inf POWER.IDLE2 dom * 100 ≤ idle.toNat then a.tryLevel dom 2
      else a) := by
  have runs : ¬ (!s.live || !s.time.locked) = true := by simp [hlive, hlock]
  have able : ¬ (a.rd POWER.STATE dom = 6 ∨ a.pgDead dom = true) := by simp [hon, hclock]
  change execDomainEvaluation dom idle s = _
  rw [execDomainEvaluation, if_neg runs]
  dsimp only
  rw [← ha, if_neg able]

/-- An attempt is refused by the first condition that fails, or enters the level (R437, R440). -/
theorem tryLevel_eq (s : State) (d level : Nat) :
    s.tryLevel d level = match s.entryFails d level with
      | some x => s.refuseEntry d x.1 x.2
      | none => s.enterLevel d level := by
  unfold State.tryLevel
  cases s.entryFails d level <;> rfl

/-! ### DOMAIN_ENTRY_COMPLETE (R437, R439, R440) -/

theorem exec_entryComplete_error {s : State} (dom : DomNo) (hlive : s.live = true) (h : s.rd POWER.STATE dom = 4) :
    exec (.domainEntryComplete dom true) s = .next ((s.incSat POWER.ABORTS dom 1).wr POWER.STATE dom 5) := by
  change execDomainEntryComplete dom true s = _
  simp only [execDomainEntryComplete, State.entryEnds, hlive, h, Bool.not_true, bne_self_eq_false, Bool.or_self,
    Bool.false_and, Bool.false_eq_true, if_false, if_true]

/-- An entry without a merge entry left of its unit reaches its level (R374). -/
theorem exec_entryComplete {s : State} (dom : DomNo) (hlive : s.live = true) (h : s.rd POWER.STATE dom = 4)
    (hmerges : ∀ m ∈ s.sealing.merges, domUnit dom ≠ some m.unit) :
    exec (.domainEntryComplete dom false) s =
      .next (if (s.dom dom).latched then (s.reached dom).wakeDom dom else s.reached dom) := by
  have hsealed : s.sealing.merges.any (fun m => domUnit dom == some m.unit) = false := by
    simpa [List.any_eq_false] using hmerges
  change execDomainEntryComplete dom false s = _
  simp only [execDomainEntryComplete, State.entryEnds, hlive, h, hsealed, Bool.not_true, bne_self_eq_false, Bool.or_self,
    Bool.and_false, Bool.false_eq_true, if_false]

/-! ### DOMAIN_WAKE (R437, R439) -/

theorem exec_domainWake {s : State} (dom : DomNo) (hlive : s.live = true) (hclock : s.pgDead dom = false) :
    exec (.domainWake dom) s = .next (s.wakeDom dom) := by
  change execDomainWake dom s = _
  simp only [execDomainWake, hlive, hclock, Bool.not_false, Bool.and_self, if_true]

theorem wakeDom_entering {s : State} {d : Nat} (hclock : s.pgDead d = false) (h : s.rd POWER.STATE d = 4) :
    s.wakeDom d = s.setDom d { s.dom d with latched := true } := by
  simp [State.wakeDom, hclock, h]

theorem wakeDom_low {s : State} {d : Nat} (hclock : s.pgDead d = false)
    (h : s.rd POWER.STATE d = 1 ∨ s.rd POWER.STATE d = 2 ∨ s.rd POWER.STATE d = 3) :
    s.wakeDom d = ((s.wr POWER.STATE d 5).inc POWER.WAKES d).fixed 535 := by
  rcases h with h | h | h <;> simp [State.wakeDom, hclock, h]

theorem wakeDom_active {s : State} {d : Nat} (hclock : s.pgDead d = false) (h : s.rd POWER.STATE d = 0) :
    s.wakeDom d = s := by
  simp [State.wakeDom, hclock, h]

/-! ### DOMAIN_READY (R213, R409, R437) -/

/-- The domain is ACTIVE, and no wake of it is latched. -/
def Awake (d : Nat) (v : State) : Prop := v.rd POWER.STATE d = 0 ∧ (v.dom d).latched = false

/-- What keeps the domain's STATE and its level and latch keeps it awake. -/
theorem Awake.keep {d : Nat} {v u : State} (h : Awake d v) (hstate : u.rd POWER.STATE d = v.rd POWER.STATE d)
    (hdoms : u.aon.doms = v.aon.doms) : Awake d u := by
  obtain ⟨hactive, hlatch⟩ := h
  refine ⟨hstate.trans hactive, ?_⟩
  unfold State.dom at hlatch ⊢
  rw [hdoms]
  exact hlatch

/-- A woken domain with its level and latch cleared. -/
def returned (s : State) (d : Nat) : State :=
  (s.wr POWER.STATE d 0).setDom d { s.dom d with level := 0, latched := false }

theorem awake_returned (s : State) (d : Nat) : Awake d (returned s d) := by
  refine ⟨(State.rd_wr_self s POWER.STATE d 0 (by decide)).trans (Nat.zero_mod _), ?_⟩
  unfold State.dom returned State.setDom
  rw [tget_tset_self]

/-- The credits of a roundabout that was deep asleep start at zero (R409). -/
def zeroCredits (s : State) (r : Nat) : State := (s.present r).foldl (fun s q => s.wr RB.CREDIT (rbIdx r q) 0) s

theorem present_lt {s : State} {r q : Nat} (h : q ∈ s.present r) : q < 36 := by
  simp only [State.present, List.mem_append, List.mem_filter, List.mem_range, List.mem_cons, List.not_mem_nil, or_false] at h
  rcases h with (⟨hq, -⟩ | hq) | hq
  · omega
  · omega
  · split at hq
    · have := List.mem_singleton.mp hq; omega
    · exact absurd hq List.not_mem_nil

theorem Awake.zeroCredits {d r : Nat} {v : State} (h : Awake d v) (hd : d < 2 ^ 48) (hr : r < 2 ^ 40) :
    Awake d (zeroCredits v r) := by
  refine List.foldlRecOn (motive := Awake d) _ _ h (fun u hu q hq => hu.keep ?_ rfl)
  have hq36 := present_lt hq
  exact rd_wr_otherTable u POWER.STATE RB.CREDIT d (rbIdx r q) 0 (by decide) hd (by simp only [rbIdx]; omega) (by decide)
    (by decide)

theorem Awake.setUnit {d u st : Nat} {v : State} (h : Awake d v) (hd : d < 2 ^ 48) (hu : u < 2 ^ 48) :
    Awake d (v.setUnit u st) :=
  h.keep (rd_setUnit v u st POWER.STATE d (by decide) (by decide) hd hu (by decide)) (unitFrame_setUnit v u st).doms

theorem Awake.startTrain {d l : Nat} {v : State} (h : Awake d v) : Awake d (v.startTrain l) := by
  unfold State.startTrain
  split
  · exact h.keep rfl rfl
  · exact h

/-- What a returned domain's units do before the slice orders: the unit runs again, or the group's heads train, or the slice's
credits start anew (R409, R436). -/
def resumed (s : State) (d : Nat) (level : Nat) : State :=
  match domUnit d with
  | some u => if s.rd MEMCH.STATE u = 4 then (zeroCredits s (unitRb u)).setUnit u 3 else s
  | none =>
    if d < 16 then
      let s := [2 * d, 2 * d + 1].foldl (fun (s : State) h => s.setToll h { s.toll h with hist := [] }) s
      [2 * d, 2 * d + 1].foldl (fun (s : State) h => s.startTrain h) s
    else if d < 32 then (if level = 2 then zeroCredits s (d - 16) else s)
    else s

theorem awake_resumed {s : State} {d : Nat} (level : Nat) (hd : d < 78) (h : Awake d s) : Awake d (resumed s d level) := by
  unfold resumed
  split
  case h_1 u hu =>
    have hunit : u < 28 := by
      simp only [domUnit] at hu
      split at hu <;> simp at hu
      omega
    split
    · exact (h.zeroCredits (by omega) (by simp only [unitRb]; omega)).setUnit (by omega) (by omega)
    · exact h
  case h_2 =>
    split
    · have cleared : Awake d ([2 * d, 2 * d + 1].foldl (fun (v : State) l => v.setToll l { v.toll l with hist := [] }) s) :=
        List.foldlRecOn (motive := Awake d) _ _ h (fun v hv l _ => hv.keep rfl rfl)
      exact List.foldlRecOn (motive := Awake d) _ _ cleared (fun v hv l _ => hv.startTrain)
    · split
      · split
        · exact h.zeroCredits (by omega) (by omega)
        · exact h
      · exact h

theorem exec_domainReady {s : State} (dom : DomNo) (hlive : s.live = true) (h : s.rd POWER.STATE dom = 5) :
    exec (.domainReady dom) s = .next (
      let a := resumed (returned s dom) dom (s.dom dom).level
      if 16 ≤ dom.val ∧ dom.val < 32 then a.orderEarly (dom.val - 16) else a).settle := by
  have waking : ¬ (!s.live || s.rd POWER.STATE dom != 5) = true := by simp [hlive, h]
  change execDomainReady dom s = _
  rw [execDomainReady, State.domReady, if_neg waking]
  by_cases hunit : 50 ≤ dom.val
  · have hslice : ¬ (16 ≤ dom.val ∧ dom.val < 32) := by omega
    have hdom : domUnit dom = some (dom.val - 50) := if_pos hunit
    simp only [resumed, hdom, if_neg hslice]
    rfl
  · have hdom : domUnit dom = none := if_neg hunit
    by_cases hgroup : dom.val < 16
    · have hslice : ¬ (16 ≤ dom.val ∧ dom.val < 32) := by omega
      simp only [resumed, hdom, if_pos hgroup, if_neg hslice]
      rfl
    · by_cases hhome : dom.val < 32
      · have hslice : 16 ≤ dom.val ∧ dom.val < 32 := by omega
        simp only [resumed, hdom, if_neg hgroup, if_pos hhome, if_pos hslice]
        rfl
      · have hslice : ¬ (16 ≤ dom.val ∧ dom.val < 32) := by omega
        simp only [resumed, hdom, if_neg hgroup, if_neg hhome, if_neg hslice]
        rfl

theorem exec_domainReady_notWaking {s : State} (dom : DomNo) (h : s.rd POWER.STATE dom ≠ 5) :
    exec (.domainReady dom) s = .next s := by
  change execDomainReady dom s = _
  simp [execDomainReady, State.domReady, h]

/-- Settles O57: an equation for each command and state of the domain; what ready leaves is `Awake`. -/
theorem powerDomainsEnterWakeAndReturn : Obligations.PowerDomainsEnterWakeAndReturn := by
  unfold Obligations.PowerDomainsEnterWakeAndReturn
  intro s dom hlive
  refine ⟨?evaluation, exec_entryComplete_error dom hlive, exec_entryComplete dom hlive, ?wake, ?ready,
    exec_domainReady_notWaking dom⟩
  case evaluation =>
    intro idle hlock a ha hon hclock
    rw [exec_domainEvaluation dom idle hlive hlock ha hon hclock]
    refine ⟨fun hheld => ?_, fun hheld hauto h0 hidle => ?_, fun hheld hauto h0 hidle => ?_, fun hheld hauto hlow hdeep hidle => ?_⟩
    · rw [if_pos hheld]
    · simp only [hheld, hauto, h0, hidle, Bool.false_eq_true, if_false, if_true, ne_eq, not_true_eq_false]
      exact congrArg _ (tryLevel_eq a dom 1)
    · simp [hheld, hauto, h0, Nat.not_le.mpr hidle]
    · have hne : a.rd POWER.STATE dom ≠ 0 := by omega
      simp only [hheld, hauto, hne, hlow, hdeep, hidle, Bool.false_eq_true, if_false, if_true, ne_eq, not_true_eq_false,
        and_self]
      exact congrArg _ (tryLevel_eq a dom 2)
  case wake =>
    intro hclock
    rw [exec_domainWake dom hlive hclock]
    refine ⟨fun h => ?_, fun h => ?_, fun h => ?_⟩
    · rw [wakeDom_entering hclock h]
    · rw [wakeDom_low hclock h]
    · rw [wakeDom_active hclock h]
  case ready =>
    intro h
    have hawake := awake_resumed (s.dom dom).level dom.isLt (awake_returned s dom)
    exact ⟨_, exec_domainReady dom hlive h, hawake⟩

end Sys2Proof.Machine
end

section
/-! PROOFS. The end of power-on: fill, the base program, an image received in RECOVERY, and the phase (R55, R59, R64, R72,
R73, R76-R78). -/
namespace Sys2Proof.Machine

/-! ### Fields of one entry -/

/-- A field holds a value written that its width holds. -/
theorem rd_wr_of_lt (s : State) {f : Fld} (i : Nat) {v : Nat} (h : f.fits = true) (hv : v < 2 ^ f.w) :
    (s.wr f i v).rd f i = v :=
  (State.rd_wr_self s f i v h).trans (Nat.mod_eq_of_lt hv)

/-- The two fields lie in words of an entry and hold no bit in common. -/
def Fld.beside (f g : Fld) : Bool := f.apart g && g.fits && decide (f.word < 256) && decide (g.word < 256)

/-- A write of a field leaves the others of its entry alone. -/
theorem rd_wr_beside (s : State) {f g : Fld} {i : Nat} (v : Nat) (h : f.beside g = true) (hi : i < 2 ^ 48) :
    (s.wr g i v).rd f i = s.rd f i := by
  simp only [Fld.beside, Bool.and_eq_true, decide_eq_true_eq] at h
  obtain ⟨⟨⟨hapart, hfits⟩, hf⟩, hg⟩ := h
  exact State.rd_wr_apart s f g i i v hfits hapart hi hi hf hg

/-! ### The end of step 8 (R55, R64, log entry 66) -/

/-- A unit whose fill is over: filled and ACTIVE, or excluded by the address at which the fill failed (R64). -/
def fillOver (s : State) (c : Nat) (f : Option (BitVec 64)) : State :=
  match f with
  | some x => s.exclude c 0x0F x.toNat
  | none => (s.setPool c { s.pool c with filled := true }).setUnit c 3

theorem exec_fillComplete {s : State} (c : UnitNo) (f : Option (BitVec 64)) (ms : BitVec 32) (hlive : s.live = true)
    (h : s.rd MEMCH.STATE c = 2) (hstep : 6 ≤ s.board.step) :
    exec (.fillComplete c f ms) s = .next (((fillOver s c f).joinPool c).stepEnds ms.toNat) := by
  have filling : ¬ (!s.live || s.rd MEMCH.STATE c != 2 || decide (s.board.step < 6)) = true := by
    simp [hlive, h, hstep]
  change execFillComplete c f ms s = _
  rw [execFillComplete.eq_def, if_neg filling]
  cases f <;> rfl

/-- No unit fills any more. -/
theorem noneFills_iff (s : State) :
    (List.range 28).all (fun u => s.rd MEMCH.STATE u != 2) = true ↔ ∀ v < 28, s.rd MEMCH.STATE v ≠ 2 := by
  simp only [List.all_eq_true, List.mem_range, bne_iff_ne]

theorem stepEnds_lastFill {a : State} (ms : Nat) (hlive : a.live = true) (hhold : a.board.hold = .none)
    (hstep : a.board.step = 6) (hfilled : ∀ v < 28, a.rd MEMCH.STATE v ≠ 2) :
    a.stepEnds ms = ((a.stepDone 9).wr PHASE.FILL_MS 0 ms).startWayfinders := by
  have goesOn : ¬ (!a.live || a.board.hold != .none) = true := by simp [hlive, hhold]
  have notTesting : ¬ (a.board.step = 4 ∧ (List.range 28).all (fun u => a.rd MEMCH.STATE u != 1) = true) := by omega
  rw [State.stepEnds, if_neg goesOn, if_neg notTesting, if_pos ⟨hstep, (noneFills_iff a).mpr hfilled⟩]

/-- Outside steps 5 and 8, and before the last fill of step 8, nothing ends. -/
theorem stepEnds_notYet {a : State} (ms : Nat) (hstep : a.board.step ≠ 4)
    (h : ¬ (a.board.step = 6 ∧ ∀ v < 28, a.rd MEMCH.STATE v ≠ 2)) : a.stepEnds ms = a := by
  have notTesting : ¬ (a.board.step = 4 ∧ (List.range 28).all (fun u => a.rd MEMCH.STATE u != 1) = true) :=
    fun ⟨h4, _⟩ => hstep h4
  rw [← noneFills_iff] at h
  rw [State.stepEnds, if_neg notTesting, if_neg h, ite_self]

/-! ### Steps 10 to 12 (R55, R59, R84) -/

theorem opens_notClosed (o : Election) : o.opens.st ≠ .closed := by
  unfold Election.opens
  split
  · exact fun h => nomatch h
  · assumption

/-- Every filled unit joins the pool when step 10 completes, and the tree and the jobs follow (R55). -/
def poolsJoined (s : State) : State :=
  ((List.range 28).foldl (fun (v : State) u =>
    if (v.pool u).filled then v.setPool u { v.pool u with inPool := true } else v) s).placeSubtrees.settle

/-- Power-on is over: the device runs, mailboxes are ready, memory is active, and the election has opened (R55, R84). -/
def opened (b : State) : State :=
  { b with board := { b.board with power := .running, mbReady := true, active := true }, own := b.own.opens }

section AtStep10
variable {s : State} (hlive : s.live = true) (hhold : s.board.hold = .none) (hstep : s.board.step = 9)
include hlive hhold hstep

theorem exec_baseProgramReady (ms : BitVec 32) : exec (.baseProgramReady ms) s =
    .next (opened (((poolsJoined s).stepDone 12).wr PHASE.ACTIVE_MS 0 ms.toNat)) := by
  have ready : (s.live && s.board.hold == .none && s.board.step == 9) = true := by simp [hlive, hhold, hstep]
  change execBaseProgramReady ms s = _
  rw [execBaseProgramReady, if_pos ready]
  rfl

theorem exec_baseProgramTimeout (code : BitVec 8) :
    exec (.baseProgramTimeout code) s = .next (s.baseFails code.toNat) := by
  have ready : (s.live && s.board.hold == .none && s.board.step == 9) = true := by simp [hlive, hhold, hstep]
  change execBaseProgramTimeout code s = _
  rw [execBaseProgramTimeout, if_pos ready]

end AtStep10

/-- What PHASE records once step 12 is over. -/
theorem rd_opened (a : State) (ms : BitVec 32) :
    (opened ((a.stepDone 12).wr PHASE.ACTIVE_MS 0 ms.toNat)).rd PHASE.ACTIVE_MS 0 = ms.toNat ∧
    (opened ((a.stepDone 12).wr PHASE.ACTIVE_MS 0 ms.toNat)).rd PHASE.LAST_STEP 0 = 12 := by
  have same : ∀ b : State, (opened b).rd = b.rd := fun _ => rfl
  rw [same]
  exact ⟨rd_wr_of_lt _ 0 (by decide) ms.isLt,
    (rd_wr_beside (a.stepDone 12) ms.toNat (by decide) (by decide)).trans (stepDone_lastStep a (by decide))⟩

/-! ### A base program that fails (R73, R76) -/

/-- The device enters RECOVERY, for the cause that boot fails; one that is in it enters nothing (R76, R78). -/
def entersRecovery (s : State) : State :=
  if s.rd PHASE.CURRENT 0 = 3 then s else (s.wr PHASE.CURRENT 0 3).wr PHASE.ENTRY_CAUSE 0 2

theorem entersRecovery_current (s : State) : (entersRecovery s).rd PHASE.CURRENT 0 = 3 := by
  unfold entersRecovery
  split
  · assumption
  · rw [rd_wr_beside _ _ (by decide) (by decide), rd_wr_of_lt s 0 (by decide) (by decide)]

theorem entersRecovery_cause (s : State) : (entersRecovery s).rd PHASE.ENTRY_CAUSE 0 =
    if s.rd PHASE.CURRENT 0 = 3 then s.rd PHASE.ENTRY_CAUSE 0 else 2 := by
  unfold entersRecovery
  split
  · rfl
  · exact rd_wr_of_lt _ 0 (by decide) (by decide)

theorem onlyTables_entersRecovery (s : State) : OnlyTables s (entersRecovery s) := by
  unfold entersRecovery
  split
  · exact .refl s
  · exact (onlyTables_wr s _ _ _).trans (onlyTables_wr _ _ _ _)

/-- The step that failed stands beside the phase and its cause. -/
theorem rd_stepFailed (s : State) (n : Nat) {f : Fld} (h : f.beside PHASE.FAILED_STEP = true) :
    (s.stepFailed n).rd f 0 = s.rd f 0 := by
  unfold State.stepFailed
  split
  · exact rd_wr_beside s n h (by decide)
  · rfl

/-- The failure reported, RECOVERY entered, and step 10 recorded as failed. -/
def failedAt10 (s : State) (code : Nat) : State := (entersRecovery (s.report (uid 8 0) 0x1F 2 code)).stepFailed 10

theorem baseFails_eq (s : State) (code : Nat) : s.baseFails code =
    { failedAt10 s code with board := { (failedAt10 s code).board with hold := .recovery10 } } := rfl

/-- The base program's failure is reported, and power-on waits in RECOVERY. -/
theorem baseFails_spec (s : State) (code : Nat) : (s.baseFails code).board.hold = .recovery10 ∧
    (s.baseFails code).rd PHASE.CURRENT 0 = 3 ∧
    (s.baseFails code).rd PHASE.ENTRY_CAUSE 0 =
      (if s.rd PHASE.CURRENT 0 = 3 then s.rd PHASE.ENTRY_CAUSE 0 else 2) ∧
    ∃ r ∈ (s.baseFails code).aon.reports, r.unit = uid 8 0 ∧ r.code = 0x1F := by
  have hreads : (s.baseFails code).rd = (failedAt10 s code).rd := rfl
  have haon : (s.baseFails code).aon = (s.report (uid 8 0) 0x1F 2 code).aon := by
    have frame := (onlyTables_entersRecovery (s.report (uid 8 0) 0x1F 2 code)).trans (onlyTables_stepFailed _ 10)
    rw [baseFails_eq, failedAt10, frame]
  refine ⟨by rw [baseFails_eq], ?_, ?_, ?_⟩
  · rw [hreads, failedAt10, rd_stepFailed _ 10 (by decide), entersRecovery_current]
  · rw [hreads, failedAt10, rd_stepFailed _ 10 (by decide), entersRecovery_cause, report_rd]
  · rw [haon]
    exact report_pends s _ _ _ _ _

/-! ### An image received in RECOVERY (R72) -/

/-- A request of another candidate than the BMC says nothing of the BMC's path (R83). -/
theorem from_notBmc (s : State) {c : Nat} (h : c ≠ 1) : s.from_ c = s := by
  unfold State.from_
  rw [if_neg (fun ⟨hc, _⟩ => h hc)]

theorem exec_recoveryImageSubmit {s : State} (c : Cand) (fl : Flash) (hlive : s.live = true) (hc : s.eligible c = true)
    (hbmc : c ≠ 1) (hhold : s.board.hold = .recovery6) (hok : s.bootOk fl true = true) :
    exec (.recoveryImageSubmit c fl) s = .next ((s.endHandling (uid 12 4) [0x32]).applyBoot fl 2) := by
  have notBmc : (c : Nat) ≠ 1 := fun h => hbmc (Fin.ext h)
  have accepted : (s.live && s.eligible c) = true := by simp [hlive, hc]
  change execRecoveryImageSubmit c fl s = _
  rw [execRecoveryImageSubmit, if_pos accepted, from_notBmc s notBmc, State.recoveryImage, if_pos ⟨hhold, hok⟩]

/-! ### Stores of PHASE (R76-R78) -/

theorem phaseStore_refused {s : State} {v : Nat} (h : s.phaseAllowed v = false) (hv : v ≠ s.rd PHASE.CURRENT 0) :
    s.phaseStore v = (5, s) := by
  simp [State.phaseStore, hv, h]

/-- `u` follows a change of the phase in `s`: the phase before it is kept with its cycle (R77), and PHASE shows the new one. -/
def Changed (s : State) (v : Nat) (u : State) : Prop :=
  u.time = s.time ∧ u.board.phaseWas = some (s.phase, s.time.fclk) ∧ u.rd PHASE.CURRENT 0 = v

/-- PHASE, its cause and its alarm count as an allowed change writes them. -/
def phaseWritten (s : State) (v : Nat) : State :=
  let a := ((s.wr PHASE.CURRENT 0 v).wr PHASE.ENTRY_CAUSE 0 1).wr PHASE.ALARM_COUNT 0 0
  { a with board := { a.board with phaseWas := some (s.phase, s.time.fclk) } }

theorem changed_phaseWritten (s : State) {v : Nat} (hv : v < 4) : Changed s v (phaseWritten s v) := by
  refine ⟨rfl, rfl, ?_⟩
  change (((s.wr PHASE.CURRENT 0 v).wr PHASE.ENTRY_CAUSE 0 1).wr PHASE.ALARM_COUNT 0 0).rd PHASE.CURRENT 0 = v
  rw [rd_wr_beside _ _ (by decide) (by decide), rd_wr_beside _ _ (by decide) (by decide),
    rd_wr_of_lt s 0 (by decide) hv]

theorem Changed.stepDone {s u : State} {v : Nat} (h : Changed s v u) (n : Nat) : Changed s v (u.stepDone n) := by
  obtain ⟨htime, hwas, hcurrent⟩ := h
  exact ⟨htime, hwas, (rd_wr_beside _ n (by decide) (by decide)).trans hcurrent⟩

/-- RECOVERY entered from SERVICE by a store is recorded as an alarm (R76). -/
theorem Changed.alarm {s u : State} {v : Nat} (h : Changed s v u) (unit code detail : Nat) :
    Changed s v (((State.draw 2 u).2.wr PHASE.ALARM_COUNT 0 1).report unit code 1 detail true) := by
  obtain ⟨htime, hwas, hcurrent⟩ := h
  rw [draw_snd]
  refine ⟨?_, ?_, ?_⟩
  · rw [report_time]; exact htime
  · rw [report_board]; exact hwas
  · rw [report_rd, rd_wr_beside _ _ (by decide) (by decide)]; exact hcurrent

theorem phaseStore_allowed {s : State} {v : Nat} (hv : v ≠ s.rd PHASE.CURRENT 0) (h4 : v < 4)
    (h : s.phaseAllowed v = true) : (s.phaseStore v).1 = 0 ∧ Changed s v (s.phaseStore v).2 := by
  have stepped : Changed s v (if v = 1 ∧ (phaseWritten s v).board.step = 12 then (phaseWritten s v).stepDone 13
      else phaseWritten s v) := by
    split
    · exact (changed_phaseWritten s h4).stepDone 13
    · exact changed_phaseWritten s h4
  have allowed : ¬ (!s.phaseAllowed v) = true := by simp [h]
  unfold State.phaseStore
  dsimp only
  rw [if_neg hv, if_neg allowed]
  split
  · exact ⟨rfl, stepped.alarm _ _ _⟩
  · exact ⟨rfl, stepped⟩

/-- In the cycle of the change the phase before it governs, once FCLK runs (R77). -/
theorem Changed.phase {s u : State} {v : Nat} (h : Changed s v u) : u.phase = if s.time.locked then s.phase else v := by
  obtain ⟨htime, hwas, hcurrent⟩ := h
  simp only [State.phase, hwas, htime, hcurrent, and_true]

/-- Settles O22: each command's equation, `baseFails_spec`, and what a store of PHASE changes. -/
theorem fillAndBaseProgramEndPowerOn : Obligations.FillAndBaseProgramEndPowerOn := by
  unfold Obligations.FillAndBaseProgramEndPowerOn
  intro s
  refine ⟨?fill, ?ready, ?timeout, fun hlive c fl => exec_recoveryImageSubmit c fl hlive, ?tenant, ?store,
    fun v => phaseStore_refused, ?allowed⟩
  case fill =>
    intro hlive c f ms h hstep a ha
    have hover : a = (fillOver s c f).joinPool c := by
      rw [ha]
      cases f <;> rfl
    rw [exec_fillComplete c f ms hlive h hstep, ← hover]
    exact ⟨fun hl hhold h6 hfilled => congrArg _ (stepEnds_lastFill _ hl hhold h6 hfilled),
      fun h4 hmore => congrArg _ (stepEnds_notYet _ h4 hmore)⟩
  case ready =>
    intro hlive hhold hstep ms
    have hexec := exec_baseProgramReady hlive hhold hstep ms
    obtain ⟨hactive, hlast⟩ := rd_opened (poolsJoined s) ms
    refine ⟨fun a ha b hb => ?_, _, hexec, rfl, rfl, rfl, rfl, opens_notClosed _, hactive, hlast⟩
    rw [hexec, hb, ha]
    rfl
  case timeout =>
    intro hlive hhold hstep code
    exact ⟨_, exec_baseProgramTimeout hlive hhold hstep code, baseFails_spec s code.toNat⟩
  case tenant =>
    intro w t d v hissues htenant
    exact privileged_of hissues rfl rfl htenant
  case store =>
    intro w t d v hissues htenant
    exact submits_of (f := fun j => j.phaseStore v.toNat) hissues rfl rfl htenant
  case allowed =>
    intro v hv h4 h
    obtain ⟨hstatus, hchanged⟩ := phaseStore_allowed hv h4 h
    have hphase := hchanged.phase
    obtain ⟨-, -, hcurrent⟩ := hchanged
    exact ⟨hstatus, hcurrent, hphase⟩

end Sys2Proof.Machine
end

section
/-! PROOFS. A link's training and its loss, HDM decoders, configuration requests and returned credits (R57, R58, R75, R83,
R172, R176, R178, R191, R196-R198, R200, R202). -/
namespace Sys2Proof.Machine

/-! ### What the parts of these commands leave alone -/

/-- The states differ at most in the election. -/
def OnlyOwn (s u : State) : Prop := u = { s with own := u.own }

theorem onlyOwn_ownerDown (s : State) (c : Nat) : OnlyOwn s (s.ownerDown c) := by
  unfold State.ownerDown
  split <;> rfl

theorem onlyOwn_ownerBack (s : State) (c : Nat) : OnlyOwn s (s.ownerBack c) := by
  unfold State.ownerBack
  split <;> rfl

theorem onlyOwn_funcBack (s : State) (l : Nat) : OnlyOwn s (s.funcBack l) := by
  unfold State.funcBack
  generalize (if l = 32 then 256 else 16 * l) = f
  dsimp only
  split
  · exact onlyOwn_ownerBack s _
  · rfl

theorem OnlyOwn.link {s u : State} (h : OnlyOwn s u) : u.link = s.link := by rw [h]; rfl

theorem OnlyOwn.rd {s u : State} (h : OnlyOwn s u) : u.rd = s.rd := by rw [h]; rfl

theorem OnlyOwn.tab {s u : State} (h : OnlyOwn s u) : u.tab = s.tab := by rw [h]

theorem OnlyOwn.toll {s u : State} (h : OnlyOwn s u) : u.toll = s.toll := by rw [h]; rfl

theorem OnlyOwn.decoder {s u : State} (h : OnlyOwn s u) : u.decoder = s.decoder := by rw [h]; rfl

/-- The loss of the owner's path starts its lapse (R83, R84). -/
theorem ownerDown_lapses {s : State} {c : Nat} (howner : s.own.owner = some c)
    (hst : s.own.st = .owned ∨ s.own.st = .handover) : (s.ownerDown c).own.st = .lapsing := by
  rw [State.ownerDown, if_pos ⟨howner, hst⟩]

/-- The states differ at most in which stores have reached their commit point. -/
def OnlyCommits (s u : State) : Prop := u = { s with uncommitted := u.uncommitted }

theorem OnlyCommits.trans {s u v : State} (h : OnlyCommits s u) (k : OnlyCommits u v) : OnlyCommits s v :=
  Eq.trans k (by rw [h])

theorem onlyCommits_commitFlds (s : State) (idx : Nat) (fs : List Fld) : OnlyCommits s (s.commitFlds idx fs) :=
  List.foldlRecOn (motive := OnlyCommits s) fs _ rfl (fun _ hv _ _ => hv.trans rfl)

theorem onlyCommits_commitL (s : State) (h : Nat) : OnlyCommits s (s.commitL h) := by
  have fields := onlyCommits_commitFlds s h [PORT.LD_COUNT, PORT.L1_ENABLE, PORT.MAXRATE]
  unfold State.commitL
  dsimp only
  split
  · exact fields
  · exact (fields.trans (onlyCommits_commitFlds _ _ _)).trans (onlyCommits_commitFlds _ _ _)

theorem OnlyCommits.link {s u : State} (h : OnlyCommits s u) : u.link = s.link := by rw [h]; rfl

/-- Another link than the one replaced. -/
theorem link_setLink_ne (s : State) (l : Nat) (x : Link) {h : Nat} (hne : h ≠ l) : (s.setLink l x).link h = s.link h :=
  tget_tset_ne _ _ _ hne

/-! ### Training (R172, R191, R198) -/

/-- A link's record once it is DL_Active: what was negotiated, with the credits that the host grants. -/
def trainedLink (s : State) (k : Link) (l rate width : Nat) (f cxl : Bool) : Link :=
  { k with up := true, rate := rate, trained := width, width := width, flit256 := f, cxl := cxl && decide (l < 32),
           l1 := false, l0p := .stable, byHost := false, holdAt := s.time.fclk, lowSince := none, express := false,
           toFull := false, load := 0, crBisnp := s.granted 0, crPosted := s.granted 1, crNonPosted := s.granted 2 }

/-- `a` is `s` with the stores that training commits; in it the link becomes DL_Active, and its grants are taken (R191). -/
def trained (s a : State) (l rate width : Nat) (f cxl : Bool) : State :=
  let v := a.setLink l (trainedLink s (a.link l) l rate width f cxl)
  { v with freeUsed := v.freeUsed + 3 }

theorem trained_link_self (s a : State) (l rate width : Nat) (f cxl : Bool) :
    (trained s a l rate width f cxl).link l = trainedLink s (a.link l) l rate width f cxl :=
  State.link_setLink_self a l (trainedLink s (a.link l) l rate width f cxl)

theorem trained_link_ne (s a : State) {l h : Nat} (rate width : Nat) (f cxl : Bool) (hne : h ≠ l) :
    (trained s a l rate width f cxl).link h = a.link h :=
  link_setLink_ne a l (trainedLink s (a.link l) l rate width f cxl) hne

/-- A head's PORT words as a link of this rate, width, flit mode and protocol shows them (R198). -/
def portShows (s : State) (l rate width flit256 cxl : Nat) : State :=
  (((s.wr PORT.LINK_RATE l rate).wr PORT.LINK_WIDTH l width).wr PORT.FLIT256 l flit256).wr PORT.CXL l cxl

theorem portShows_rate (s : State) {l rate : Nat} (width flit256 cxl : Nat) (hl : l < 2 ^ 48) (h : rate < 16) :
    (portShows s l rate width flit256 cxl).rd PORT.LINK_RATE l = rate := by
  unfold portShows
  rw [rd_wr_beside _ _ (by decide) hl, rd_wr_beside _ _ (by decide) hl, rd_wr_beside _ _ (by decide) hl,
    rd_wr_of_lt s l (by decide) h]

theorem portShows_width (s : State) {l width : Nat} (rate flit256 cxl : Nat) (hl : l < 2 ^ 48) (h : width < 32) :
    (portShows s l rate width flit256 cxl).rd PORT.LINK_WIDTH l = width := by
  unfold portShows
  rw [rd_wr_beside _ _ (by decide) hl, rd_wr_beside _ _ (by decide) hl, rd_wr_of_lt _ l (by decide) h]

/-- A head's link trains: fields of code L commit, and PORT shows the link. -/
theorem exec_linkTraining_head {s : State} {l : LinkNo} {rate : BitVec 4} {width : BitVec 5} {f cxl : Bool} (hl : l.val < 32)
    (hmay : s.mayTrain l = true) (hrate : 1 ≤ rate.toNat) (hmax : rate.toNat ≤ (s.commitL l).maxRate l)
    (hwidth : Machine.widthOk width.toNat = true) (hfull : width.toNat ≤ s.fullWidth l)
    (hcxl : cxlOffered rate.toNat f cxl = true) (hsnoops : s.coh.snoops = []) :
    exec (.linkTrainingComplete l rate width f cxl) s =
      .next ((portShows (trained s (s.commitL l) l rate.toNat width.toNat f cxl) l rate.toNat width.toNat
        (if f then 1 else 0) (if cxl then 1 else 0)).funcBack l) := by
  have negotiated : (s.mayTrain l && decide (1 ≤ rate.toNat) && decide (rate.toNat ≤ (s.commitL l).maxRate l) &&
      Machine.widthOk width.toNat && decide (width.toNat ≤ s.fullWidth l) && cxlOffered rate.toNat f cxl) = true := by
    simp [hmay, hrate, hmax, hwidth, hfull, hcxl]
  have noSnoops : (s.commitL l).coh.snoops = [] := by rw [onlyCommits_commitL s l]; exact hsnoops
  change execLinkTrainingComplete l rate width f cxl s = _
  unfold execLinkTrainingComplete
  dsimp only
  rw [if_pos hl, if_pos negotiated, if_pos hl]
  simp only [State.wr_coh, State.setLink_coh, noSnoops, List.foldl_nil]
  rfl

/-- The management endpoint's link trains, and no table word changes. -/
theorem exec_linkTraining_endpoint {s : State} {rate : BitVec 4} {width : BitVec 5} {f cxl : Bool}
    (hmay : s.mayTrain 32 = true) (hrate : 1 ≤ rate.toNat) (hmax : rate.toNat ≤ 4)
    (hwidth : Machine.widthOk width.toNat = true) (hfull : width.toNat ≤ 4)
    (hcxl : cxlOffered rate.toNat f cxl = true) (hsnoops : s.coh.snoops = []) :
    exec (.linkTrainingComplete 32 rate width f cxl) s =
      .next ((trained s s 32 rate.toNat width.toNat f cxl).funcBack 32) := by
  have endpoint : ((32 : LinkNo) : Nat) = 32 := rfl
  have isEndpoint : ¬ (32 : Nat) < 32 := by omega
  have negotiated : (s.mayTrain 32 && decide (1 ≤ rate.toNat) && decide (rate.toNat ≤ s.maxRate 32) &&
      Machine.widthOk width.toNat && decide (width.toNat ≤ s.fullWidth 32) && cxlOffered rate.toNat f cxl) = true := by
    have advertised : s.maxRate 32 = 4 := rfl
    have lanes : s.fullWidth 32 = 4 := rfl
    simp [hmay, hrate, advertised, hmax, hwidth, lanes, hfull, hcxl]
  change execLinkTrainingComplete 32 rate width f cxl s = _
  unfold execLinkTrainingComplete
  dsimp only
  rw [endpoint, if_neg isEndpoint, if_pos negotiated, if_neg isEndpoint]
  simp only [State.setLink_coh, hsnoops, List.foldl_nil]
  rfl

/-! ### The loss of a link (R83, R196, R197) -/

/-- The link's record once it is out of DL_Active. -/
def linkCleared (s : State) (l : Nat) : State :=
  s.setLink l { s.link l with up := false, rate := 0, width := 0, trained := 0, flit256 := false, cxl := false, l1 := false,
                              l0p := .stable, byHost := false, lowSince := none, express := false, toFull := false, load := 0 }

/-- The decoders of a head's LDs at reset, and their TAG copies with them. -/
def decodersDropped (s : State) (l : Nat) : State :=
  (List.range 16).foldl (fun s i => s.wr TAG.DECODERS (16 * l + i) 0)
    ((List.range 64).foldl (fun s i => s.setDecoder (16 * l + i / 4) (i % 4) Decoder.init) s)

/-- Isolation ends, and with it the handling of its fault (R196). -/
def isolationEnded (s : State) (l : Nat) : State :=
  if s.rdB PORT.ISOLATED l then (s.wr PORT.ISOLATED l 0).endHandling (uid 0 l) [0x19] else s

/-- The requests of a head that wait at its tollgate or a roundabout are discarded (R197). -/
def requestsDropped (s : State) (l : Nat) : State :=
  let v := s.setToll l { s.toll l with queue := [] }
  (List.range 16).foldl (fun v r => v.setRb r { v.rb r with queue := (v.rb r).queue.filter (fun x => x.2.head ≠ some l) }) v

/-- A head's link, its PORT words and its decoders as a loss leaves them. -/
def portDropped (s : State) (l : Nat) : State :=
  isolationEnded (decodersDropped (portShows (linkCleared s l) l 0 0 0 0) l) l

/-- All that a head's link holds is dropped; what the loss means for ownership is `ownerDown`'s. -/
def headDropped (s : State) (l : Nat) : State := requestsDropped (portDropped s l) l

theorem exec_linkDown (s : State) (l : LinkNo) : exec (.linkDown l) s = .next (s.linkLost l) := rfl

theorem linkLost_head {s : State} {l : Nat} (hup : (s.link l).up = true) (hl : l < 32) :
    s.linkLost l = (headDropped s l).ownerDown (l + 2) := by
  have up : ¬ (!(s.link l).up) = true := by simp [hup]
  have isHead : ¬ l = 32 := by omega
  unfold State.linkLost
  dsimp only
  rw [if_neg up, if_neg isHead]
  rfl

theorem linkLost_endpoint {s : State} (hup : (s.link 32).up = true) : s.linkLost 32 = (linkCleared s 32).ownerDown 0 := by
  have up : ¬ (!(s.link 32).up) = true := by simp [hup]
  unfold State.linkLost
  dsimp only
  rw [if_neg up, if_pos rfl]
  rfl

theorem linkLost_down {s : State} {l : Nat} (h : (s.link l).up = false) : s.linkLost l = s := by
  have down : (!(s.link l).up) = true := by simp [h]
  unfold State.linkLost
  dsimp only
  rw [if_pos down]

theorem linkCleared_up (s : State) (l : Nat) : ((linkCleared s l).link l).up = false :=
  congrArg Link.up (State.link_setLink_self s l _)

theorem linkCleared_ne (s : State) {l h : Nat} (hne : h ≠ l) : (linkCleared s l).link h = s.link h :=
  link_setLink_ne s l _ hne

/-! ### What each part of a head's loss leaves alone -/

/-- The links and the election are the same. -/
structure LinkFrame (s u : State) : Prop where
  links : u.links = s.links
  own : u.own = s.own

theorem LinkFrame.trans {s u v : State} (h : LinkFrame s u) (k : LinkFrame u v) : LinkFrame s v :=
  ⟨k.links.trans h.links, k.own.trans h.own⟩

theorem LinkFrame.link {s u : State} (h : LinkFrame s u) : u.link = s.link := by
  unfold State.link
  rw [h.links]

theorem OnlyTables.linkFrame {s u : State} (h : OnlyTables s u) : LinkFrame s u := by
  rw [h]; exact ⟨rfl, rfl⟩

theorem OnlyTables.decoder {s u : State} (h : OnlyTables s u) : u.decoder = s.decoder := by
  rw [h]; rfl

theorem onlyTables_portShows (s : State) (l rate width flit256 cxl : Nat) :
    OnlyTables s (portShows s l rate width flit256 cxl) := rfl

theorem onlyTables_isolationEnded (s : State) (l : Nat) : OnlyTables s (isolationEnded s l) := by
  unfold isolationEnded
  split
  · exact (onlyTables_wr s _ _ _).trans (onlyTables_endHandling _ _ _)
  · exact .refl s

theorem onlyTables_tagCleared (s : State) (l : Nat) :
    OnlyTables s ((List.range 16).foldl (fun s i => s.wr TAG.DECODERS (16 * l + i) 0) s) :=
  onlyTables_foldl _ _ (fun _ _ v => onlyTables_wr v _ _ _) s

theorem linkFrame_decodersDropped (s : State) (l : Nat) : LinkFrame s (decodersDropped s l) := by
  have decoders : LinkFrame s
      ((List.range 64).foldl (fun (v : State) i => v.setDecoder (16 * l + i / 4) (i % 4) Decoder.init) s) :=
    List.foldlRecOn (motive := LinkFrame s) _ _ ⟨rfl, rfl⟩ (fun v hv i _ => hv.trans ⟨rfl, rfl⟩)
  exact decoders.trans (onlyTables_tagCleared _ l).linkFrame

theorem linkFrame_portDropped (s : State) (l : Nat) : LinkFrame (linkCleared s l) (portDropped s l) :=
  ((onlyTables_portShows _ l 0 0 0 0).linkFrame.trans (linkFrame_decodersDropped _ l)).trans
    (onlyTables_isolationEnded _ l).linkFrame

/-- The states differ at most in what tollgates and roundabouts hold. -/
def OnlyTraffic (s u : State) : Prop := u = { s with traffic := u.traffic }

theorem OnlyTraffic.trans {s u v : State} (h : OnlyTraffic s u) (k : OnlyTraffic u v) : OnlyTraffic s v :=
  Eq.trans k (by rw [h])

theorem OnlyTraffic.linkFrame {s u : State} (h : OnlyTraffic s u) : LinkFrame s u := by
  rw [h]; exact ⟨rfl, rfl⟩

theorem OnlyTraffic.rd {s u : State} (h : OnlyTraffic s u) : u.rd = s.rd := by rw [h]; rfl

theorem OnlyTraffic.decoder {s u : State} (h : OnlyTraffic s u) : u.decoder = s.decoder := by rw [h]; rfl

/-- The head's tollgate is empty; the roundabouts that drop its requests keep the tollgates. -/
theorem requestsDropped_spec (s : State) (l : Nat) :
    OnlyTraffic s (requestsDropped s l) ∧ ((requestsDropped s l).toll l).queue = [] := by
  refine List.foldlRecOn (motive := fun v => OnlyTraffic s v ∧ (v.toll l).queue = []) _ _ ?tollgate ?roundabout
  case tollgate => exact ⟨rfl, congrArg Toll.queue (State.toll_setToll_self s l _)⟩
  case roundabout =>
    intro v ⟨hframe, hqueue⟩ r _
    exact ⟨hframe.trans rfl, hqueue⟩

/-! ### What the loss of a head's link leaves -/

theorem decoder_setDecoder (s : State) (ld n : Nat) (x : Decoder) (ld' n' : Nat) :
    (s.setDecoder ld n x).decoder ld' n' = if ld' * 4 + n' = ld * 4 + n then x else s.decoder ld' n' :=
  tget_tset _ _ _ _ _

/-- A decoder among those that are reset in turn, or at reset before, is at reset after. -/
theorem decoder_foldl_init (l i : Nat) (js : List Nat) (s : State)
    (h : i ∈ js ∨ s.decoder (16 * l + i / 4) (i % 4) = Decoder.init) :
    (js.foldl (fun (v : State) j => v.setDecoder (16 * l + j / 4) (j % 4) Decoder.init) s).decoder (16 * l + i / 4) (i % 4) =
      Decoder.init := by
  induction js generalizing s with
  | nil => exact h.resolve_left List.not_mem_nil
  | cons j js ih =>
    refine ih _ ?_
    rw [decoder_setDecoder]
    rcases h with hmem | hinit
    · rcases List.mem_cons.mp hmem with rfl | hlater
      · exact .inr (if_pos rfl)
      · exact .inl hlater
    · exact .inr (by rw [hinit, ite_self])

theorem decodersDropped_uncommitted (s : State) (l : Nat) {i n : Nat} (hi : i < 16) (hn : n < 4) :
    ((decodersDropped s l).decoder (16 * l + i) n).committed = false := by
  have hfold := decoder_foldl_init l (4 * i + n) (List.range 64) s (.inl (List.mem_range.mpr (by omega)))
  have hld : (4 * i + n) / 4 = i := by omega
  have hnum : (4 * i + n) % 4 = n := by omega
  rw [hld, hnum] at hfold
  unfold decodersDropped
  rw [(onlyTables_tagCleared _ l).decoder, hfold]
  rfl

/-- The decoders' copies are words of TAG: PORT stands. -/
theorem rd_decodersDropped (s : State) {l i : Nat} (f : Fld) (h : f.lay.tbl ≠ TAG.DECODERS.lay.tbl) (hl : l < 32)
    (hi : i < 2 ^ 48) (hf : f.word < 256) : (decodersDropped s l).rd f i = s.rd f i := by
  have decoders : ((List.range 64).foldl (fun (v : State) j => v.setDecoder (16 * l + j / 4) (j % 4) Decoder.init) s).tab =
      s.tab :=
    List.foldlRecOn (motive := fun (v : State) => v.tab = s.tab) _ _ rfl (fun v hv _ _ => hv)
  refine List.foldlRecOn (motive := fun (v : State) => v.rd f i = s.rd f i) _ _ ?_ (fun v hv j hj => ?_)
  · unfold State.rd State.wordAt
    rw [decoders]
  · have hj16 := List.mem_range.mp hj
    rw [rd_wr_otherTable v f TAG.DECODERS i (16 * l + j) 0 h hi (by omega) hf (by decide), hv]

theorem isolationEnded_isolated (s : State) {l : Nat} (hl : l < 2 ^ 48) : (isolationEnded s l).rd PORT.ISOLATED l = 0 := by
  unfold isolationEnded
  split
  case isTrue =>
    rw [rd_endHandling _ _ _ PORT.ISOLATED l (by decide) hl (by decide), rd_wr_of_lt s l (by decide) (by decide)]
  case isFalse h =>
    have hbit : s.rd PORT.ISOLATED l < 2 := State.rd_lt s PORT.ISOLATED l
    have hnot : s.rd PORT.ISOLATED l ≠ 1 := by simpa [State.rdB] using h
    omega

theorem rd_isolationEnded (s : State) {l : Nat} {f : Fld} (h : f.beside PORT.ISOLATED = true) (hf : f.lay.tbl ≠ 0x0E)
    (hl : l < 2 ^ 48) (hw : f.word < 256) : (isolationEnded s l).rd f l = s.rd f l := by
  unfold isolationEnded
  split
  · rw [rd_endHandling _ _ _ f l hf hl hw, rd_wr_beside s 0 h hl]
  · rfl

/-- A head whose link is lost: PORT shows no link and no isolation, its tollgate is empty, its decoders are uncommitted, and
neither other links nor the election have changed. -/
structure HeadDropped (s u : State) (l : Nat) : Prop where
  links : u.link = (linkCleared s l).link
  own : u.own = s.own
  rate : u.rd PORT.LINK_RATE l = 0
  width : u.rd PORT.LINK_WIDTH l = 0
  isolated : u.rd PORT.ISOLATED l = 0
  queue : (u.toll l).queue = []
  decoders : ∀ i < 16, ∀ n < 4, (u.decoder (16 * l + i) n).committed = false

theorem headDropped_spec (s : State) {l : Nat} (hl : l < 32) : HeadDropped s (headDropped s l) l := by
  have hidx : l < 2 ^ 48 := by omega
  obtain ⟨htraffic, hqueue⟩ := requestsDropped_spec (portDropped s l) l
  have frame : LinkFrame (linkCleared s l) (headDropped s l) :=
    (linkFrame_portDropped s l).trans htraffic.linkFrame
  have reads : (headDropped s l).rd = (portDropped s l).rd := htraffic.rd
  refine ⟨frame.link, frame.own, ?rate, ?width, ?isolated, hqueue, ?decoders⟩
  case rate =>
    rw [reads, portDropped, rd_isolationEnded _ (by decide) (by decide) hidx (by decide),
      rd_decodersDropped _ PORT.LINK_RATE (by decide) hl hidx (by decide), portShows_rate _ _ _ _ hidx (by decide)]
  case width =>
    rw [reads, portDropped, rd_isolationEnded _ (by decide) (by decide) hidx (by decide),
      rd_decodersDropped _ PORT.LINK_WIDTH (by decide) hl hidx (by decide), portShows_width _ _ _ _ hidx (by decide)]
  case isolated => rw [reads, portDropped, isolationEnded_isolated _ hidx]
  case decoders =>
    intro i hi n hn
    have kept := htraffic.decoder.trans (onlyTables_isolationEnded _ l).decoder
    rw [headDropped, kept, decodersDropped_uncommitted _ l hi hn]

/-! ### HDM decoders (R178) -/

section Decoder
variable {s : State} {ld : LdNo} {n : Fin 4} {d : DecoderSet} (hup : s.funcUp ld = true)
include hup

/-- An LD of size 0 commits no decoder (log entry 43). -/
theorem exec_hdmDecoderCommit_empty (hsize : s.inf TAG.LD_SIZE_LOG2 ld = 0) :
    exec (.hdmDecoderCommit ld n d) s = .next (s.setDecoder ld n { s.decoder ld n with err := true }) := by
  have up : ¬ (!s.funcUp ld) = true := by simp [hup]
  change execHdmDecoderCommit ld n d s = _
  unfold execHdmDecoderCommit
  rw [if_neg up]
  dsimp only
  rw [if_neg (fun h => h.1 hsize)]

/-- The decoder that a commit sets up in an LD whose other decoders are not committed. -/
def soleDecoder (d : DecoderSet) : Decoder :=
  { committed := true, base := d.base.toNat, size := d.size.toNat, ways := d.ways, gran := d.gran, ldBase := d.skip.toNat,
    bi := d.bi, way := none, err := false }

omit hup in
/-- With no decoder committed below it a decoder starts at its DPA skip. -/
theorem endBelow_uncommitted (s : State) (ld n : Nat) (h : ∀ m < n, (s.decoder ld m).committed = false) :
    ((List.range n).map (s.decoder ld)).foldl (fun a d => if d.committed then max a d.ldEnd else a) 0 = 0 := by
  rw [List.foldl_map]
  refine List.foldlRecOn (motive := fun (a : Nat) => a = 0) _ _ rfl (fun a ha m hm => ?_)
  rw [h m (List.mem_range.mp hm)]
  exact ha

theorem exec_hdmDecoderCommit_sole (hsize : s.inf TAG.LD_SIZE_LOG2 ld ≠ 0) (hways : Machine.widthOk d.ways = true)
    (hgran : [256, 512, 1024, 2048, 4096, 8192, 16384].contains d.gran = true) (hpos : 0 < d.size.toNat)
    (hothers : ∀ m, m ≠ n.val → m < 4 → (s.decoder ld m).committed = false)
    (hspace : d.skip.toNat + d.size.toNat / d.ways ≤
      2 ^ (s.inf TAG.LD_SIZE_LOG2 ld + s.inf TAG.KEYID_WIDTH ld + s.inf TAG.CLASS_WIDTH ld)) :
    exec (.hdmDecoderCommit ld n d) s = .next ((s.setDecoder ld n (soleDecoder d)).wr TAG.DECODERS ld
      ((BitVec.ofNat 4 (s.rd TAG.DECODERS ld)) ||| BitVec.ofNat 4 (2 ^ n.val)).toNat) := by
  have up : ¬ (!s.funcUp ld) = true := by simp [hup]
  have below := endBelow_uncommitted s ld n (fun m hm => hothers m (by omega) (by omega))
  have apart : ∀ hits : Decoder → Bool,
      (((List.range 4).filter (· ≠ n.val)).map (s.decoder ld)).any (fun e => e.committed && hits e) = false := by
    intro hits
    simp only [List.any_eq_false, List.mem_map, List.mem_filter, List.mem_range, decide_eq_true_eq]
    rintro _ ⟨m, ⟨hm, hne⟩, rfl⟩
    simp [hothers m hne hm]
  change execHdmDecoderCommit ld n d s = _
  unfold execHdmDecoderCommit
  rw [if_neg up]
  dsimp only
  rw [below, Nat.zero_add, if_pos ⟨hsize, hways, hgran, hpos, hspace, apart _⟩]
  rfl

end Decoder

/-! ### Configuration requests (R58, R75, R176, R200, R202) -/

section Config
variable {s : State} {f : Func} (hup : s.funcUp f = true)
include hup

theorem exec_configurationRead (c : CfgReg) : exec (.configurationRequest ⟨f, .read c⟩) s = .next (s.cfgRead f c) := by
  change execConfigurationRequest ⟨f, .read c⟩ s = _
  simp only [execConfigurationRequest, hup, Bool.not_true, Bool.false_eq_true, if_false]

theorem exec_configurationSetBiId (hf : f.val ≠ 256) (v : BitVec 12) : exec (.configurationRequest ⟨f, .setBiId v⟩) s =
    .next ((s.setLink (f / 16) { s.link (f / 16) with biId := v }).send (.configDone f)) := by
  change execConfigurationRequest ⟨f, .setBiId v⟩ s = _
  simp only [execConfigurationRequest, hup, hf, Bool.not_true, Bool.false_eq_true, if_false]

end Config

/-- What a head's function answers, by what is asked for. -/
theorem cfgRead_head (s : State) {f : Nat} (hf : f ≠ 256) :
    (∀ c, s.cfgRead f (.cap c) = s.send (.config f (s.capability f c))) ∧
    s.cfgRead f .memoryActive = s.send (.config f (some [if s.board.active then 1 else 0])) ∧
    (∀ n, s.cfgRead f (.errorNotCommitted n) = s.send (.config f (some [if (s.decoder f n).err then 1 else 0]))) ∧
    s.cfgRead f .cdat = s.send (.cdat f (s.cdat f)) := by
  simp only [State.cfgRead, if_neg hf, implies_true, and_self]

/-! ### Credits (R191) -/

section Credits
variable {s : State} {h : HeadNo} (n : BitVec 16) (hlive : s.live = true) (hup : (s.link h).up = true)
include hlive hup

theorem exec_creditReturn_posted : exec (.flowControlCreditReturn h .posted n) s =
    .next (s.setLink h { s.link h with crPosted := (s.link h).crPosted + n.toNat }) := by
  change execFlowControlCreditReturn h .posted n s = _
  simp only [execFlowControlCreditReturn, hlive, hup, Bool.not_true, Bool.or_self, Bool.false_eq_true, if_false]

theorem exec_creditReturn_nonPosted : exec (.flowControlCreditReturn h .nonPosted n) s =
    .next (s.setLink h { s.link h with crNonPosted := (s.link h).crNonPosted + n.toNat }) := by
  change execFlowControlCreditReturn h .nonPosted n s = _
  simp only [execFlowControlCreditReturn, hlive, hup, Bool.not_true, Bool.or_self, Bool.false_eq_true, if_false]

/-- No snoop waits for the credits. -/
theorem exec_creditReturn_bisnp (hsnoops : s.coh.snoops = []) : exec (.flowControlCreditReturn h .bisnp n) s =
    .next (s.setLink h { s.link h with crBisnp := (s.link h).crBisnp + n.toNat }) := by
  change execFlowControlCreditReturn h .bisnp n s = _
  simp only [execFlowControlCreditReturn, hlive, hup, Bool.not_true, Bool.or_self, Bool.false_eq_true, if_false,
    State.setLink_coh, hsnoops, List.foldl_nil]

end Credits

/-! ### The statement -/

/-- Settles O42: each command's equation; training by `trained` and `portShows`, a loss by `headDropped_spec`. -/
theorem linksTrainAndGoDown : Obligations.LinksTrainAndGoDown := by
  unfold Obligations.LinksTrainAndGoDown
  intro s
  refine ⟨?trainHead, ?trainEndpoint, ?lostHead, ?lostEndpoint, ?down, ?emptyLd, ?decoder, ?config, ?anyConfig, ?constants,
    ?credits⟩
  case trainHead =>
    intro l rate width f cxl hl hmay hrate hmax hwidth hfull hcxl hsnoops
    have hidx : l.val < 2 ^ 48 := by omega
    have frame := onlyOwn_funcBack (portShows (trained s (s.commitL l) l rate.toNat width.toNat f cxl) l rate.toNat
      width.toNat (if f then 1 else 0) (if cxl then 1 else 0)) l
    have links := frame.link.trans (onlyTables_portShows _ _ _ _ _ _).linkFrame.link
    refine ⟨_, exec_linkTraining_head hl hmay hrate hmax hwidth hfull hcxl hsnoops, ?_⟩
    rw [links, frame.rd, trained_link_self]
    refine ⟨rfl, rfl, rfl, rfl, rfl, ?_, portShows_rate _ _ _ _ hidx rate.isLt, portShows_width _ _ _ _ hidx width.isLt,
      fun h hne => ?_⟩
    · simp [trainedLink, hl]
    · rw [trained_link_ne _ _ _ _ _ _ hne, (onlyCommits_commitL s l).link]
  case trainEndpoint =>
    intro rate width f cxl hmay hrate hmax hwidth hfull hcxl hsnoops
    have frame := onlyOwn_funcBack (trained s s 32 rate.toNat width.toNat f cxl) 32
    refine ⟨_, exec_linkTraining_endpoint hmay hrate hmax hwidth hfull hcxl hsnoops, ?_⟩
    rw [frame.link, frame.tab, trained_link_self]
    exact ⟨rfl, rfl, rfl, rfl⟩
  case lostHead =>
    intro l hl hup
    have frame := onlyOwn_ownerDown (headDropped s l) (l + 2)
    obtain ⟨hlinks, hown, hrate, hwidth, hisolated, hqueue, hdecoders⟩ := headDropped_spec s hl
    refine ⟨_, by rw [exec_linkDown, linkLost_head hup hl], ?_⟩
    rw [frame.link, frame.rd, frame.toll, frame.decoder, hlinks]
    refine ⟨linkCleared_up s l, hrate, hwidth, hisolated, hqueue, hdecoders, fun howner hst => ?_,
      fun h hne => linkCleared_ne s hne⟩
    rw [← hown] at howner hst
    exact ownerDown_lapses howner hst
  case lostEndpoint =>
    intro hup
    have frame := onlyOwn_ownerDown (linkCleared s 32) 0
    refine ⟨_, (exec_linkDown s 32).trans (congrArg _ (linkLost_endpoint hup)), ?_⟩
    rw [frame.link, frame.tab]
    exact ⟨linkCleared_up s 32, rfl, fun howner hst => ownerDown_lapses (s := linkCleared s 32) howner hst⟩
  case down => exact fun l h => by rw [exec_linkDown, linkLost_down h]
  case emptyLd => exact fun ld n d hup _ hsize => exec_hdmDecoderCommit_empty hup hsize
  case decoder =>
    exact fun ld n d hup _ hsize hways hgran hpos hothers hspace =>
      exec_hdmDecoderCommit_sole hup hsize hways hgran hpos hothers hspace
  case config =>
    intro f hup hf
    obtain ⟨hcap, hactive, herr, hcdat⟩ := cfgRead_head s hf
    simp only [exec_configurationRead hup, hcap, hactive, herr, hcdat, implies_true, true_and]
    exact exec_configurationSetBiId hup hf
  case anyConfig => exact fun f hup => ⟨exec_configurationRead hup .mailboxReady, exec_configurationRead hup .spdmPhase⟩
  case constants => exact fun f => ⟨rfl, rfl, rfl, rfl, rfl, rfl⟩
  case credits =>
    exact fun h n hlive hup => ⟨exec_creditReturn_posted n hlive hup, exec_creditReturn_nonPosted n hlive hup,
      exec_creditReturn_bisnp n hlive hup⟩

end Sys2Proof.Machine
end

section
/-! PROOFS. The loader's requests as messages (R150-R155, R158, R164), the window's WIN_CLEAR (R153), and the end of a
wayfinder's restart (R164). -/
namespace Sys2Proof.Machine

/-! ### A request and its response (R151, R152) -/

/-- The state that a sender's request is served in: one from the BMC shows first that its path is back (R83). -/
def State.heardFrom (s : State) (snd : Sender) : State :=
  match snd with
  | .bmc => s.from_ 1
  | _ => s

theorem loaderOp_served {s : State} {snd : Sender} (hup : s.loaderUp snd = true) (hwin : snd ≠ .window)
    (held : State → Bool) (f : State → State) : s.loaderOp snd held f = f (s.heardFrom snd) := by
  have hup' : ¬ ((!s.loaderUp snd) = true) := by simp [hup]
  exact (if_neg hup').trans (if_neg fun h => hwin h.1)

section Messages
variable {snd : Sender} (hwin : snd ≠ .window) (a : State)
include hwin

theorem reply_message (status program : Nat) (extra : List (BitVec 8)) : a.reply snd status program extra =
    a.send (.loader (BitVec.ofNat 8 status) (BitVec.ofNat 8 program) extra) :=
  if_neg hwin

theorem reply_named (status : Nat) (p : BitVec 8) (extra : List (BitVec 8)) : a.reply snd status p.toNat extra =
    a.send (.loader (BitVec.ofNat 8 status) p extra) := by
  rw [reply_message hwin, BitVec.ofNat_toNat, BitVec.setWidth_eq]

theorem replyNone_message (status : Nat) : a.replyNone snd status =
    a.took.send (.loader (BitVec.ofNat 8 status) (BitVec.ofNat 8 (a.fresh.toNat % 256)) []) :=
  reply_message hwin a.took status _ []

end Messages

/-! ### Requests that only the owner may make (R151) -/

section NotOwner
variable {a : State} {snd : Sender} (hnot : a.isOwner snd = false)
include hnot

theorem startStatus_notOwner (m : BitVec 16) (thr prog : Nat) (args : List (BitVec 8)) :
    a.startStatus snd m thr prog args = 1 := by
  simp [State.startStatus, hnot]

theorem stopStatus_notOwner (m : BitVec 16) (thr : Nat) : a.stopStatus snd m thr = 1 := by
  simp [State.stopStatus, hnot]

end NotOwner

/-! ### What each request does to the state it is served in -/

section Served
variable {s a : State} {snd : Sender} (served : ∀ held f, s.loaderOp snd held f = f a)
include served

theorem exec_load (m : BitVec 16) (img : List (BitVec 8)) : exec (.load snd m img) s = .next
    (if a.loadStatus snd m img = 0 then (a.place m img).reply snd 0 a.freeProgram []
     else a.replyNone snd (a.loadStatus snd m img)) := by
  change execLoad snd m img s = _
  rw [execLoad, served]

theorem exec_unload (p : BitVec 8) : exec (.unload snd p) s = .next
    ((if a.unloadStatus snd p.toNat = 0 then a.removeProgram p.toNat else a).reply snd (a.unloadStatus snd p.toNat)
      p.toNat []) := by
  change execUnload snd p s = _
  rw [execUnload, served]

theorem exec_start (m : BitVec 16) (thr p : BitVec 8) (args : List (BitVec 8)) : exec (.start snd m thr p args) s = .next
    ((if a.startStatus snd m thr.toNat p.toNat args = 0 then a.startOwner ((oneWf m).getD 0) thr.toNat p.toNat args
      else a).reply snd (a.startStatus snd m thr.toNat p.toNat args) p.toNat []) := by
  change execStart snd m thr p args s = _
  rw [execStart, served]

theorem exec_stop (m : BitVec 16) (thr : BitVec 8) : exec (.stop snd m thr) s = .next
    ((if a.stopStatus snd m thr.toNat = 0 then a.stopThread ((oneWf m).getD 0) thr.toNat
      else a).replyNone snd (a.stopStatus snd m thr.toNat)) := by
  change execStop snd m thr s = _
  rw [execStop, served]

/-- A QUERY of one wayfinder that names no program answers SUCCESS whatever the wayfinder's state (log entry 30). -/
theorem exec_query_wayfinder {m : BitVec 16} {w : Nat} (hm : oneWf m = some w) :
    exec (.query snd m 0) s = .next (a.reply snd 0 0 (a.queryBytes w)) := by
  change execQuery snd m 0 s = _
  rw [execQuery, served]
  simp only [hm, ne_eq, not_true_eq_false, false_and, if_false]
  rfl

theorem exec_restart_notOwner (m : BitVec 16) (hnot : a.isOwner snd = false) :
    exec (.restart snd m) s = .next (a.replyNone snd 1) := by
  change execRestart snd m s = _
  rw [execRestart, served]
  simp only [hnot, Bool.not_false, if_true]

theorem exec_restart_owner {m : BitVec 16} {w : Nat} (hm : oneWf m = some w) (howner : a.isOwner snd = true)
    (havail : a.wfAvail w = true) : exec (.restart snd m) s = .next ((a.restartWf w).replyNone snd 0) := by
  change execRestart snd m s = _
  rw [execRestart, served]
  simp only [howner, hm, havail, Bool.not_true, Bool.false_eq_true, if_false]

end Served

/-! ### WIN_CLEAR, and the end of a restart (R153, R164) -/

theorem exec_winClear_idle {s : State} (hup : s.funcUp 256 = true) (hidle : s.soft.win.busy = false) :
    exec .winClear s = .next { s with soft := { s.soft with win := { s.soft.win with buf := [] } } } := by
  change execWinClear s = _
  simp only [execWinClear, State.winClear, hup, hidle, Bool.false_eq_true, if_true, if_false]

theorem exec_wayfinderRestartComplete {s : State} (w : WfNo) (hlive : s.live = true) (hrestart : (s.wf w).restarting = true)
    (hhold : s.board.hold = .none) : exec (.wayfinderRestartComplete w) s =
      .next (((s.setWf w { s.wf w with restarting := false }).startBase w).endHandling (uid 8 w) [0x1E, 0x1F]) := by
  change execWayfinderRestartComplete w s = _
  simp only [execWayfinderRestartComplete, hlive, hrestart, hhold, beq_self_eq_true, Bool.and_self, if_true]

/-! ### The statement -/

/-- Settles O41: each request's equation in the state it is served in (`loaderOp_served`), its response a message. -/
theorem loaderRequests : Obligations.LoaderRequests := by
  unfold Obligations.LoaderRequests
  intro s snd hup hwin a ha
  have heard : a = s.heardFrom snd := by rw [ha]; cases snd <;> rfl
  have served : ∀ held f, s.loaderOp snd held f = f a := heard ▸ loaderOp_served hup hwin
  refine ⟨?loaded, ?notLoaded, ?unloaded, ?notUnloaded, ?started, ?stopped, ?queried, ?restarted, ?notOwner, ?cleared,
    ?restartEnds⟩
  case loaded =>
    intro m img hst
    rw [exec_load served, if_pos hst, reply_message hwin]
    rfl
  case notLoaded =>
    intro m img n hn hst
    rw [exec_load served, ← hn, if_neg hst, replyNone_message hwin]
  case unloaded =>
    intro p hst
    rw [exec_unload served, if_pos hst, hst, reply_named hwin]
    rfl
  case notUnloaded =>
    intro p n hn hst
    rw [exec_unload served, ← hn, if_neg hst, reply_named hwin]
  case started =>
    intro w m thr p args hm hst
    rw [exec_start served, if_pos hst, hst, hm, Option.getD_some, reply_named hwin]
    rfl
  case stopped =>
    intro w m thr hm hst
    rw [exec_stop served, if_pos hst, hst, hm, Option.getD_some]
  case queried =>
    intro w m hm
    rw [exec_query_wayfinder served hm, reply_message hwin]
    rfl
  case restarted => exact fun w m hm howner havail => exec_restart_owner served hm howner havail
  case notOwner =>
    intro hnot m thr p args
    refine ⟨?_, ?_, exec_restart_notOwner served m hnot⟩
    · rw [exec_start served, startStatus_notOwner hnot, if_neg one_ne_zero, reply_named hwin]
      rfl
    · rw [exec_stop served, stopStatus_notOwner hnot, if_neg one_ne_zero]
  case cleared => exact exec_winClear_idle
  case restartEnds => exact fun w => exec_wayfinderRestartComplete w

end Sys2Proof.Machine
end

section
/-! PROOFS. Key slots, merge entries, re-encryption, the milestone tree, and commit points (R168, R313, R321, R327, R328,
R336, R337, R350). -/
namespace Sys2Proof.Machine

/-! ### Key slots (R313, R350) -/

/-- INSTALL by its outcomes: a slot in use, a zero key that is not generated, or the slot installed. -/
theorem install_eq (s : State) (k : Nat) (mat : BitVec 256) (mode : Nat) (dbg gen : Bool) : s.install k mat mode dbg gen =
    if s.rdB KEYSLOT.INSTALLED k then (5, s) else if gen = false ∧ mat = 0 then (8, s)
    else (0, ((s.wr KEYSLOT.MODE k mode).wr KEYSLOT.DEBUGGABLE k (if dbg then 1 else 0)).installed k mat mode dbg gen) := by
  unfold State.install State.installStatus
  by_cases hinst : s.rdB KEYSLOT.INSTALLED k = true
  · simp [hinst]
  · by_cases hzero : gen = false ∧ mat = 0
    · simp [hinst, hzero]
    · have hkey : ¬ ((!gen && mat == 0) = true) := by simpa using hzero
      simp only [if_neg hinst, if_neg hzero, if_neg hkey, if_true]

theorem submits_install {s : State} {w : WfNo} {t : ThrNo} (d : Reg) (k : BitVec 12) (mat : BitVec 256) (mode : BitVec 2)
    (dbg gen : Bool) (issues : Issues s w t) : Submits (.install w t d k mat mode dbg gen) s w t d (fun j =>
      if j.rdB KEYSLOT.INSTALLED k.toNat then (5, j) else if gen = false ∧ mat = 0 then (8, j)
      else (0, ((j.wr KEYSLOT.MODE k.toNat mode.toNat).wr KEYSLOT.DEBUGGABLE k.toNat (if dbg then 1 else 0)).installed k.toNat
        mat mode.toNat dbg gen)) := by
  simp only [← install_eq]
  exact submits_of issues rfl rfl

theorem submits_clear {s : State} {w : WfNo} {t : ThrNo} (d : Reg) (k : BitVec 12) (issues : Issues s w t) :
    Submits (.clear w t d k) s w t d (fun j =>
      if j.clearStatus k.toNat = 0 then (0, j.clearKey k.toNat) else (j.clearStatus k.toNat, j)) := by
  have outcome : ∀ j : State, (if j.clearStatus k.toNat = 0 then (0, j.clearKey k.toNat) else (j.clearStatus k.toNat, j)) =
      (j.clearStatus k.toNat, if j.clearStatus k.toNat = 0 then j.clearKey k.toNat else j) := by
    intro j
    split
    case isTrue h => rw [h]
    case isFalse => rfl
  simp only [outcome]
  exact submits_of issues rfl rfl

/-- The status of CLEAR of an installed slot other than slot 0. -/
theorem clearStatus_installed {s : State} {k : Nat} (hpos : 0 < k) (hinst : s.rdB KEYSLOT.INSTALLED k = true) :
    s.clearStatus k = if s.keyMaps k ≠ 0 then 4 else if s.keyPages k ≠ 0 then 5 else 0 := by
  rw [State.clearStatus, if_neg (by simp [hinst]), if_neg hpos.ne']

/-! ### Merge entries (R327, R328) -/

theorem exec_mergeWindowExpiry {s : State} (u : UnitNo) (f : BitVec 28) (sp : BitVec 4) (hlive : s.live = true) :
    exec (.mergeWindowExpiry u f sp) s = .next { s with sealing := { s.sealing with
      merges := s.sealing.merges.map (fun m =>
        if m.unit = u.val ∧ m.frame = f.toNat ∧ m.span = sp.toNat then { m with until_ := min m.until_ s.time.fclk }
        else m) } } := by
  change execMergeWindowExpiry u f sp s = _
  rw [execMergeWindowExpiry, if_pos hlive]

theorem exec_mergeEntrySeal_closed {s : State} {u : UnitNo} {f : BitVec 28} {sp : BitVec 4} {m : Merge} (dec : Decode)
    (hlive : s.live = true) (hat : s.mergeAt u f.toNat sp.toNat = some m) (hclosed : m.until_ ≤ s.time.fclk) :
    exec (.mergeEntrySeal u f sp dec) s =
      .next (((s.decodeFaults u (f.toNat * 64 + 4 * sp.toNat) dec).sealMerge m dec).settle) := by
  change execMergeEntrySeal u f sp dec s = _
  simp only [execMergeEntrySeal, hlive, hat, if_true, if_neg hclosed.not_gt]

/-! ### Re-encryption and the tree (R321, R336, R337) -/

section Tree
variable {s : State} (hlive : s.live = true)
include hlive

theorem exec_reencryptionComplete {p : BitVec 34} (hp : p.toNat ∈ s.sealing.reenc) : exec (.reencryptionComplete p) s =
    .next (({ s with sealing := { s.sealing with reenc := s.sealing.reenc.filter (· ≠ p.toNat) } }).unpark).settle := by
  change execReencryptionComplete p s = _
  simp only [execReencryptionComplete, hlive, List.contains_iff_mem.mpr hp, Bool.and_self, if_true]

theorem exec_treeNodeWriteback {l : Fin 4} {i : BitVec 33} (hdirty : (l.val, i.toNat) ∈ s.sealing.dirty) :
    exec (.treeNodeWriteback l i) s =
      .next ((({ s with sealing := { s.sealing with dirty := s.sealing.dirty.filter (· ≠ (l.val, i.toNat)) } }).advance (l + 1)
        i.toNat).remac l i.toNat) := by
  change execTreeNodeWriteback l i s = _
  simp only [execTreeNodeWriteback, hlive, List.contains_iff_mem.mpr hdirty, Bool.and_self, if_true]

theorem exec_nodeRebaseComplete {l : Fin 6} {i : BitVec 33} (hrebase : (l.val, i.toNat) ∈ s.sealing.rebase) :
    exec (.nodeRebaseComplete l i) s =
      .next ((({ s with sealing := { s.sealing with rebase := s.sealing.rebase.filter (· ≠ (l.val, i.toNat)) } }).resealChildren
        l i.toNat).unpark).settle := by
  change execNodeRebaseComplete l i s = _
  simp only [execNodeRebaseComplete, hlive, List.contains_iff_mem.mpr hrebase, Bool.and_self, if_true]

end Tree

/-! ### Commit points (R168) -/

theorem exec_tableCommit {s : State} {tbl : BitVec 8} {idx : BitVec 48}
    (hwaits : ∃ u ∈ s.uncommitted, u.tbl = tbl.toNat ∧ u.idx = idx.toNat) :
    exec (.tableCommit tbl idx) s = .next (s.commit tbl.toNat idx.toNat) := by
  have hany : s.uncommitted.any (fun u => u.tbl == tbl.toNat && u.idx == idx.toNat) = true := by
    simpa [List.any_eq_true] using hwaits
  change execTableCommit tbl idx s = _
  rw [execTableCommit, if_pos hany]

/-- The commit point of an entry whose stores have no effect but their fields' (TAG, KEYMAP, RB): none of its stores waits. -/
theorem commit_plain (s : State) (idx : Nat) {tbl : Nat} (h : tbl ∈ [3, 4, 7]) :
    s.commit tbl idx = { s with uncommitted := s.uncommitted.filter (fun x => ¬ (x.tbl = tbl ∧ x.idx = idx)) } := by
  have plain : s.commit tbl idx = s.commitTbl tbl (· == idx) := by
    simp only [List.mem_cons, List.not_mem_nil, or_false] at h
    obtain rfl | rfl | rfl := h <;> rfl
  rw [plain]
  simp only [State.commitTbl, beq_iff_eq]

/-! ### The statement -/

/-- Settles O53: each command's equation; a key slot's by the outcomes of its store, a commit point's by `commit_plain`. -/
theorem sealingEventsAndKeySlots : Obligations.SealingEventsAndKeySlots := by
  unfold Obligations.SealingEventsAndKeySlots
  intro s
  refine ⟨?install, ?clear, ?clearStatus, ?expiry, ?sealed, ?reencrypted, ?writeback, ?rebased, ?committed, ?noneWaits⟩
  case install => exact fun w t d k mat mode dbg gen => submits_install d k mat mode dbg gen
  case clear => exact fun w t d k => submits_clear d k
  case clearStatus =>
    intro k hpos _ hinst
    rw [clearStatus_installed hpos hinst]
    exact ⟨fun hmaps => if_pos hmaps, fun hmaps hpages => by rw [if_neg (not_not.mpr hmaps), if_pos hpages],
      fun hmaps hpages => by rw [if_neg (not_not.mpr hmaps), if_neg (not_not.mpr hpages)]⟩
  case expiry => exact fun u f sp => exec_mergeWindowExpiry u f sp
  case sealed => exact fun u f sp dec m => exec_mergeEntrySeal_closed dec
  case reencrypted => exact fun p hlive => exec_reencryptionComplete hlive
  case writeback => exact fun l i hlive => exec_treeNodeWriteback hlive
  case rebased => exact fun l i hlive => exec_nodeRebaseComplete hlive
  case committed => exact fun tbl idx => exec_tableCommit
  case noneWaits => exact fun idx tbl h => ⟨_, rfl, by rw [commit_plain s idx h], by rw [commit_plain s idx h]⟩

end Sys2Proof.Machine
end

section
/-! PROOFS. Violations of a head's protocols: their log, the count toward isolation, and who reads and clears the log
(R193-R196). -/
namespace Sys2Proof.Machine

/-! ### What milepost counting leaves of a link and of a table word -/

theorem CountFrame.link {s u : State} (frame : CountFrame s u) : u.link = s.link := by
  obtain ⟨⟨-, -, -, -, -, links, -⟩, -⟩ := frame
  unfold State.link
  rw [links]

theorem CountFrame.rd {s u : State} (frame : CountFrame s u) {f : Fld} {i : Nat} (ht : f.lay.tbl ≠ 0x0F) (hi : i < 2 ^ 48)
    (hw : f.word < 256) : u.rd f i = s.rd f i := by
  obtain ⟨-, tables, -⟩ := frame
  unfold State.rd
  rw [tables _ _ _ ht hi hw]

theorem CountFrame.inf {s u : State} (frame : CountFrame s u) {f : Fld} {i : Nat} (ht : f.lay.tbl ≠ 0x0F) (hi : i < 2 ^ 48)
    (hw : f.word < 256) : u.inf f i = s.inf f i := by
  obtain ⟨⟨-, -, -, -, uncommitted, -⟩, tables, -⟩ := frame
  unfold State.inf State.wordInForce
  rw [uncommitted, tables _ _ _ ht hi hw]

/-! ### The log entry that a violation makes or raises (R194) -/

/-- The newest entry has the violation's code and LD. -/
def Link.repeats (k : Link) (ld : BitVec 8) (code : Nat) : Bool :=
  k.log.getLast?.any (fun v => v.code == BitVec.ofNat 8 code && v.ld == ld)

/-- An entry whose count is one higher, up to 255. -/
def Violation.again (v : Violation) : Violation := { v with count := if v.count = 255 then 255 else v.count + 1 }

/-- A log whose newest entry counts one more violation. -/
def Link.merged (k : Link) : Link :=
  { k with log := (k.log.zipIdx).map (fun x => if x.2 + 1 = k.log.length then x.1.again else x.1) }

/-- A log with one more entry, the oldest of 64 dropped for it and counted. -/
def Link.appended (k : Link) (v : Violation) : Link :=
  let full := decide (64 ≤ k.log.length)
  { k with log := (if full then k.log.tail else k.log) ++ [v], seq := k.seq + 1,
           overwrites := if full then min 65535 (k.overwrites + 1) else k.overwrites }

/-- A violation's entry as it is made. -/
def Link.entryOf (k : Link) (now : Nat) (ld : BitVec 8) (code resp : Nat) (addr : BitVec 64) (detail : Nat) : Violation :=
  { seq := k.seq, code := BitVec.ofNat 8 code, response := BitVec.ofNat 8 resp, ld := ld, count := 1, address := addr,
    time := now, detail := BitVec.ofNat 64 detail }

/-- A link with a violation in its log, and in the interval's count where its code counts (R193, R196). -/
def Link.noted (k : Link) (now : Nat) (ld : BitVec 8) (code resp : Nat) (addr : BitVec 64) (detail : Nat) : Link :=
  let k := if k.repeats ld code then k.merged else k.appended (k.entryOf now ld code resp addr detail)
  if countsIso code then { k with counted := k.counted + 1 } else k

theorem merged_log {k : Link} {rest : List Violation} {v : Violation} (h : k.log = rest ++ [v]) :
    k.merged.log = rest ++ [v.again] := by
  have older : (rest.zipIdx.map fun x => if x.2 + 1 = rest.length + 1 then x.1.again else x.1) = rest.zipIdx.map Prod.fst := by
    refine List.map_congr_left fun x hx => if_neg ?_
    have := List.snd_lt_of_mem_zipIdx hx
    omega
  simp only [Link.merged, h, List.length_append, List.length_singleton, List.zipIdx_append, List.map_append, older,
    List.zipIdx_map_fst]
  simp

section Noted
variable (k : Link) (now : Nat) (ld : BitVec 8) (code resp : Nat) (addr : BitVec 64) (detail : Nat)

theorem noted_counted (h : countsIso code = true) : (k.noted now ld code resp addr detail).counted = k.counted + 1 := by
  unfold Link.noted
  dsimp only
  rw [if_pos h]
  split <;> rfl

theorem noted_log_again (h : k.repeats ld code = true) : (k.noted now ld code resp addr detail).log = k.merged.log := by
  unfold Link.noted
  dsimp only
  rw [if_pos h]
  split <;> rfl

theorem noted_log_new (h : k.repeats ld code = false) : (k.noted now ld code resp addr detail).log =
    (if 64 ≤ k.log.length then k.log.tail else k.log) ++ [k.entryOf now ld code resp addr detail] := by
  unfold Link.noted
  dsimp only
  simp only [h, Bool.false_eq_true, if_false]
  split <;> simp [Link.appended]

theorem noted_overwrites_full (h : k.repeats ld code = false) (hfull : k.log.length = 64) :
    (k.noted now ld code resp addr detail).overwrites = min 65535 (k.overwrites + 1) := by
  unfold Link.noted
  dsimp only
  simp only [h, Bool.false_eq_true, if_false]
  split <;> simp [Link.appended, hfull]

end Noted

/-! ### A violation at a head (R193, R196) -/

section Violate
variable (s : State) (h : Nat) (ld : BitVec 8) (code resp : Nat) (addr : BitVec 64) (detail : Nat)

/-- The state with the violation counted by the mileposts and noted at the link; whether it isolates is not settled yet. -/
def State.logged : State :=
  (s.occur ⟨uid 0 h, 5, (if ld = 0xFF then none else some (16 * h + ld.toNat)), none, none⟩).setLink h
    ((s.link h).noted s.time.fclk ld code resp addr detail)

theorem link_logged_self : (s.logged h ld code resp addr detail).link h =
    (s.link h).noted s.time.fclk ld code resp addr detail := State.link_setLink_self _ _ _

theorem link_logged_ne {g : Nat} (hne : g ≠ h) : (s.logged h ld code resp addr detail).link g = s.link g := by
  unfold State.logged
  rw [link_setLink_ne _ _ _ hne, (countFrame_occur _ _).link]

theorem rd_logged {f : Fld} {i : Nat} (ht : f.lay.tbl ≠ 0x0F) (hi : i < 2 ^ 48) (hw : f.word < 256) :
    (s.logged h ld code resp addr detail).rd f i = s.rd f i := by
  unfold State.logged
  rw [State.rd_setLink, (countFrame_occur _ _).rd ht hi hw]

theorem inf_logged {f : Fld} {i : Nat} (ht : f.lay.tbl ≠ 0x0F) (hi : i < 2 ^ 48) (hw : f.word < 256) :
    (s.logged h ld code resp addr detail).inf f i = s.inf f i :=
  (countFrame_occur s ⟨uid 0 h, 5, (if ld = 0xFF then none else some (16 * h + ld.toNat)), none, none⟩).inf ht hi hw

/-- The head is isolated, and its fault reported (R196). -/
def State.isolate (s : State) (h counted : Nat) : State :=
  (s.setW1c PORT.ISOLATED h 1).report (uid 0 h) 0x19 2 counted

/-- A violation is logged, and isolates the head where the interval's count reaches its limit. -/
theorem violate_eq : s.violate h ld code resp addr detail =
    (let a := s.logged h ld code resp addr detail
     let n := ((s.link h).noted s.time.fclk ld code resp addr detail).counted
     if countsIso code && a.inf PORT.ISO_LIMIT h != 0 && decide (a.inf PORT.ISO_LIMIT h ≤ n) && !a.rdB PORT.ISOLATED h then
       a.isolate h n
     else a) := by
  have time := (countFrame_occur s ⟨uid 0 h, 5, (if ld = 0xFF then none else some (16 * h + ld.toNat)), none, none⟩).time
  unfold State.violate
  dsimp only
  rw [time]
  cases hlast : (s.link h).log.getLast? with
  | none =>
    have hrepeats : (s.link h).repeats ld code = false := by simp [Link.repeats, hlast]
    simp only [State.logged, Link.noted, hrepeats]
    rfl
  | some v =>
    have hrepeats : (s.link h).repeats ld code = (v.code == BitVec.ofNat 8 code && v.ld == ld) := by
      simp [Link.repeats, hlast]
    simp only [State.logged, Link.noted, hrepeats]
    rfl

@[simp] theorem link_isolate (s : State) (h n : Nat) : (s.isolate h n).link = s.link := by
  unfold State.isolate State.report
  split <;> rfl

theorem link_violate : (s.violate h ld code resp addr detail).link = (s.logged h ld code resp addr detail).link := by
  rw [violate_eq]
  dsimp only
  split
  · exact link_isolate _ _ _
  · rfl

theorem link_violate_self : (s.violate h ld code resp addr detail).link h =
    (s.link h).noted s.time.fclk ld code resp addr detail := by
  rw [link_violate, link_logged_self]

theorem link_violate_ne {g : Nat} (hne : g ≠ h) : (s.violate h ld code resp addr detail).link g = s.link g := by
  rw [link_violate, link_logged_ne s h ld code resp addr detail hne]

/-- A counted violation that reaches a limit other than 0 isolates a head that is not isolated. -/
theorem violate_isolates (hh : h < 32) (hiso : countsIso code = true) (hlim : s.inf PORT.ISO_LIMIT h ≠ 0)
    (hreach : s.inf PORT.ISO_LIMIT h ≤ (s.link h).counted + 1) (hnot : s.rdB PORT.ISOLATED h = false) :
    s.violate h ld code resp addr detail = (s.logged h ld code resp addr detail).isolate h ((s.link h).counted + 1) := by
  have hi : h < 2 ^ 48 := by omega
  have limit := inf_logged s h ld code resp addr detail (f := PORT.ISO_LIMIT) (by decide) hi (by decide)
  have isolated : (s.logged h ld code resp addr detail).rdB PORT.ISOLATED h = false := by
    unfold State.rdB
    rw [rd_logged s h ld code resp addr detail (by decide) hi (by decide)]
    exact hnot
  rw [violate_eq]
  simp only [limit, noted_counted _ _ _ _ _ _ _ hiso]
  rw [if_pos (by simp [hiso, hlim, hreach, isolated])]

end Violate

theorem rd_isolate (s : State) (h n : Nat) : (s.isolate h n).rd PORT.ISOLATED h = 1 := by
  unfold State.isolate State.setW1c
  rw [report_rd, State.rd_stamp, rd_wr_of_lt s h (by decide) (by decide)]

theorem isolate_reports (s : State) (h n : Nat) :
    ∃ r ∈ (s.isolate h n).aon.reports, r.unit = uid 0 h ∧ r.code = 0x19 := report_pends _ _ _ _ _ _

/-! ### The commands of the log and of isolation (R195, R196) -/

theorem submits_isolatedClear {s : State} {w : WfNo} {t : ThrNo} (d : Reg) (h : HeadNo) (issues : Issues s w t) :
    Submits (.isolatedClear w t d h) s w t d (fun j =>
      if j.headExists h then (0, (j.clearW1c PORT.ISOLATED h 1).endHandling (uid 0 h) [0x19]) else (9, j)) :=
  submits_of issues rfl rfl

section Live
variable {s : State} (hlive : s.live = true) (h : HeadNo)
include hlive

theorem exec_isolationInterval : exec (.isolationInterval h) s = .next (s.setLink h { s.link h with counted := 0 }) := by
  change execIsolationInterval h s = _
  rw [execIsolationInterval, if_pos hlive]

theorem exec_violationLogRead_endpoint : exec (.violationLogRead .ep h) s =
    .next (s.send (.answer (leBytes 2 (s.link h).overwrites ++ (s.link h).log.flatMap Violation.bytes))) := by
  change execViolationLogRead .ep h s = _
  simp only [execViolationLogRead, hlive, Bool.not_true, Bool.false_eq_true, if_false]
  rfl

theorem exec_violationLogRead_ld (n : LdNo) (hn : n.val % 16 ≠ 0) : exec (.violationLogRead (.ld n) h) s =
    .next (s.send (.answer (((s.link (n / 16)).log.filter (fun v => v.ld.toNat == n.val % 16)).flatMap
      Violation.bytes))) := by
  change execViolationLogRead (.ld n) h s = _
  simp only [execViolationLogRead, hlive, Bool.not_true, Bool.false_eq_true, if_false, if_neg hn]
  rfl

/-- The owner, or LD 0 of the head, clears the log. -/
theorem exec_violationLogClear {snd : Sender} (hmay : s.isOwner snd = true ∨ ∃ n : LdNo, n.val = 16 * h.val ∧ snd = .ld n) :
    exec (.violationLogClear snd h) s =
      .next ((s.setLink h { s.link h with log := [], overwrites := 0 }).send (.loader 0 0 [])) := by
  change execViolationLogClear snd h s = _
  rcases hmay with howner | ⟨n, hn, rfl⟩
  · simp [execViolationLogClear, hlive, howner]
  · simp [execViolationLogClear, hlive, hn]

theorem exec_violationLogClear_bmc (hnot : s.own.owner ≠ some 1) :
    exec (.violationLogClear .bmc h) s = .next (s.send (.loader 1 0 [])) := by
  change execViolationLogClear .bmc h s = _
  simp [execViolationLogClear, hlive, State.isOwner, senderCand, hnot]

end Live

/-! ### The statement -/

/-- Settles O46: the entry and the count are `Link.noted`'s, isolation `violate_isolates`; the commands by their equations. -/
theorem violationLogAndIsolation : Obligations.ViolationLogAndIsolation := by
  unfold Obligations.ViolationLogAndIsolation
  intro s h
  refine ⟨?new, ?full, ?again, ?isolates, ?others, ?interval, ?isolatedClear, ?endpointReads, ?ldReads, ?clears, ?notOwner⟩
  case new =>
    intro ld code resp addr detail _ hnew hroom
    refine ⟨(s.link h).entryOf s.time.fclk ld code resp addr detail, ?_, rfl, rfl, rfl, rfl, rfl, rfl⟩
    rw [link_violate_self, noted_log_new _ _ _ _ _ _ _ hnew, if_neg (by omega)]
  case full =>
    intro ld code resp addr detail hfull hnew
    rw [link_violate_self, noted_log_new _ _ _ _ _ _ _ hnew, if_pos (by omega)]
    exact ⟨by simp [hfull], noted_overwrites_full _ _ _ _ _ _ _ hnew hfull⟩
  case again =>
    intro ld code resp addr detail v rest hlog hcode hld
    have hrepeats : (s.link h).repeats ld code = true := by simp [Link.repeats, hlog, hcode, hld]
    rw [link_violate_self, noted_log_again _ _ _ _ _ _ _ hrepeats, merged_log hlog]
    rfl
  case isolates =>
    intro ld code resp addr detail hiso hlim hreach hnot
    rw [violate_isolates s h ld code resp addr detail h.isLt hiso hlim hreach hnot]
    exact ⟨rd_isolate _ _ _, isolate_reports _ _ _⟩
  case others => exact fun ld code resp addr detail g hne => link_violate_ne s h ld code resp addr detail hne
  case interval => exact fun hlive => exec_isolationInterval hlive h
  case isolatedClear => exact fun w t d issues => submits_isolatedClear d h issues
  case endpointReads => exact fun hlive => exec_violationLogRead_endpoint hlive h
  case ldReads => exact fun hlive n hn => exec_violationLogRead_ld hlive h n hn
  case clears => exact fun hlive snd hmay => exec_violationLogClear hlive h hmay
  case notOwner => exact fun hlive hnot => exec_violationLogClear_bmc hlive h hnot

end Sys2Proof.Machine
end

section
/-! PROOFS. CXL.mem requests at their head: the checks of R184 in their order, and the tollgate behind them (R176, R184-R186,
R193, R196). -/
namespace Sys2Proof.Machine

/-! ### A request as it reaches its head -/

/-- A host's request before its HPA is mapped. -/
def hostRequest (s : State) (ld : Nat) (kind : Req) (mv : MetaVal) (hpa : BitVec 64) (tag : BitVec 16) (data : BitVec 512)
    (mask : BitVec 64) (poison : Bool) (dec : Decode) : MemReq :=
  { src := .host (ld / 16) ld tag hpa, kind := kind, mv := mv, line := 0, key := 0, cls := 0, data := data, mask := mask,
    poison := poison, throttled := false, at_ := s.time.fclk, dec := dec }

/-- The request with what its decoder, its LD's tag and its window say of it (R184 steps 4 to 7). -/
def MemReq.mappedTo (r : MemReq) (s : State) (ld line cls keyId : Nat) : MemReq :=
  { r with cls := cls, keyId := keyId, line := line, key := (s.keySlot ld keyId).getD 0 }

section Checks
variable {s : State} {ld : Nat} (hlive : s.live = true) (hup : (s.link (ld / 16)).up = true)
  (hcxl : (s.link (ld / 16)).cxl = true) (hld : s.ldExists ld = true) (kind : Req) {mv : MetaVal} {hpa : BitVec 64}
  (tag : BitVec 16) (data : BitVec 512) (mask : BitVec 64) (poison : Bool) (dec : Decode)
include hlive hup hcxl hld

/-- Before Memory_Active every request is refused (R176). -/
theorem hostReq_inactive (hoff : s.board.active = false) : s.hostReq ld kind mv hpa tag data mask poison dec =
    s.headRefuse (hostRequest s ld kind mv hpa tag data mask poison dec) 1 := by
  simp only [State.hostReq, hlive, hup, hcxl, hld, hoff, Bool.not_true, Bool.not_false, Bool.or_self, Bool.false_eq_true,
    if_true, if_false]
  rfl

variable (hon : s.board.active = true)
include hon

theorem hostReq_reserved {iso : Bool} (hiso : s.rdB PORT.ISOLATED (ld / 16) = iso) :
    s.hostReq ld kind .reserved hpa tag data mask poison dec =
      s.headRefuse (hostRequest s ld kind .reserved hpa tag data mask poison dec) (if iso then 0x0A else 8) := by
  simp only [State.hostReq, hlive, hup, hcxl, hld, hon, hiso, Bool.not_true, Bool.or_self, Bool.false_eq_true, if_true,
    if_false]
  rfl

variable (hnotIso : s.rdB PORT.ISOLATED (ld / 16) = false) (hmv : mv ≠ .reserved)
include hnotIso hmv

theorem hostReq_unmapped {code cls keyId : Nat} (hmap : s.mapReq ld hpa.toNat = .bad code cls keyId false) :
    s.hostReq ld kind mv hpa tag data mask poison dec =
      s.headRefuse { hostRequest s ld kind mv hpa tag data mask poison dec with cls := cls, keyId := keyId } code := by
  simp only [State.hostReq, hlive, hup, hcxl, hld, hon, hnotIso, hmap, Bool.not_true, Bool.or_self, Bool.false_eq_true,
    if_false, if_neg hmv]
  rfl

variable {n w line cls keyId : Nat} (hmap : s.mapReq ld hpa.toNat = .ok n w line cls keyId false)
  (hway : (s.decoder ld n).way.isSome = true)
include hmap hway

/-- A request that maps goes to its head's tollgate, from a shared window where the link, the decoder and the road let it. -/
theorem hostReq_admitted
    (hshared : s.infB WINDOW.TYPE w = true →
      (s.link (ld / 16)).flit256 = true ∧ (s.decoder ld n).bi = true ∧ s.lineClosed line = false)
    (hclean : (poison && kind.isWrite) = false) : s.hostReq ld kind mv hpa tag data mask poison dec =
      (s.expressArrives (ld / 16) cls).tollArrive (ld / 16) (s.infB WINDOW.TYPE w)
        ((hostRequest s ld kind mv hpa tag data mask poison dec).mappedTo s ld line cls keyId) := by
  have hseen : (s.decoder ld n).way.isNone = false := by simpa using hway
  have coherent : (s.infB WINDOW.TYPE w && !((s.link (ld / 16)).flit256 && (s.decoder ld n).bi)) = false := by
    by_cases h : s.infB WINDOW.TYPE w = true
    · obtain ⟨hflit, hbi, -⟩ := hshared h
      simp [hflit, hbi]
    · simp [h]
  have isOpen : (s.infB WINDOW.TYPE w && s.lineClosed line) = false := by
    by_cases h : s.infB WINDOW.TYPE w = true
    · obtain ⟨-, -, hline⟩ := hshared h
      simp [hline]
    · simp [h]
  simp only [State.hostReq, hlive, hup, hcxl, hld, hon, hnotIso, hmap, hseen, coherent, isOpen, hclean, Bool.not_true,
    Bool.or_self, Bool.false_and, Bool.false_eq_true, if_false, if_neg hmv]
  rfl

/-- A shared window needs a 256-byte flit link and a decoder with BI. -/
theorem hostReq_notCoherent (hshared : s.infB WINDOW.TYPE w = true)
    (hlacks : (s.link (ld / 16)).flit256 = false ∨ (s.decoder ld n).bi = false) :
    s.hostReq ld kind mv hpa tag data mask poison dec =
      s.headRefuse ((hostRequest s ld kind mv hpa tag data mask poison dec).mappedTo s ld line cls keyId) 7 := by
  have hseen : (s.decoder ld n).way.isNone = false := by simpa using hway
  have incoherent : ((s.link (ld / 16)).flit256 && (s.decoder ld n).bi) = false := Bool.and_eq_false_iff.mpr hlacks
  simp only [State.hostReq, hlive, hup, hcxl, hld, hon, hnotIso, hmap, hseen, hshared, incoherent, Bool.not_true,
    Bool.not_false, Bool.and_self, Bool.or_self, Bool.false_and, Bool.false_eq_true, if_true, if_false, if_neg hmv]
  rfl

end Checks

theorem mapReq_noDecoder {s : State} {ld hpa : Nat} (h : s.decoderAt ld hpa = none) :
    s.mapReq ld hpa = .bad 2 0 0 false := by
  simp only [State.mapReq, h]

/-! ### The statement -/

/-- Settles O44: each of the eight commands is a request at its head, and each check an equation of `State.hostReq`. -/
theorem hostRequestsMeetTheHeadChecks : Obligations.HostRequestsMeetTheHeadChecks := by
  unfold Obligations.HostRequestsMeetTheHeadChecks
  rintro s ld mv hpa tag data mask poison dec hlive hup hcxl hld ⟨i, kind, dat, msk, psn, dcd⟩ hq r rfl
  have hexec : exec i s = .next (s.hostReq ld kind mv hpa tag dat msk psn dcd) := by
    simp only [List.mem_cons, List.not_mem_nil, or_false, Prod.mk.injEq] at hq
    rcases hq with h | h | h | h | h | h | h | h <;> (obtain ⟨rfl, rfl, rfl, rfl, rfl, rfl⟩ := h; rfl)
  simp only [hexec]
  refine ⟨?inactive, ?reserved, ?isolated, ?unmapped, ?admitted, ?notCoherent, mapReq_noDecoder⟩
  case inactive =>
    intro hoff
    rw [hostReq_inactive hlive hup hcxl hld kind tag dat msk psn dcd hoff]
    rfl
  case reserved =>
    rintro hon hiso rfl
    rw [hostReq_reserved hlive hup hcxl hld kind tag dat msk psn dcd hon hiso]
    rfl
  case isolated =>
    rintro hon hiso rfl
    rw [hostReq_reserved hlive hup hcxl hld kind tag dat msk psn dcd hon hiso]
    rfl
  case unmapped =>
    intro hon hnotIso hmv code cls k hmap
    rw [hostReq_unmapped hlive hup hcxl hld kind tag dat msk psn dcd hon hnotIso hmv hmap]
    rfl
  case admitted =>
    intro hon hnotIso hmv n w line cls k hmap hshared hway hclean
    rw [hostReq_admitted hlive hup hcxl hld kind tag dat msk psn dcd hon hnotIso hmv hmap hway hshared hclean]
    rfl
  case notCoherent =>
    intro hon hnotIso hmv n w line cls k hmap hshared hlacks hway
    rw [hostReq_notCoherent hlive hup hcxl hld kind tag dat msk psn dcd hon hnotIso hmv hmap hway hshared hlacks]
    rfl

end Sys2Proof.Machine
end

section
/-! PROOFS. What heads answer to back-invalidate snoops: responses, conflicts, and messages that match no snoop (R193, R194,
R210, R212, R221, R223, R225, R228). -/
namespace Sys2Proof.Machine

/-! ### A message that matches no snoop (R210, R226, R228) -/

/-- The head is fenced in the line's group, or has timed out in it: what it says of a snoop comes late. -/
def State.lateHead (s : State) (h l : Nat) : Prop :=
  ∃ g, s.lineGroup l = some g ∧ (s.fenced g h = true ∨ s.timedOut h l = true)

section Unmatched
variable {s : State} {h l : Nat} (addr : BitVec 64) (detail : Nat)

theorem unmatched_late (hlate : s.lateHead h l) : s.unmatched h l addr detail = s := by
  obtain ⟨g, hg, hhead⟩ := hlate
  simp [State.unmatched, hg, hhead]

theorem unmatched_notLate (hnot : ¬ s.lateHead h l) : s.unmatched h l addr detail = s.violate h 0xFF 0x09 1 addr detail := by
  unfold State.unmatched
  cases hg : s.lineGroup l with
  | none => rfl
  | some g =>
    have hhead : ¬ (s.fenced g h = true ∨ s.timedOut h l = true) := fun hhead => hnot ⟨g, hg, hhead⟩
    simp [hhead]

end Unmatched

/-! ### A response (R210) -/

section Response
variable {s : State} {h l : Nat}

theorem biRsp_noSnoop (hnone : s.bisnp h l = none) (shared odd : Bool) (detail : Nat) :
    s.biRsp h l shared odd detail = s.unmatched h l 0 detail := by
  unfold State.biRsp
  rw [hnone, ite_self]

/-- A response of a head that is not fenced, by what its snoop lets it say. -/
theorem biRsp_matched {n : Snoop} (hn : s.bisnp h l = some n) (hfence : ∀ g, s.lineGroup l = some g → s.fenced g h = false)
    (shared odd : Bool) (detail : Nat) : s.biRsp h l shared odd detail =
      if odd || (n.inv && shared) then s.violate h 0xFF 0x08 1 0 detail else (s.respondSnoop h l shared).pump := by
  unfold State.biRsp
  cases hg : s.lineGroup l with
  | none => simp only [hn, Bool.false_eq_true, if_false]
  | some g => simp only [hn, hfence g hg, Bool.false_eq_true, if_false]

/-- The response is noted as the snoop's answer. -/
theorem respondSnoop_answers {n : Snoop} (hn : s.bisnp h l = some n) (shared : Bool) :
    { n with done := some shared } ∈ (s.respondSnoop h l shared).coh.snoops := by
  have hmem : n ∈ s.bisnps := List.mem_of_find?_eq_some hn
  have hkey := List.find?_some hn
  obtain ⟨hsnoop, hdone⟩ := List.mem_filter.mp hmem
  have hmatch : n.head = h ∧ n.line = l ∧ n.done = none := by simpa [and_assoc] using And.intro hkey hdone
  exact List.mem_map.mpr ⟨n, hsnoop, if_pos hmatch⟩

/-- After it no snoop of the line to the head waits for a response. -/
theorem bisnp_respondSnoop (s : State) (h l : Nat) (shared : Bool) : (s.respondSnoop h l shared).bisnp h l = none := by
  refine List.find?_eq_none.mpr fun m hm hkey => ?_
  obtain ⟨hsnoop, hdone⟩ := List.mem_filter.mp hm
  obtain ⟨n, -, rfl⟩ := List.mem_map.mp hsnoop
  split at hkey <;> simp_all

end Response

/-! ### The commands on an up link -/

section Link
variable {s : State} {h : HeadNo} (hlive : s.live = true) (hup : (s.link h).up = true) (dpa : BitVec 46) (tag : BitVec 16)
include hlive hup

theorem exec_biRspI (block : Bool) : exec (.biRspI h ⟨dpa, tag, block⟩) s =
    .next ((s.wakeUnit (sliceUid (dpa.toNat / 64))).biRsp h (dpa.toNat / 64) false block
      (biDetail (if block then 4 else 0) tag)).settle := by
  change execBiRspI h ⟨dpa, tag, block⟩ s = _
  rw [execBiRspI, State.biRspRow, if_pos (by simp [hlive, hup])]

theorem exec_biRspS (form : RspForm) : exec (.biRspS h ⟨dpa, tag, form⟩) s =
    .next ((s.wakeUnit (sliceUid (dpa.toNat / 64))).biRsp h (dpa.toNat / 64) true (form ≠ .s)
      (biDetail (rspCode form) tag)).settle := by
  change execBiRspS h ⟨dpa, tag, form⟩ s = _
  rw [execBiRspS, State.biRspRow, if_pos (by simp [hlive, hup])]

theorem exec_biConflict (hpa : BitVec 64) : exec (.biConflict h ⟨dpa, tag, hpa⟩) s =
    .next ((s.wakeUnit (sliceUid (dpa.toNat / 64))).biConflict h (dpa.toNat / 64) hpa (biDetail 4 tag)) := by
  change execBiConflict h ⟨dpa, tag, hpa⟩ s = _
  rw [execBiConflict, if_pos (by simp [hlive, hup])]

end Link

theorem biConflict_noSnoop {s : State} {h l : Nat} (hnone : s.bisnp h l = none) (hpa : BitVec 64) (detail : Nat) :
    s.biConflict h l hpa detail = s.unmatched h l hpa detail := by
  simp only [State.biConflict, hnone]

theorem biConflict_matched {s : State} {h l : Nat} {n : Snoop} (hn : s.bisnp h l = some n) (hpa : BitVec 64) (detail : Nat) :
    s.biConflict h l hpa detail = ({ s with coh := { s.coh with acks := s.coh.acks ++ [(h, l, n.due)] } }).pumpAcks := by
  simp only [State.biConflict, hn]

/-! ### An entry after its snoop's answer (R210, R211) -/

section Answered
variable {e : SfEntry} {n : Snoop} (hvalid : e.valid = true) (hheld : e.sharers.getLsbD n.head = true)
include hvalid hheld

theorem answered_given (hdone : n.done = some false) :
    e.answered n = { e with sharers := e.sharers &&& ~~~ headBit n.head, excl := false } := by
  simp [SfEntry.answered, hvalid, hheld, hdone]

theorem answered_kept (hdone : n.done = some true) : e.answered n = { e with excl := false } := by
  simp [SfEntry.answered, hvalid, hheld, hdone]

end Answered

/-! ### The statement -/

/-- Settles O45: a response to an outstanding snoop by `biRsp_matched`, any other message by `State.unmatched`'s two outcomes. -/
theorem snoopResponsesAreApplied : Obligations.SnoopResponsesAreApplied := by
  unfold Obligations.SnoopResponsesAreApplied
  intro s h dpa tag hpa hlive hup l a late
  refine ⟨?matched, ?stray, ?late, ?conflict, ?noted, fun e n hvalid hheld =>
    ⟨answered_given hvalid hheld, answered_kept hvalid hheld⟩⟩
  case matched =>
    intro n hn hfence
    have responds := biRsp_matched hn hfence
    refine ⟨?_, fun hdata => ?_, fun hinv => ?_, ?_, fun form hform => ?_⟩
    · rw [exec_biRspI hlive hup, responds, if_neg (by simp)]
    · rw [exec_biRspS hlive hup, responds, if_neg (by simp [hdata])]
    · rw [exec_biRspS hlive hup, responds, if_pos (by simp [hinv])]
      rfl
    · rw [exec_biRspI hlive hup, responds, if_pos (by simp)]
      rfl
    · rw [exec_biRspS hlive hup, responds, if_pos (by simp [hform])]
  case stray =>
    intro hnone hnot
    refine ⟨fun block => ?_, fun form => ?_, ?_⟩
    · rw [exec_biRspI hlive hup, biRsp_noSnoop hnone, unmatched_notLate _ _ hnot]
    · rw [exec_biRspS hlive hup, biRsp_noSnoop hnone, unmatched_notLate _ _ hnot]
    · rw [exec_biConflict hlive hup, biConflict_noSnoop hnone, unmatched_notLate _ _ hnot]
  case late =>
    intro hnone hlate
    refine ⟨fun block => ?_, fun form => ?_, ?_⟩
    · rw [exec_biRspI hlive hup, biRsp_noSnoop hnone, unmatched_late _ _ hlate]
    · rw [exec_biRspS hlive hup, biRsp_noSnoop hnone, unmatched_late _ _ hlate]
    · rw [exec_biConflict hlive hup, biConflict_noSnoop hnone, unmatched_late _ _ hlate]
  case conflict =>
    intro n hn
    rw [exec_biConflict hlive hup, biConflict_matched hn]
  case noted => exact fun shared n hn => ⟨respondSnoop_answers hn shared, bisnp_respondSnoop a h l shared⟩

end Sys2Proof.Machine
end

section
/-! PROOFS. A link's width and L1: samples, a host's requests, completed changes (R188-R190, R198). -/
namespace Sys2Proof.Machine

/-! ### Asking for a width (R189) -/

/-- The later of two updates of a link stands. -/
theorem setLink_setLink (s : State) (l : Nat) (x y : Link) : (s.setLink l x).setLink l y = s.setLink l y := by
  unfold State.setLink
  simp

/-- An up link whose width is stable asks for another one. -/
theorem askWidth_setLink (s : State) {h w : Nat} {k : Link} (hup : k.up = true) (hstable : k.l0p = .stable) (hw : k.width ≠ w) :
    (s.setLink h k).askWidth h w = (s.setLink h { k with l0p := .device w }).send (.l0pRequest h w) := by
  unfold State.askWidth
  simp only [State.link_setLink_self]
  rw [if_pos ⟨hup, hstable, hw⟩, setLink_setLink]

/-- An express request that does not wait asks for nothing. -/
theorem expressWidth_idle {s : State} {h : Nat} (hno : (s.link h).express = false) : s.expressWidth h = s := by
  simp [State.expressWidth, hno]

/-- Nothing is due after a change of the head's own when the last sample carried no load and no width is owed. -/
theorem reviewWidth_idle {s : State} {h : Nat} (hfull : (s.link h).toFull = false) (hload : (s.link h).load = 0) :
    s.reviewWidth h = s := by
  simp [State.reviewWidth, hfull, hload]

/-! ### A completed change (R189, R198) -/

/-- A link's record when a width comes into force. -/
def Link.changed (k : Link) (now w : Nat) (byHost : Bool) : Link :=
  { k with width := w, l0p := .stable, byHost := byHost, holdAt := now, lowSince := none }

/-- The width in force and shown, the change counted, and the head's L0p stores committed. -/
def widthChanged (s : State) (h w : Nat) (byHost : Bool) : State :=
  (((s.setLink h ((s.link h).changed s.time.fclk w byHost)).wr PORT.LINK_WIDTH h w).event (uid 0 h) 0x0B).commitL0p h

theorem onlyCommits_commitL0p (s : State) (h : Nat) : OnlyCommits s (s.commitL0p h) := onlyCommits_commitFlds _ _ _

theorem OnlyCommits.rd {s u : State} (h : OnlyCommits s u) : u.rd = s.rd := by rw [h]; rfl

theorem link_widthChanged (s : State) (h w : Nat) (byHost : Bool) :
    (widthChanged s h w byHost).link h = (s.link h).changed s.time.fclk w byHost := by
  unfold widthChanged
  rw [(onlyCommits_commitL0p _ _).link, (countFrame_event _ _ _).link, State.link_wr, State.link_setLink_self]

theorem rd_widthChanged (s : State) {h w : Nat} (byHost : Bool) (hh : h < 32) (hw : w < 32) :
    (widthChanged s h w byHost).rd PORT.LINK_WIDTH h = w := by
  unfold widthChanged
  rw [(onlyCommits_commitL0p _ _).rd, (countFrame_event _ _ _).rd (by decide) (by omega) (by decide),
    rd_wr_of_lt _ h (by decide) hw]

/-! ### The commands on an up link -/

theorem link_ready {s : State} {h : Nat} (hlive : s.live = true) (hup : (s.link h).up = true) :
    (!s.live || !(s.link h).up) = false := by
  simp [hlive, hup]

section UpLink
variable {s : State} {h : HeadNo} (hlive : s.live = true) (hup : (s.link h).up = true)
include hlive hup

/-- With the policy stopped a sample asks for the trained width where that is still due and the hold is over. -/
theorem exec_l0pSample_stopped (load : BitVec 7) (hoff : s.infB PORT.L0P_ENABLE h = false) :
    exec (.l0pSample h load) s = .next
      (if (s.link h).toFull && (s.link h).l0p == .stable && decide ((s.link h).holdAt + s.l0pHold h ≤ s.time.fclk) then
        (s.setLink h { s.link h with toFull := false }).askWidth h (s.link h).trained else s) := by
  change execL0pSample h load s = _
  simp only [execL0pSample, link_ready hlive hup, hoff, Bool.not_false, Bool.false_eq_true, if_true, if_false]

/-- A sample above the widening threshold asks for the trained width, where the last change was not the host's. -/
theorem exec_l0pSample_above (load : BitVec 7) (hon : s.infB PORT.L0P_ENABLE h = true)
    (hnarrow : s.inf PORT.L0P_NARROW_PCT h ≤ load.toNat) (hwiden : s.inf PORT.L0P_WIDEN_PCT h < load.toNat)
    (hown : (s.link h).byHost = false) : exec (.l0pSample h load) s =
      .next ((s.setLink h { s.link h with lowSince := none, load := load.toNat, toFull := false }).askWidth h
        (s.link h).trained) := by
  have widens : ∀ k : Link, (s.setLink h k).inf PORT.L0P_WIDEN_PCT h < load.toNat := fun _ => hwiden
  change execL0pSample h load s = _
  simp only [execL0pSample, link_ready hlive hup, hon, hown, if_neg hnarrow.not_gt, if_pos (widens _), Bool.not_true,
    Bool.false_and, Bool.false_eq_true, if_false]

/-- Samples below the narrowing threshold for the hold ask for half the width, where it is allowed. -/
theorem exec_l0pSample_below (load : BitVec 7) (hon : s.infB PORT.L0P_ENABLE h = true)
    (hnarrow : load.toNat < s.inf PORT.L0P_NARROW_PCT h) (hwiden : load.toNat ≤ s.inf PORT.L0P_WIDEN_PCT h) {t0 : Nat}
    (hsince : (s.link h).lowSince = some t0) (hheld : (s.link h).holdAt + s.l0pHold h ≤ s.time.fclk)
    (hlow : t0 + s.l0pHold h ≤ s.time.fclk) (htwo : 2 ≤ (s.link h).width)
    (hmin : minLanes (s.inf PORT.L0P_MIN_WIDTH h) ≤ (s.link h).width / 2) : exec (.l0pSample h load) s =
      .next ((s.setLink h { s.link h with load := load.toNat, toFull := false }).askWidth h ((s.link h).width / 2)) := by
  have noWidening : ∀ k : Link, ¬ (s.setLink h k).inf PORT.L0P_WIDEN_PCT h < load.toNat := fun _ => hwiden.not_gt
  have allowed : ∀ k : Link, (decide ((s.link h).holdAt + (s.setLink h k).l0pHold h ≤ s.time.fclk) &&
      decide (t0 + (s.setLink h k).l0pHold h ≤ s.time.fclk) && decide (2 ≤ (s.link h).width) &&
      decide (minLanes ((s.setLink h k).inf PORT.L0P_MIN_WIDTH h) ≤ (s.link h).width / 2)) = true := by
    intro k
    simp only [Bool.and_eq_true, decide_eq_true_eq]
    exact ⟨⟨⟨hheld, hlow⟩, htwo⟩, hmin⟩
  change execL0pSample h load s = _
  simp only [execL0pSample, link_ready hlive hup, hon, hsince, if_pos hnarrow, if_neg (noWidening _), allowed,
    Option.getD_some, Bool.not_true, Bool.false_eq_true, if_true, if_false]

/-- A host's request for a width that the link can have withdraws the head's own. -/
theorem exec_hostL0pRequest {w : BitVec 5} (hw : Machine.widthOk w.toNat = true) (hmax : w.toNat ≤ (s.link h).trained)
    (hfree : ∀ x, (s.link h).l0p ≠ .host x) :
    exec (.hostL0pRequest h w) s = .next (s.setLink h { s.link h with l0p := .host w.toNat }) := by
  have accepted : (s.live && (s.link h).up && Machine.widthOk w.toNat && decide (w.toNat ≤ (s.link h).trained)) = true := by
    simp [hlive, hup, hw, hmax]
  change execHostL0pRequest h w s = _
  simp only [execHostL0pRequest, accepted, if_true]

/-- After the head's own change the policy is evaluated again. -/
theorem exec_l0pChangeComplete_own {w : Nat} (hw : (s.link h).l0p = .device w) :
    exec (.l0pChangeComplete h) s = .next (((widthChanged s h w false).expressWidth h).reviewWidth h) := by
  change execL0pChangeComplete h s = _
  simp only [execL0pChangeComplete, link_ready hlive hup, hw, Bool.false_eq_true, if_false]
  rfl

theorem exec_l0pChangeComplete_host {w : Nat} (hw : (s.link h).l0p = .host w) :
    exec (.l0pChangeComplete h) s = .next ((widthChanged s h w true).expressWidth h) := by
  change execL0pChangeComplete h s = _
  simp only [execL0pChangeComplete, link_ready hlive hup, hw, Bool.false_eq_true, if_true, if_false]
  rfl

/-- With nothing more to ask for, a completed change is all that happens. -/
theorem exec_l0pChangeComplete_quiet {w : Nat} (hexpress : (s.link h).express = false)
    (hw : ((s.link h).l0p = .device w ∧ (s.link h).toFull = false ∧ (s.link h).load = 0) ∨ (s.link h).l0p = .host w) :
    exec (.l0pChangeComplete h) s = .next (widthChanged s h w (decide ((s.link h).l0p = .host w))) := by
  have noExpress : ∀ b, (widthChanged s h w b).expressWidth h = widthChanged s h w b := fun b =>
    expressWidth_idle (by rw [link_widthChanged]; exact hexpress)
  rcases hw with ⟨hown, hfull, hload⟩ | hhost
  · have notHost : decide ((s.link h).l0p = .host w) = false := by simp [hown]
    rw [exec_l0pChangeComplete_own hlive hup hown, notHost, noExpress, reviewWidth_idle]
    · rw [link_widthChanged]; exact hfull
    · rw [link_widthChanged]; exact hload
  · rw [exec_l0pChangeComplete_host hlive hup hhost, decide_eq_true hhost, noExpress]

theorem exec_l1Entry : exec (.l1Entry h) s =
    .next (if s.infB PORT.L1_ENABLE h then s.setLink h { s.link h with l1 := true } else s) := by
  change execL1Entry h s = _
  simp only [execL1Entry, hlive, hup, Bool.true_and]

end UpLink

/-! ### The statement -/

/-- Settles O47: a sample by the policy's branch it meets, a completed change by `widthChanged`. -/
theorem linkWidthAndL1 : Obligations.LinkWidthAndL1 := by
  unfold Obligations.LinkWidthAndL1
  intro s h hlive hup k
  refine ⟨?stopped, ?due, ?widens, ?narrows, ?hostAsks, ?completes, ?quiet, ?enters, ?stays, rfl⟩
  case stopped =>
    intro load hoff hfull
    rw [exec_l0pSample_stopped hlive hup load hoff, if_neg (by simp [k, hfull])]
  case due =>
    intro load hoff hfull hstable hheld hne
    rw [exec_l0pSample_stopped hlive hup load hoff, if_pos (by simp [k, hfull, hstable, hheld]), askWidth_setLink s]
    exacts [hup, hstable, hne]
  case widens =>
    intro load hon hnarrow hwiden hown hstable hne
    rw [exec_l0pSample_above hlive hup load hon hnarrow hwiden hown, askWidth_setLink s]
    exacts [hup, hstable, hne]
  case narrows =>
    intro load hon hnarrow hwiden t0 hsince hheld hlow htwo hmin hstable
    have half : k.width ≠ k.width / 2 := by omega
    rw [exec_l0pSample_below hlive hup load hon hnarrow hwiden hsince hheld hlow htwo hmin,
      askWidth_setLink s]
    exacts [hup, hstable, half]
  case hostAsks => exact fun w hw hmax hfree => exec_hostL0pRequest hlive hup hw hmax hfree
  case completes =>
    intro w a ha
    have hchanged : a = widthChanged s h w (decide (k.l0p = .host w)) := ha
    refine ⟨fun hown => ?_, fun hhost => ?_⟩
    · have notHost : decide (k.l0p = .host w) = false := by simp [hown]
      rw [exec_l0pChangeComplete_own hlive hup hown, hchanged, notHost]
    · rw [exec_l0pChangeComplete_host hlive hup hhost, hchanged, decide_eq_true hhost]
  case quiet =>
    intro w hw hexpress hlt
    exact ⟨_, exec_l0pChangeComplete_quiet hlive hup hexpress hw, link_widthChanged s h w _,
      rd_widthChanged s _ h.isLt hlt⟩
  case enters =>
    intro hon
    rw [exec_l1Entry hlive hup, if_pos hon]
  case stays =>
    intro hoff
    rw [exec_l1Entry hlive hup, if_neg (by simp [hoff])]

end Sys2Proof.Machine
end

section
/-! PROOFS. No pending fault report is withdrawn by what the home slices release: the slices, the accesses they order, and the
frames, seals and reads those make only ever add reports (R416). -/
namespace Sys2Proof.Machine

/-! ### A pending report -/

/-- A fault report is pending. -/
@[irreducible] def Reported (s : State) : Prop := s.aon.reports ≠ []

theorem reported_of_eq {s u : State} (h : Reported s) (same : u.aon.reports = s.aon.reports) : Reported u := by
  unfold Reported at *
  rwa [same]

theorem CountFrame.reported {s u : State} (frame : CountFrame s u) (h : Reported s) : Reported u := by
  obtain ⟨⟨-, -, -, -, -, -, -, -, -, -, -, -, -, haon, -⟩, -⟩ := frame
  exact reported_of_eq h (by rw [haon])

theorem OnlyTables.reported {s u : State} (frame : OnlyTables s u) (h : Reported s) : Reported u :=
  reported_of_eq h (by rw [frame])

theorem OnlyOwn.reported {s u : State} (frame : OnlyOwn s u) (h : Reported s) : Reported u :=
  reported_of_eq h (by rw [frame])

theorem OnlyTraffic.reported {s u : State} (frame : OnlyTraffic s u) (h : Reported s) : Reported u :=
  reported_of_eq h (by rw [frame])

theorem reported_ite {a b : State} {c : Prop} [Decidable c] (ha : Reported a) (hb : Reported b) :
    Reported (if c then a else b) := by
  split
  · exact ha
  · exact hb

/-- The same for an update that also answers. -/
theorem reported_fst_ite {a b : State × Bool} {c : Prop} [Decidable c] (ha : Reported a.1) (hb : Reported b.1) :
    Reported (if c then a else b).1 := by
  split
  · exact ha
  · exact hb

theorem reported_foldl {α : Type} {f : State → α → State} {s : State} {l : List α} (h : Reported s)
    (hf : ∀ v, Reported v → ∀ x, Reported (f v x)) : Reported (l.foldl f s) :=
  List.foldlRecOn (motive := Reported) l f h (fun v hv x _ => hf v hv x)

section Ops
variable {s : State} (h : Reported s)
include h

/-! ### Updates that touch no report -/

theorem reported_board {b : Board} : Reported { s with board := b } := reported_of_eq h rfl
theorem reported_coh {c : Coh} : Reported { s with coh := c } := reported_of_eq h rfl
theorem reported_plc {p : Plc} : Reported { s with plc := p } := reported_of_eq h rfl
theorem reported_stow {w : Stow} : Reported { s with stow := w } := reported_of_eq h rfl
theorem reported_sealing {e : Seal} : Reported { s with sealing := e } := reported_of_eq h rfl
theorem reported_dram {d : Dram} : Reported { s with dram := d } := reported_of_eq h rfl
theorem reported_soft {o : Soft} : Reported { s with soft := o } := reported_of_eq h rfl
theorem reported_svc {v : Service} : Reported { s with svc := v } := reported_of_eq h rfl
theorem reported_freeUsed {n : Nat} : Reported { s with freeUsed := n } := reported_of_eq h rfl
theorem reported_setWord {tbl idx word : Nat} {v : BitVec 64} : Reported (s.setWord tbl idx word v) := reported_of_eq h rfl
theorem reported_wr {f : Fld} {i v : Nat} : Reported (s.wr f i v) := reported_of_eq h rfl
theorem reported_incSat {f : Fld} {i k : Nat} : Reported (s.incSat f i k) := reported_of_eq h rfl
theorem reported_setW1c {f : Fld} {i v : Nat} : Reported (s.setW1c f i v) := reported_of_eq h rfl
theorem reported_setThread {w t : Nat} {x : Thread} : Reported (s.setThread w t x) := reported_of_eq h rfl
theorem reported_setLink {l : Nat} {x : Link} : Reported (s.setLink l x) := reported_of_eq h rfl
theorem reported_setDecoder {l n : Nat} {x : Decoder} : Reported (s.setDecoder l n x) := reported_of_eq h rfl
theorem reported_setPage {p : Nat} {x : Page} : Reported (s.setPage p x) := reported_of_eq h rfl
theorem reported_setRegion {r : Nat} {x : Region} : Reported (s.setRegion r x) := reported_of_eq h rfl
theorem reported_setFrame {k : Nat} {x : Frame} : Reported (s.setFrame k x) := reported_of_eq h rfl
theorem reported_setChan {u : Nat} {x : Chan} : Reported (s.setChan u x) := reported_of_eq h rfl
theorem reported_setRb {r : Nat} {x : Rb} : Reported (s.setRb r x) := reported_of_eq h rfl
theorem reported_setDom {d : Nat} {x : Dom} : Reported (s.setDom d x) := reported_of_eq h rfl
theorem reported_setWay {hs set way : Nat} {e : SfEntry} : Reported (s.setWay hs set way e) := reported_of_eq h rfl
theorem reported_setMove {m : Move} : Reported (s.setMove m) := reported_of_eq h rfl
theorem reported_took : Reported s.took := reported_of_eq h rfl
theorem reported_send {o : Out} : Reported (s.send o) := reported_of_eq h rfl

/-! ### Reports and counted occurrences (R416, R467) -/

theorem reported_report {unit code cls detail : Nat} {alarm : Bool} : Reported (s.report unit code cls detail alarm) := by
  unfold Reported at *
  unfold State.report
  split
  · exact fun hnil => h (List.map_eq_nil_iff.mp hnil)
  · exact List.append_ne_nil_of_right_ne_nil _ (List.cons_ne_nil _ _)

theorem reported_occur {o : Occ} : Reported (s.occur o) := (countFrame_occur s o).reported h

theorem reported_event {unit event : Nat} : Reported (s.event unit event) := (countFrame_event s unit event).reported h

/-- The fixed counters are the entries from 512 on. -/
theorem reported_fixed {n : Nat} (hn : n < 1024 := by decide) : Reported (s.fixed n) :=
  (countFrame_fixed s n (by omega)).reported h

/-! ### Wakes and events to threads (R129, R437) -/

theorem reported_wakeDom {d : Nat} : Reported (s.wakeDom d) := by
  unfold State.wakeDom
  extract_lets st
  split
  · exact h
  · split
    · exact reported_setDom h
    · split
      · exact reported_fixed (reported_wr (reported_wr h))
      · exact h

theorem reported_wakeUnit {u : Nat} : Reported (s.wakeUnit u) := by
  unfold State.wakeUnit
  split
  · exact reported_wakeDom h
  · exact h

theorem reported_raise {w t bit : Nat} : Reported (s.raise w t bit) := reported_wakeUnit (reported_setThread h)

theorem reported_raiseOwners {bit : Nat} : Reported (s.raiseOwners bit) :=
  reported_foldl h fun _ hv _ => reported_ite (reported_raise hv) hv

/-! ### The halt (R425) -/

theorem reported_ownerDown {c : Nat} : Reported (s.ownerDown c) := (onlyOwn_ownerDown s c).reported h

theorem reported_headDropped {l : Nat} : Reported (headDropped s l) := by
  have cleared : Reported (linkCleared s l) := reported_setLink h
  have shown : Reported (portShows (linkCleared s l) l 0 0 0 0) := (onlyTables_portShows _ l 0 0 0 0).reported cleared
  have decoders : Reported (decodersDropped (portShows (linkCleared s l) l 0 0 0 0) l) :=
    (onlyTables_tagCleared _ l).reported (reported_foldl shown fun _ hv _ => reported_setDecoder hv)
  have port : Reported (portDropped s l) := (onlyTables_isolationEnded _ l).reported decoders
  exact (requestsDropped_spec (portDropped s l) l).1.reported port

theorem reported_linkLost {l : Nat} (hl : l < 33) : Reported (s.linkLost l) := by
  by_cases hup : (s.link l).up = true
  · by_cases hhead : l < 32
    · rw [linkLost_head hup hhead]
      exact reported_ownerDown (reported_headDropped h)
    · obtain rfl : l = 32 := by omega
      rw [linkLost_endpoint hup]
      exact reported_ownerDown (reported_setLink h)
  · rw [linkLost_down (by simpa using hup)]
    exact h

theorem reported_halt : Reported s.halt := by
  unfold State.halt
  extract_lets _ v
  have halted : Reported (v.wr FAULT.HALTED 0 1) := reported_wr (reported_board h)
  exact reported_dram (List.foldlRecOn (motive := Reported) (List.range 33) _ halted
    fun _ hv _ hl => reported_linkLost hv (List.mem_range.mp hl))

theorem reported_fatal {unit code detail : Nat} : Reported (s.fatal unit code detail) :=
  reported_ite (reported_report h) (reported_halt (reported_report h))

theorem reported_integrity {unit dpa key kind : Nat} : Reported (s.integrity unit dpa key kind) := by
  have counted : Reported (((s.incSat PHASE.ALARM_COUNT 0 1).incSat KEYSLOT.ALARMS key 1).fixed 530) :=
    reported_fixed (reported_incSat (reported_incSat h))
  exact reported_ite (reported_fatal counted) (reported_report counted)

/-! ### Write queues (R363-R368) -/

theorem reported_rowUse {u l : Nat} : Reported (s.rowUse u l) := by
  unfold State.rowUse
  extract_lets k now v
  exact reported_setChan (reported_ite (reported_event h) h)

theorem reported_issueWrite {u : Nat} {w : Wr} : Reported (s.issueWrite u w) := by
  unfold State.issueWrite
  extract_lets c mine used counted taken d
  have hused : Reported used := reported_rowUse h
  have hcounted : Reported counted := reported_ite (reported_occur hused) hused
  exact reported_occur (reported_dram (reported_setChan hcounted))

theorem reported_makeRoom {u a : Nat} : Reported (s.makeRoom u a) := by
  unfold State.makeRoom
  extract_lets c
  split
  · exact h
  · split
    · exact reported_issueWrite h
    · exact h

theorem reported_putRaw {key : Nat} {data : BitVec 512} {poison : Bool} : Reported (s.putRaw key data poison) := by
  unfold State.putRaw
  extract_lets u a room c w q
  exact reported_setChan (reported_makeRoom h)

/-! ### Counters, the milestone tree and tags (R318-R338) -/

theorem reported_markDirty {level idx : Nat} : Reported (s.markDirty level idx) := reported_ite h (reported_sealing h)

theorem reported_advance {level c : Nat} : Reported (s.advance level c) := by
  unfold State.advance
  extract_lets idx k n major
  have hmajor : Reported major := reported_markDirty (reported_sealing h)
  exact reported_ite (reported_markDirty (reported_sealing h)) (reported_sealing hmajor)

theorem reported_leafChanged {k : Nat} : Reported (s.leafChanged k) := by
  unfold State.leafChanged
  extract_lets v n
  exact reported_sealing (reported_advance h)

theorem reported_setBlock {k key : Nat} {b : CBlock} : Reported (s.setBlock k key b) := by
  unfold State.setBlock
  extract_lets clock _ v
  have hv : Reported v := reported_sealing (reported_sealing h)
  exact reported_ite h (reported_ite (reported_leafChanged hv) hv)

theorem reported_retag {k key page span : Nat} : Reported (s.retag k key page span) :=
  reported_ite h (reported_sealing h)

theorem reported_sealFrame {k key page : Nat} {major : BitVec 64} {lines : List (BitVec 512 × Bool)} :
    Reported (s.sealFrame k key page major lines) :=
  reported_foldl (reported_foldl (reported_setBlock h) fun _ hv _ => reported_putRaw hv) fun _ hv _ => reported_retag hv

theorem reported_spanFault {k key page span : Nat} {corrected : Bool} :
    Reported (s.spanFault k key page span corrected) :=
  reported_ite (reported_report h)
    (reported_ite (reported_integrity h) (reported_ite (reported_integrity h) (reported_integrity h)))

theorem reported_reencrypt {k key page : Nat} : Reported (s.reencrypt k key page) := by
  unfold State.reencrypt
  extract_lets bad read lines _ marked faults counted
  have hmarked : Reported marked := reported_sealing h
  have hfaults : Reported faults := reported_foldl hmarked fun _ hv _ => reported_spanFault hv
  exact reported_sealFrame (reported_fixed (reported_event hfaults))

/-! ### Merge entries (R326-R329) -/

theorem reported_poisonSpan {k span : Nat} : Reported (s.poisonSpan k span) :=
  reported_foldl h fun _ hv _ => reported_putRaw hv

theorem reported_sealMerge {m : Merge} {dec : Decode} : Reported (s.sealMerge m dec) := by
  unfold State.sealMerge
  extract_lets k full _ s1 su stored read ok corrected unread present plain
  have hs1 : Reported s1 := reported_sealing h
  split
  · exact reported_poisonSpan hs1
  · split
    · exact reported_spanFault (reported_poisonSpan hs1)
    · split
      · exact reported_reencrypt h
      · extract_lets block written tagged
        have hwritten : Reported written :=
          reported_foldl (reported_setBlock hs1) fun _ hv _ => reported_ite (reported_putRaw hv) hv
        have htagged : Reported tagged := reported_retag hwritten
        exact reported_ite (reported_event htagged) (reported_fixed (reported_event htagged))

theorem reported_closeMerges {sel : Merge → Bool} : Reported (s.closeMerges sel) := reported_sealing h

theorem reported_closeOldest {u : Nat} : Reported (s.closeOldest u) := by
  unfold State.closeOldest
  extract_lets mine
  refine reported_ite h ?_
  split
  · exact reported_closeMerges h
  · exact h

theorem reported_mergeWrite {k key page i : Nat} {data : BitVec 512} {mask : BitVec 64} {poison : Bool} :
    Reported (s.mergeWrite k key page i data mask poison) := by
  unfold State.mergeWrite
  extract_lets span closed m _ v _
  have hv : Reported v := by
    unfold v
    split
    · exact h
    · exact reported_sealing (reported_closeOldest h)
  split
  · exact hv
  · exact reported_ite (reported_sealMerge (reported_sealing hv)) (reported_sealing hv)

/-! ### Frames and their marks (R236, R253, R259, R379) -/

theorem reported_take {k : Nat} {use : Use} : Reported (s.take k use) := reported_fixed (reported_setFrame (reported_took h))

theorem reported_watermarks : Reported s.watermarks := by
  unfold State.watermarks
  extract_lets old oldShort now short _ v down crossed low rel flo vLow vRel vFloor vShort
  have hv : Reported v := reported_plc h
  have hLow : Reported vLow := reported_ite (reported_setW1c hv) hv
  have hRel : Reported vRel := reported_ite (reported_setW1c hLow) hLow
  have hFloor : Reported vFloor := reported_ite (reported_setW1c hRel) hRel
  have hShort : Reported vShort := reported_ite (reported_setW1c hFloor) hFloor
  exact reported_ite (reported_raiseOwners hShort) hShort

theorem reported_release {k : Nat} : Reported (s.release k) := by
  unfold State.release
  extract_lets fr _ sl v u retired counted cleared
  have hv : Reported v := reported_sealing h
  have hcounted : Reported counted := reported_wr (reported_setFrame hv)
  have hcleared : Reported cleared :=
    reported_foldl hcounted fun _ hw _ => reported_ite (reported_setWord (reported_setWord hw)) hw
  exact reported_ite (reported_ite (reported_report (reported_setW1c hcleared)) hcleared)
    (reported_fixed (reported_setFrame hv))

theorem reported_remap {k : Nat} : Reported (s.remap k) := by
  unfold State.remap
  split
  · exact reported_release (reported_plc (reported_take h))
  · exact h

theorem reported_retireFrame {k : Nat} : Reported (s.retireFrame k) := by
  unfold State.retireFrame
  extract_lets _ v
  have hv : Reported v := reported_setFrame h
  split
  · exact h
  · split
    · exact reported_watermarks (reported_release hv)
    · exact reported_setPage hv
    · refine reported_foldl hv fun w hw p => ?_
      split
      · exact reported_setPage hw
      · exact hw
    · exact reported_remap hv
    · exact hv

/-! ### Errors that a read finds (R362, R377-R380) -/

theorem reported_setCe {u e : Nat} {c : Ce} : Reported (s.setCe u e c) := reported_setWord (reported_setWord h)

theorem reported_ueTable {u l : Nat} : Reported (s.ueTable u l) := by
  unfold State.ueTable
  extract_lets f fr now v
  have hv : Reported v := by
    unfold v
    split
    · exact reported_setCe h
    · split
      · exact reported_setCe h
      · exact reported_incSat h
  exact reported_ite (reported_retireFrame hv) hv

theorem reported_ueFound {u l code : Nat} : Reported (s.ueFound u l code) :=
  reported_ueTable (reported_dram (reported_fixed (reported_report (reported_incSat h))))

theorem reported_devHit {u d : Nat} : Reported (s.devHit u d) := by
  unfold State.devHit
  extract_lets old v lim
  have hv : Reported v := reported_incSat h
  exact reported_ite
    (reported_ite (reported_ite (reported_report (reported_wr hv)) hv) (reported_ite (reported_report hv) hv)) hv

theorem reported_ceLimit {u e : Nat} {inFr : Bool} : Reported (s.ceLimit u e inFr) :=
  reported_ite (reported_raiseOwners (reported_retireFrame (reported_setCe h))) h

theorem reported_ceTable {u f : Nat} {inFr : Bool} {ds : List Nat} : Reported (s.ceTable u f inFr ds) := by
  unfold State.ceTable
  extract_lets now d r
  have hr : ∀ x, r = some x → Reported x.1 := by
    intro x hx
    unfold r at hx
    split at hx
    · obtain rfl := Option.some.inj hx
      exact reported_setCe h
    · split at hx
      · obtain rfl := Option.some.inj hx
        exact reported_devHit (reported_setCe h)
      · cases hx
  clear_value r
  cases r with
  | none => exact reported_incSat h
  | some x =>
    have hx : Reported x.1 := hr x rfl
    obtain ⟨v, e, ds'⟩ := x
    exact reported_ceLimit (reported_foldl hx fun _ hw _ => reported_ite hw (reported_devHit (reported_setCe hw)))

theorem reported_writeBack {u l : Nat} : Reported (s.writeBack u l) := reported_ite h (reported_setChan h)

theorem reported_ceFound {u l : Nat} {ds : List Nat} : Reported (s.ceFound u l ds) := by
  unfold State.ceFound
  extract_lets out v counted
  have hv : Reported v := reported_fixed (reported_event h)
  have hcounted : Reported counted := reported_report (reported_incSat hv)
  exact reported_ite (reported_incSat hv) (reported_writeBack (reported_ceTable hcounted))

theorem reported_miscorrect {u l : Nat} {flip : BitVec 512} : Reported (s.miscorrect u l flip) := by
  unfold State.miscorrect
  extract_lets n found c
  exact reported_setChan (reported_ceFound (reported_took h))

theorem reported_decodeFaults {u l : Nat} {dec : Decode} : Reported (s.decodeFaults u l dec) := by
  cases dec with
  | clean => exact h
  | corrected ds => exact reported_ceFound h
  | wrong flip caught =>
    cases caught with
    | false => exact reported_miscorrect h
    | true => exact h
  | uncorrectable => exact reported_ueFound h
  | poisoned => exact h

/-! ### Lines written (R18-R21, R316-R320) -/

theorem reported_writeLine {k key page i : Nat} {data : BitVec 512} {mask : BitVec 64} {poison : Bool} {dec : Decode} :
    Reported (s.writeLine k key page i data mask poison dec) := by
  unfold State.writeLine
  extract_lets ln read r v data' old new poison' b blocked
  have hv : Reported v := reported_decodeFaults h
  have hblocked : Reported blocked := reported_setBlock hv
  exact reported_ite (reported_mergeWrite h) (reported_ite (reported_putRaw hv) (reported_ite (reported_putRaw hv)
    (reported_ite (reported_reencrypt (reported_putRaw hv)) (reported_putRaw hblocked))))

theorem reported_counterLookup {u key : Nat} {r : MemReq} : Reported (s.counterLookup u key r) := by
  unfold State.counterLookup
  extract_lets miss nodes v counted
  have hv : Reported v := reported_took h
  have hcounted : Reported counted := reported_occur hv
  exact reported_ite h (reported_ite
    (reported_ite (reported_foldl hcounted fun _ hw _ => reported_event hw) hcounted) hv)

theorem reported_writeFrame {r : MemReq} {k : Nat} : Reported (s.writeFrame r k) :=
  reported_writeLine (reported_counterLookup (reported_wakeDom h))

/-! ### Pages and regions (R244, R245, R253, R258) -/

theorem reported_setAccessed {r : Nat} {region : Bool} {pages : Page → Bool} :
    Reported (s.setAccessed r region pages) :=
  reported_foldl (reported_plc h) fun _ hv _ => reported_setPage hv

theorem reported_uncache {r : Nat} {pages : Bool} : Reported (s.uncache r pages) := reported_plc h

theorem reported_unsplit {r kind : Nat} : Reported (s.unsplit r kind) := by
  unfold State.unsplit
  extract_lets g acc v w
  have hv : Reported v := reported_setRegion (reported_setAccessed (reported_uncache h))
  have hw : Reported w := by
    unfold w
    split
    · exact reported_release hv
    · exact hv
  split
  · exact reported_release hw
  · exact hw

theorem reported_takeMap {u : Nat} : Reported (s.takeMap u).1 := reported_take h

theorem reported_split {r : Nat} : Reported (s.split r) := by
  unfold State.split
  extract_lets g acc v
  have hv : Reported v := reported_setAccessed (reported_uncache h)
  split
  · exact reported_setRegion (reported_takeMap (reported_takeMap hv))
  · exact reported_setRegion hv

theorem reported_fixRegion {r : Nat} : Reported (s.fixRegion r) :=
  reported_ite (reported_ite h (reported_unsplit h))
    (reported_ite h (reported_ite (reported_setRegion h) (reported_split h)))

theorem reported_putPages {xs : List (Nat × Page)} : Reported (s.putPages xs) :=
  reported_foldl (reported_foldl h fun _ hv _ => reported_setPage hv) fun _ hv _ => reported_fixRegion hv

theorem reported_putPage {p : Nat} {x : Page} : Reported (s.putPage p x) := reported_putPages h

theorem reported_dropMerges {k : Nat} : Reported (s.dropMerges k) := reported_sealing h

theorem reported_freeSlot {loc cls : Nat} : Reported (s.freeSlot loc cls) := by
  unfold State.freeSlot
  extract_lets k _ v
  have hv : Reported v := reported_sealing h
  split
  · extract_lets full ps released _ freed changed _
    have hreleased : Reported released := reported_release (reported_setFrame hv)
    have hfreed : Reported freed := reported_setFrame hv
    have hchanged : Reported changed := reported_ite (reported_leafChanged hfreed) hfreed
    exact reported_ite (reported_plc hreleased) (reported_ite (reported_plc hchanged) hchanged)
  · exact hv

theorem reported_freeLoc {loc cls : Nat} : Reported (s.freeLoc loc cls) :=
  reported_ite (reported_release h) (reported_freeSlot h)

theorem reported_freeStorage {p : Nat} : Reported (s.freeStorage p) := by
  unfold State.freeStorage
  extract_lets x v
  have hv : Reported v := by
    unfold v
    split
    · exact reported_plc (reported_ite h (reported_freeLoc h))
    · exact h
  split
  · exact reported_freeLoc (reported_dropMerges hv)
  · exact reported_freeLoc (reported_dropMerges hv)
  · exact reported_freeLoc hv
  · exact reported_freeLoc (reported_ite (reported_dropMerges hv) hv)
  · exact hv

theorem reported_losePage {p code : Nat} : Reported (s.losePage p code) :=
  reported_watermarks (reported_putPages (reported_foldl h fun _ hv _ => reported_freeStorage hv))

theorem reported_blankPage {p : Nat} : Reported (s.blankPage p) :=
  reported_watermarks (reported_putPage (reported_freeStorage h))

theorem reported_rekeyFrame {p key : Nat} {lines : List (BitVec 512 × Bool)} : Reported (s.rekeyFrame p key lines) := by
  unfold State.rekeyFrame
  extract_lets x k v _ sl w
  have hv : Reported v := reported_watermarks (reported_putPage (reported_dropMerges h))
  have hw : Reported w := reported_sealing hv
  exact reported_sealFrame hw

theorem reported_mixed {r : Nat} : Reported (s.mixed r) := reported_ite h (reported_split h)

theorem reported_allocate {p key : Nat} {lines : List (BitVec 512 × Bool)} {u : State} (hu : s.allocate p key lines = some u) :
    Reported u := by
  unfold State.allocate at hu
  extract_lets t at hu
  have ht : Reported t := reported_mixed h
  split at hu
  · cases hu
  · split at hu
    · cases hu
    · obtain rfl := Option.some.inj hu
      exact reported_watermarks (reported_sealFrame (reported_putPage (reported_take ht)))

/-! ### Violations (R193) -/

theorem reported_violate {hd : Nat} {ld : BitVec 8} {code resp : Nat} {addr : BitVec 64} {detail : Nat} :
    Reported (s.violate hd ld code resp addr detail) := by
  have hlogged : Reported (s.logged hd ld code resp addr detail) := reported_setLink (reported_occur h)
  rw [violate_eq]
  exact reported_ite (reported_report (reported_setW1c hlogged)) hlogged

theorem reported_violateReq {r : MemReq} {code resp : Nat} : Reported (s.violateReq r code resp) := by
  unfold State.violateReq
  split
  · exact reported_violate h
  · exact h

/-! ### Answers (R184, R192, R218) -/

theorem reported_startDwell {l hd : Nat} : Reported (s.startDwell l hd) := reported_ite h (reported_coh h)

theorem reported_handGrant {r : MemReq} : Reported (s.handGrant r) := by
  unfold State.handGrant
  split
  · exact reported_ite (reported_ite (reported_startDwell (reported_coh h)) (reported_coh h)) h
  · exact h

theorem reported_respond {r : MemReq} {data : Option (BitVec 512)} {poison : Bool} {level : Nat} :
    Reported (s.respond r data poison level) := by
  unfold State.respond
  extract_lets v
  have hv : Reported v := reported_handGrant h
  split
  · exact reported_ite (reported_send (reported_ite (reported_occur hv) hv)) hv
  · exact hv

theorem reported_dbgDone {result : BitVec 4} : Reported (s.dbgDone result) := reported_svc h

theorem reported_sendPoison {r : MemReq} : Reported (s.sendPoison r) := by
  unfold State.sendPoison
  split
  · exact reported_respond (reported_fixed (reported_freeUsed h))
  · exact reported_dbgDone h
  · exact h

theorem reported_answerPoison {r : MemReq} : Reported (s.answerPoison r) := by
  unfold State.answerPoison
  extract_lets _ v
  refine reported_sendPoison ?_
  unfold v
  split
  · exact reported_ite h (reported_soft h)
  · exact h

theorem reported_answerData {r : MemReq} {data : BitVec 512} {poison : Bool} {level : Nat} :
    Reported (s.answerData r data poison level) := by
  unfold State.answerData
  split
  · exact reported_ite (reported_answerPoison h) (reported_respond (reported_fixed h))
  · exact h

theorem reported_refuse {r : MemReq} : Reported (s.refuse r) := by
  unfold State.refuse
  refine reported_ite h (reported_ite (reported_respond h) (reported_ite ?_ (reported_sendPoison h)))
  split
  · exact reported_respond (reported_fixed h)
  · exact h

theorem reported_answerLost {r : MemReq} : Reported (s.answerLost r) :=
  reported_ite (reported_refuse h) (reported_answerPoison h)

theorem reported_wrote {r : MemReq} {level : Nat} : Reported (s.wrote r level) := by
  unfold State.wrote
  split
  · exact reported_respond (reported_fixed h)
  · exact h

/-! ### Heat and the placement cache (R242, R251, R252) -/

theorem reported_heatSample {p : Nat} : Reported (s.heatSample p) := by
  unfold State.heatSample
  extract_lets hs v _ put first
  have hv : Reported v := reported_occur h
  have hput : ∀ l, Reported (put l) := fun l => reported_plc hv
  refine reported_ite (hput _) (reported_ite (reported_ite (reported_raiseOwners (hput _)) (hput _)) ?_)
  split
  · exact hput _
  · exact reported_occur hv

theorem reported_heat {p : Nat} : Reported (s.heat p) := by
  unfold State.heat
  extract_lets hs k n start at_ v t _ w
  have hv : Reported v := reported_ite (reported_took h) h
  have hw : Reported w := reported_coh hv
  exact reported_ite (reported_heatSample hw) hw

theorem reported_markAccessed {p : Nat} : Reported (s.markAccessed p) :=
  reported_ite (reported_plc h) (reported_setPage h)

theorem reported_placeLookup {r : MemReq} : Reported (s.placeLookup r) := by
  unfold State.placeLookup
  extract_lets p key hit v n subs taken _
  have hv : Reported v := reported_occur h
  have htaken : Reported taken := reported_took hv
  exact reported_ite hv (reported_plc htaken)

/-! ### What a request meets at its page (R185, R245, R254, R299) -/

theorem reported_park {r : MemReq} : Reported (s.park r) := reported_coh h

theorem reported_holdReq {p : Nat} {r : MemReq} : Reported (s.holdReq p r) := by
  unfold State.holdReq
  split
  · exact reported_setMove h
  · exact reported_park h

theorem reported_promote {p : Nat} {buffer : Bool} {r : MemReq} : Reported (s.promote p buffer r) := by
  unfold State.promote
  extract_lets q v
  have hv : Reported v := reported_wakeDom h
  split
  · exact reported_stow hv
  · exact reported_stow hv

theorem reported_readLine {r : MemReq} {k : Nat} : Reported (s.readLine r k) := by
  unfold State.readLine
  extract_lets p i u key d addr level inMerge c twoDpc inQueue inTwin inSpan v ok q looked b
  have hv : Reported v := reported_ite (reported_fixed h) (reported_fixed h)
  have hlooked : Reported looked := reported_counterLookup hv
  exact reported_ite (reported_answerData hv) (reported_ite (reported_answerData (reported_occur hv))
    (reported_ite (reported_answerData hv) (reported_setRb (reported_wakeDom hlooked))))

/-! ### Snoops and internal invalidations (R210, R215, R231) -/

theorem reported_sendSnoop {n : Snoop} : Reported (s.sendSnoop n) := by
  unfold State.sendSnoop
  extract_lets k g charged woken sent _
  have hwoken : Reported woken := reported_occur (reported_wakeUnit (reported_setLink h))
  have hsent : Reported sent := reported_send hwoken
  exact reported_ite h (reported_ite (reported_wakeUnit (reported_setLink h)) (reported_coh hsent))

theorem reported_issueSnoop {hd l : Nat} {inv : Bool} {why : Why} : Reported ((s.issueSnoop hd l inv why).getD s) := by
  unfold State.issueSnoop
  extract_lets hs u _ go
  have hgo : ∀ reserved, Reported (go reserved) := fun reserved =>
    reported_sendSnoop (reported_fixed (reported_coh h))
  split
  · exact h
  · split
    · exact hgo false
    · split
      · exact hgo true
      · exact h

theorem reported_issueAll {hs : List Nat} {l : Nat} {inv : Bool} {why : Why} : Reported (s.issueAll hs l inv why) :=
  reported_foldl h fun _ hv _ => reported_ite hv (reported_issueSnoop hv)

theorem reported_pumpInvals : Reported s.pumpInvals :=
  reported_foldl h fun _ hv _ => reported_ite (reported_coh hv) (reported_ite hv (reported_ite hv (reported_issueAll hv)))

theorem reported_invalidate {ls : List Nat} {why : Why} {inv : Bool} : Reported (s.invalidate ls why inv) := by
  unfold State.invalidate
  extract_lets need v _
  have hv : Reported v := reported_foldl h fun _ hw _ => reported_wakeUnit hw
  exact reported_pumpInvals (reported_coh hv)

theorem reported_capacityLoss {p : Nat} : Reported (s.capacityLoss p) := by
  unfold State.capacityLoss
  extract_lets v
  have hv : Reported v := reported_report (reported_losePage h)
  split
  · exact reported_invalidate hv
  · exact hv

/-! ### Access to a page -/

theorem reported_firstWrite {r : MemReq} {adopt : Bool} : Reported (s.firstWrite r adopt) := by
  unfold State.firstWrite
  extract_lets p
  split
  · next u hu => exact reported_wrote (reported_wakeDom (reported_allocate h hu))
  · exact reported_refuse (reported_capacityLoss h)

theorem reported_accessStowed {r : MemReq} : Reported (s.accessStowed r) :=
  reported_ite (reported_answerLost h) (reported_ite (reported_promote h)
    (reported_ite (reported_refuse (reported_capacityLoss h)) (reported_promote h)))

theorem reported_frameAccess {r : MemReq} {x : Page} {same w adopt : Bool} :
    Reported (State.access.frameAccess s r x same w adopt) :=
  reported_ite (reported_ite (reported_wrote (reported_writeFrame h)) (reported_readLine h))
    (reported_ite (reported_wrote (reported_writeFrame (reported_rekeyFrame (reported_violateReq h))))
      (reported_refuse (reported_violateReq h)))

theorem reported_access {r : MemReq} : Reported (s.access r) := by
  unfold State.access
  extract_lets p x host looked touches v r' y same w adopt
  have hlooked : Reported looked := reported_placeLookup h
  have hv : Reported v :=
    reported_ite (reported_markAccessed (reported_ite hlooked (reported_heat hlooked))) hlooked
  refine reported_ite (reported_respond h) (reported_ite h (reported_ite (reported_svc h)
    (reported_ite (reported_park h) ?_)))
  split
  · exact reported_ite (reported_firstWrite hv) (reported_respond (reported_fixed (reported_fixed hv)))
  · exact reported_answerLost hv
  · exact reported_frameAccess hv
  · exact reported_frameAccess hv
  · have hviolated : Reported (v.violateReq r' 5 7) := reported_violateReq hv
    exact reported_ite (reported_accessStowed hv) (reported_ite
      (reported_ite (reported_firstWrite (reported_blankPage hviolated)) (reported_refuse (reported_capacityLoss hviolated)))
      (reported_refuse (reported_violateReq hv)))
  · refine reported_ite (reported_refuse (reported_violateReq hv)) (reported_ite (reported_holdReq hv)
      (reported_ite (reported_holdReq hv) (reported_ite (reported_readLine hv) ?_)))
    split
    · exact reported_ite (reported_holdReq hv) (reported_wrote (reported_writeFrame (reported_setMove hv)))
    · exact reported_wrote (reported_writeFrame hv)

/-! ### Entries of the snoop filter (R205, R211, R216, R217) -/

theorem reported_touch {l : Nat} : Reported (s.touch l) := by
  unfold State.touch
  split
  · exact reported_coh h
  · exact h

theorem reported_setEntry {l : Nat} {e : SfEntry} : Reported (s.setEntry l e) := by
  unfold State.setEntry
  split
  · exact reported_setWay h
  · exact h

theorem reported_dropVictim {l : Nat} : Reported (s.dropVictim l) := reported_coh h

theorem reported_pumpVictims {hs : Nat} : Reported (s.pumpVictims hs) :=
  reported_foldl h fun _ hv _ => reported_ite hv
    (reported_ite hv (reported_coh (reported_foldl hv fun _ hw _ => reported_issueSnoop hw)))

theorem reported_allocEntry {l : Nat} {e : SfEntry} : Reported (s.allocEntry l e).1 := by
  unfold State.allocEntry
  extract_lets hs set free dropped ok size fewest sub w old v counted _
  have hcounted : Reported counted := reported_occur h
  clear_value free
  cases free with
  | some w => exact reported_occur (reported_touch (reported_setWay (reported_dropVictim h)))
  | none => exact reported_fst_ite h (reported_fst_ite h (reported_pumpVictims (reported_coh hcounted)))

theorem reported_putEntry {l : Nat} {e : SfEntry} : Reported (s.putEntry l e).1 := by
  unfold State.putEntry
  split
  · exact reported_touch (reported_setEntry h)
  · exact reported_allocEntry h

theorem reported_granting {r : MemReq} : Reported (s.granting r) := by
  unfold State.granting
  split
  · exact reported_coh h
  · exact h

theorem reported_grantEntry {r : MemReq} : Reported (s.grantEntry r).1 := by
  unfold State.grantEntry
  extract_lets l e m
  clear_value m
  split
  · exact reported_ite (reported_setEntry h) h
  · split
    · split
      · exact reported_putEntry h
      · exact reported_putEntry h
      · exact reported_setEntry h
    · split
      · exact reported_ite h (reported_setEntry h)
      · split
        · exact reported_ite (reported_granting (reported_putEntry h)) (reported_putEntry h)
        · split
          · exact reported_putEntry h
          · split
            · exact reported_putEntry h
            · exact reported_putEntry h
        · exact reported_ite (reported_setEntry h) h

theorem reported_lookup {l : Nat} : Reported (s.lookup l) := reported_ite (reported_touch (reported_occur h)) h

/-! ### Trackers and complete lines (R211-R214) -/

theorem reported_setTrack {l : Nat} {q : List MemReq} : Reported (s.setTrack l q) := reported_coh h

theorem reported_serve {r : MemReq} : Reported (s.serve r).1 := by
  unfold State.serve
  extract_lets l v need x
  split
  · exact reported_access h
  · extract_lets fenced
    have hv : Reported v := reported_ite h (reported_lookup h)
    have hx : Reported x.1 := reported_grantEntry hv
    refine reported_fst_ite (reported_refuse h) (reported_fst_ite
      (reported_fst_ite (reported_access (reported_grantEntry h)) ?closed)
      (reported_fst_ite h (reported_fst_ite (reported_fst_ite hv (reported_issueAll hv))
        (reported_fst_ite (reported_access hx) (reported_fst_ite (reported_refuse (reported_dropVictim hx)) hx)))))
    split
    · exact reported_refuse h
    · exact reported_access h

theorem reported_runTracker (n : Nat) {l : Nat} : Reported (State.runTracker n s l) := by
  induction n generalizing s with
  | zero => exact h
  | succ n ih =>
    unfold State.runTracker
    split
    · exact h
    · next r rest _ =>
      extract_lets seen x v
      have hx : Reported x.1 := reported_serve h
      have hv : Reported v := reported_setTrack hx
      refine reported_ite (ih (reported_setTrack hx)) ?_
      split
      · next k i _ =>
        have hk : Reported (v.serve k).1 := reported_serve hv
        exact reported_ite (ih (reported_setTrack hk)) hk
      · exact hv

theorem reported_tidy {l : Nat} : Reported (s.tidy l) := reported_ite (reported_setEntry h) h

theorem reported_finishLine {l : Nat} : Reported (s.finishLine l) := by
  unfold State.finishLine
  extract_lets ns evicted e _ v entered tidied
  have hv : Reported v := reported_coh h
  have hentered : Reported entered := by
    unfold entered
    split
    · exact reported_setWay hv
    · exact hv
  have htidied : Reported tidied := reported_ite (reported_tidy hentered) hentered
  exact reported_ite h (reported_tidy (reported_runTracker htidied _))

/-- What the slices release withdraws no report. -/
theorem reported_pump : Reported s.pump := by
  unfold State.pump
  extract_lets lines victims invals
  have hlines : Reported lines := reported_foldl h fun _ hv _ => reported_finishLine hv
  have hvictims : Reported victims := reported_foldl hlines fun _ hv _ => reported_pumpVictims hv
  have hinvals : Reported invals := reported_pumpInvals hvictims
  exact reported_foldl hinvals fun _ hv _ => reported_runTracker hv _

end Ops

end Sys2Proof.Machine
end

section
/-! PROOFS. A snoop's timeout where a window's INDEX is out of range (R125, R167, R225, R226). -/
namespace Sys2Proof.Machine

/-- A WINDOW index that no handle carries: the key of its SIZE is the key of SNOOP entry 0's TIMED_OUT. -/
def farWindow : Nat := 15 * 2 ^ 48

/-- Window 0 is shared, open and of one region. A store that waits for its commit point lists the far window too: shared, a
closed road, and of the size that the TIMED_OUT bits of window 0 say, none yet. -/
def farRoad : State :=
  let s := ((State.reset.wr WINDOW.ENABLE 0 1).wr WINDOW.TYPE 0 1).wr WINDOW.SIZE 0 1
  let s := (((s.wr WINDOW.STATE 0 1).wr WINDOW.ENABLE farWindow 1).wr WINDOW.TYPE farWindow 1).wr WINDOW.STATE farWindow 2
  { s with uncommitted := [⟨0x02, farWindow, 0, 0, 0, 0, 0⟩] }

/-- The timeout of head 0 sets TIMED_OUT bit 0 and with it the far window's size to 1: the group is a closed road at once, and
the timeout is not reported. -/
theorem farRoad_timeout_quiet : (farRoad.snoopTimeout 0 0).aon.reports = [] := by decide +kernel

/-- Refutes O49: in `farRoad` a timeout on an open road of policy 0, whose head is not timed out yet, reports nothing, and what
the slices then release withdraws no report (`reported_pump`). -/
theorem not_coherenceEventsAndSharedWindows : ¬ Obligations.CoherenceEventsAndSharedWindows := by
  unfold Obligations.CoherenceEventsAndSharedWindows
  intro holds
  obtain ⟨-, -, -, timeout, -⟩ := holds farRoad
  have group : farRoad.lineGroup 0 = some 0 := by decide +kernel
  have fresh : bitOf ((farRoad.dropSnoop 0 0).rd SNOOP.TIMED_OUT 0) 0 = false := by decide +kernel
  have isOpen : farRoad.closedRoad 0 = false := by decide +kernel
  have policy : farRoad.infB SNOOP.DEAD_POLICY 0 = false := by decide +kernel
  obtain ⟨a, hpump, ⟨r, hr, -⟩, -⟩ := timeout 0 0 0 group fresh isOpen policy (by decide)
  have reported : Reported a := by
    unfold Reported
    exact List.ne_nil_of_mem hr
  have kept : Reported (farRoad.snoopTimeout 0 0) := hpump ▸ reported_pump reported
  unfold Reported at kept
  exact kept farRoad_timeout_quiet

end Sys2Proof.Machine
end

section
/-! PROOFS. Offers, answers, recalls, releases and evacuations of capacity (R265, R270-R273, R284, R455). -/
namespace Sys2Proof.Machine

/-! ### A head's bit in a mask -/

theorem bitOf_eq_testBit (v i : Nat) : bitOf v i = v.testBit i := by
  rw [Nat.testBit_eq_decide_div_mod_eq]
  rfl

theorem getLsbD_headBit {h : Nat} (hh : h < 32) : (headBit h).getLsbD h = true := by
  rw [headBit, BitVec.getLsbD_ofNat, Nat.testBit_two_pow_self, decide_eq_true hh, Bool.and_self]

/-- A mask of 32 bits holds the head's bit as written. -/
theorem bitOf_headMask (s : State) {f : Fld} (e : Nat) {h : Nat} (v : Bool) (hfits : f.fits = true) (hw : f.w = 32)
    (hh : h < 32) : bitOf ((s.headMask f e h v).rd f e) h = v := by
  have bit := getLsbD_headBit hh
  unfold State.headMask
  rw [bitOf_eq_testBit, rd_wr_of_lt s e hfits (by rw [hw]; exact BitVec.isLt _), BitVec.testBit_toNat]
  cases v <;> simp [bit, hh]

theorem rd_headMask_beside (s : State) {f g : Fld} {e : Nat} (h : Nat) (v : Bool) (hfg : f.beside g = true)
    (he : e < 2 ^ 48) : (s.headMask g e h v).rd f e = s.rd f e :=
  rd_wr_beside s _ hfg he

/-! ### Events to the owner's threads change only domains and mileposts (R129, R436) -/

theorem domOf_lt {u d : Nat} (h : domOf u = some d) : d < 2 ^ 48 := by
  unfold domOf at h
  split at h <;> grind

section Raise
variable {f : Fld} {i : Nat} (hdom : f.lay.tbl ≠ 0x10) (hmile : f.lay.tbl ≠ 0x0F) (hi : i < 2 ^ 48) (hf : f.word < 256)
include hdom hmile hi hf

theorem rd_wakeDom (s : State) {d : Nat} (hd : d < 2 ^ 48) : (s.wakeDom d).rd f i = s.rd f i := by
  have entered : ((s.wr POWER.STATE d 5).inc POWER.WAKES d).rd f i = s.rd f i :=
    (rd_wr_otherTable _ f POWER.WAKES i d _ hdom hi hd hf (by decide)).trans
      (rd_wr_otherTable s f POWER.STATE i d _ hdom hi hd hf (by decide))
  unfold State.wakeDom
  dsimp only
  split
  · rfl
  · split
    · rfl
    · split
      · exact ((countFrame_fixed _ 535 (by decide)).rd hmile hi hf).trans entered
      · rfl

theorem rd_wakeUnit (s : State) (u : Nat) : (s.wakeUnit u).rd f i = s.rd f i := by
  unfold State.wakeUnit
  split
  case h_1 d hd => exact rd_wakeDom hdom hmile hi hf s (domOf_lt hd)
  case h_2 => rfl

theorem rd_raise (s : State) (w t bit : Nat) : (s.raise w t bit).rd f i = s.rd f i :=
  rd_wakeUnit hdom hmile hi hf _ _

theorem rd_raiseOwners (s : State) (bit : Nat) : (s.raiseOwners bit).rd f i = s.rd f i := by
  refine List.foldlRecOn (motive := fun (v : State) => v.rd f i = s.rd f i) (List.range 64) _ rfl (fun v hv k _ => ?_)
  dsimp only
  split
  · exact (rd_raise hdom hmile hi hf v _ _ bit).trans hv
  · exact hv

end Raise

/-! ### What an extent's STATE reads after the watermarks are compared, and after it goes free (R268-R270) -/

/-- The watermarks are entry 0 of the table; an extent's entry is another. -/
theorem extState_poolFlag (s : State) {g : Fld} (c : Bool) {e : Nat} (he : e < 2 ^ 48) (hpos : e ≠ 0) (hg : g.word < 256) :
    (if c then s.setW1c g 0 1 else s).rd EXTENT.STATE e = s.rd EXTENT.STATE e := by
  split
  · exact State.rd_wr_entry s EXTENT.STATE g e 0 1 hpos he (by decide) (by decide) hg
  · rfl

theorem extState_watermarks (s : State) {e : Nat} (he : e < 2 ^ 48) (hpos : e ≠ 0) :
    s.watermarks.rd EXTENT.STATE e = s.rd EXTENT.STATE e := by
  unfold State.watermarks
  extract_lets old oldShort now short _ v down crossed low rel flo vLow vRel vFloor vShort
  have kept : vShort.rd EXTENT.STATE e = s.rd EXTENT.STATE e :=
    calc vShort.rd EXTENT.STATE e
      _ = vFloor.rd EXTENT.STATE e := extState_poolFlag vFloor _ he hpos (by decide)
      _ = vRel.rd EXTENT.STATE e := extState_poolFlag vRel _ he hpos (by decide)
      _ = vLow.rd EXTENT.STATE e := extState_poolFlag vLow _ he hpos (by decide)
      _ = v.rd EXTENT.STATE e := extState_poolFlag v _ he hpos (by decide)
  split
  · exact (rd_raiseOwners (by decide) (by decide) he (by decide) vShort 6).trans kept
  · exact kept

theorem extState_extFree (s : State) {e : Nat} (he : e < 2 ^ 48) (hpos : e ≠ 0) : (s.extFree e).rd EXTENT.STATE e = 0 := by
  unfold State.extFree State.withMarks
  rw [extState_watermarks _ he hpos, rd_wr_beside _ _ (by decide) he, rd_wr_beside _ _ (by decide) he,
    rd_wr_of_lt _ e (by decide) (by decide)]

/-- A releasing extent that no head holds goes free. -/
theorem extEval_released {s : State} {e : Nat} (hstate : s.rd EXTENT.STATE e = 3) (hnone : s.rd EXTENT.ACCEPTED e = 0) :
    s.extEval e = s.extFree e := by
  simp [State.extEval, hstate, hnone, bitOf]

/-! ### A head's answers (R270) -/

/-- The state with a head's accept noted, as the extent is then re-evaluated. -/
def extAccepted (s : State) (e h : Nat) : State := s.headMask EXTENT.ACCEPTED e h true

/-- The state with a head's release noted. -/
def extReleased (s : State) (e h : Nat) : State :=
  ((s.headMask EXTENT.ACCEPTED e h false).headMask EXTENT.RELEASED e h true).wr EXTENT.STATE e 3

theorem exec_extentAccept_member {s : State} {h : HeadNo} {e : BitVec 14} (hlive : s.live = true)
    (hoffered : s.rd EXTENT.STATE (e.toNat + 1) = 1) (hmember : h.val ∈ s.extHeads (e.toNat + 1)) :
    exec (.extentAccept h e) s = .next ((extAccepted s (e.toNat + 1) h).extEval (e.toNat + 1)) := by
  change execExtentAccept h e s = _
  simp only [execExtentAccept, hlive, hoffered, List.contains_iff_mem.mpr hmember, beq_self_eq_true, Bool.and_self, if_true,
    extAccepted]

theorem exec_extentRelease_member {s : State} {h : HeadNo} {e : BitVec 14} (hlive : s.live = true)
    (htaken : s.rd EXTENT.STATE (e.toNat + 1) ≠ 0) (hmember : h.val ∈ s.extHeads (e.toNat + 1)) :
    exec (.extentRelease h e) s = .next ((extReleased s (e.toNat + 1) h).extEval (e.toNat + 1)) := by
  change execExtentRelease h e s = _
  simp only [execExtentRelease, hlive, bne_iff_ne.mpr htaken, List.contains_iff_mem.mpr hmember, Bool.and_self, if_true,
    extReleased]

theorem exec_extentAnswer_stranger {s : State} {h : HeadNo} {e : BitVec 14} (hnot : h.val ∉ s.extHeads (e.toNat + 1)) :
    exec (.extentAccept h e) s = .next s ∧ exec (.extentRelease h e) s = .next s := by
  have hno : (s.extHeads (e.toNat + 1)).contains h.val = false := by simpa using hnot
  change execExtentAccept h e s = _ ∧ execExtentRelease h e s = _
  simp only [execExtentAccept, execExtentRelease, hno, Bool.and_false, Bool.false_eq_true, if_false, and_self]

section Answers
variable (s : State) {e h : Nat} (he : e < 2 ^ 48) (hh : h < 32)
include he hh

theorem extAccepted_spec : bitOf ((extAccepted s e h).rd EXTENT.ACCEPTED e) h = true ∧
    (extAccepted s e h).rd EXTENT.STATE e = s.rd EXTENT.STATE e ∧ (extAccepted s e h).plc = s.plc :=
  ⟨bitOf_headMask s e true (by decide) rfl hh, rd_headMask_beside s h true (by decide) he, rfl⟩

theorem extReleased_spec : bitOf ((extReleased s e h).rd EXTENT.ACCEPTED e) h = false ∧
    bitOf ((extReleased s e h).rd EXTENT.RELEASED e) h = true ∧ (extReleased s e h).rd EXTENT.STATE e = 3 ∧
    (extReleased s e h).plc = s.plc := by
  unfold extReleased
  refine ⟨?_, ?_, rd_wr_of_lt _ e (by decide) (by decide), rfl⟩
  · rw [rd_wr_beside _ 3 (by decide) he, rd_headMask_beside _ h true (by decide) he]
    exact bitOf_headMask s e false (by decide) rfl hh
  · rw [rd_wr_beside _ 3 (by decide) he]
    exact bitOf_headMask _ e true (by decide) rfl hh

end Answers

/-! ### The owner's stores (R271, R273, R284, R455) -/

/-- EVACUATE by its outcomes: a bay that is not ON, one that cannot be emptied, or one that starts draining. -/
theorem evacuate_eq (j : State) (b : Nat) : j.evacuate b =
    if j.rd BAY.STATE b ≠ 6 then (5, j) else if j.evacOk b then (0, j.evacuateBay b) else (7, j) := by
  unfold State.evacuate
  cases j.evacOk b <;> simp

section Stores
variable {s : State} {w : WfNo} {t : ThrNo} (issues : Issues s w t) (d : Reg)
include issues

theorem submits_offer (e : BitVec 14) : Submits (.offer w t d e) s w t d (fun j =>
    if j.offerStatus j.extAsked (e.toNat + 1) = 0 then (0, j.extOffer (e.toNat + 1))
    else (j.offerStatus j.extAsked (e.toNat + 1), j)) := by
  have outcome : ∀ j : State, (if j.offerStatus j.extAsked (e.toNat + 1) = 0 then (0, j.extOffer (e.toNat + 1))
      else (j.offerStatus j.extAsked (e.toNat + 1), j)) =
      (j.offerStatus j.extAsked (e.toNat + 1),
        if j.offerStatus j.extAsked (e.toNat + 1) = 0 then j.extOffer (e.toNat + 1) else j) := by
    intro j
    split
    case isTrue h => rw [h]
    case isFalse => rfl
  simp only [outcome]
  exact submits_of issues rfl rfl

theorem submits_recall (e : BitVec 14) : Submits (.recall w t d e) s w t d (fun j => (0, j.extRecall (e.toNat + 1))) :=
  submits_of issues rfl rfl

theorem submits_evacuate (b : BayNo) : Submits (.evacuate w t d b) s w t d (fun j =>
    if j.rd BAY.STATE b ≠ 6 then (5, j) else if j.evacOk b then (0, j.evacuateBay b) else (7, j)) := by
  simp only [← evacuate_eq]
  exact submits_of issues rfl rfl

theorem submits_cancel (b : BayNo) : Submits (.cancel w t d b) s w t d (fun j => (0, j.cancelEvac b)) :=
  submits_of issues rfl rfl

end Stores

/-! ### The statement -/

/-- Settles O52: the stores by their outcomes, a head's answer by `extAccepted_spec` and `extReleased_spec`, the end of a
release by `extEval_released`. -/
theorem capacityIsOfferedAndEvacuated : Obligations.CapacityIsOfferedAndEvacuated := by
  unfold Obligations.CapacityIsOfferedAndEvacuated
  intro s w t d
  have index : ∀ e : BitVec 14, e.toNat + 1 < 2 ^ 48 := fun e => by omega
  refine ⟨fun e issues => submits_offer issues d e, fun e issues => submits_recall issues d e,
    fun b issues => submits_evacuate issues d b, fun b issues => submits_cancel issues d b, ?accept, ?release,
    fun h e => exec_extentAnswer_stranger, ?free⟩
  case accept =>
    intro h e hlive hoffered hmember
    obtain ⟨hbit, hstate, hplc⟩ := extAccepted_spec s (index e) h.isLt
    exact ⟨_, exec_extentAccept_member hlive hoffered hmember, hbit, hstate.trans hoffered, hplc⟩
  case release =>
    intro h e hlive htaken hmember
    exact ⟨_, exec_extentRelease_member hlive htaken hmember, extReleased_spec s (index e) h.isLt⟩
  case free =>
    intro e hlt hpos hstate hnone
    rw [extEval_released hstate hnone, extState_extFree s (by omega) hpos]

end Sys2Proof.Machine
end

section
/-! PROOFS. The channel and stack controllers: command issue, completed reads, refresh, retraining, scrub and the
correctable-error table (R243, R338, R362, R364, R366, R369, R370, R377, R380, R381). -/
namespace Sys2Proof.Machine

/-! ### Command issue (R364-R366) -/

/-- The unit's next write issued, if it has one. -/
def State.writeNext (s : State) (u : Nat) : State :=
  match (s.chan u).nextWrite with
  | some x => s.issueWrite u x
  | none => s

/-- The write that goes before a read: in a two-DIMM channel, a queued one of the read's row. -/
def State.writeAhead (s : State) (u : Nat) (r : Rd) : Option Wr :=
  if decide (u < 24) && s.rd MEMCH.DIMMS u == 2 then
    (s.chan u).wq.find? (fun x => !x.low && s.rowKey u x.addr == s.rowKey u r.addr)
  else none

/-- The unit's next read issued, or the write that goes before it; a write where no read waits. -/
def State.readNext (s : State) (u : Nat) : State :=
  match s.nextRead u with
  | some r =>
    match s.writeAhead u r with
    | some x => s.issueWrite u x
    | none => s.issueRead u r
  | none => s.writeNext u

section Next
variable {s : State} {u : Nat} {r : Rd} {x : Wr}

theorem writeNext_some (hwrite : (s.chan u).nextWrite = some x) : s.writeNext u = s.issueWrite u x := by
  simp only [State.writeNext, hwrite]

theorem readNext_read (hread : s.nextRead u = some r) (hfree : 24 ≤ u ∨ s.rd MEMCH.DIMMS u ≠ 2) :
    s.readNext u = s.issueRead u r := by
  have hnone : s.writeAhead u r = none := by
    rw [State.writeAhead, if_neg]
    simp only [Bool.and_eq_true, decide_eq_true_eq, beq_iff_eq]
    omega
  simp only [State.readNext, hread, hnone]

theorem readNext_writeAhead (hread : s.nextRead u = some r) (hchan : u < 24) (hdimms : s.rd MEMCH.DIMMS u = 2)
    (hrow : (s.chan u).wq.find? (fun x => !x.low && s.rowKey u x.addr == s.rowKey u r.addr) = some x) :
    s.readNext u = s.issueWrite u x := by
  have hahead : s.writeAhead u r = some x := by
    rw [State.writeAhead, if_pos (by simp [hchan, hdimms]), hrow]
  simp only [State.readNext, hread, hahead]

theorem readNext_idle (hread : s.nextRead u = none) : s.readNext u = s.writeNext u := by
  simp only [State.readNext, hread]

end Next

/-- A controller that may issue and has no read in flight: a write while its write queue drains, else its next read. -/
theorem exec_dramCommandIssue {s a : State} {u : UnitNo} (hmay : s.mayIssue u = true) (hidle : (s.chan u).inflight = none)
    (ha : a = s.setChan u { s.chan u with draining := s.drainNow u }) :
    exec (.dramCommandIssue u) s = .next (if (a.chan u).draining = true then a.writeNext u else a.readNext u) := by
  subst ha
  change execDramCommandIssue u s = _
  rw [execDramCommandIssue, if_neg (by simp [hmay, hidle])]
  rfl

/-! ### Reads that complete (R243, R338, R362) -/

theorem exec_dramReadComplete_data {s : State} {u : UnitNo} {r : Rd} (dec : Decode) (hlive : s.live = true)
    (hflight : (s.chan u).inflight = some r) : exec (.dramReadComplete u (.data dec)) s =
      .next ((s.setChan u { s.chan u with inflight := none }).readDone u r.req dec).settle := by
  change execDramReadComplete u (.data dec) s = _
  simp only [execDramReadComplete, hlive, Bool.not_true, Bool.false_eq_true, if_false, hflight]

theorem exec_dramReadComplete_none {s : State} {u : UnitNo} (dec : Decode) (hidle : (s.chan u).inflight = none) :
    exec (.dramReadComplete u (.data dec)) s = .next s := by
  change execDramReadComplete u (.data dec) s = _
  simp only [execDramReadComplete, hidle, ite_self]

theorem exec_dramReadComplete_metadata {s : State} {u : UnitNo} (m : MetaRead) (hlive : s.live = true) :
    exec (.dramReadComplete u (.metadata m)) s = .next (s.metaRead u m).settle := by
  change execDramReadComplete u (.metadata m) s = _
  simp only [execDramReadComplete, hlive, Bool.not_true, Bool.false_eq_true, if_false]

/-! ### Refresh and retraining (R369, R370, R384) -/

/-- The refresh rate set at a slot: a stack's by its own sensor, a channel's by its DIMMs'. -/
def State.refreshed (s : State) (u : Nat) (hot : Bool) : State :=
  if 24 ≤ u then s.stackRefresh (u - 24)
  else if hot then s.refreshRate u true
  else if s.dimmsCool u then s.refreshRate u false else s

/-- A refresh slot that is not postponed. -/
theorem exec_refresh {s : State} {u : UnitNo} (hot : Bool) (hruns : s.unitRuns u = true) :
    exec (.refresh u hot false) s =
      .next (((s.setChan u { s.chan u with postponed := 0 }).refreshed u hot).commitMemch u) := by
  change execRefresh u hot false s = _
  simp only [execRefresh, hruns, Bool.not_true, Bool.false_and, Bool.false_eq_true, if_false, State.refreshed]

theorem refreshed_stack (s : State) {u : Nat} (hot : Bool) (h : 24 ≤ u) : s.refreshed u hot = s.stackRefresh (u - 24) :=
  if_pos h

theorem refreshed_channel (s : State) {u : Nat} (hot : Bool) (h : u < 24) : s.refreshed u hot =
    if hot then s.refreshRate u true else if s.dimmsCool u then s.refreshRate u false else s :=
  if_neg h.not_ge

theorem exec_retrainingPause {s : State} {u : UnitNo} (hlive : s.live = true) (hactive : s.unitActive u = true)
    (hchan : u.val < 24) (hdom : s.domActive (memUid u) = true) : exec (.retrainingPause u) s =
      .next (s.took.setChan u { s.chan u with readyAt := s.time.fclk + s.fresh.toNat % 1501 }) := by
  change execRetrainingPause u s = _
  simp only [execRetrainingPause, hlive, hactive, hchan, hdom, decide_true, Bool.and_self, if_true]

/-! ### Scrub and the correctable-error table (R377, R380, R381) -/

/-- What a scrub read does with what it decodes. -/
def State.scrubFinds (s : State) (u line : Nat) : Decode → State
  | .corrected ds => s.ceFound u line (ds.map BitVec.toNat)
  | .uncorrectable => s.ueFound u line 0x03
  | .wrong flip false => s.miscorrect u line flip
  | _ => s

theorem exec_patrolScrubRead {s : State} {u : UnitNo} {line : BitVec 34} (dec : Decode) (hmay : s.mayIssue u = true)
    (hline : line.toNat < s.unitLines u) : exec (.patrolScrubRead u line dec) s =
      .next (((s.event (memUid u) 0x0A).scrubbed u).scrubFinds u line.toNat dec).settle := by
  change execPatrolScrubRead u line dec s = _
  rw [execPatrolScrubRead, if_neg (by simp [hmay, hline])]
  rfl

theorem exec_ceDecay {s : State} {u : UnitNo} (hlive : s.live = true) (hpresent : s.unitPresent u = true) :
    exec (.ceDecay u) s = .next (s.ceDecay u) := by
  change execCeDecay u s = _
  rw [execCeDecay, if_pos (by rw [hlive, hpresent, Bool.and_self])]

theorem submits_ceClear {s : State} {w : WfNo} {t : ThrNo} (d : Reg) (u : UnitNo) (issues : Issues s w t) :
    Submits (.ceClear w t d u) s w t d (fun j => if j.unitPresent u then (0, j.ceEmpty u) else (9, j)) :=
  submits_of issues rfl rfl

/-! ### The statement -/

/-- Settles O54: command issue by what `readNext` and `writeNext` choose, the other commands by their equations. -/
theorem controllersIssueAndComplete : Obligations.ControllersIssueAndComplete := by
  unfold Obligations.ControllersIssueAndComplete
  intro s u
  refine ⟨?issue, fun dec r => exec_dramReadComplete_data dec, exec_dramReadComplete_none,
    exec_dramReadComplete_metadata, ?refreshStack, ?refreshChannel, exec_retrainingPause, ?scrub, exec_ceDecay,
    fun w t d => submits_ceClear d u⟩
  case issue =>
    intro a c hmay hidle ha hc
    subst hc
    have issued := exec_dramCommandIssue hmay hidle ha
    have reads (hno : (a.chan u).draining = false) : exec (.dramCommandIssue u) s = .next (a.readNext u) := by
      rw [issued, if_neg (by simp [hno])]
    refine ⟨?drain, ?read, ?ahead, ?write⟩
    case drain => intro hdrain x hx; rw [issued, if_pos hdrain, writeNext_some hx]
    case read => intro hno r hr hfree; rw [reads hno, readNext_read hr hfree]
    case ahead => intro hno r x hr hchan hdimms hrow; rw [reads hno, readNext_writeAhead hr hchan hdimms hrow]
    case write => intro hno hnone x hx; rw [reads hno, readNext_idle hnone, writeNext_some hx]
  case refreshStack => intro hot hruns hstack; rw [exec_refresh hot hruns, refreshed_stack _ hot hstack]
  case refreshChannel => rintro hot hruns hchan _ rfl; rw [exec_refresh hot hruns, refreshed_channel _ hot hchan]
  case scrub =>
    rintro line hmay hline _ rfl
    exact ⟨exec_patrolScrubRead _ hmay hline, exec_patrolScrubRead _ hmay hline,
      fun ds => exec_patrolScrubRead (.corrected ds) hmay hline⟩

end Sys2Proof.Machine
end

section
/-! PROOFS. The stream commands: EXPORT, IMPORT, SAVE, RESTORE and the release of a context (R301-R306, R310). -/
namespace Sys2Proof.Machine

/-- A command that is found is the one of its ring with its index. -/
theorem cmdAt_names {s : State} {ld r i : Nat} {c : RingCmd} (h : s.cmdAt ld r i = some c) :
    c.ld = ld ∧ c.ring = r ∧ c.idx = i := by
  simpa [and_assoc] using List.find?_some h

theorem up_of_canPost {s : State} {ld : Nat} (h : s.canPost ld = true) : (s.link (ldHead ld)).up = true :=
  (Bool.and_eq_true_iff.mp h).1

theorem up_of_canAsk {s : State} {ld : Nat} (h : s.canAsk ld = true) : (s.link (ldHead ld)).up = true :=
  (Bool.and_eq_true_iff.mp h).1

/-- A read of some bytes on a link that is up is asked of the host. -/
theorem readHost_up {s : State} {c : RingCmd} {n : Nat} (resp : HostResp) (f : State → HostResp → State) (hn : n ≠ 0)
    (hup : (s.link (ldHead c.ld)).up = true) :
    s.readHost c n resp f = f (s.hostAsk c.ld c.ring (some c.idx) c.addrB n resp) resp := by
  rw [State.readHost, if_neg hn, if_neg (by simp [hup])]

section Started
variable {s : State} {ld : LdNo} {r : RingNo} {i : BitVec 16} {c : RingCmd}
  (hlive : s.live = true) (hcmd : s.cmdAt ld r i.toNat = some c) (hst : c.st = .started)
include hlive hcmd hst

/-! ### EXPORT and IMPORT (R301-R305) -/

theorem exec_exportStream_notGranted (ok : Bool) (hop : c.opcode = 9) (hctx : c.ctxOp = 0)
    (hno : s.infB ACCESS.STREAM_OK ld = false) : exec (.exportStream ld r i ok) s = .next (s.fail c 0xE) := by
  change execExportStream ld r i ok s = _
  simp [execExportStream, hlive, hcmd, hop, hctx, hst, hno]

theorem exec_exportStream_starts {x : Ctx} (ok : Bool) (hop : c.opcode = 9) (hctx : c.ctxOp = 0)
    (hgranted : s.infB ACCESS.STREAM_OK ld = true) (harg : c.arg0Ok = true) (hrange : rangeOk c.addrA c.len 4096 = true)
    (hline : c.addrB % 64 = 0) (hroom : 4101 * (c.len / 4096) + 10 ≤ c.arg1) (hx : s.ctxFor c 1 = some x) :
    exec (.exportStream ld r i ok) s = .next (State.exportRun ld r i.toNat ok (c.len / 4096 + 1)
      ((s.setCtx c.ctxNo { x with busy := true }).setCmd { c with st := .working, data := zeros 16 })) := by
  have hchecks : (!c.arg0Ok || !rangeOk c.addrA c.len 4096 || c.addrB % 64 != 0 ||
      decide (c.arg1 < 4101 * (c.len / 4096) + 10)) = false := by simp [harg, hrange, hline, hroom]
  have hplain : ¬ (c.opcode ≠ 9 ∨ c.ctxOp = 1 ∨ c.ctxOp = 2) := by simp [hop, hctx]
  change execExportStream ld r i ok s = _
  simp only [execExportStream, hlive, if_true, hcmd, if_neg hplain, hst, hgranted, hchecks, Bool.not_true,
    Bool.false_eq_true, if_false, hx]
  rfl

theorem exec_importStream_notGranted (resp : HostResp) (hop : c.opcode = 10) (hctx : c.ctxOp = 0)
    (hno : s.infB ACCESS.STREAM_OK ld = false) : exec (.importStream ld r i resp) s = .next (s.fail c 0xE) := by
  change execImportStream ld r i resp s = _
  simp [execImportStream, hlive, hcmd, hop, hctx, hst, hno]

/-- An IMPORT that passes its checks claims its context and asks the host for its input. -/
theorem exec_importStream_starts {x : Ctx} (resp : HostResp) (hop : c.opcode = 10) (hctx : c.ctxOp = 0)
    (hgranted : s.infB ACCESS.STREAM_OK ld = true) (harg : c.arg0Ok = true) (hpage : c.addrA % 4096 = 0)
    (hline : c.addrB % 64 = 0) (hlen : c.len ≤ 2 ^ 30) (hsome : 0 < c.len) (hx : s.ctxFor c 2 = some x)
    (hkey : (s.operandKey ld c.streamKey).isSome = true) (hask : s.canAsk ld = true) :
    exec (.importStream ld r i resp) s = .next (((s.setCtx c.ctxNo { x with busy := true }).hostAsk ld r (some i.toNat)
      c.addrB c.len resp).importData c resp) := by
  obtain ⟨hld, hring, hidx⟩ := cmdAt_names hcmd
  have hrange : rangeOk c.addrA 0 4096 = true := by simp [rangeOk, hpage]
  have hlen' : ¬ 1073741824 < c.len := Nat.not_lt.mpr hlen
  have hkey' : (s.operandKey ld c.streamKey).isNone = false := by simpa using hkey
  have hread := readHost_up (s := s.setCtx c.ctxNo { x with busy := true }) resp (fun s x => s.importData c x)
    (show c.len ≠ 0 by omega) (by rw [hld]; exact up_of_canAsk hask)
  rw [hld, hring, hidx] at hread
  rw [← hread]
  change execImportStream ld r i resp s = _
  simp [execImportStream, hlive, hcmd, hop, hctx, hst, hgranted, harg, hrange, hline, hlen', hx, hkey', hask]

/-! ### SAVE and RESTORE (R306) -/

theorem takeCtxOp_notGranted {op : Nat} (f : RingCmd → State) (hop : c.opcode = 9 ∨ c.opcode = 10) (hctx : c.ctxOp = op)
    (hno : s.infB ACCESS.STREAM_OK ld = false) : s.takeCtxOp ld r i.toNat op f = s.fail c 0xE := by
  simp [State.takeCtxOp, hlive, hcmd, hst, hop, hctx, hno]

theorem takeCtxOp_taken {op : Nat} (f : RingCmd → State) (hop : c.opcode = 9 ∨ c.opcode = 10) (hctx : c.ctxOp = op)
    (hgranted : s.infB ACCESS.STREAM_OK ld = true) (himage : c.imageOk = true) : s.takeCtxOp ld r i.toNat op f = f c := by
  simp [State.takeCtxOp, hlive, hcmd, hst, hop, hctx, hgranted, himage]

theorem exec_save_writes {x : Ctx} (hop : c.opcode = 9 ∨ c.opcode = 10) (hctx : c.ctxOp = 1)
    (hgranted : s.infB ACCESS.STREAM_OK ld = true) (himage : c.imageOk = true) (hx : x = s.ctx c.ctxNo)
    (hopen : x.st = 1 ∨ x.st = 2) (hidle : x.busy = false) (hmine : x.holder = c.ld) (hpost : s.canPost ld = true) :
    exec (.save ld r i true) s = .next
      (((s.hostPost c.ld c.addrB (s.ctxImage x c.ld)).setCtx c.ctxNo Ctx.init).finishCmd c.ld c.ring c.idx 0 33024) := by
  subst hx
  change execSave ld r i true s = _
  rw [execSave, takeCtxOp_taken hlive hcmd hst _ hop hctx hgranted himage]
  simp [hopen, hidle, hmine, hpost, up_of_canPost hpost]

/-- A RESTORE that passes its checks asks the host for the image. -/
theorem exec_restore_reads (resp : HostResp) (hop : c.opcode = 9 ∨ c.opcode = 10) (hctx : c.ctxOp = 2)
    (hgranted : s.infB ACCESS.STREAM_OK ld = true) (himage : c.imageOk = true) (hload : s.mayLoadCtx c = true)
    (hask : s.canAsk ld = true) : exec (.restore ld r i resp) s =
      .next ((s.hostAsk ld r (some i.toNat) c.addrB 33024 resp).restoreData c resp) := by
  obtain ⟨hld, hring, hidx⟩ := cmdAt_names hcmd
  have hread := readHost_up (s := s) resp (fun s x => s.restoreData c x) (show 33024 ≠ 0 by decide)
    (by rw [hld]; exact up_of_canAsk hask)
  rw [hld, hring, hidx] at hread
  change execRestore ld r i resp s = _
  rw [execRestore, takeCtxOp_taken hlive hcmd hst _ hop hctx hgranted himage]
  simp [hload, hask, hread]

end Started

theorem restoreData_loads {s : State} {c : RingCmd} {bytes : List (BitVec 8)} {x : Ctx} (hload : s.mayLoadCtx c = true)
    (hx : s.imageCtx bytes c.ld = some x) :
    s.restoreData c (.ok bytes) = ((s.took).setCtx c.ctxNo x).finishCmd c.ld c.ring c.idx 0 s.fresh := by
  simp only [State.restoreData, hload, if_true, hx]

theorem restoreData_refused {s : State} {c : RingCmd} {bytes : List (BitVec 8)} (hx : s.imageCtx bytes c.ld = none) :
    s.restoreData c (.ok bytes) = s.fail c 0xA := by
  simp only [State.restoreData, hx, ite_self]

theorem submits_contextRelease {s : State} {w : WfNo} {t : ThrNo} (d : Reg) (n : BitVec 12) (issues : Issues s w t) :
    Submits (.contextRelease w t d n) s w t d (fun j =>
      if (j.ctx n.toNat).busy then (6, j) else (0, j.setCtx n.toNat Ctx.init)) :=
  submits_of issues rfl rfl

/-! ### The statement -/

/-- Settles O36: each command's equation where its checks pass and where the LD may not stream; an image by what
`restoreData` makes of it. -/
theorem streamCommands : Obligations.StreamCommands := by
  unfold Obligations.StreamCommands
  intro s ld r i c hlive hcmd hst
  refine ⟨?exports, ?imports, ?notGranted, ?save, ?restore, fun w t d n => submits_contextRelease d n⟩
  case exports =>
    rintro hop hctx hgranted harg hrange hline hroom x ok hx _ rfl
    exact exec_exportStream_starts hlive hcmd hst ok hop hctx hgranted harg hrange hline hroom hx
  case imports =>
    intro hop hctx hgranted harg hpage hline hlen hsome x bytes hx hkey hask _ _ _
    exact exec_importStream_starts hlive hcmd hst _ hop hctx hgranted harg hpage hline hlen hsome hx hkey hask
  case notGranted =>
    intro ok resp hop hno
    exact ⟨fun hop hctx => exec_exportStream_notGranted hlive hcmd hst ok hop hctx hno,
      fun hop hctx => exec_importStream_notGranted hlive hcmd hst resp hop hctx hno,
      fun hctx => congrArg _ (takeCtxOp_notGranted hlive hcmd hst _ hop hctx hno),
      fun hctx => congrArg _ (takeCtxOp_notGranted hlive hcmd hst _ hop hctx hno)⟩
  case save =>
    intro hop hctx hgranted himage x hx hopen hidle hmine hpost
    exact exec_save_writes hlive hcmd hst hop hctx hgranted himage hx hopen hidle hmine hpost
  case restore =>
    rintro hop hctx hgranted himage hload hask hld hring hidx bytes _ rfl
    rw [exec_restore_reads hlive hcmd hst _ hop hctx hgranted himage hload hask]
    refine ⟨fun x hmay hx => ?_, fun hx => ?_⟩
    · rw [restoreData_loads hmay (by rw [hld]; exact hx), hld, hring, hidx]
    · rw [restoreData_refused (by rw [hld]; exact hx)]

end Sys2Proof.Machine
end

section
/-! PROOFS. The stow engines: coders and decoders take the next page and finish it (R293-R296, R298, R299, R307, R308). -/
namespace Sys2Proof.Machine

/-! ### What taking a page into motion leaves of the engines' queues (R241, R244, R253, R437)

A page's map entry may split or release its region's sub-table: frames, map copies and tables change, the engines' queues do
not. -/

theorem CountFrame.stow {s u : State} (frame : CountFrame s u) : u.stow = s.stow := by
  obtain ⟨⟨-, -, -, -, -, -, -, -, -, hstow, -⟩, -⟩ := frame
  exact hstow

theorem stow_foldl {α : Type} {f : State → α → State} (hf : ∀ v x, (f v x).stow = v.stow) (s : State) (l : List α) :
    (l.foldl f s).stow = s.stow :=
  List.foldlRecOn (motive := fun (v : State) => v.stow = s.stow) l f rfl fun v hv x _ => (hf v x).trans hv

/-- The fixed counters are the entries from 512 on. -/
theorem stow_fixed (s : State) {n : Nat} (hn : n < 1024 := by decide) : (s.fixed n).stow = s.stow :=
  (countFrame_fixed s n (by omega)).stow

theorem stow_wakeDom (s : State) (d : Nat) : (s.wakeDom d).stow = s.stow := by
  unfold State.wakeDom
  dsimp only
  split
  · rfl
  · split
    · rfl
    · split
      · exact stow_fixed _
      · rfl

theorem stow_report (s : State) (unit code cls detail : Nat) (alarm : Bool) :
    (s.report unit code cls detail alarm).stow = s.stow := by
  unfold State.report
  split <;> rfl

theorem stow_release (s : State) (k : Nat) : (s.release k).stow = s.stow := by
  unfold State.release
  extract_lets fr _ sealed v u retired counted cleared
  have hcleared : cleared.stow = s.stow := stow_foldl (fun w e => by split <;> rfl) counted _
  split
  · split
    · exact (stow_report _ _ _ _ _ _).trans hcleared
    · exact hcleared
  · exact stow_fixed _

theorem stow_takeMap (s : State) (u : Nat) : (s.takeMap u).1.stow = s.stow := stow_fixed _

theorem stow_setAccessed (s : State) (r : Nat) (region : Bool) (pages : Page → Bool) :
    (s.setAccessed r region pages).stow = s.stow :=
  stow_foldl (by intros; rfl) _ _

theorem stow_split (s : State) (r : Nat) : (s.split r).stow = s.stow := by
  unfold State.split
  extract_lets g acc v
  have hv : v.stow = s.stow := stow_setAccessed (s.uncache r false) _ _ _
  split
  case h_1 a b _ => exact (stow_takeMap (v.takeMap a).1 b).trans ((stow_takeMap v a).trans hv)
  case h_2 => exact hv

theorem stow_unsplit (s : State) (r kind : Nat) : (s.unsplit r kind).stow = s.stow := by
  unfold State.unsplit
  extract_lets g acc v w
  have hv : v.stow = s.stow := stow_setAccessed (s.uncache r true) _ _ _
  have hw : w.stow = s.stow := by
    unfold w
    split
    · exact (stow_release _ _).trans hv
    · exact hv
  split
  · exact (stow_release _ _).trans hw
  · exact hw

theorem stow_fixRegion (s : State) (r : Nat) : (s.fixRegion r).stow = s.stow := by
  unfold State.fixRegion
  dsimp only
  split
  · split
    · rfl
    · exact stow_unsplit s r 0
  · split
    · rfl
    · split
      · rfl
      · exact stow_split s r

theorem stow_putPage (s : State) (p : Nat) (x : Page) : (s.putPage p x).stow = s.stow :=
  stow_foldl stow_fixRegion _ _

theorem stow_goMoving (s : State) (p : Nat) (m : Move) : (s.goMoving p m).stow = s.stow := stow_putPage s p _

/-! ### Coders take stows (R294, R307) -/

/-- The move of a page that a coder takes. -/
def stowMove (q : Queued) (c : Nat) : Move :=
  { page := q.page, kind := .stow q.level c, mover := 0, target := 0, tgtClass := 0, redo := 0, pass := 1,
    retried := q.retried, held := [], near := false, force := q.force }

/-- A waiting stow's page in motion: its coder's half and its unit are woken, its frame's merge entries closed. -/
def State.stowMoves (s : State) (q : Queued) (c : Nat) : State :=
  ((((s.dropStow q.page).wakeDom (32 + c / 16)).goMoving q.page (stowMove q c)).wakeDom
    (50 + (s.page q.page).loc / 2 ^ 31)).closeFrame (locFrame (s.page q.page).loc)

theorem stow_stowMoves (s : State) (q : Queued) (c : Nat) : (s.stowMoves q c).stow = (s.dropStow q.page).stow :=
  calc (s.stowMoves q c).stow
    _ = (((s.dropStow q.page).wakeDom (32 + c / 16)).goMoving q.page (stowMove q c)).stow := stow_wakeDom _ _
    _ = ((s.dropStow q.page).wakeDom (32 + c / 16)).stow := stow_goMoving _ _ _
    _ = (s.dropStow q.page).stow := stow_wakeDom _ _

theorem exec_coderAssign_idle {s : State} (hlive : s.live = true) (hnone : s.stow.waiting = []) :
    exec .coderAssign s = .next s := by
  change execCoderAssign s = _
  simp only [execCoderAssign, hlive, if_true, hnone, List.find?_nil]

section NextStow
variable {s : State} {q : Queued} (hlive : s.live = true)
  (hnext : s.stow.waiting.find? (fun q => (s.page q.page).st != .moving && !s.pageBusy q.page) = some q)
include hlive hnext

theorem exec_coderAssign_unfit {st : Nat} (hcheck : s.stowCheck q.page q.force = some st) :
    exec .coderAssign s = .next ((s.dropStow q.page).pageDone q.page st).settle := by
  change execCoderAssign s = _
  simp only [execCoderAssign, hlive, if_true, hnext, hcheck]

theorem exec_coderAssign_takes {c : Nat} (hcheck : s.stowCheck q.page q.force = none)
    (huntracked : s.pageTracked q.page = false) (hinvals : s.invalsOver (.stowForce q.page) = true)
    (hsplit : s.canSplit (q.page / 512) = true) (hcoders : s.codersOk = true) (hfree : s.freeCoder = some c) :
    exec .coderAssign s = .next { s.stowMoves q c with
      stow := { (s.stowMoves q c).stow with coding := (s.stowMoves q c).stow.coding ++ [(c, q)] } } := by
  change execCoderAssign s = _
  simp only [execCoderAssign, hlive, if_true, hnext, hcheck, huntracked, hinvals, hsplit, hcoders, hfree,
    Bool.not_true, Bool.false_eq_true, if_false]
  rfl

end NextStow

/-! ### Coders finish stows (R294, R295) -/

/-- How often the writes of a stow's slot fail. -/
def slotFailures : StowEvent → Nat
  | .written => 0
  | .slotFault => 1
  | .slotFaults => 2
  | .engineFault => 0

/-- A coder stopped by an engine fault (R308). -/
def State.coderStops (s : State) (c : Nat) : State :=
  ({ s with stow := { s.stow with stopped := s.stow.stopped ++ [uid 6 c] } }).report (uid 6 c) 0x22 2 0

/-- A stow whose coder had an engine fault: it ends, or waits again ahead of the others and for the last time. -/
def State.stowFails (s : State) (q : Queued) : State :=
  if q.retried || !s.codersOk then s.stowEnds q.page 0x206
  else
    let held := match s.moveOf q.page with | some m => m.held | none => []
    let v := s.moveFails q.page
    ({ v with stow := { v.stow with waiting := { q with retried := true } :: v.stow.waiting } }).accessAll held

theorem stowFails_ends {s : State} {q : Queued} (hlast : q.retried = true ∨ s.codersOk = false) :
    s.stowFails q = s.stowEnds q.page 0x206 :=
  if_pos (by simpa using hlast)

theorem stowFails_waits {s : State} {q : Queued} {m : Move} (hmove : s.moveOf q.page = some m)
    (hfirst : q.retried = false) (hcoders : s.codersOk = true) : s.stowFails q =
      ({ s.moveFails q.page with stow := { (s.moveFails q.page).stow with
        waiting := { q with retried := true } :: (s.moveFails q.page).stow.waiting } }).accessAll m.held := by
  rw [State.stowFails, if_neg (by simp [hfirst, hcoders]), hmove]

section Coding
variable {s a : State} {p : BitVec 34} {c : Nat} {q : Queued} (hlive : s.live = true)
  (hcoding : s.stow.coding.find? (fun x => x.2.page == p.toNat) = some (c, q)) (hdom : s.domActive (uid 6 c) = true)
  (ha : a = { s with stow := { s.stow with coding := s.stow.coding.filter (fun x => x.1 ≠ c) } })
include hlive hcoding hdom ha

/-- The page is coded where it will be coded again, or where no merge entry of its frame is left. -/
theorem exec_stowComplete_coded {m : Move} {ev : StowEvent} (hev : ev ≠ .engineFault) (hmove : a.moveOf q.page = some m)
    (hready : m.pass ≠ 4 ∧ m.redo ≠ 0 ∨ a.mergesOf (locFrame (a.page q.page).loc) = []) :
    exec (.stowComplete p ev) s = .next (a.stowCode c q q.page (slotFailures ev) m) := by
  have hready' : ¬ (ev ≠ .engineFault ∧ (m.pass = 4 ∨ m.redo = 0) ∧
      a.mergesOf (locFrame (a.page q.page).loc) ≠ []) := fun ⟨_, hpass, hmerges⟩ =>
    hready.elim (fun ⟨hfirst, hredo⟩ => hpass.elim hfirst hredo) hmerges
  subst ha
  change execStowComplete p ev s = _
  simp only [execStowComplete, hcoding, hlive, hdom, hmove, if_neg hready', Bool.not_true, Bool.or_self,
    Bool.false_eq_true, if_false]
  cases ev with
  | engineFault => exact absurd rfl hev
  | written => rfl
  | slotFault => rfl
  | slotFaults => rfl

/-- A coder with an engine fault stops, and is reported. -/
theorem exec_stowComplete_engineFault {m : Move} (hmove : a.moveOf q.page = some m) :
    exec (.stowComplete p .engineFault) s = .next ((a.coderStops c).stowFails q) := by
  subst ha
  change execStowComplete p .engineFault s = _
  simp only [execStowComplete, hcoding, hlive, hdom, hmove, Bool.not_true, Bool.or_self, Bool.false_eq_true,
    if_false, ne_eq, not_true_eq_false, false_and]
  rfl

end Coding

/-! ### Decoders take pages (R299, R307) -/

/-- The move of a page that a decoder takes for a promotion: to a frame, with the requests that wait for it. -/
def promoteMove (q : Queued) (d k u : Nat) : Move :=
  { page := q.page, kind := .promote d, mover := 0, target := frLoc k, tgtClass := 0, redo := 0, pass := 1,
    retried := false, held := q.reqs, near := decide (24 ≤ u), force := false }

/-- A promotion's page in motion, a frame of the unit taken for it. -/
def State.promoteMoves (s : State) (q : Queued) (d u : Nat) : State :=
  s.withMarks (fun v => (v.take (s.pickFrame u) (.target q.page)).goMoving q.page (promoteMove q d (s.pickFrame u) u))

theorem exec_decoderGrant_idle {s : State} (hlive : s.live = true) (hnone : s.nextDecode = none) :
    exec .decoderGrant s = .next s := by
  change execDecoderGrant s = _
  simp only [execDecoderGrant, hlive, hnone, Bool.not_true, Bool.false_eq_true, if_false]

section NextDecode
variable {s a : State} {q : Queued} {d : Nat} (hlive : s.live = true) (hnext : s.nextDecode = some q)
  (hstowed : (s.page q.page).st = .stowed) (hdecoders : s.decodersOk ≠ []) (hfree : s.freeDecoder = some d)
  (ha : a = (s.dropPromo q).wakeDom (32 + d / 32))
include hlive hnext hstowed hdecoders hfree ha

theorem exec_decoderGrant_buffer (hbuffer : q.buffer = true) :
    exec .decoderGrant s = .next { a with stow := { a.stow with decoding := a.stow.decoding ++ [⟨d, q⟩] } } := by
  have hsome : s.decodersOk.isEmpty = false := by simpa using hdecoders
  subst ha
  change execDecoderGrant s = _
  simp only [execDecoderGrant, hlive, hnext, hstowed, hsome, hfree, hbuffer, Bool.not_true, Bool.false_eq_true, ne_eq,
    not_true_eq_false, if_false, if_true]

theorem exec_decoderGrant_promotion {u : Nat} (hframe : q.buffer = false) (hgranted : a.grantable (q.page / 512) = true)
    (hunit : a.promoUnit q = some u) : exec .decoderGrant s = .next { a.promoteMoves q d u with
      stow := { (a.promoteMoves q d u).stow with
        decoding := (a.promoteMoves q d u).stow.decoding ++ [⟨d, { q with reqs := [] }⟩] } } := by
  have hsome : s.decodersOk.isEmpty = false := by simpa using hdecoders
  subst ha
  change execDecoderGrant s = _
  simp only [execDecoderGrant, hlive, hnext, hstowed, hsome, hfree, hframe, hgranted, hunit, Bool.not_true,
    Bool.false_eq_true, ne_eq, not_true_eq_false, if_false, if_true]
  rfl

end NextDecode

/-! ### Decoders finish pages (R296, R298) -/

section Promotion
variable {s a : State} {p : BitVec 34} {x : DecWork} {m : Move} (hlive : s.live = true)
  (hdecoding : s.stow.decoding.find? (fun x => x.q.page == p.toNat && !x.q.buffer) = some x)
  (hdom : s.domActive (uid 6 (32 + x.dec / 2)) = true) (hmove : (s.decoded x.dec).moveOf x.q.page = some m)
  (ha : a = (s.decoded x.dec).occur ⟨uid 6 (32 + x.dec / 2), 3, none, none, some (x.q.page * 4096, 0)⟩)
include hlive hdecoding hdom hmove ha

theorem exec_promotionComplete_ok {bytes : List (BitVec 8)} (hbytes : a.decodeStowed x.q.page = .ok bytes) :
    exec (.promotionComplete p false) s =
      .next (((((a.switchPromote x.q.page m bytes).fixed 523).pageDone x.q.page 0).accessAll m.held).unpark).settle := by
  subst ha
  change execPromotionComplete p false s = _
  simp only [execPromotionComplete, hdecoding, hlive, hdom, hmove, hbytes, Bool.not_true, Bool.or_self,
    Bool.false_eq_true, if_false]

/-- The page is lost where its checksum fails (R295). -/
theorem exec_promotionComplete_lost (hlost : a.decodeStowed x.q.page = .memory) : exec (.promotionComplete p false) s =
      .next (((a.stowCrc x.q.page).pageDone x.q.page 9).refuseAll m.held).settle := by
  subst ha
  change execPromotionComplete p false s = _
  simp only [execPromotionComplete, hdecoding, hlive, hdom, hmove, hlost, Bool.not_true, Bool.or_self,
    Bool.false_eq_true, if_false]

end Promotion

/-- The reads that wait for a decoded page are answered with its lines. -/
theorem exec_promotionBufferRead_ok {s a : State} {p : BitVec 34} {x : DecWork} {bytes : List (BitVec 8)}
    (hlive : s.live = true)
    (hdecoding : s.stow.decoding.find? (fun x => x.q.page == p.toNat && x.q.buffer) = some x)
    (hdom : s.domActive (uid 6 (32 + x.dec / 2)) = true) (hslot : (s.page x.q.page).slot ≠ 0)
    (ha : a = (s.decoded x.dec).occur ⟨uid 6 (32 + x.dec / 2), 4, none, none, some (x.q.page * 4096, 0)⟩)
    (hbytes : a.decodeStowed x.q.page = .ok bytes) : exec (.promotionBufferRead p false) s = .next
      (x.q.reqs.foldl (fun s r => s.answerData r (bytesLine (bytes.drop (64 * (r.line % 64)))) false
        (a.rd MEMCH.QLEVEL ((a.page x.q.page).loc / 2 ^ 31))) (a.stallDone x.q.page 0)) := by
  have hslot' : ((s.decoded x.dec).page x.q.page).slot ≠ 0 := hslot
  subst ha
  change execPromotionBufferRead p false s = _
  simp only [execPromotionBufferRead, hdecoding, hlive, hdom, hslot', hbytes, Bool.not_true, Bool.or_self,
    Bool.false_eq_true, if_false]

/-! ### The statement -/

/-- Settles O51: each command's equation; a stow or promotion that is taken up joins the engines' work, and `stow_stowMoves`
says that a page put in motion leaves the other queues alone. -/
theorem stowEnginesTakeAndFinishWork : Obligations.StowEnginesTakeAndFinishWork := by
  unfold Obligations.StowEnginesTakeAndFinishWork
  intro s hlive
  refine ⟨exec_coderAssign_idle hlive, ?takes, ?codes, exec_decoderGrant_idle hlive, ?decodes, ?promotes, ?buffers⟩
  case takes =>
    intro q hnext
    refine ⟨fun st => exec_coderAssign_unfit hlive hnext, fun hcheck huntracked hinvals hsplit hcoders c hfree =>
      ⟨_, exec_coderAssign_takes hlive hnext hcheck huntracked hinvals hsplit hcoders hfree,
        List.mem_append_right _ (List.mem_singleton_self _), ?_⟩⟩
    intro x hx
    change x ∈ (s.stowMoves q c).stow.waiting at hx
    rw [stow_stowMoves] at hx
    simpa using (List.mem_filter.mp hx).2
  case codes =>
    intro p c q hcoding hdom a ha m0 hmove0
    refine ⟨fun hready => ?_, fun b hb m hmove => ?_⟩
    · have coded {ev : StowEvent} (hev : ev ≠ .engineFault) :=
        exec_stowComplete_coded hlive hcoding hdom ha hev hmove0 hready
      exact ⟨coded (ev := .written) (by decide), coded (ev := .slotFault) (by decide), coded (ev := .slotFaults) (by decide)⟩
    · change b = a.coderStops c at hb
      rw [exec_stowComplete_engineFault hlive hcoding hdom ha hmove0, ← hb]
      exact ⟨fun hlast => congrArg _ (stowFails_ends hlast),
        fun hfirst hcoders => congrArg _ (stowFails_waits hmove hfirst hcoders)⟩
  case decodes =>
    intro q d hnext hstowed hdecoders hfree a ha
    refine ⟨exec_decoderGrant_buffer hlive hnext hstowed hdecoders hfree ha, fun hframe u hgranted hunit =>
      ⟨_, exec_decoderGrant_promotion hlive hnext hstowed hdecoders hfree ha hframe hgranted hunit,
        List.mem_append_right _ (List.mem_singleton_self _)⟩⟩
  case promotes =>
    intro p x m hdecoding hdom hmove a ha
    exact ⟨fun bytes => exec_promotionComplete_ok hlive hdecoding hdom hmove ha,
      exec_promotionComplete_lost hlive hdecoding hdom hmove ha⟩
  case buffers =>
    intro p x hdecoding hdom hslot a bytes ha hbytes
    exact exec_promotionBufferRead_ok hlive hdecoding hdom hslot ha hbytes

end Sys2Proof.Machine
end

section
/-! PROOFS. Alerts, recovery, stops, resets and lay-by of memory units (R371, R374, R376, R384, R427). -/
namespace Sys2Proof.Machine

/-! ### Alerts, recovery and stops (R371, R376) -/

theorem exec_caParityAlert {s : State} {u : UnitNo} (slot : Bool) (hruns : s.unitRuns u = true) (hchan : u.val < 24) :
    exec (.caParityAlert u slot) s = .next (((s.incSat MEMCH.ALERT_CA u 1).report (memUid u) 0x04 0
      (if slot then 1 else 0)).alert u (if slot then 1 else 0)) := by
  change execCaParityAlert u slot s = _
  rw [execCaParityAlert, if_pos (by simp [hruns, hchan])]

/-- How often a write burst has failed, this failure counted. -/
def Chan.triesOf (c : Chan) (place : Nat) : Nat :=
  ((c.crcTries.find? (fun x => x.1 == place)).map Prod.snd).getD 0 + 1

/-- A burst's failures counted. -/
def Chan.tried (c : Chan) (place : Nat) : Chan :=
  { c with crcTries := (place, c.triesOf place) :: c.crcTries.filter (fun x => x.1 ≠ place) }

/-- A counted alert and its report leave the controllers alone. -/
theorem chan_alerted (s : State) (f : Fld) (u k unit code cls detail : Nat) :
    ((s.incSat f u k).report unit code cls detail).chan = s.chan := by
  unfold State.report
  split <;> rfl

theorem exec_writeCrcAlert {s a : State} {u : UnitNo} {place : BitVec 5} (hruns : s.unitRuns u = true)
    (ha : a = (s.incSat MEMCH.ALERT_CRC u 1).report (memUid u) 0x05 0 place.toNat) :
    exec (.writeCrcAlert u place) s = .next (
      let b := a.setChan u ((a.chan u).tried place.toNat)
      if 5 ≤ (a.chan u).triesOf place.toNat then b.recover u place.toNat else b.alert u place.toNat) := by
  subst ha
  change execWriteCrcAlert u place s = _
  rw [execWriteCrcAlert, if_pos hruns]
  rfl

theorem exec_recoveryRetrainingEnd {s : State} {u : UnitNo} (ok : Bool) (hlive : s.live = true)
    (hstate : s.rd MEMCH.STATE u = 5) :
    exec (.recoveryRetrainingEnd u ok) s = .next (if ok then s.setUnit u 3 else s.stopUnit u 1) := by
  change execRecoveryRetrainingEnd u ok s = _
  rw [execRecoveryRetrainingEnd, if_pos (by simp [hlive, hstate])]

theorem exec_pmicFault {s : State} {u : UnitNo} (hruns : s.unitRuns u = true) (hchan : u.val < 24) :
    exec (.pmicFault u) s = .next (s.stopUnit u 2) := by
  change execPmicFault u s = _
  rw [execPmicFault, if_pos (by simp [hruns, hchan])]

theorem submits_memchReset {s : State} {w : WfNo} {t : ThrNo} (d : Reg) (u : UnitNo) (issues : Issues s w t) :
    Submits (.memchReset w t d u) s w t d (fun j =>
      if !j.unitPresent u then (9, j) else if j.rd MEMCH.STATE u = 6 then (0, j.resetUnit u) else (5, j)) := by
  simp only [← ite_not (_ = 6)]
  exact submits_of issues rfl rfl

/-! ### Lay-by (R374) -/

/-- The power domain of a memory unit (R436). -/
def unitDom (u : UnitNo) : DomNo := ⟨50 + u, by omega⟩

theorem domUnit_unitDom (u : UnitNo) : domUnit (unitDom u) = some u.val := by
  simp [domUnit, unitDom]

/-- A unit's queued writes issue, and its DRAM goes into self-refresh. -/
def State.layBy (s : State) (u : Nat) : State :=
  let a := s.drainAll ((s.chan u).wq.length + 1) u
  ((a.setChan u { a.chan u with openRows := [], alerts := [] }).wr POWER.STATE (50 + u) 3).setUnit u 4

theorem reached_layBy {s : State} {u : UnitNo} (hlevel : (s.dom (unitDom u)).level = 1) :
    s.reached (unitDom u) = s.layBy u := by
  simp only [State.reached, hlevel, domUnit_unitDom, OfNat.one_ne_ofNat, if_false]
  rfl

theorem exec_layByEntryComplete {s : State} {u : UnitNo} (hlevel : (s.dom (unitDom u)).level = 1) (hlive : s.live = true)
    (hentering : s.rd POWER.STATE (unitDom u) = 4) (hmerges : ∀ m ∈ s.sealing.merges, m.unit ≠ u.val) :
    exec (.layByEntryComplete u) s =
      .next (if (s.dom (unitDom u)).latched then (s.layBy u).wakeDom (unitDom u) else s.layBy u) := by
  have hsealed : ∀ m ∈ s.sealing.merges, domUnit (unitDom u) ≠ some m.unit := by
    intro m hm
    rw [domUnit_unitDom]
    exact fun h => hmerges m hm (Option.some.inj h).symm
  have entry : exec (.layByEntryComplete u) s = exec (.domainEntryComplete (unitDom u) false) s := by
    change execLayByEntryComplete u s = execDomainEntryComplete (unitDom u) false s
    exact congrArg _ (if_pos hlevel)
  rw [entry, exec_entryComplete (unitDom u) hlive hentering hsealed, reached_layBy hlevel]

theorem exec_layByExitComplete {s : State} {u : UnitNo} (hstate : s.rd MEMCH.STATE u = 4) :
    exec (.layByExitComplete u) s = .next (s.domReady (50 + u)) := by
  change execLayByExitComplete u s = _
  rw [execLayByExitComplete, if_pos hstate]

/-! ### The statement -/

/-- Settles O55: each command's equation; a lay-by entry ends as its domain's entry does, with the unit's writes issued. -/
theorem unitsRecoverStopAndLayBy : Obligations.UnitsRecoverStopAndLayBy := by
  unfold Obligations.UnitsRecoverStopAndLayBy
  intro s u
  refine ⟨?parity, ?crc, ?recovery, exec_pmicFault, fun w t d => submits_memchReset d u, ?entry,
    fun hstate _ _ => exec_layByExitComplete hstate⟩
  case parity =>
    rintro slot _ hruns hchan rfl
    exact exec_caParityAlert slot hruns hchan
  case crc =>
    intro place hruns a n ha hn b hb
    have hchan : s.chan u = a.chan u := by rw [ha, chan_alerted]
    rw [exec_writeCrcAlert hruns ha, hb, hn, hchan]
    rfl
  case recovery =>
    intro hlive hstate
    exact ⟨by rw [exec_recoveryRetrainingEnd true hlive hstate, if_pos rfl],
      by rw [exec_recoveryRetrainingEnd false hlive hstate, if_neg Bool.false_ne_true]⟩
  case entry =>
    intro hlevel hlive hentering hmerges a ha b hb
    rw [hb, ha]
    exact exec_layByEntryComplete hlevel hlive hentering hmerges

end Sys2Proof.Machine
end

section
/-! PROOFS. Sensor samples, hard trips, throttling, refresh rates and the life ledger (R369, R442, R444, R446-R448, R458,
R460). -/
namespace Sys2Proof.Machine

/-! ### Samples (R442, R443, R447, R448) -/

/-- A reading stored with its sensor's OFFSET. -/
def State.readAt (s : State) (th : Nat) (r : BitVec 16) : State :=
  s.wr THERMAL.READING th (unsint 16 (r.toInt + sint 8 (s.inf THERMAL.OFFSET th)))

/-- MAX_SEEN and HOT brought up to date with a sensor's reading. -/
def State.noteReading (s : State) (th : Nat) (v : Int) : State :=
  let top := !s.aon.seen.contains th || decide (sint 16 (s.rd THERMAL.MAX_SEEN th) < v)
  let s := if top then s.wr THERMAL.MAX_SEEN th (unsint 16 v) else s
  let s : State := { s with aon := { s.aon with seen := insUniq th s.aon.seen } }
  s.wr THERMAL.HOT th (if s.limitC THERMAL.THROTTLE_C th < v then 1 else 0)

/-- A sensor whose reading says so fails, and a stack's sensor sets the stack's refresh rate. -/
def State.judgeReading (s : State) (th : Nat) (v : Int) : State :=
  let s := if s.sensed th && !s.rdB THERMAL.FAILED th && s.sensorBad th v then s.sensorFails th else s
  if 48 ≤ th then s.stackRefresh (th - 48) else s

/-- What a reading starts: a hard trip, an orderly shutdown, or neither. -/
def State.actOnReading (s : State) (th : Nat) (v : Int) : State :=
  if s.rdB THERMAL.FAILED th then s
  else if ((decide (th < 32) || decide (48 ≤ th)) || s.infB THERMAL.ENABLE th) && decide (s.limitC THERMAL.TRIP_C th ≤ v) then
    s.hardTrip (s.hottest.getD th)
  else if s.zone th && decide (s.limitC THERMAL.SHUTDOWN_C th ≤ v) && s.board.power != .aonOnly then
    s.shutdown (s.hottest.getD th)
  else s

/-- A sample of a sensor up to what it starts. -/
def State.sampled (s : State) (th : Nat) (r : BitVec 16) : State :=
  let a := s.readAt th r
  (a.noteReading th (a.temp th)).judgeReading th (a.temp th)

theorem exec_thermalSample_some {s : State} (th : ThNo) (r : BitVec 16) (hpower : s.board.power ≠ .unpowered) :
    exec (.thermalSample th (some r)) s = .next ((s.sampled th r).actOnReading th ((s.readAt th r).temp th)) := by
  have hon : ¬ (s.board.power == .unpowered) = true := by simpa using hpower
  change execThermalSample th (some r) s = _
  rw [execThermalSample, if_neg hon]
  rfl

theorem exec_thermalSample_none {s : State} (th : ThNo) (hpower : s.board.power ≠ .unpowered) (hstack : 48 ≤ th.val)
    (hserves : s.rdB THERMAL.FAILED th = false) :
    exec (.thermalSample th none) s = .next ((s.sensorFails th).stackRefresh (th - 48)) := by
  have hon : ¬ (s.board.power == .unpowered) = true := by simpa using hpower
  change execThermalSample th none s = _
  rw [execThermalSample, if_neg hon]
  simp only [hstack, hserves, decide_true, Bool.not_false, Bool.and_self, if_true]

theorem exec_thermalSample_missing {s : State} (th : ThNo) (hth : th.val < 48) :
    exec (.thermalSample th none) s = .next s := by
  change execThermalSample th none s = _
  simp only [execThermalSample, hth.not_ge, decide_false, Bool.false_and, Bool.false_eq_true, if_false, ite_self]

theorem actOnReading_cases (s : State) (th : Nat) (v : Int) : s.actOnReading th v = s ∨
    s.actOnReading th v = s.hardTrip (s.hottest.getD th) ∨ s.actOnReading th v = s.shutdown (s.hottest.getD th) := by
  unfold State.actOnReading
  split
  · exact .inl rfl
  · split
    · exact .inr (.inl rfl)
    · split
      · exact .inr (.inr rfl)
      · exact .inl rfl

/-! ### What a sample leaves of READING -/

theorem rd_redeliver (s : State) {u : Nat} (f : Fld) (i : Nat) (hm : f.lay.tbl ≠ 0x0B) (ht : f.lay.tbl ≠ 0x06)
    (hi : i < 2 ^ 48) (hu : u < 2 ^ 48) (hf : f.word < 256) : (s.redeliver u).rd f i = s.rd f i := by
  unfold State.redeliver
  rw [rd_rebook _ u f i ht hi hf, rd_wr_otherTable s f MEMCH.DELIVERABLE i u _ hm hi hu hf (by decide)]

theorem rd_refreshRate (s : State) {u : Nat} (twice : Bool) (f : Fld) (i : Nat) (hm : f.lay.tbl ≠ 0x0B)
    (ht : f.lay.tbl ≠ 0x06) (hi : i < 2 ^ 48) (hu : u < 2 ^ 48) (hf : f.word < 256) :
    (s.refreshRate u twice).rd f i = s.rd f i := by
  unfold State.refreshRate
  split
  · rfl
  · rw [rd_redeliver _ f i hm ht hi hu hf, rd_wr_otherTable s f MEMCH.REFRESH_2X i u _ hm hi hu hf (by decide)]

theorem rd_stackRefresh (s : State) {st : Nat} (f : Fld) (i : Nat) (hm : f.lay.tbl ≠ 0x0B) (ht : f.lay.tbl ≠ 0x06)
    (hi : i < 2 ^ 48) (hst : st < 4) (hf : f.word < 256) : (s.stackRefresh st).rd f i = s.rd f i := by
  have refresh (twice : Bool) := rd_refreshRate s (u := 24 + st) twice f i hm ht hi (by omega) hf
  unfold State.stackRefresh
  split_ifs
  · rfl
  · exact refresh true
  · exact refresh true
  · exact refresh false
  · rfl

theorem reading_readAt (s : State) (th : Nat) (r : BitVec 16) :
    (s.readAt th r).rd THERMAL.READING th = unsint 16 (r.toInt + sint 8 (s.inf THERMAL.OFFSET th)) :=
  rd_wr_of_lt s th (by decide) (BitVec.isLt _)

section Reading
variable (s : State) {th : Nat} (hth : th < 52)
include hth

theorem reading_noteReading (v : Int) : (s.noteReading th v).rd THERMAL.READING th = s.rd THERMAL.READING th := by
  refine (rd_wr_beside _ _ (by decide) (by omega)).trans ?_
  dsimp only
  split
  · exact rd_wr_beside s _ (by decide) (by omega)
  · rfl

theorem reading_judgeReading (v : Int) : (s.judgeReading th v).rd THERMAL.READING th = s.rd THERMAL.READING th := by
  have refresh (a : State) : (if 48 ≤ th then a.stackRefresh (th - 48) else a).rd THERMAL.READING th =
      a.rd THERMAL.READING th := by
    split
    · exact rd_stackRefresh a _ _ (by decide) (by decide) (by omega) (by omega) (by decide)
    · rfl
  refine (refresh _).trans ?_
  split
  · rw [State.sensorFails, report_rd, rd_wr_beside s _ (by decide) (by omega)]
  · rfl

theorem reading_sampled (r : BitVec 16) :
    (s.sampled th r).rd THERMAL.READING th = unsint 16 (r.toInt + sint 8 (s.inf THERMAL.OFFSET th)) := by
  rw [State.sampled, reading_judgeReading _ hth, reading_noteReading _ hth, reading_readAt]

end Reading

/-! ### Hard trips and the end of a shutdown (R447, R448) -/

theorem exec_hardTrip {s : State} (th : ThNo) (hpower : s.board.power ≠ .unpowered) (hcomp : th.val < 32 ∨ 48 ≤ th.val)
    (hserves : s.rdB THERMAL.FAILED th = false) : exec (.hardTrip th) s = .next (s.hardTrip (s.hottest.getD th)) := by
  change execHardTrip th s = _
  rw [execHardTrip, if_pos (by simpa [hpower, hserves] using hcomp)]

theorem exec_shutdownGraceEnd {s : State} (h : s.aon.shutdown = true) : exec .shutdownGraceEnd s =
    .next (({ s with board := { s.board with thermtrip := true }, aon := { s.aon with shutdown := false } }).fatal
      (uid 10 52) 0x2D s.aon.shutdownBy) :=
  congrArg _ (if_pos h)

/-! ### Throttling (R444) -/

/-- The hottest zone shown, if there is one. -/
def State.showHottest (s : State) : Option Nat → State
  | some h => s.wr LEDGER.HOTTEST 52 h
  | none => s

/-- A CUT that leaves zero reported. -/
def State.reportCut (s : State) (hot : Option Nat) (old cut : Nat) : State :=
  if old = 0 ∧ 0 < cut then s.report (uid 10 52) 0x2C 0 (hot.getD 0) else s

/-- The time throttled counted. -/
def State.countCut (s : State) (cut : Nat) : State :=
  if cut = 0 then s
  else if s.aon.cutTicks = 9 then
    ({ s with aon := { s.aon with cutTicks := 0 } }).incSat LEDGER.THROTTLE_MS 52 1
  else { s with aon := { s.aon with cutTicks := s.aon.cutTicks + 1 } }

/-- What follows a new CUT. -/
def State.cutFollows (s : State) (hot : Option Nat) (old cut : Nat) : State :=
  ((s.showHottest hot).reportCut hot old cut).countCut cut

theorem exec_throttleUpdate {s : State} (hpower : s.board.power ≠ .unpowered) : exec .throttleUpdate s =
    .next (((s.cutNow s.hottest).2.wr LEDGER.CUT 52 (s.cutNow s.hottest).1).cutFollows s.hottest (s.rd LEDGER.CUT 52)
      (s.cutNow s.hottest).1) := by
  have hon : ¬ (s.board.power == .unpowered) = true := by simpa using hpower
  change execThrottleUpdate s = _
  rw [execThrottleUpdate, if_neg hon]
  rfl

/-- The same CUT, board and placement. -/
structure SameCut (s u : State) : Prop where
  cut : u.rd LEDGER.CUT 52 = s.rd LEDGER.CUT 52
  board : u.board = s.board
  plc : u.plc = s.plc

theorem SameCut.refl (s : State) : SameCut s s := ⟨rfl, rfl, rfl⟩

theorem SameCut.trans {s u v : State} (h : SameCut s u) (k : SameCut u v) : SameCut s v :=
  ⟨k.cut.trans h.cut, k.board.trans h.board, k.plc.trans h.plc⟩

theorem sameCut_wr (s : State) (f : Fld) (v : Nat) (h : LEDGER.CUT.beside f = true) : SameCut s (s.wr f 52 v) :=
  ⟨rd_wr_beside s v h (by decide), rfl, rfl⟩

theorem sameCut_aon (s : State) (o : Aon) : SameCut s { s with aon := o } := ⟨rfl, rfl, rfl⟩

theorem sameCut_showHottest (s : State) (hot : Option Nat) : SameCut s (s.showHottest hot) := by
  cases hot with
  | some h => exact sameCut_wr s LEDGER.HOTTEST h (by decide)
  | none => exact .refl s

theorem sameCut_reportCut (s : State) (hot : Option Nat) (old cut : Nat) : SameCut s (s.reportCut hot old cut) := by
  unfold State.reportCut
  split
  · exact ⟨by rw [report_rd], report_board .., by unfold State.report; split <;> rfl⟩
  · exact .refl s

theorem sameCut_countCut (s : State) (cut : Nat) : SameCut s (s.countCut cut) := by
  unfold State.countCut
  split_ifs
  · exact .refl s
  · exact (sameCut_aon s _).trans (sameCut_wr _ LEDGER.THROTTLE_MS _ (by decide))
  · exact sameCut_aon s _

theorem sameCut_cutFollows (s : State) (hot : Option Nat) (old cut : Nat) : SameCut s (s.cutFollows hot old cut) :=
  ((sameCut_showHottest s hot).trans (sameCut_reportCut _ hot old cut)).trans (sameCut_countCut _ cut)

/-- Rounding a quotient takes at most a free value. -/
theorem roundFree_state (s : State) (num den : Nat) : (s.roundFree num den).2 = s ∨ (s.roundFree num den).2 = s.took := by
  unfold State.roundFree
  split
  · exact .inl rfl
  · exact .inr rfl

theorem cutNow_state (s : State) (hot : Option Nat) : (s.cutNow hot).2 = s ∨ (s.cutNow hot).2 = s.took := by
  unfold State.cutNow
  dsimp only
  split
  · exact .inl rfl
  · split
    · exact .inl rfl
    · split
      · exact .inl rfl
      · exact roundFree_state s _ _

theorem throttle_spec (s : State) (hot : Option Nat) {u : State}
    (hu : u = ((s.cutNow hot).2.wr LEDGER.CUT 52 (s.cutNow hot).1).cutFollows hot (s.rd LEDGER.CUT 52) (s.cutNow hot).1) :
    u.rd LEDGER.CUT 52 = (s.cutNow hot).1 % 2 ^ LEDGER.CUT.w ∧ u.board = s.board ∧ u.plc = s.plc := by
  obtain ⟨hcut, hboard, hplc⟩ := hu ▸ sameCut_cutFollows _ hot (s.rd LEDGER.CUT 52) (s.cutNow hot).1
  refine ⟨hcut.trans (State.rd_wr_self _ _ _ _ (by decide)), hboard.trans ?_, hplc.trans ?_⟩
  · rcases cutNow_state s hot with h | h <;> (rw [h]; rfl)
  · rcases cutNow_state s hot with h | h <;> (rw [h]; rfl)

/-! ### DIMM sensors (R369, R446) -/

theorem exec_dimmSensorRead {s a : State} {c : ChanNo} {r : BitVec 16} (hot : Bool) (hlive : s.live = true)
    (hpresent : s.unitPresent c = true)
    (ha : a = { s with aon := { s.aon with dimm := tset (fun _ => none) s.aon.dimm c (some r) } }) :
    exec (.dimmSensorRead c (some r) hot) s = .next (
      if hot || decide (340 ≤ r.toInt) then a.refreshRate c true
      else if r.toInt < 332 then a.refreshRate c false
      else a) := by
  subst ha
  change execDimmSensorRead c (some r) hot s = _
  rw [execDimmSensorRead, if_pos (by rw [hlive, hpresent, Bool.and_self])]

/-! ### The life ledger (R458, R460) -/

/-- Ageing of a second at a temperature and utilization (R458). -/
def ageOf (t : Int) (util : Nat) : Nat := ageRate t * (70 + util)

/-- The histogram bin of a temperature (R458). -/
def binOf (t : Int) : Nat := (min 31 (max 0 ((t + 320) / 40))).toNat

/-- The ledger's own counters after one more second. -/
def Aon.second (o : Aon) (bin amt : Nat) : Aon :=
  let hour := o.hourAcc + amt
  let endHour := decide (o.ledgerSec = 3599)
  { o with
    binSec := tset (fun _ => 0) o.binSec bin ((tget (fun _ => 0) o.binSec bin + 1) % 3600)
    equivAcc := (o.equivAcc + amt) % equivUnit
    hourAcc := if endHour then 0 else hour
    ledgerSec := if endHour then 0 else o.ledgerSec + 1
    recent := if endHour then (hour :: o.recent).take 720 else o.recent }

theorem onlyTables_lifeUp (s : State) : OnlyTables s s.lifeUp := rfl

/-- A second of the ledger: beside table words and a free value it changes only the ledger's counters. -/
theorem exec_ledgerSecond {s : State} (util : BitVec 7) (hruns : s.ledgerRuns = true) :
    ∃ (n : Nat) (u : State), exec (.ledgerSecond util) s = .next u ∧
      OnlyTables { s with freeUsed := n, aon := s.aon.second (binOf s.junction) (ageOf s.junction util.toNat) } u := by
  by_cases hall : (List.range 32).all (fun i => s.rdB THERMAL.FAILED i) = true
  · refine ⟨s.freeUsed + 1, _, congrArg Host.Outcome.next (if_pos hruns), ?_⟩
    simp only [if_pos hall]
    split <;> rfl
  · refine ⟨s.freeUsed, _, congrArg Host.Outcome.next (if_pos hruns), ?_⟩
    simp only [if_neg hall]
    split <;> rfl

theorem second_ledgerSec (o : Aon) (bin amt : Nat) :
    (o.second bin amt).ledgerSec = if o.ledgerSec = 3599 then 0 else o.ledgerSec + 1 := by
  simp [Aon.second]

theorem exec_ageingRead {s : State} (v : BitVec 16) (hruns : s.ledgerRuns = true) :
    exec (.ageingRead v) s = .next (s.wr LEDGER.RO_DRIFT 52 v.toNat).lifeUp :=
  congrArg _ (if_pos hruns)

theorem exec_ledgerWrite {s : State} (ok : Bool) (hruns : s.ledgerRuns = true) : exec (.ledgerWrite ok) s = .next (
    if ok then (({ s with aon := { s.aon with ledgerSeq := s.aon.ledgerSeq + 1 } }).wr LEDGER.LEDGER_OK 52 1).send
      (.flashWrite (s.aon.ledgerSeq + 1))
    else s.wr LEDGER.LEDGER_OK 52 0) :=
  congrArg _ (if_pos hruns)

/-! ### The statement -/

/-- Settles O58: each command's equation; READING stands through all that a sample does after storing it, and CUT through
what follows its update. -/
theorem temperaturesThrottleAndAge : Obligations.TemperaturesThrottleAndAge := by
  unfold Obligations.TemperaturesThrottleAndAge
  intro s
  refine ⟨?sample, exec_thermalSample_none, exec_thermalSample_missing, exec_hardTrip, exec_shutdownGraceEnd,
    fun hpower => ⟨_, exec_throttleUpdate hpower, throttle_spec s s.hottest rfl⟩, ?dimm, ?second, exec_ageingRead,
    fun hruns => ⟨exec_ledgerWrite false hruns, exec_ledgerWrite true hruns⟩⟩
  case sample =>
    intro th r hpower
    rw [exec_thermalSample_some th r hpower]
    refine ⟨s.sampled th r, reading_sampled s th.isLt r, ?_⟩
    simpa only [Host.Outcome.next.injEq] using actOnReading_cases (s.sampled th r) th ((s.readAt th r).temp th)
  case dimm =>
    intro c r hot hlive hpresent a ha
    rw [exec_dimmSensorRead hot hlive hpresent ha]
    have cooler (hnot : hot = false) (hbelow : r.toInt < 340) : ¬ (hot || decide (340 ≤ r.toInt)) = true := by
      simp [hnot, hbelow]
    refine ⟨fun hhot => by rw [if_pos (by simpa using hhot)], fun hnot hcool => ?_, fun hnot hwarm hbelow => ?_⟩
    · rw [if_neg (cooler hnot (by omega)), if_pos hcool]
    · rw [if_neg (cooler hnot hbelow), if_neg hwarm.not_gt]
  case second =>
    intro util hruns
    obtain ⟨n, u, hexec, hu⟩ := exec_ledgerSecond util hruns
    rw [hexec]
    refine ⟨u, rfl, ?_⟩
    rw [hu]
    exact ⟨second_ledgerSec s.aon _ _, rfl, rfl, rfl⟩

end Sys2Proof.Machine
end

section
/-! PROOFS. Tollgates and roundabouts: queue levels, admissions, refills, grants and toll intervals (R373, R390-R394, R397,
R403-R405, R408). -/
namespace Sys2Proof.Machine

theorem exec_queueLevelReport {s : State} {u : UnitNo} (level : BitVec 7) (hlive : s.live = true)
    (hunit : s.rd MEMCH.DELIVERABLE u ≠ 0) : exec (.queueLevelReport u level) s =
      .next (s.wr MEMCH.QLEVEL u (if s.rd MEMCH.STATE u = 4 then 0 else min 100 level.toNat)) :=
  congrArg Host.Outcome.next (if_pos (by simp [hlive, hunit]))

/-! ### Admission (R390, R391, R394) -/

theorem toll_setToll_ne (s : State) {g g' : Nat} (x : Toll) (h : g' ≠ g) : (s.setToll g x).toll g' = s.toll g' :=
  tget_tset_ne _ _ _ h

/-- The next admission of a tollgate: the highest class that may go with a request in front, and its place. -/
def State.tollPick (s : State) (g : Nat) : Option (Nat × Nat) :=
  ([7, 6, 5, 4, 3, 2, 1, 0].filter (fun c => (s.toll g).may c s.time.fclk)).findSome?
    (fun c => ((s.toll g).front c).map (fun i => (c, i)))

/-- A tollgate whose request at a place of a class has gone: 64 bytes of tokens spent, unless the class is unlimited. -/
def Toll.passed (t : Toll) (c i now : Nat) : Toll :=
  { t with
    queue := t.queue.eraseIdx i
    tokens := if t.noLimit.getD c true then t.tokens else putAt t.tokens c (t.tokens.getD c 0 - tok64)
    waitSince := putAt t.waitSince c now }

/-- An admission, up to the request's way to its home slice. -/
def State.admitted (s : State) (g c i : Nat) : State :=
  (s.setToll g ((s.toll g).passed c i s.time.fclk)).tollCount g c

theorem admitted_toll (s : State) (g c i : Nat) : ((s.admitted g c i).toll g).queue = (s.toll g).queue.eraseIdx i ∧
    ((s.admitted g c i).toll g).tokens = ((s.toll g).passed c i s.time.fclk).tokens := by
  unfold State.admitted State.tollCount
  rw [State.toll_setToll_self, State.toll_setToll_self]
  exact ⟨rfl, rfl⟩

theorem admitted_toll_ne (s : State) {g g' : Nat} (c i : Nat) (h : g' ≠ g) : (s.admitted g c i).toll g' = s.toll g' := by
  unfold State.admitted State.tollCount
  rw [toll_setToll_ne _ _ h, toll_setToll_ne _ _ h]

theorem exec_tollgateAdmit {s : State} {g : TollNo} {c i : Nat} {r : MemReq} (hlive : s.live = true)
    (hactive : 32 ≤ g.val ∨ s.domActive (uid 0 g) = true) (hopen : s.aon.shutdown = false)
    (hr : (s.toll g).queue[i]? = some r) (hpick : s.tollPick g = some (c, i)) : exec (.tollgateAdmit g) s =
      .next ((s.admitted g c i).toSlice { r with throttled := (s.admitted g c i).tollRd TOLL.THROTTLED g c == 1 }) := by
  have admits : ¬ (!s.live || !(decide (32 ≤ g.val) || s.domActive (uid 0 g)) || s.aon.shutdown) = true := by
    rcases hactive with h | h <;> simp [hlive, hopen, h]
  change execTollgateAdmit g s = _
  unfold State.tollPick at hpick
  simp only [execTollgateAdmit, if_neg admits, hpick, hr]
  rfl

theorem exec_tollgateAdmit_none {s : State} {g : TollNo} (h : s.aon.shutdown = true ∨ s.tollPick g = none) :
    exec (.tollgateAdmit g) s = .next s := by
  change execTollgateAdmit g s = _
  rcases h with hshut | hpick
  · rw [execTollgateAdmit]
    simp only [hshut, Bool.or_true, if_true]
  · unfold State.tollPick at hpick
    rw [execTollgateAdmit]
    simp only [hpick, ite_self]

theorem tollPick_empty {s : State} {g : Nat} (h : (s.toll g).queue = []) : s.tollPick g = none := by
  refine List.findSome?_eq_none_iff.mpr fun c _ => ?_
  simp [Toll.front, h]

/-! ### Refills (R403, R404, R408) -/

theorem exec_roundaboutRefill {s : State} (hlive : s.live = true) (hlocked : s.time.locked = true) :
    exec .roundaboutRefill s =
      .next ((List.range 44).foldl (fun x r => x.refillRb r) (s.commitTbl 0x07 (fun _ => true))) :=
  congrArg Host.Outcome.next (if_pos (by rw [hlive, hlocked, Bool.and_self]))

/-- A requester's share of a window of some capacity, by its weight among the weights' sum. -/
def State.share (s : State) (r cap sum q : Nat) : Nat := if sum = 0 then 0 else cap * s.rd RB.WEIGHT (rbIdx r q) / sum

/-- A requester's entry at a window boundary. -/
def State.refillReq (s : State) (r cap sum q : Nat) : State :=
  let f := s.share r cap sum q
  ((s.wr RB.REFILL (rbIdx r q) f).wr RB.CEILING (rbIdx r q) (2 * f)).wr RB.CREDIT (rbIdx r q)
    (unsint 32 (min (s.credit r q + (f : Int)) ((2 * f : Nat) : Int)))

/-- The sum of the weights of the requesters present. -/
def State.weightSum (s : State) (r : Nat) : Nat := ((s.present r).map (fun q => s.rd RB.WEIGHT (rbIdx r q))).sum

/-- CAP and WEIGHT_SUM of a roundabout shown. -/
def State.showWindow (s : State) (r : Nat) : State :=
  (s.wr RBOWN.CAP (rbIdx r 63) (s.rbCap r)).wr RBOWN.WEIGHT_SUM (rbIdx r 63) (s.weightSum r)

theorem refillRb_active {s : State} {r : Nat} (hactive : s.domActive (rbUid r) = true) : s.refillRb r =
    (s.present r).foldl (fun v q => v.refillReq r (s.rbCap r) (s.weightSum r) q) (s.showWindow r) := by
  rw [State.refillRb, if_neg (by simp [hactive])]
  rfl

theorem present_nodup (s : State) (r : Nat) : (s.present r).Nodup := by
  have last : List.Sublist (if 16 ≤ r then [35] else []) [35] := by
    split
    · exact .refl _
    · exact List.nil_sublist _
  have all : (List.range 32 ++ [32, 33, 34] ++ [35]).Nodup := by decide
  exact all.sublist ((List.filter_sublist.append (.refl _)).append last)

/-! ### A requester's entry at a window boundary (R404) -/

theorem credit_refillReq (s : State) (r cap sum q : Nat) : (s.refillReq r cap sum q).rd RB.CREDIT (rbIdx r q) =
    unsint 32 (min (s.credit r q + (s.share r cap sum q : Int)) ((2 * s.share r cap sum q : Nat) : Int)) :=
  rd_wr_of_lt _ _ (by decide) (BitVec.isLt _)

section Entry
variable (s : State) {r q : Nat} (hr : r < 44) (hq : q < 36)
include hr hq

/-- A write to another entry of the roundabout. -/
theorem rd_wr_otherEntry (f g : Fld) {j : Nat} (v : Nat) (hj : j < 64) (hne : q ≠ j) (hf : f.word < 256) (hg : g.word < 256) :
    (s.wr g (rbIdx r j) v).rd f (rbIdx r q) = s.rd f (rbIdx r q) :=
  State.rd_wr_entry s f g _ _ v (by simp only [rbIdx]; omega) (by simp only [rbIdx]; omega) (by simp only [rbIdx]; omega)
    hf hg

theorem rd_showWindow (f : Fld) (hf : f.word < 256) : (s.showWindow r).rd f (rbIdx r q) = s.rd f (rbIdx r q) := by
  unfold State.showWindow
  rw [rd_wr_otherEntry _ hr hq _ _ _ (by decide) (by omega) hf (by decide),
    rd_wr_otherEntry _ hr hq _ _ _ (by decide) (by omega) hf (by decide)]

theorem rd_refillReq_ne (f : Fld) {p : Nat} (cap sum : Nat) (hp : p < 36) (hne : q ≠ p) (hf : f.word < 256) :
    (s.refillReq r cap sum p).rd f (rbIdx r q) = s.rd f (rbIdx r q) := by
  unfold State.refillReq
  dsimp only
  rw [rd_wr_otherEntry _ hr hq _ _ _ (by omega) hne hf (by decide),
    rd_wr_otherEntry _ hr hq _ _ _ (by omega) hne hf (by decide),
    rd_wr_otherEntry _ hr hq _ _ _ (by omega) hne hf (by decide)]

theorem rd_refills_ne (f : Fld) (cap sum : Nat) {l : List Nat} (hl : ∀ p ∈ l, p < 36) (hnot : q ∉ l) (hf : f.word < 256) :
    (l.foldl (fun v p => v.refillReq r cap sum p) s).rd f (rbIdx r q) = s.rd f (rbIdx r q) :=
  List.foldlRecOn (motive := fun v : State => v.rd f (rbIdx r q) = s.rd f (rbIdx r q)) l _ rfl
    fun v hv p hp => (rd_refillReq_ne v hr hq f cap sum (hl p hp) (fun h => hnot (h ▸ hp)) hf).trans hv

theorem refill_refillReq (cap sum : Nat) : (s.refillReq r cap sum q).rd RB.REFILL (rbIdx r q) =
    s.share r cap sum q % 2 ^ RB.REFILL.w := by
  have hidx : rbIdx r q < 2 ^ 48 := by simp only [rbIdx]; omega
  unfold State.refillReq
  dsimp only
  rw [rd_wr_beside _ _ (by decide) hidx, rd_wr_beside _ _ (by decide) hidx, State.rd_wr_self _ _ _ _ (by decide)]

/-- A requester present is refilled once, by its share of the weights as they stood. -/
theorem rd_refillRb (hactive : s.domActive (rbUid r) = true) (hmem : q ∈ s.present r) {f : Nat}
    (hf : f = s.share r (s.rbCap r) (s.weightSum r) q) :
    (s.refillRb r).rd RB.REFILL (rbIdx r q) = f % 2 ^ RB.REFILL.w ∧
      (s.refillRb r).rd RB.CREDIT (rbIdx r q) = unsint 32 (min (s.credit r q + (f : Int)) ((2 * f : Nat) : Int)) := by
  obtain ⟨before, after, hsplit⟩ := List.append_of_mem hmem
  have hlt : ∀ p ∈ before ++ q :: after, p < 36 := fun p hp => present_lt (hsplit ▸ hp)
  have hnot : q ∉ before ++ after := (List.nodup_middle.mp (hsplit ▸ present_nodup s r)).notMem
  simp only [List.mem_append, not_or] at hnot
  obtain ⟨hbefore, hafter⟩ := hnot
  generalize hv : before.foldl (fun v p => v.refillReq r (s.rbCap r) (s.weightSum r) p) (s.showWindow r) = v
  have entry (g : Fld) (hg : g.word < 256) : v.rd g (rbIdx r q) = s.rd g (rbIdx r q) := by
    rw [← hv, rd_refills_ne _ hr hq g _ _ (fun p hp => hlt p (List.mem_append_left _ hp)) hbefore hg,
      rd_showWindow s hr hq g hg]
  have hshare : v.share r (s.rbCap r) (s.weightSum r) q = f := by
    rw [hf, State.share, State.share, entry _ (by decide)]
  have hcredit : v.credit r q = s.credit r q := by
    rw [State.credit, State.credit, entry _ (by decide)]
  have later (g : Fld) (hg : g.word < 256) : (s.refillRb r).rd g (rbIdx r q) =
      (v.refillReq r (s.rbCap r) (s.weightSum r) q).rd g (rbIdx r q) := by
    rw [refillRb_active hactive, hsplit, List.foldl_append, List.foldl_cons, hv]
    exact rd_refills_ne _ hr hq g _ _ (fun p hp => hlt p (List.mem_append_right _ (List.mem_cons_of_mem _ hp))) hafter hg
  rw [later _ (by decide), later _ (by decide), refill_refillReq _ hr hq, credit_refillReq, hshare, hcredit]
  exact ⟨rfl, rfl⟩

end Entry

/-! ### Grants (R403-R406) -/

/-- A roundabout after the grant of a place in its queue. -/
def Rb.granted (b : Rb) (i q now : Nat) (long : Bool) : Rb :=
  { queue := b.queue.eraseIdx i, since := if long then 0 else b.since + 1, lastGrant := tset (fun _ => 0) b.lastGrant q now }

/-- A grant counted, its credit spent, and its milepost, up to the request's passing. -/
def State.rbGranted (s : State) (r i q : Nat) (req : MemReq) (long : Bool) : State :=
  let s := s.setRb r ((s.rb r).granted i q s.time.fclk long)
  let k := rbIdx r q
  let floor : Int := -(s.rbCap r : Int)
  let s := (s.wr RB.GRANTS k (s.rd RB.GRANTS k + 1)).wr RB.CREDIT k (unsint 32 (max floor (s.credit r q - 1)))
  let ld := match req.src with | .host _ ld _ _ => some ld | _ => none
  s.occur ⟨rbUid r, 0x0B, ld, some req.cls, some (req.line * 64, q)⟩

theorem exec_roundaboutGrant {s : State} {r : RbNo} {i q : Nat} {long : Bool} {req : MemReq} (hlive : s.live = true)
    (htakes : s.rbTakes r = true) (hpick : s.rbPick r = some (i, long)) (hreq : (s.rb r).queue[i]? = some (q, req)) :
    exec (.roundaboutGrant r) s = .next ((s.rbGranted r i q req long).rbPass r req) := by
  change execRoundaboutGrant r s = _
  rw [execRoundaboutGrant, if_neg (by simp [hlive, htakes])]
  simp only [hpick, hreq]
  rfl

theorem exec_roundaboutGrant_none {s : State} {r : RbNo} (h : s.rbTakes r = false ∨ s.rbPick r = none) :
    exec (.roundaboutGrant r) s = .next s := by
  change execRoundaboutGrant r s = _
  rcases h with hfull | hidle
  · rw [execRoundaboutGrant, if_pos (by simp [hfull])]
  · simp only [execRoundaboutGrant, hidle, ite_self]

/-- What a grant leaves of the traffic, the coherence and the DRAM: its roundabout's queue and count alone change. -/
theorem rbGranted_spec (s : State) (r i q : Nat) (req : MemReq) (long : Bool) :
    (s.rbGranted r i q req long).rb r = (s.rb r).granted i q s.time.fclk long ∧
      (s.rbGranted r i q req long).coh = s.coh ∧ (s.rbGranted r i q req long).dram = s.dram := by
  obtain ⟨⟨-, -, -, -, -, -, -, coh, -, -, -, dram, traffic, -⟩, -⟩ := countFrame_occur _ _
  refine ⟨?_, coh, dram⟩
  unfold State.rb State.rbGranted
  dsimp only
  rw [traffic]
  exact tget_tset_self _ _ _ _

/-! ### Toll intervals (R392-R394, R397, R399) -/

theorem CountFrame.uncommitted {s u : State} (frame : CountFrame s u) : u.uncommitted = s.uncommitted := by
  obtain ⟨⟨-, -, -, -, uncommitted, -⟩, -⟩ := frame
  exact uncommitted

/-- BOOKED, and the stores that wait for their commit points. -/
structure Booking (n : Nat) (us : List Uncommitted) (s : State) : Prop where
  booked : s.rd TOLLDEV.BOOKED 0 = n
  uncommitted : s.uncommitted = us

section Booking
variable {n : Nat} {us : List Uncommitted} {s : State} (h : Booking n us s)
include h

theorem booking_of_eq {u : State} (hrd : u.rd TOLLDEV.BOOKED 0 = s.rd TOLLDEV.BOOKED 0) (hus : u.uncommitted = s.uncommitted) :
    Booking n us u := ⟨hrd.trans h.booked, hus.trans h.uncommitted⟩

theorem booking_took : Booking n us s.took := booking_of_eq h rfl rfl

theorem booking_setToll {g : Nat} {t : Toll} : Booking n us (s.setToll g t) := booking_of_eq h rfl rfl

theorem booking_report {unit code cls detail : Nat} : Booking n us (s.report unit code cls detail) :=
  booking_of_eq h (by rw [report_rd]) (by unfold State.report; split <;> rfl)

theorem booking_count {u : State} (frame : CountFrame s u) : Booking n us u :=
  booking_of_eq h (frame.rd (by decide) (by decide) (by decide)) frame.uncommitted

theorem booking_wr {f : Fld} {v : Nat} (hf : TOLLDEV.BOOKED.beside f = true) : Booking n us (s.wr f 0 v) :=
  booking_of_eq h (rd_wr_beside s v hf (by decide)) rfl

theorem booking_roundFree {num den : Nat} : Booking n us (s.roundFree num den).2 := by
  rcases roundFree_state s num den with e | e
  · rw [e]; exact h
  · rw [e]; exact booking_took h

theorem booking_tollLevel : Booking n us s.tollLevel.2 := by
  unfold State.tollLevel
  dsimp only
  split
  · exact h
  · exact booking_roundFree h

/-- A field of a tollgate's class lies beside BOOKED in entry 0, or in another entry. -/
theorem booking_tollWr {f : Fld} {g c v : Nat} (hg : g < 35) (hc : c < 8) (hf : TOLLDEV.BOOKED.beside f = true)
    (hi : f.internal.word < 256) : Booking n us (s.tollWr f g c v) := by
  simp only [Fld.beside, Bool.and_eq_true, decide_eq_true_eq] at hf
  obtain ⟨⟨⟨hapart, hfits⟩, hb⟩, hw⟩ := hf
  refine booking_of_eq h ?_ rfl
  unfold State.tollWr tollFld
  split
  · exact State.rd_wr_apart s _ f _ _ v hfits hapart (by decide) (by omega) hb hw
  · exact State.rd_wr_entry s _ _ _ _ v (by omega) (by decide) (by omega) hb hi

end Booking

/-- RATE and G_EFF of a class shown. -/
def State.showRate (s : State) (g c bytes eff : Nat) : State :=
  let r := s.roundFree (bytes * 10) 1024
  (r.2.tollWr TOLL.RATE g c (min 65535 r.1)).tollWr TOLL.G_EFF g c eff

/-- LIMIT of a class shown, by the tokens that an interval gives it; none: no limit. -/
def State.showLimit (s : State) (g c : Nat) : Option Nat → State
  | none => s.tollWr TOLL.LIMIT g c 0xFFFF
  | some x => (s.roundFree x tokRate).2.tollWr TOLL.LIMIT g c (min 0xFFFF (s.roundFree x tokRate).1)

/-- THROTTLED of a class shown, and counted. -/
def State.showThrottled (s : State) (g c : Nat) (throttled : Bool) : State :=
  let s := s.tollWr TOLL.THROTTLED g c (if throttled then 1 else 0)
  if throttled then (if g < 32 then s.occur ⟨uid 0 g, 4, none, some c, none⟩ else s).fixed 533 else s

/-- An interval of a class keeps its tokens with the tollgate, and shows its rate, limit and throttling. -/
theorem tollClass_shows (s : State) (g f scale c : Nat) : ∃ t bytes eff gain throttled, s.tollClass g f scale c =
    (((s.setToll g t).showRate g c bytes eff).showLimit g c gain).showThrottled g c throttled :=
  ⟨_, _, _, _, _, rfl⟩

section Interval
variable {n : Nat} {us : List Uncommitted} {s : State} (h : Booking n us s)
include h

theorem booking_showThrottled {g c : Nat} {throttled : Bool} (hg : g < 35) (hc : c < 8) :
    Booking n us (s.showThrottled g c throttled) := by
  have shown {v : Nat} : Booking n us (s.tollWr TOLL.THROTTLED g c v) := booking_tollWr h hg hc (by decide) (by decide)
  unfold State.showThrottled
  dsimp only
  split
  · refine booking_count ?_ (countFrame_fixed _ 533 (by decide))
    split
    · exact booking_count shown (countFrame_occur _ _)
    · exact shown
  · exact shown

theorem booking_showLimit {g c : Nat} (gain : Option Nat) (hg : g < 35) (hc : c < 8) :
    Booking n us (s.showLimit g c gain) := by
  cases gain with
  | none => exact booking_tollWr h hg hc (by decide) (by decide)
  | some x => exact booking_tollWr (booking_roundFree h) hg hc (by decide) (by decide)

theorem booking_showRate {g c bytes eff : Nat} (hg : g < 35) (hc : c < 8) : Booking n us (s.showRate g c bytes eff) :=
  booking_tollWr (booking_tollWr (booking_roundFree h) hg hc (by decide) (by decide)) hg hc (by decide) (by decide)

theorem booking_tollClass {g f scale c : Nat} (hg : g < 35) (hc : c < 8) : Booking n us (s.tollClass g f scale c) := by
  obtain ⟨t, bytes, eff, gain, throttled, shows⟩ := tollClass_shows s g f scale c
  rw [shows]
  exact booking_showThrottled (booking_showLimit (booking_showRate (booking_setToll h) hg hc) gain hg hc) hg hc

end Interval

theorem tollgates_lt {s : State} {g : Nat} (hg : g ∈ s.tollgates) : g < 35 := List.mem_range.mp (List.mem_of_mem_filter hg)

theorem tollClasses_lt {g c : Nat} (hc : c ∈ tollClasses g) : c < 8 := by
  unfold tollClasses at hc
  split at hc
  · exact List.mem_range.mp hc
  · split at hc <;> (rw [List.mem_singleton] at hc; omega)

/-- BOOKED and SCALE brought up to date, with the end of a shortfall reported (R397, R399, R400). -/
def State.rescale (s : State) : State :=
  let scale := scaleOf (s.rd TOLLDEV.BOOKABLE 0) s.booked
  let u := (s.wr TOLLDEV.BOOKED 0 s.booked).wr TOLLDEV.SCALE 0 scale
  if s.rd TOLLDEV.SCALE 0 < 65536 ∧ scale = 65536 then u.report (memUid u.traffic.changed) 0x1C 0 0 else u

/-- A tollgate's interval: its classes' limits, and a new interval in the bytes admitted. -/
def State.tollGate (s : State) (f scale g : Nat) : State :=
  let s := (tollClasses g).foldl (fun s c => s.tollClass g f scale c) s
  s.setToll g { s.toll g with hist := [0, 0, 0, 0, 0, 0, 0, 0] :: (s.toll g).hist.take 15 }

/-- LEVEL shown, and every tollgate's interval. -/
def State.runTolls (s : State) (scale : Nat) : State :=
  let v := s.tollLevel.2.wr TOLLDEV.LEVEL 0 s.tollLevel.1
  v.tollgates.foldl (fun x g => x.tollGate (v.tollF s.tollLevel.1) scale g) v

/-- The TOLL stores committed, with an acknowledged SHORTFALL cleared (R400). -/
def State.commitTolls (s : State) : State :=
  let v := s.commitTbl 0x06 (fun _ => true)
  if s.onesIn TOLLDEV.SHORTFALL 0 then v.clearW1c TOLLDEV.SHORTFALL 0 1 else v

theorem exec_tollInterval {s : State} (hlive : s.live = true) (hlocked : s.time.locked = true) : exec .tollInterval s =
    .next (s.commitTolls.rescale.runTolls
      (scaleOf (s.commitTolls.rd TOLLDEV.BOOKABLE 0) s.commitTolls.booked)) := by
  change execTollInterval s = _
  rw [execTollInterval, if_neg (by simp [hlive, hlocked])]
  rfl

theorem booking_rescale (s : State) :
    Booking (s.booked % 2 ^ TOLLDEV.BOOKED.w) s.uncommitted s.rescale := by
  have booked : Booking (s.booked % 2 ^ TOLLDEV.BOOKED.w) s.uncommitted (s.wr TOLLDEV.BOOKED 0 s.booked) :=
    ⟨State.rd_wr_self s _ _ _ (by decide), rfl⟩
  have scaled {v : Nat} := booking_wr booked (f := TOLLDEV.SCALE) (v := v) (by decide)
  unfold State.rescale
  dsimp only
  split
  · exact booking_report scaled
  · exact scaled

theorem booking_tollGate {n : Nat} {us : List Uncommitted} {s : State} (h : Booking n us s) {f scale g : Nat} (hg : g < 35) :
    Booking n us (s.tollGate f scale g) :=
  booking_setToll (List.foldlRecOn (motive := Booking n us) _ _ h
    fun _ hv _ hc => booking_tollClass hv hg (tollClasses_lt hc))

theorem booking_runTolls {n : Nat} {us : List Uncommitted} {s : State} (h : Booking n us s) {scale : Nat} :
    Booking n us (s.runTolls scale) :=
  List.foldlRecOn (motive := Booking n us) _ _ (booking_wr (booking_tollLevel h) (by decide))
    fun _ hv _ hg => booking_tollGate hv (tollgates_lt hg)

/-- What BOOKED is the sum of: the guarantees, and the caps of class 7, of the heads that exist. -/
theorem booked_congr {s u : State} (hboard : u.board = s.board)
    (hguar : ∀ i < 256, u.rd TOLL.GUARANTEE i = s.rd TOLL.GUARANTEE i) (hcap : ∀ i < 256, u.rd TOLL.CAP i = s.rd TOLL.CAP i)
    (hint : ∀ i < 4, u.rd TOLL.GUARANTEE.internal i = s.rd TOLL.GUARANTEE.internal i) : u.booked = s.booked := by
  have heads (h : Nat) : u.headExists h = s.headExists h := by
    unfold State.headExists State.pgMode
    rw [hboard]
  have classes (h : Nat) (hh : h < 32) : (List.range 7).map (fun c => u.rd TOLL.GUARANTEE (8 * h + c)) =
      (List.range 7).map (fun c => s.rd TOLL.GUARANTEE (8 * h + c)) :=
    List.map_congr_left fun c hc => hguar _ (by have := List.mem_range.mp hc; omega)
  unfold State.booked
  rw [hint 1 (by decide), hint 2 (by decide), hint 3 (by decide), List.map_congr_left fun h hh => ?_]
  have hlt := List.mem_range.mp hh
  rw [heads, classes h hlt, hcap _ (by omega)]

/-- Clearing SHORTFALL books nothing. -/
theorem booked_commitTolls (s : State) : s.commitTolls.booked = (s.commitTbl 0x06 (fun _ => true)).booked := by
  unfold State.commitTolls
  dsimp only
  split
  · refine booked_congr rfl (fun i hi => ?_) (fun i hi => ?_) (fun i hi => ?_)
    · exact State.rd_wr_apart _ _ _ _ _ _ (by decide) (by decide) (by omega) (by decide) (by decide) (by decide)
    · exact State.rd_wr_apart _ _ _ _ _ _ (by decide) (by decide) (by omega) (by decide) (by decide) (by decide)
    · exact State.rd_wr_apart _ _ _ _ _ _ (by decide) (by decide) (by omega) (by decide) (by decide) (by decide)
  · rfl

theorem commitTolls_uncommitted (s : State) : ∀ x ∈ s.commitTolls.uncommitted, x.tbl ≠ 6 := by
  have kept : s.commitTolls.uncommitted = (s.commitTbl 0x06 (fun _ => true)).uncommitted := by
    unfold State.commitTolls
    dsimp only
    split <;> rfl
  rw [kept]
  intro x hx
  simpa using (List.mem_filter.mp hx).2

/-! ### The statement -/

/-- Settles O48: each command's equation; a requester is refilled once since it is present once, a grant's milepost leaves the
traffic alone, and nothing of a toll interval writes BOOKED after its sum. -/
theorem tollgatesAdmitAndRoundaboutsGrant : Obligations.TollgatesAdmitAndRoundaboutsGrant := by
  unfold Obligations.TollgatesAdmitAndRoundaboutsGrant
  intro s hlive
  refine ⟨fun u level => exec_queueLevelReport level hlive, ?admits, ?idle, exec_roundaboutRefill hlive, ?refill, ?grant,
    fun r => exec_roundaboutGrant_none, ?interval⟩
  case admits =>
    intro g c i r hactive hopen hr hpick
    obtain ⟨hqueue, htokens⟩ := admitted_toll s g c i
    exact ⟨s.admitted g c i, exec_tollgateAdmit hlive hactive hopen hr hpick, hqueue, htokens, fun _ _ _ _ _ _ => rfl,
      fun g' hne => admitted_toll_ne s c i hne⟩
  case idle => exact fun g h => exec_tollgateAdmit_none (h.imp_right tollPick_empty)
  case refill =>
    intro r q hr hq hactive hmem f hf hsum
    exact rd_refillRb s hr hq hactive hmem (hf.trans (if_neg hsum).symm)
  case grant =>
    intro r i long q req htakes hpick hreq
    obtain ⟨hrb, hcoh, hdram⟩ := rbGranted_spec s r i q req long
    refine ⟨_, exec_roundaboutGrant hlive htakes hpick hreq, ?_, ?_, hcoh, hdram⟩
    · rw [hrb]; rfl
    · rw [hrb]; rfl
  case interval =>
    intro hlocked
    obtain ⟨hbooked, huncommitted⟩ := booking_runTolls (booking_rescale s.commitTolls)
      (scale := scaleOf (s.commitTolls.rd TOLLDEV.BOOKABLE 0) s.commitTolls.booked)
    refine ⟨_, exec_tollInterval hlive hlocked, ?_, ?_⟩
    · rw [hbooked, booked_commitTolls]
    · rw [huncommitted]; exact commitTolls_uncommitted s

end Sys2Proof.Machine
end

section
/-! PROOFS. Mileposts: a counter's wrap, CLEAR_ALL, requests for snapshots and their completion (R467, R473-R475, R478, R482,
R484). -/
namespace Sys2Proof.Machine

/-! ### Fields of a counter after another of its fields is written -/

section Fields
variable (s : State) {f g : Fld} {n : Nat} (v : Nat)

/-- Another field of the same counter reads as before. -/
theorem rd_wr_counter (hn : n < 544) (fits : g.fits = true := by decide) (apart : f.apart g = true := by decide)
    (hf : f.word < 256 := by decide) (hg : g.word < 256 := by decide) : (s.wr g n v).rd f n = s.rd f n :=
  State.rd_wr_apart s f g n n v fits apart (by omega) (by omega) hf hg

theorem rd_setW1c (j : Nat) : (s.setW1c g n v).rd f j = (s.wr g n v).rd f j := rfl

end Fields

/-! ### A wrap without a sample (R473) -/

/-- The counter that wrapped: OVF is set, and VALUE is 0. -/
def State.overflowed (s : State) (n : Nat) : State := (s.setW1c MILEPOST.OVF n 1).wr MILEPOST.VALUE n 0

section Wrap
variable {s : State} {n : Nat} (o : Occ)

theorem addOne_last (last : s.rd MILEPOST.VALUE n = 2 ^ 48 - 1) : s.addOne n o = s.wrapped n o := by
  unfold State.addOne
  rw [last]
  rfl

theorem rd_value_overflowed (s : State) (n : Nat) : (s.overflowed n).rd MILEPOST.VALUE n = 0 :=
  State.rd_wr_self _ _ _ _ (by decide)

theorem rd_ovf_overflowed (s : State) (hn : n < 544) : (s.overflowed n).rd MILEPOST.OVF n = 1 := by
  unfold State.overflowed
  rw [rd_wr_counter _ _ hn, rd_setW1c, State.rd_wr_self _ _ _ _ (by decide)]
  rfl

theorem rdB_frzOvf_overflowed (s : State) (hn : n < 544) :
    (s.overflowed n).rdB MILEPOST.FRZ_OVF n = s.rdB MILEPOST.FRZ_OVF n := by
  unfold State.rdB State.overflowed
  rw [rd_wr_counter _ _ hn, rd_setW1c, rd_wr_counter _ _ hn]

/-- A fixed counter, and a programmable one whose SAMPLE is 0. -/
theorem wrapped_eq_overflowed (hn : n < 544) (noSample : n < 512 → s.rdB MILEPOST.SAMPLE n = false) : s.wrapped n o =
    if n < 512 && s.rdB MILEPOST.FRZ_OVF n then (s.overflowed n).wr MPALL.FREEZE 544 1 else s.overflowed n := by
  have kept : (s.setW1c MILEPOST.OVF n 1).rdB MILEPOST.SAMPLE n = s.rdB MILEPOST.SAMPLE n := by
    unfold State.rdB
    rw [rd_setW1c, rd_wr_counter _ _ hn]
  unfold State.wrapped
  extract_lets u v
  have unsampled : v = s.overflowed n := if_neg (by simpa [u, kept] using noSample)
  rw [unsampled, rdB_frzOvf_overflowed s hn]

/-- What a wrap without a sample leaves in the counter, and in FREEZE where FRZ_OVF is 1. -/
theorem wrapped_spec (hn : n < 544) (noSample : n < 512 → s.rdB MILEPOST.SAMPLE n = false) :
    (s.wrapped n o).rd MILEPOST.VALUE n = 0 ∧ (s.wrapped n o).rd MILEPOST.OVF n = 1 ∧
      (n < 512 → s.rdB MILEPOST.FRZ_OVF n = true → (s.wrapped n o).rd MPALL.FREEZE 544 = 1) := by
  rw [wrapped_eq_overflowed o hn noSample]
  split
  · have entry (f : Fld) (hf : f.word < 256) :
        ((s.overflowed n).wr MPALL.FREEZE 544 1).rd f n = (s.overflowed n).rd f n :=
      State.rd_wr_entry _ _ _ _ _ _ (by omega) (by omega) (by decide) hf (by decide)
    refine ⟨?_, ?_, fun _ _ => State.rd_wr_self _ _ _ _ (by decide)⟩
    · rw [entry _ (by decide), rd_value_overflowed]
    · rw [entry _ (by decide), rd_ovf_overflowed s hn]
  · rename_i unfrozen
    exact ⟨rd_value_overflowed s n, rd_ovf_overflowed s hn, fun hprog hfrz => absurd (by simp [hprog, hfrz]) unfrozen⟩

end Wrap

/-! ### COUNTER_WRAP (R473, R478) -/

section CounterWrap
variable {s : State} (live : s.live = true) (locked : s.time.locked = true) {n : Fin 544} (occ : Occurrence)
  (last : s.rd MILEPOST.VALUE n = 2 ^ 48 - 1)
include live locked last

theorem exec_counterWrap_fixed (hn : 512 ≤ n.val) : ∃ o, exec (.counterWrap n occ) s = .next (s.addOne n o) := by
  refine ⟨_, congrArg Host.Outcome.next ((if_pos ?_).trans (if_neg (by omega)))⟩
  simp [live, locked, last]

theorem exec_counterWrap_programmable {o : Occ} (hn : n.val < 512) (enabled : s.rdB MILEPOST.ENABLE n = true)
    (unfrozen : s.rdB MPALL.FREEZE 544 = false)
    (ho : o = { unit := occ.unit.toNat, event := occ.event.toNat
                ld := if occ.ld.toNat < 256 then some occ.ld.toNat else none
                qual := (List.range 8).find? (fun i => occ.qual.getLsbD i), addr := none })
    (active : s.domActive o.unit = true) (counted : s.counts n o = true) :
    exec (.counterWrap n occ) s = .next (s.addOcc n o) := by
  subst ho
  refine congrArg Host.Outcome.next ((if_pos ?_).trans ((if_pos hn).trans (if_pos ?_)))
  · simp [live, locked, last]
  · rw [enabled, unfrozen, active, counted]
    rfl

end CounterWrap

/-! ### CLEAR_ALL (R473) -/

/-- A counter set to zero. -/
def State.zeroed (s : State) (n : Nat) : State := if s.rd MILEPOST.VALUE n = 0 then s else s.wr MILEPOST.VALUE n 0

theorem clearAll_eq (s : State) : s.clearAll = (List.range 512).foldl State.zeroed s := rfl

section Zeroed
variable {s : State} {n : Nat}

theorem rd_zeroed_self (s : State) (n : Nat) : (s.zeroed n).rd MILEPOST.VALUE n = 0 := by
  unfold State.zeroed
  split
  case isTrue zero => exact zero
  case isFalse => exact State.rd_wr_self _ _ _ _ (by decide)

theorem rd_zeroed_ne {m : Nat} (hne : n ≠ m) (hn : n < 544) (hm : m < 544) :
    (s.zeroed m).rd MILEPOST.VALUE n = s.rd MILEPOST.VALUE n := by
  unfold State.zeroed
  split
  · rfl
  · exact State.rd_wr_entry _ _ _ _ _ _ hne (by omega) (by omega) (by decide) (by decide)

theorem rd_clearAll_fixed (hn : 512 ≤ n) (hlt : n < 544) : s.clearAll.rd MILEPOST.VALUE n = s.rd MILEPOST.VALUE n :=
  List.foldlRecOn (motive := fun v : State => v.rd MILEPOST.VALUE n = s.rd MILEPOST.VALUE n) _ State.zeroed rfl
   fun v hv m hm => by
    have := List.mem_range.mp hm
    rw [rd_zeroed_ne (by omega) hlt (by omega), hv]

/-- Zeroing a range of counters in turn leaves each of them at zero: later ones leave it alone. -/
theorem rd_foldl_zeroed {k : Nat} (hn : n < k) (hk : k ≤ 512) :
    ((List.range k).foldl State.zeroed s).rd MILEPOST.VALUE n = 0 := by
  induction k with
  | zero => omega
  | succ k ih =>
    rw [List.range_succ, List.foldl_append, List.foldl_cons, List.foldl_nil]
    by_cases h : n = k
    · rw [h, rd_zeroed_self]
    · rw [rd_zeroed_ne h (by omega) (by omega), ih (by omega) (by omega)]

theorem rd_clearAll_programmable (hn : n < 512) : s.clearAll.rd MILEPOST.VALUE n = 0 := rd_foldl_zeroed hn le_rfl

theorem countFrame_zeroed (s : State) (hn : n < 512) : CountFrame s (s.zeroed n) := by
  unfold State.zeroed
  split
  · exact .refl s
  · exact countFrame_wr _ _ _ _ rfl (by omega) (by decide)

theorem zeroed_mile (s : State) (n : Nat) : (s.zeroed n).mile = s.mile := by
  unfold State.zeroed
  split <;> rfl

theorem countFrame_clearAll (s : State) : CountFrame s s.clearAll :=
  List.foldlRecOn (motive := CountFrame s) _ State.zeroed (.refl s) fun v hv _ hm =>
    hv.trans (countFrame_zeroed v (List.mem_range.mp hm))

theorem clearAll_mile (s : State) : s.clearAll.mile = s.mile :=
  List.foldlRecOn (motive := fun v : State => v.mile = s.mile) _ State.zeroed rfl fun v hv m _ => (zeroed_mile v m).trans hv

end Zeroed

/-! ### Requests for snapshots (R475, R482) -/

/-- A mask of one group. -/
theorem groups_of_single : ∀ g : Fin 17,
    (List.range 17).filter (fun i => (BitVec.ofNat 17 (2 ^ g.val)).getLsbD i) = [g.val] := by decide

theorem exec_snapReq_owner {s : State} (live : s.live = true) (owner : s.own.owner = some 0) (g : Fin 17) :
    exec (.snapReq 0 (BitVec.ofNat 17 (2 ^ g.val))) s = .next (s.snapAsk g).1 := by
  have asks : s.snapReq (BitVec.ofNat 17 (2 ^ g.val)) = (s.snapAsk g).1 := by
    unfold State.snapReq
    rw [if_pos (by simp [live, owner]), ← List.foldl_filter, groups_of_single]
    rfl
  change Host.Outcome.next (State.snapReq s _) = _
  rw [asks]

theorem exec_snapReq_notOwner {s : State} (c : Cand) (mask : BitVec 17) (owner : s.own.owner ≠ some 0) :
    exec (.snapReq c mask) s = .next s := by
  have ignored : s.snapReq mask = s := if_neg (by simp [owner])
  refine congrArg Host.Outcome.next ?_
  rw [ignored]
  exact ite_self s

/-! ### Snapshots complete (R474, R475) -/

/-- A group's bank becomes current under a generation. -/
def State.banked (s : State) (g : Fin 17) (b : Bank) : State :=
  ({ s with mile := { s.mile with banks := tset (fun _ => Bank.init) s.mile.banks g b,
                                  inProgress := s.mile.inProgress.filter (fun p => p.1 ≠ g.val) } }).wr (MPALL.GEN g) 544
    b.gen.toNat

theorem bank_banked_self (s : State) (g : Fin 17) (b : Bank) : (s.banked g b).bank g = b := tget_tset_self _ _ _ _

theorem bank_banked_ne (s : State) (g : Fin 17) (b : Bank) {h : Fin 17} (hne : h ≠ g) : (s.banked g b).bank h = s.bank h :=
  tget_tset_ne _ _ _ (fun e => hne (Fin.ext e))

theorem rd_gen_banked (s : State) (g : Fin 17) (b : Bank) : (s.banked g b).rd (MPALL.GEN g) 544 = b.gen.toNat := by
  have fits : ∀ g : Fin 17, (MPALL.GEN g).fits = true := by decide
  exact (State.rd_wr_self _ _ _ _ (fits g)).trans (Nat.mod_eq_of_lt b.gen.isLt)

section Complete
variable {s : State} (live : s.live = true) {g : Fin 17}
include live

theorem exec_snapshotComplete {x : Nat} {b : Bank} (found : s.mile.inProgress.find? (fun p => p.1 == g.val) = some (x, b))
    (once : s.mile.again.contains g.val = false) :
    exec (.snapshotComplete g) s = .next (s.banked g { b with gen := nextGen (s.bank g).gen }) := by
  change execSnapshotComplete g s = _
  unfold execSnapshotComplete
  rw [if_pos live, found]
  exact congrArg Host.Outcome.next (if_neg (by simpa using once))

theorem exec_snapshotComplete_none (none : ∀ p ∈ s.mile.inProgress, p.1 ≠ g.val) :
    exec (.snapshotComplete g) s = .next s := by
  have missing : s.mile.inProgress.find? (fun p => p.1 == g.val) = Option.none :=
    List.find?_eq_none.mpr fun p hp => by simpa using none p hp
  change execSnapshotComplete g s = _
  unfold execSnapshotComplete
  rw [if_pos live, missing]

end Complete

/-! ### The statement -/

/-- Settles O60: a wrap by `wrapped_spec` within the frame of counting, CLEAR_ALL counter by counter, a snapshot by what
`State.banked` leaves. -/
theorem milepostsWrapAndSnapshot : Obligations.MilepostsWrapAndSnapshot := by
  unfold Obligations.MilepostsWrapAndSnapshot
  intro s live
  refine ⟨?fixed, ?wraps, ?programmable, fun w t d issues => submits_of issues rfl rfl,
    ⟨fun n hn => rd_clearAll_programmable hn, fun n hn hlt => rd_clearAll_fixed hn hlt, (countFrame_clearAll s).2.1,
      clearAll_mile s⟩,
    fun owner g => ⟨_, exec_snapReq_owner live owner g, rfl⟩, fun c m owner => exec_snapReq_notOwner c m owner, ?completes,
    fun g none => exec_snapshotComplete_none live none⟩
  case fixed =>
    intro n occ locked last hn
    obtain ⟨o, hexec⟩ := exec_counterWrap_fixed live locked occ last hn
    obtain ⟨hvalue, hovf, -⟩ := wrapped_spec o n.isLt (fun hlt => absurd hn (by omega))
    obtain ⟨device, tables, -, -⟩ := countFrame_addOne s n o (by omega)
    rw [addOne_last o last] at hexec device tables
    exact ⟨_, hexec, hovf, hvalue, tables, device⟩
  case wraps =>
    intro n o noSample last
    obtain ⟨hvalue, hovf, hfreeze⟩ := wrapped_spec (n := n) o (by omega) (fun _ => noSample)
    rw [addOne_last o last]
    exact ⟨hvalue, hovf, hfreeze n.isLt⟩
  case programmable =>
    intro n occ o hn locked last enabled unfrozen ho active counted
    exact exec_counterWrap_programmable live locked occ last hn enabled unfrozen ho active counted
  case completes =>
    intro g x b found once
    refine ⟨_, exec_snapshotComplete live found once, bank_banked_self s g _, fun p hp => ?_, rd_gen_banked s g _,
      fun h hne => bank_banked_ne s g _ hne⟩
    simpa using (List.mem_filter.mp hp).2

end Sys2Proof.Machine
end

section
/-! PROOFS. The fault collector: what it takes, acknowledgement and latches, the BMC's reads, unit resets, check-ins and
HEARTBEAT (R416, R417, R419, R422, R423, R426, R428, R429, R433). -/
namespace Sys2Proof.Machine

/-! ### The report that is taken first (R417) -/

theorem reportBefore_iff (a b : Report) : reportBefore a b = true ↔
    b.cls < a.cls ∨ a.cls = b.cls ∧ (a.unit < b.unit ∨ a.unit = b.unit ∧ a.code < b.code) := by
  simp [reportBefore]

theorem not_reportBefore_iff (a b : Report) : reportBefore a b = false ↔
    ¬ (b.cls < a.cls ∨ a.cls = b.cls ∧ (a.unit < b.unit ∨ a.unit = b.unit ∧ a.code < b.code)) := by
  rw [← reportBefore_iff, Bool.not_eq_true]

theorem reportBefore_self (a : Report) : reportBefore a a = false := by
  rw [not_reportBefore_iff]
  omega

theorem reportBefore_asymm {a b : Report} (h : reportBefore a b = true) : reportBefore b a = false := by
  rw [reportBefore_iff] at h
  rw [not_reportBefore_iff]
  omega

/-- Reports that do not go before each other in turn: the order is by three numbers, so it is total. -/
theorem not_reportBefore_trans {a b c : Report} (hab : reportBefore a b = false) (hbc : reportBefore b c = false) :
    reportBefore a c = false := by
  rw [not_reportBefore_iff] at *
  omega

/-- The report held, or the next one where that goes before it. -/
def earlier (held : Option Report) (r : Report) : Option Report :=
  match held with
  | none => some r
  | some q => if reportBefore r q then some r else some q

/-- None of the reports seen goes before the one that is held at the end. -/
theorem foldl_earlier_first {l : List Report} {p r q : Report} (found : l.foldl earlier (some p) = some r)
    (hq : q = p ∨ q ∈ l) : reportBefore q r = false := by
  induction l generalizing p q with
  | nil =>
    obtain rfl := Option.some.inj found
    obtain rfl := hq.resolve_right List.not_mem_nil
    exact reportBefore_self q
  | cons x l ih =>
    rw [List.foldl_cons] at found
    cases hx : reportBefore x p with
    | true =>
      have held : earlier (some p) x = some x := if_pos hx
      rw [held] at found
      obtain rfl | hq := hq
      · exact not_reportBefore_trans (reportBefore_asymm hx) (ih found (.inl rfl))
      · exact ih found (List.mem_cons.mp hq)
    | false =>
      have held : earlier (some p) x = some p := if_neg (by simp [hx])
      rw [held] at found
      obtain rfl | hq := hq
      · exact ih found (.inl rfl)
      · obtain rfl | hq := List.mem_cons.mp hq
        · exact not_reportBefore_trans hx (ih found (.inl rfl))
        · exact ih found (.inr hq)

theorem nextReport_first {l : List Report} {r q : Report} (found : nextReport l = some r) (hq : q ∈ l) :
    reportBefore q r = false := by
  cases l with
  | nil => exact absurd hq List.not_mem_nil
  | cons p l => exact foldl_earlier_first (l := l) (p := p) found (List.mem_cons.mp hq)

theorem exec_collectorTake {s : State} {r : Report} (powered : s.board.power ≠ .unpowered)
    (found : nextReport s.aon.reports = some r) : exec .collectorTake s =
      .next (({ s with aon := { s.aon with reports := s.aon.reports.filter (· ≠ r) } }).applyReport r) := by
  change execCollectorTake s = _
  unfold execCollectorTake
  rw [if_neg (by simpa using powered), found]

/-! ### Acknowledgement and latches (R419, R422, R433) -/

section Candidate
variable {s : State} (powered : s.board.power ≠ .unpowered)
include powered

theorem exec_recordAck_owner {c : Cand} (i : BitVec 8) (acts : (s.from_ c).ownerActs c = true) :
    exec (.recordAck c i) s = .next ((s.from_ c).ackRecord i.toNat) :=
  congrArg Host.Outcome.next ((if_neg (by simpa using powered)).trans (if_pos acts))

theorem exec_latchClear_owner {c : Cand} (k : Fin 4) (acts : (s.from_ c).ownerActs c = true) :
    exec (.latchClear c k) s = .next ((s.from_ c).clearLatch k) :=
  congrArg Host.Outcome.next ((if_neg (by simpa using powered)).trans (if_pos acts))

/-- A BMC that is not the owner gets OWNER_STATUS for either request. -/
theorem exec_ack_bmc (i : BitVec 8) (k : Fin 4) (notOwner : (s.from_ 1).own.owner ≠ some 1) :
    exec (.recordAck 1 i) s = .next ((s.from_ 1).send (.ownerStatus 1 ((s.from_ 1).ownerStatus 1))) ∧
    exec (.latchClear 1 k) s = .next ((s.from_ 1).send (.ownerStatus 1 ((s.from_ 1).ownerStatus 1))) := by
  have idle : ¬ (s.from_ 1).ownerActs 1 = true := by simp [State.ownerActs, notOwner]
  have answered (u v : State) :
      (if (s.from_ 1).ownerActs 1 = true then u else if (1 : Nat) = 1 then v else s.from_ 1) = v :=
    (if_neg idle).trans (if_pos rfl)
  exact ⟨congrArg Host.Outcome.next ((if_neg (by simpa using powered)).trans (answered _ _)),
    congrArg Host.Outcome.next ((if_neg (by simpa using powered)).trans (answered _ _))⟩

end Candidate

theorem ackRecord_acknowledged {s : State} {i : Nat} (valid : s.rdB RECORD.VALID (i + 1) = true)
    (done : s.rdB RECORD.HANDLING (i + 1) = false) : s.ackRecord i = s.dropRecord i :=
  if_pos (by simp [valid, done])

theorem ackRecord_handling {s : State} {i : Nat} (handling : s.rdB RECORD.HANDLING (i + 1) = true) : s.ackRecord i = s :=
  if_neg (by simp [handling])

/-- A one-bit W1C field of a word of which no bit was set in this cycle. -/
theorem rd_clearW1c_self {s : State} {f : Fld} {i : Nat} (fits : f.fits = true) (one : f.w = 1)
    (settled : s.setNow f.lay.tbl i f.word = 0) : (s.clearW1c f i 1).rd f i = 0 := by
  have whole : ~~~(0 : BitVec 64) = BitVec.allOnes 64 := BitVec.not_zero
  unfold State.clearW1c
  rw [State.rd_wr_self _ _ _ _ fits, Nat.mod_eq_of_lt (Fld.get_lt _ _), settled, whole, BitVec.and_allOnes]
  apply Nat.eq_of_testBit_eq
  intro k
  rw [Fld.get_bit, Nat.zero_testBit, one]
  by_cases hk : k = 0
  · have inWord : f.bit < 64 := by
      have : f.bit + f.w ≤ 64 := by simpa [Fld.fits] using fits
      omega
    simp [hk, Fld.put_bit f fits, Fld.mask_bit f fits, one, inWord]
  · simp [hk]

/-- Latches 0 to 2 clear with their OVERFLOW. -/
theorem rd_clearLatch {s : State} {k : Nat} (hk : k < 3) (settled : ∀ word, s.setNow 0x0E 0 word = 0) :
    (s.clearLatch k).rd (FAULT.VALID k) 0 = 0 ∧ (s.clearLatch k).rd (FAULT.OVERFLOW k) 0 = 0 := by
  have valid : ∀ k < 3, (FAULT.VALID k).fits = true ∧ (FAULT.VALID k).word < 256 := by decide
  have overflow : ∀ k < 3, (FAULT.OVERFLOW k).fits = true ∧ (FAULT.OVERFLOW k).word < 256 ∧
      (FAULT.VALID k).apart (FAULT.OVERFLOW k) = true := by decide
  obtain ⟨vfits, vword⟩ := valid k hk
  obtain ⟨ofits, oword, apart⟩ := overflow k hk
  have cleared : s.clearLatch k = (s.clearW1c (FAULT.VALID k) 0 1).clearW1c (FAULT.OVERFLOW k) 0 1 := if_neg (by omega)
  rw [cleared]
  constructor
  · refine (State.rd_wr_apart _ _ _ _ _ _ ofits apart (by decide) (by decide) vword oword).trans ?_
    exact rd_clearW1c_self vfits rfl (settled _)
  · exact rd_clearW1c_self ofits rfl (settled _)

/-! ### The BMC's reads (R426, R433) -/

@[simp] theorem leBytes_length (n v : Nat) : (leBytes n v).length = n := by
  induction n generalizing v with
  | zero => rfl
  | succ n ih => rw [leBytes, List.length_cons, ih]

theorem exec_faultStatusRead {s : State} (answers : s.bmcAnswers = true) : exec .faultStatusRead s = .next ((s.from_ 1).send
    (.answer ((List.range 8).flatMap (fun w => leBytes 8 (s.faultWord w).toNat)))) :=
  congrArg Host.Outcome.next (if_pos answers)

/-- The bytes of a record slot. -/
def State.recordBytes (s : State) (i : Nat) : List (BitVec 8) :=
  (List.range 4).flatMap (fun w => leBytes 8 (s.wordAt 0x0E (i + 1) w).toNat)

theorem recordBytes_length (s : State) (i : Nat) : (s.recordBytes i).length = 32 := by
  simp [State.recordBytes, List.length_flatMap]

theorem exec_faultRecordsRead {s : State} (i j : BitVec 8) (answers : s.bmcAnswers = true) :
    exec (.faultRecordsRead i j) s = .next ((s.from_ 1).send
      (.answer ((List.range (j.toNat + 1 - i.toNat)).flatMap (fun n => s.recordBytes (i.toNat + n))))) :=
  congrArg Host.Outcome.next (if_pos answers)

/-! ### Unit resets (R428) -/

theorem submits_resetGo {s : State} {w : WfNo} {t : ThrNo} (d : Reg) (x : BitVec 10) (issues : Issues s w t) :
    Submits (.resetGo w t d x) s w t d (fun j =>
      if resettable x.toNat = false then (5, j) else if j.unitThere x.toNat = false then (9, j)
      else if j.inHandling x.toNat = false then (5, j) else if j.aon.reset.isSome then (6, j)
      else (0, ({ (j.wr FAULT.RESET_STATUS 0 1) with aon := { j.aon with reset := some ⟨x.toNat⟩ } } : State).wr
        FAULT.RESET_UNIT 0 x.toNat)) := by
  refine submits_of issues rfl (congrArg (fun f => Host.Outcome.next (ownerStore w t d f s)) (funext fun j => ?_))
  dsimp only [State.resetGo]
  cases resettable x.toNat with
  | false => rfl
  | true =>
    cases j.unitThere x.toNat with
    | false => rfl
    | true =>
      cases j.inHandling x.toNat with
      | false => rfl
      | true => cases j.aon.reset.isSome <;> rfl

section UnitReset
variable {s : State} {r : UnitReset} (running : s.aon.reset = some r) (unhalted : s.board.halted = false)
include running unhalted

theorem exec_unitResetComplete_done : exec (.unitResetComplete false) s =
    .next ((({ s with aon := { s.aon with reset := none } }).unitReturns r.unit).wr FAULT.RESET_STATUS 0 2) := by
  change execUnitResetComplete false s = _
  unfold execUnitResetComplete
  rw [running]
  exact congrArg Host.Outcome.next (if_neg (by simp [unhalted]))

theorem exec_unitResetComplete_faulty : ∃ detail, exec (.unitResetComplete true) s =
    .next ((({ s with aon := { s.aon with reset := none } }).wr FAULT.RESET_STATUS 0 3).report r.unit (resetCode r.unit) 2
      detail) := by
  change ∃ detail, execUnitResetComplete true s = _
  unfold execUnitResetComplete
  rw [running]
  exact ⟨_, congrArg Host.Outcome.next (if_neg (by simp [unhalted]))⟩

end UnitReset

/-! ### Check-ins and HEARTBEAT (R429) -/

theorem checkin_spec (s : State) : s.checkin.rd FAULT.CHECKIN_LATE 0 = 0 ∧ s.checkin.aon.lastCheckin = s.time.aon := by
  unfold State.checkin
  extract_lets _ u late v
  have ended : v.rd FAULT.CHECKIN_LATE 0 = 0 := State.rd_wr_self _ _ _ _ (by decide)
  split
  · exact ⟨ended, rfl⟩
  · exact ⟨ended, rfl⟩

theorem exec_checkinTimeout {s : State} (live : s.live = true) (enabled : s.rdB FAULT.CHECKIN_EN 0 = true) :
    exec .checkinTimeout s =
      .next { (s.wr FAULT.CHECKIN_LATE 0 1) with board := { s.board with heartOn := false } } :=
  congrArg Host.Outcome.next (if_pos (by simp [live, enabled]))

theorem exec_heartbeatToggle {s : State} (live : s.live = true) (runs : s.board.heartOn = true) :
    exec .heartbeatToggle s = .next { s with board := { s.board with heart := !s.board.heart } } :=
  congrArg Host.Outcome.next (if_pos (by simp [live, runs]))

/-! ### The statement -/

/-- Settles O56: the collector's choice by `nextReport_first`, the other clauses by each command's equation. -/
theorem faultsAreCollectedAndReset : Obligations.FaultsAreCollectedAndReset := by
  unfold Obligations.FaultsAreCollectedAndReset
  intro s
  refine ⟨fun r => exec_collectorTake, fun l r q => nextReport_first, ?owner, ?bmc, ?status, ?records,
    fun w t d x issues => submits_resetGo d x issues, ?reset, fun w t d issues => submits_of issues rfl rfl,
    checkin_spec s, exec_checkinTimeout, exec_heartbeatToggle⟩
  case owner =>
    rintro c i powered a rfl acts
    have ack := exec_recordAck_owner powered i acts
    refine ⟨fun valid done => ?_, fun handling => ?_, fun k => exec_latchClear_owner powered k acts, if_pos rfl,
      fun k hk settled => rd_clearLatch hk settled⟩
    · rw [ack, ackRecord_acknowledged valid done]
    · rw [ack, ackRecord_handling handling]
  case bmc =>
    rintro i k powered a rfl notOwner
    exact exec_ack_bmc powered i k notOwner
  case status =>
    exact fun answers => ⟨_, _, exec_faultStatusRead answers, rfl, by simp [List.length_flatMap]⟩
  case records =>
    refine fun i j answers => ⟨_, _, exec_faultRecordsRead i j answers, rfl, ?_⟩
    simp [List.length_flatMap, recordBytes_length, Nat.mul_comm]
  case reset =>
    rintro r running unhalted a rfl
    obtain ⟨detail, hexec⟩ := exec_unitResetComplete_faulty running unhalted
    refine ⟨exec_unitResetComplete_done running unhalted, _, hexec, ?_, report_pends _ _ _ _ _ _⟩
    rw [report_rd]
    exact State.rd_wr_self _ _ _ _ (by decide)

end Sys2Proof.Machine
end

section
/-! PROOFS. The queue: what the model's operations, the commands, and an idle cycle leave of the commands that wait (R10; log
entry 7). Each operation has one frame lemma, `…_queue`, which follows from those of the operations that its definition is made
of; the order is that of the model, up to `exec` and `tickClock`. -/
namespace Sys2Proof.Machine

/-! ### The queue of a state -/

/-- The commands that wait. No lemma of the library sees through this name, and no step of a proof below evaluates a state to
find its queue. -/
@[irreducible] def State.queue (s : State) : List Instr := s.pending

theorem State.queue_eq (s : State) : s.queue = s.pending := by unfold State.queue; rfl

/-- What an update of any other field leaves. -/
@[simp] theorem queue_with (board : Board) (time : Time) (own : Election) (svc : Service) (tab : Tab (BitVec 64))
    (uncommitted : List Uncommitted) (stamps : List Stamp) (soft : Soft) (regs : Tab (BitVec 64)) (links : Tab Link)
    (decoders : Tab Decoder) (coh : Coh) (plc : Plc) (stow : Stow) (sealing : Seal) (dram : Dram) (traffic : Traffic)
    (aon : Aon) (mile : Mile) (freeUsed : Nat) (out : List Out) (s : State) :
    (State.mk board time own svc tab uncommitted stamps soft regs links decoders coh plc stow sealing dram traffic aon mile
      freeUsed out s.pending).queue = s.queue := by unfold State.queue; rfl

@[simp] theorem ite_queue {c : Prop} [Decidable c] (a b : State) :
    (if c then a else b).queue = if c then a.queue else b.queue := apply_ite State.queue c a b

@[simp] theorem fst_ite_queue {β : Type} {c : Prop} [Decidable c] (a b : State × β) :
    (if c then a else b).1.queue = if c then a.1.queue else b.1.queue := apply_ite (fun x => x.1.queue) c a b

@[simp] theorem snd_ite_queue {β : Type} {c : Prop} [Decidable c] (a b : β × State) :
    (if c then a else b).2.queue = if c then a.2.queue else b.2.queue := apply_ite (fun x => x.2.queue) c a b

@[simp] theorem foldl_queue {α : Type} {f : State → α → State} {s : State} {l : List α}
    (h : ∀ v x, (f v x).queue = v.queue) : (l.foldl f s).queue = s.queue := by
  induction l generalizing s with
  | nil => rfl
  | cons x l ih => rw [List.foldl_cons, ih, h]

/-- The same for a fold that also gathers something else. -/
@[simp] theorem foldl_fst_queue {α β : Type} {f : State × β → α → State × β} {a : State × β} {l : List α}
    (h : ∀ b x, (f b x).1.queue = b.1.queue) : (l.foldl f a).1.queue = a.1.queue := by
  induction l generalizing a with
  | nil => rfl
  | cons x l ih => rw [List.foldl_cons, ih, h]

/-- The state that a page's operation leaves, however it ends. -/
def JobRes.state : JobRes → State
  | .done s => s
  | .wait s => s
  | .fail s _ => s

@[simp] theorem JobRes.state_done (s : State) : (JobRes.done s).state = s := rfl

@[simp] theorem JobRes.state_wait (s : State) : (JobRes.wait s).state = s := rfl

@[simp] theorem JobRes.state_fail (s : State) (status : Nat) : (JobRes.fail s status).state = s := rfl

@[simp] theorem JobRes.ite_state {c : Prop} [Decidable c] (a b : JobRes) :
    (if c then a else b).state = if c then a.state else b.state := apply_ite JobRes.state c a b

/-- An instruction's body leaves `q` in the queue. -/
def Eff.Leaves (q : List Instr) : Eff → Prop
  | .next s => s.queue = q
  | .jump s _ => s.queue = q
  | .raise _ _ => True
  | .suspend s _ => s.queue = q
  | .stop s => s.queue = q
  | .retry f => ∀ v, (f v).queue = v.queue

@[simp] theorem Eff.leaves_next (q : List Instr) (s : State) : (Eff.next s).Leaves q ↔ s.queue = q := Iff.rfl

@[simp] theorem Eff.leaves_jump (q : List Instr) (s : State) (a : BitVec 64) :
    (Eff.jump s a).Leaves q ↔ s.queue = q := Iff.rfl

@[simp] theorem Eff.leaves_raise (q : List Instr) (code trap : Nat) : (Eff.raise code trap).Leaves q := trivial

@[simp] theorem Eff.leaves_suspend (q : List Instr) (s : State) (w : Wait) :
    (Eff.suspend s w).Leaves q ↔ s.queue = q := Iff.rfl

@[simp] theorem Eff.leaves_stop (q : List Instr) (s : State) : (Eff.stop s).Leaves q ↔ s.queue = q := Iff.rfl

@[simp] theorem Eff.leaves_retry (q : List Instr) (f : State → State) :
    (Eff.retry f).Leaves q ↔ ∀ v, (f v).queue = v.queue := Iff.rfl

@[simp] theorem Eff.leaves_ite {c : Prop} [Decidable c] (q : List Instr) (a b : Eff) :
    (if c then a else b).Leaves q ↔ if c then a.Leaves q else b.Leaves q := by split <;> rfl

/-- A command that answers a next state leaves `q` in its queue. -/
def Answers (q : List Instr) (o : Host.Outcome State Fault Refusal) : Prop := ∀ u, o = .next u → u.queue = q

@[simp] theorem answers_next (q : List Instr) (u : State) : Answers q (.next u) ↔ u.queue = q := by simp [Answers]

@[simp] theorem answers_fault (q : List Instr) (r : Fault) : Answers q (.fault r) := by simp [Answers]

/-! ### The named operations: words and maps, messages, mileposts, wakes, events to threads, reports and the halt -/

section
variable (s : State) {tbl idx word v k w t r n ld l u c d unit bit code detail : Nat} {f : Fld} {o : Occ}
    {bits : BitVec 16}

@[simp] theorem State.setWord_queue (v : BitVec 64) :
    (s.setWord tbl idx word v).queue = s.queue := by simp [State.setWord]

@[simp] theorem State.wr_queue : (s.wr f idx v).queue = s.queue := by simp [State.wr]
@[simp] theorem State.inc_queue : (s.inc f idx).queue = s.queue := by simp [State.inc]
@[simp] theorem State.incSat_queue : (s.incSat f idx k).queue = s.queue := by simp [State.incSat]

@[simp] theorem State.stamp_queue (mask : BitVec 64) :
    (s.stamp tbl idx word mask).queue = s.queue := by simp [State.stamp]

@[simp] theorem State.setW1c_queue : (s.setW1c f idx v).queue = s.queue := by simp [State.setW1c]
@[simp] theorem State.clearW1c_queue : (s.clearW1c f idx v).queue = s.queue := by simp [State.clearW1c]
@[simp] theorem State.setThread_queue (x : Thread) : (s.setThread w t x).queue = s.queue := by simp [State.setThread]
@[simp] theorem State.setWf_queue (x : Wf) : (s.setWf w x).queue = s.queue := by simp [State.setWf]
@[simp] theorem State.setG_queue (v : BitVec 64) : (s.setG w t r v).queue = s.queue := by simp [State.setG]

@[simp] theorem State.setProgram_queue (p : Option Program) :
    (s.setProgram n p).queue = s.queue := by simp [State.setProgram]

@[simp] theorem State.setScr_queue (a : Nat) (bs : List (BitVec 8)) :
    (s.setScr w a bs).queue = s.queue := by simp [State.setScr]

@[simp] theorem State.setRing_queue (x : Ring) : (s.setRing ld r x).queue = s.queue := by simp [State.setRing]

@[simp] theorem State.setMailbox_queue (f : Nat) (toDev : Bool) (m : Nat) (x : Mailbox) :
    (s.setMailbox f toDev m x).queue = s.queue := by simp [State.setMailbox]

@[simp] theorem State.setBell_queue (f : Nat) (x : Doorbell) :
    (s.setBell f x).queue = s.queue := by simp [State.setBell]

@[simp] theorem State.setLink_queue (x : Link) : (s.setLink l x).queue = s.queue := by simp [State.setLink]

@[simp] theorem State.setDecoder_queue (x : Decoder) :
    (s.setDecoder ld n x).queue = s.queue := by simp [State.setDecoder]

@[simp] theorem State.setPage_queue (p : Nat) (x : Page) : (s.setPage p x).queue = s.queue := by simp [State.setPage]
@[simp] theorem State.setRegion_queue (x : Region) : (s.setRegion r x).queue = s.queue := by simp [State.setRegion]
@[simp] theorem State.setFrame_queue (x : Frame) : (s.setFrame k x).queue = s.queue := by simp [State.setFrame]
@[simp] theorem State.setPool_queue (x : Pool) : (s.setPool u x).queue = s.queue := by simp [State.setPool]
@[simp] theorem State.setCtx_queue (x : Ctx) : (s.setCtx c x).queue = s.queue := by simp [State.setCtx]
@[simp] theorem State.setChan_queue (x : Chan) : (s.setChan u x).queue = s.queue := by simp [State.setChan]
@[simp] theorem State.setToll_queue (x : Toll) : (s.setToll t x).queue = s.queue := by simp [State.setToll]
@[simp] theorem State.setRb_queue (x : Rb) : (s.setRb r x).queue = s.queue := by simp [State.setRb]
@[simp] theorem State.setDom_queue (x : Dom) : (s.setDom d x).queue = s.queue := by simp [State.setDom]
@[simp] theorem State.send_queue (o : Out) : (s.send o).queue = s.queue := by simp [State.send]
@[simp] theorem State.took_queue : s.took.queue = s.queue := by simp [State.took]
@[simp] theorem State.sample_queue : (s.sample n o).queue = s.queue := by simp [State.sample]
@[simp] theorem State.wrapped_queue : (s.wrapped n o).queue = s.queue := by simp [State.wrapped]
@[simp] theorem State.addOne_queue : (s.addOne n o).queue = s.queue := by simp [State.addOne]
@[simp] theorem State.addOcc_queue : (s.addOcc n o).queue = s.queue := by simp [State.addOcc]
@[simp] theorem State.occur_queue : (s.occur o).queue = s.queue := by simp [State.occur]
@[simp] theorem State.event_queue (event : Nat) : (s.event unit event).queue = s.queue := by simp [State.event]
@[simp] theorem State.fixed_queue : (s.fixed n).queue = s.queue := by simp [State.fixed]

@[simp] theorem State.endHandling_queue (codes : List Nat) :
    (s.endHandling unit codes).queue = s.queue := by simp [State.endHandling]

@[simp] theorem State.startTrain_queue : (s.startTrain l).queue = s.queue := by simp [State.startTrain]
@[simp] theorem State.wakeDom_queue : (s.wakeDom d).queue = s.queue := by simp [State.wakeDom]

@[simp] theorem State.wakeUnit_queue : (s.wakeUnit u).queue = s.queue := by
  unfold State.wakeUnit
  split <;> simp

@[simp] theorem State.shelve_queue : (s.shelve n).queue = s.queue := by simp [State.shelve]
@[simp] theorem State.raise_queue : (s.raise w t bit).queue = s.queue := by simp [State.raise]
@[simp] theorem State.raiseOwners_queue : (s.raiseOwners bit).queue = s.queue := by simp [State.raiseOwners]

@[simp] theorem State.raiseHandler_queue (f : Nat) :
    (s.raiseHandler f bit).queue = s.queue := by simp [State.raiseHandler]

@[simp] theorem State.report_queue (cls : Nat) (alarm : Bool) :
    (s.report unit code cls detail alarm).queue = s.queue := by simp [State.report]

@[simp] theorem State.ownerDown_queue : (s.ownerDown c).queue = s.queue := by simp [State.ownerDown]
@[simp] theorem State.linkLost_queue : (s.linkLost l).queue = s.queue := by simp [State.linkLost]
@[simp] theorem State.dropQueues_queue : s.dropQueues.queue = s.queue := by simp [State.dropQueues]
@[simp] theorem State.halt_queue : s.halt.queue = s.queue := by simp [State.halt]
@[simp] theorem State.fatal_queue : (s.fatal unit code detail).queue = s.queue := by simp [State.fatal]

@[simp] theorem State.integrity_queue (dpa key kind : Nat) :
    (s.integrity unit dpa key kind).queue = s.queue := by simp [State.integrity]

@[simp] theorem State.setToHost_queue (f : Nat) : (s.setToHost f bits).queue = s.queue := by simp [State.setToHost]
@[simp] theorem State.setToDev_queue (f : Nat) : (s.setToDev f bits).queue = s.queue := by simp [State.setToDev]
@[simp] theorem State.dbgDone_queue (result : BitVec 4) : (s.dbgDone result).queue = s.queue := by simp [State.dbgDone]

end

/-! ### Invocations, exceptions and restarts (R144, R155-R165) -/

section
variable (s : State) {w t addr code : Nat} {status : BitVec 16} {result g1 g2 g3 : BitVec 64} {kind : BitVec 2}
    {runStatus : BitVec 8}

@[simp] theorem State.orphanMoves_queue : (s.orphanMoves w t).queue = s.queue := by simp [State.orphanMoves]
@[simp] theorem State.detachOps_queue : (s.detachOps w t).queue = s.queue := by simp [State.detachOps]

@[simp] theorem State.finishCmd_queue (ld ring idx : Nat) (status : BitVec 8) :
    (s.finishCmd ld ring idx status result).queue = s.queue := by simp [State.finishCmd]

@[simp] theorem State.endInvocation_queue : (s.endInvocation w t kind status runStatus result).queue = s.queue := by
  unfold State.endInvocation
  dsimp only
  split <;> simp

@[simp] theorem State.initRegs_queue : (s.initRegs w t g1 g2 g3).queue = s.queue := by simp [State.initRegs]

@[simp] theorem State.startThread_queue (n : Nat) (p : Program) (winBase winSize : Nat) (run : Option
    (Nat × Nat × Nat)) :
    (s.startThread w t n p winBase winSize g1 g2 g3 run).queue = s.queue := by simp [State.startThread]

@[simp] theorem State.startBase_queue : (s.startBase w).queue = s.queue := by
  unfold State.startBase
  split <;> simp

@[simp] theorem State.rewriteStore_queue (s : State) (w : Nat) : (s.rewriteStore w).queue = s.queue := by
  unfold State.rewriteStore
  rw [foldl_queue fun v np => ?_]
  · simp
  · dsimp only
    (repeat' split) <;> simp

@[simp] theorem State.abortUnservable_queue : s.abortUnservable.queue = s.queue := by simp [State.abortUnservable]
@[simp] theorem State.endThreads_queue : (s.endThreads w).queue = s.queue := by simp [State.endThreads]
@[simp] theorem State.restartWf_queue : (s.restartWf w).queue = s.queue := by simp [State.restartWf]
@[simp] theorem State.wfUe_queue : (s.wfUe w addr).queue = s.queue := by simp [State.wfUe]

@[simp] theorem State.endWhenMoved_queue :
    (s.endWhenMoved w t kind status runStatus result).queue = s.queue := by simp [State.endWhenMoved]

@[simp] theorem State.baseFails_queue : (s.baseFails code).queue = s.queue := by simp [State.baseFails]

@[simp] theorem State.takeException_queue (trap : Nat) : (s.takeException w t code trap addr).queue = s.queue := by
  unfold State.takeException
  repeat' split <;> simp

@[simp] theorem State.tryEnd_queue : (s.tryEnd w t).queue = s.queue := by
  unfold State.tryEnd
  split <;> simp

end

/-! ### The frame of every Ramer instruction (R115, R123, R142) -/

section
variable (s : State)

@[simp] theorem runBody_queue {w t : Nat} {body : State → Eff} {s : State} (h : ∀ v, (body v).Leaves v.queue) :
    (runBody w t body s).queue = s.queue := by
  unfold runBody
  dsimp only
  split
  · simp
  · split
    · simp
    · generalize hv : State.fixed _ 539 = v
      have issued : v.queue = s.queue := by simp [← hv]
      have leaves := h v
      split <;> rename_i eff <;> simp [eff] at leaves <;> simp [leaves, issued]

@[simp] theorem issue_queue {w t : Nat} {ok : Nat → Bool} {body : State → Eff} {s : State}
    (h : ∀ v, (body v).Leaves v.queue) :
    (issue w t ok body s).queue = s.queue := by
  simp [issue, h]

@[simp] theorem ramer_queue {w t : Nat} {i : Instr} {body : State → Eff} {s : State}
    (h : ∀ v, (body v).Leaves v.queue) :
    (ramer w t i body s).queue = s.queue := issue_queue h

end

/-! ### Watermarks, the allocator, regions and extents (R237-R270) -/

section
variable (s : State) {k r : Nat}

@[simp] theorem State.take_queue (use : Use) : (s.take k use).queue = s.queue := by simp [State.take]
@[simp] theorem State.watermarks_queue : s.watermarks.queue = s.queue := by simp [State.watermarks]

@[simp] theorem State.withMarks_queue (s : State) (f : State → State) : (s.withMarks f).queue = (f s).queue := by
  simp [State.withMarks]

@[simp] theorem State.release_queue : (s.release k).queue = s.queue := by simp [State.release]
@[simp] theorem State.takeMap_queue (u : Nat) : (s.takeMap u).1.queue = s.queue := by simp [State.takeMap]
@[simp] theorem State.uncache_queue (pages : Bool) : (s.uncache r pages).queue = s.queue := by simp [State.uncache]

@[simp] theorem State.setAccessed_queue (region : Bool) (pages : Page → Bool) :
    (s.setAccessed r region pages).queue = s.queue := by simp [State.setAccessed]

@[simp] theorem State.split_queue : (s.split r).queue = s.queue := by
  unfold State.split
  dsimp only
  split <;> simp

@[simp] theorem State.mixed_queue : (s.mixed r).queue = s.queue := by simp [State.mixed]

@[simp] theorem State.unsplit_queue (kind : Nat) : (s.unsplit r kind).queue = s.queue := by
  unfold State.unsplit
  dsimp only
  (repeat' split) <;> simp

@[simp] theorem State.fixRegion_queue : (s.fixRegion r).queue = s.queue := by simp [State.fixRegion]

@[simp] theorem State.putPages_queue (xs : List (Nat × Page)) :
    (s.putPages xs).queue = s.queue := by simp [State.putPages]

@[simp] theorem State.putPage_queue (p : Nat) (x : Page) : (s.putPage p x).queue = s.queue := by simp [State.putPage]

end

/-! ### Memory units, retirement and the correctable-error tables (R353-R385) -/

section
variable (s : State) {u code e f l : Nat} {inFr : Bool} {ds : List Nat}

@[simp] theorem State.rebook_queue : (s.rebook u).queue = s.queue := by simp [State.rebook]
@[simp] theorem State.redeliver_queue : (s.redeliver u).queue = s.queue := by simp [State.redeliver]
@[simp] theorem State.setUnit_queue (st : Nat) : (s.setUnit u st).queue = s.queue := by simp [State.setUnit]

@[simp] theorem State.exclude_queue (detail : Nat) :
    (s.exclude u code detail).queue = s.queue := by simp [State.exclude]

@[simp] theorem State.remap_queue (k : Nat) : (s.remap k).queue = s.queue := by
  unfold State.remap
  split <;> simp

@[simp] theorem State.retireFrame_queue (s : State) (k : Nat) : (s.retireFrame k).queue = s.queue := by
  unfold State.retireFrame
  dsimp only
  split
  · rfl
  · split
    · simp
    · simp
    · rw [foldl_queue fun v p => ?_]
      · simp
      · split <;> simp
    · simp
    · simp

@[simp] theorem State.setCe_queue (c : Ce) : (s.setCe u e c).queue = s.queue := by simp [State.setCe]
@[simp] theorem State.devHit_queue (d : Nat) : (s.devHit u d).queue = s.queue := by simp [State.devHit]
@[simp] theorem State.retireAt_queue : (s.retireAt u f).queue = s.queue := by simp [State.retireAt]
@[simp] theorem State.ceLimit_queue : (s.ceLimit u e inFr).queue = s.queue := by simp [State.ceLimit]

@[simp] theorem State.ceTable_queue : (s.ceTable u f inFr ds).queue = s.queue := by
  unfold State.ceTable
  (repeat' split) <;> simp

@[simp] theorem State.writeBack_queue : (s.writeBack u l).queue = s.queue := by simp [State.writeBack]
@[simp] theorem State.ceFound_queue : (s.ceFound u l ds).queue = s.queue := by simp [State.ceFound]

@[simp] theorem State.ueTable_queue : (s.ueTable u l).queue = s.queue := by
  unfold State.ueTable
  repeat' split <;> simp

@[simp] theorem State.ueFound_queue : (s.ueFound u l code).queue = s.queue := by simp [State.ueFound]

@[simp] theorem State.miscorrect_queue (flip : BitVec 512) :
    (s.miscorrect u l flip).queue = s.queue := by simp [State.miscorrect]

@[simp] theorem State.decodeFaults_queue (s : State) (u l : Nat) (dec : Decode) :
    (s.decodeFaults u l dec).queue = s.queue := by
  cases dec with
  | corrected ds => exact State.ceFound_queue ..
  | uncorrectable => exact State.ueFound_queue ..
  | wrong flip asClean =>
    cases asClean with
    | false => exact State.miscorrect_queue ..
    | true => rfl
  | clean => rfl
  | poisoned => rfl

@[simp] theorem State.ceDecay_queue : (s.ceDecay u).queue = s.queue := by simp [State.ceDecay]
@[simp] theorem State.ceEmpty_queue : (s.ceEmpty u).queue = s.queue := by simp [State.ceEmpty]

end

/-! ### Write queues, counters, tags and merges (R316-R338, R363-R368) -/

section
variable (s : State) {u key level idx k page span i : Nat} {data : BitVec 512} {poison : Bool} {dec : Decode}
    {mask : BitVec 64}

@[simp] theorem State.rowUse_queue (l : Nat) : (s.rowUse u l).queue = s.queue := by simp [State.rowUse]
@[simp] theorem State.issueWrite_queue (w : Wr) : (s.issueWrite u w).queue = s.queue := by simp [State.issueWrite]

@[simp] theorem State.makeRoom_queue (a : Nat) : (s.makeRoom u a).queue = s.queue := by
  unfold State.makeRoom
  dsimp only
  (repeat' split) <;> simp

@[simp] theorem State.putRaw_queue : (s.putRaw key data poison).queue = s.queue := by simp [State.putRaw]
@[simp] theorem State.clockTo_queue (m : BitVec 64) : (s.clockTo m).queue = s.queue := by simp [State.clockTo]
@[simp] theorem State.setNode_queue (n : Node) : (s.setNode level idx n).queue = s.queue := by simp [State.setNode]
@[simp] theorem State.markDirty_queue : (s.markDirty level idx).queue = s.queue := by simp [State.markDirty]
@[simp] theorem State.advance_queue (c : Nat) : (s.advance level c).queue = s.queue := by simp [State.advance]
@[simp] theorem State.leafChanged_queue : (s.leafChanged k).queue = s.queue := by simp [State.leafChanged]
@[simp] theorem State.remac_queue : (s.remac level idx).queue = s.queue := by simp [State.remac]
@[simp] theorem State.setBlock_queue (b : CBlock) : (s.setBlock k key b).queue = s.queue := by simp [State.setBlock]
@[simp] theorem State.retag_queue : (s.retag k key page span).queue = s.queue := by simp [State.retag]

@[simp] theorem State.spanFault_queue (corrected : Bool) :
    (s.spanFault k key page span corrected).queue = s.queue := by simp [State.spanFault]

@[simp] theorem State.poisonSpan_queue : (s.poisonSpan k span).queue = s.queue := by simp [State.poisonSpan]

@[simp] theorem State.sealFrame_queue (major : BitVec 64) (lines : List (BitVec 512 × Bool)) :
    (s.sealFrame k key page major lines).queue = s.queue := by simp [State.sealFrame]

@[simp] theorem State.reencrypt_queue : (s.reencrypt k key page).queue = s.queue := by simp [State.reencrypt]

@[simp] theorem State.sealMerge_queue (m : Merge) : (s.sealMerge m dec).queue = s.queue := by
  unfold State.sealMerge
  dsimp only
  (repeat' split) <;> simp

@[simp] theorem State.closeMerges_queue (sel : Merge → Bool) :
    (s.closeMerges sel).queue = s.queue := by simp [State.closeMerges]

@[simp] theorem State.closeFrame_queue : (s.closeFrame k).queue = s.queue := by simp [State.closeFrame]

@[simp] theorem State.closeOldest_queue : (s.closeOldest u).queue = s.queue := by
  unfold State.closeOldest
  repeat' split <;> simp

@[simp] theorem State.mergeWrite_queue : (s.mergeWrite k key page i data mask poison).queue = s.queue := by
  unfold State.mergeWrite
  dsimp only
  repeat' split <;> simp

@[simp] theorem State.writeLine_queue :
    (s.writeLine k key page i data mask poison dec).queue = s.queue := by simp [State.writeLine]

end

/-! ### Slots, pages, and the switch of a move (R241-R259, R286-R290) -/

section
variable (s : State) {loc cls k level key p code u : Nat} {m : Move}

@[simp] theorem State.putSlot_queue (bs : List (BitVec 8)) :
    (s.putSlot loc cls bs).queue = s.queue := by simp [State.putSlot]

@[simp] theorem State.reseal_queue : (s.reseal k).queue = s.queue := by simp [State.reseal]

@[simp] theorem State.resealChildren_queue (idx : Nat) :
    (s.resealChildren level idx).queue = s.queue := by simp [State.resealChildren]

@[simp] theorem State.setSlotCtr_queue (c : BitVec 64) :
    (s.setSlotCtr loc cls key c).queue = s.queue := by simp [State.setSlotCtr]

@[simp] theorem State.sealSlot_queue (page : Nat) (counter : BitVec 64) (crc : BitVec 32) (body : List (BitVec 8)) :
    (s.sealSlot page key loc cls level counter crc body).queue = s.queue := by simp [State.sealSlot]

@[simp] theorem State.freeSlot_queue : (s.freeSlot loc cls).queue = s.queue := by
  unfold State.freeSlot
  dsimp only
  split <;> simp

@[simp] theorem State.freeLoc_queue : (s.freeLoc loc cls).queue = s.queue := by simp [State.freeLoc]
@[simp] theorem State.dropMerges_queue : (s.dropMerges k).queue = s.queue := by simp [State.dropMerges]

@[simp] theorem State.freeStorage_queue : (s.freeStorage p).queue = s.queue := by
  unfold State.freeStorage
  repeat' split <;> simp

@[simp] theorem State.blankPage_queue : (s.blankPage p).queue = s.queue := by simp [State.blankPage]

@[simp] theorem State.losePages_queue (ps : List Nat) :
    (s.losePages ps code).queue = s.queue := by simp [State.losePages]

@[simp] theorem State.losePage_queue : (s.losePage p code).queue = s.queue := by simp [State.losePage]

theorem State.allocate_queue {s u : State} {p key : Nat} {lines : List (BitVec 512 × Bool)}
    (h : s.allocate p key lines = some u) :
    u.queue = s.queue := by
  unfold State.allocate at h
  dsimp only at h
  split at h
  · simp at h
  · split at h
    · simp at h
    · simp [← Option.some.inj h]

@[simp] theorem State.rekeyFrame_queue (lines : List (BitVec 512 × Bool)) :
    (s.rekeyFrame p key lines).queue = s.queue := by simp [State.rekeyFrame]

@[simp] theorem State.setMove_queue : (s.setMove m).queue = s.queue := by simp [State.setMove]
@[simp] theorem State.goMoving_queue : (s.goMoving p m).queue = s.queue := by simp [State.goMoving]

@[simp] theorem State.moveFails_queue : (s.moveFails p).queue = s.queue := by
  unfold State.moveFails
  split <;> simp

@[simp] theorem State.copyFrame_queue (a b : Nat) (lines : List Nat) :
    (s.copyFrame a b lines).queue = s.queue := by simp [State.copyFrame]

@[simp] theorem State.retireMark_queue : (s.retireMark p).queue = s.queue := by simp [State.retireMark]
@[simp] theorem State.unsplitMoved_queue : (s.unsplitMoved p m).queue = s.queue := by simp [State.unsplitMoved]
@[simp] theorem State.leafMoved_queue : (s.leafMoved key k).queue = s.queue := by simp [State.leafMoved]

@[simp] theorem State.retireOld_queue (retire : Bool) :
    (s.retireOld k retire).queue = s.queue := by simp [State.retireOld]

@[simp] theorem State.switchFrame_queue : (s.switchFrame p m).queue = s.queue := by simp [State.switchFrame]

theorem State.takeSlot_queue {s u : State} {k cls p loc : Nat} (h : s.takeSlot k cls p = some (u, loc)) :
    u.queue = s.queue := by
  unfold State.takeSlot at h
  (repeat' split at h) <;> simp at h
  simp [← h.1]

theorem State.placeSlot_queue {s u : State} {cls p loc : Nat} {avoid : Option Nat}
    (h : s.placeSlot cls p avoid = some (u, loc)) :
    u.queue = s.queue := by
  unfold State.placeSlot at h
  extract_lets fit at h
  split at h
  · split at h
    · exact State.takeSlot_queue h
    · simpa using State.takeSlot_queue h
  · split at h
    · split at h
      · exact State.takeSlot_queue h
      · simp at h
    · simp at h

@[simp] theorem State.switchStow_queue : (s.switchStow p loc cls).queue = s.queue := by simp [State.switchStow]

@[simp] theorem State.switchPromote_queue (bytes : List (BitVec 8)) :
    (s.switchPromote p m bytes).queue = s.queue := by simp [State.switchPromote]

@[simp] theorem State.switchRelocate_queue : (s.switchRelocate p m).queue = s.queue := by simp [State.switchRelocate]
@[simp] theorem State.stowCrc_queue : (s.stowCrc p).queue = s.queue := by simp [State.stowCrc]

@[simp] theorem State.slotIntegrity_queue (kind : Nat) :
    (s.slotIntegrity p kind).queue = s.queue := by simp [State.slotIntegrity]

@[simp] theorem State.failTargets_queue : (s.failTargets u).queue = s.queue := by simp [State.failTargets]
@[simp] theorem State.moveMaps_queue : (s.moveMaps u).queue = s.queue := by simp [State.moveMaps]
@[simp] theorem State.loseUnit_queue : (s.loseUnit u code).1.queue = s.queue := by simp [State.loseUnit]

end

/-! ### The fault collector (R414-R435) -/

section
variable (s : State) {w : WfNo} {r : Report} {i c u : Nat} {t : ThrNo} {d : Reg}

@[simp] theorem State.submitted_queue (w status : Nat) :
    (s.submitted w status).queue = s.queue := by simp [State.submitted]

@[simp] theorem ownerStore_queue {w t : Nat} {d : Reg} {f : State → Nat × State} {s : State}
    (h : ∀ v, (f v).2.queue = v.queue) :
    (ownerStore w t d f s).queue = s.queue := issue_queue fun v => by simp [h]

@[simp] theorem State.latch_queue (seq : Nat) : (s.latch r seq).queue = s.queue := by simp [State.latch]
@[simp] theorem State.dropRecord_queue : (s.dropRecord i).queue = s.queue := by simp [State.dropRecord]
@[simp] theorem State.makeRecord_queue : (s.makeRecord i r).queue = s.queue := by simp [State.makeRecord]

@[simp] theorem State.applyReport_queue : (s.applyReport r).queue = s.queue := by
  unfold State.applyReport
  dsimp only
  (repeat' split) <;> simp

@[simp] theorem execCollectorTake_queue : Answers s.queue (execCollectorTake s) := by
  unfold execCollectorTake
  (repeat' split) <;> simp

@[simp] theorem State.ackRecord_queue : (s.ackRecord i).queue = s.queue := by simp [State.ackRecord]
@[simp] theorem State.ownerBack_queue : (s.ownerBack c).queue = s.queue := by simp [State.ownerBack]
@[simp] theorem State.from_queue : (s.from_ c).queue = s.queue := by simp [State.from_]

@[simp] theorem execRecordAck_queue (c : Cand) (slot : BitVec 8) :
    Answers s.queue (execRecordAck c slot s) := by simp [execRecordAck]

@[simp] theorem State.clearLatch_queue (cls : Nat) : (s.clearLatch cls).queue = s.queue := by simp [State.clearLatch]

@[simp] theorem execLatchClear_queue (c : Cand) (cls : Fin 4) :
    Answers s.queue (execLatchClear c cls s) := by simp [execLatchClear]

@[simp] theorem execFaultStatusRead_queue : Answers s.queue (execFaultStatusRead s) := by simp [execFaultStatusRead]

@[simp] theorem execFaultRecordsRead_queue (i j : BitVec 8) :
    Answers s.queue (execFaultRecordsRead i j s) := by simp [execFaultRecordsRead]

@[simp] theorem State.resetGo_queue : (s.resetGo u).2.queue = s.queue := by
  unfold State.resetGo
  (repeat' split) <;> simp

@[simp] theorem execResetGo_queue (uid : BitVec 10) : Answers s.queue (execResetGo w t d uid s) := by simp [execResetGo]
@[simp] theorem State.unitReturns_queue : (s.unitReturns u).queue = s.queue := by simp [State.unitReturns]

@[simp] theorem execUnitResetComplete_queue (faulty : Bool) : Answers s.queue (execUnitResetComplete faulty s) := by
  unfold execUnitResetComplete
  split <;> simp

@[simp] theorem State.checkin_queue : s.checkin.queue = s.queue := by simp [State.checkin]
@[simp] theorem execCheckin_queue : Answers s.queue (execCheckin w t d s) := by simp [execCheckin]
@[simp] theorem execCheckinTimeout_queue : Answers s.queue (execCheckinTimeout s) := by simp [execCheckinTimeout]
@[simp] theorem execHeartbeatToggle_queue : Answers s.queue (execHeartbeatToggle s) := by simp [execHeartbeatToggle]

end

/-! ### Violations (R193-R196) -/

section
variable (s : State) {code resp : Nat}

@[simp] theorem State.violate_queue (h : Nat) (ld : BitVec 8) (addr : BitVec 64) (detail : Nat) :
    (s.violate h ld code resp addr detail).queue = s.queue := by simp [State.violate]

@[simp] theorem State.violateReq_queue (r : MemReq) : (s.violateReq r code resp).queue = s.queue := by
  unfold State.violateReq
  split <;> simp

end

/-! ### The snoop filter and back-invalidate snoops (R201-R231) -/

section
variable (s : State) {hs set l : Nat} {e : SfEntry} {r : MemReq} {inv : Bool} {why : Why}

@[simp] theorem State.setWay_queue (way : Nat) : (s.setWay hs set way e).queue = s.queue := by simp [State.setWay]

@[simp] theorem State.setEntry_queue : (s.setEntry l e).queue = s.queue := by
  unfold State.setEntry
  split <;> simp

@[simp] theorem State.plruReset_queue : (s.plruReset hs set).queue = s.queue := by simp [State.plruReset]

@[simp] theorem State.touch_queue : (s.touch l).queue = s.queue := by
  unfold State.touch
  split <;> simp

@[simp] theorem State.setGroup_queue (f : Fld) (g v : Nat) :
    (s.setGroup f g v).queue = s.queue := by simp [State.setGroup]

@[simp] theorem State.startDwell_queue (h : Nat) : (s.startDwell l h).queue = s.queue := by simp [State.startDwell]

@[simp] theorem State.granting_queue : (s.granting r).queue = s.queue := by
  unfold State.granting
  split <;> simp

@[simp] theorem State.handGrant_queue : (s.handGrant r).queue = s.queue := by
  unfold State.handGrant
  split <;> simp

@[simp] theorem State.sendSnoop_queue (n : Snoop) : (s.sendSnoop n).queue = s.queue := by simp [State.sendSnoop]

@[simp] theorem State.issueSnoop_queue (s : State) (h l : Nat) (inv : Bool) (why : Why) :
    ((s.issueSnoop h l inv why).getD s).queue = s.queue := by
  unfold State.issueSnoop
  dsimp only
  (repeat' split) <;> simp

@[simp] theorem State.issueAll_queue (hs : List Nat) :
    (s.issueAll hs l inv why).queue = s.queue := by simp [State.issueAll]

@[simp] theorem State.pumpInvals_queue : s.pumpInvals.queue = s.queue := by simp [State.pumpInvals]

@[simp] theorem State.invalidate_queue (ls : List Nat) :
    (s.invalidate ls why inv).queue = s.queue := by simp [State.invalidate]

@[simp] theorem State.pumpVictims_queue : (s.pumpVictims hs).queue = s.queue := by simp [State.pumpVictims]
@[simp] theorem State.dropVictim_queue : (s.dropVictim l).queue = s.queue := by simp [State.dropVictim]

@[simp] theorem State.allocEntry_queue : (s.allocEntry l e).1.queue = s.queue := by
  unfold State.allocEntry
  dsimp only
  (repeat' split) <;> simp

end

/-! ### Answers, heat, and what a request meets at its page (R184, R185, R218, R251-R254) -/

section
variable (s : State) {r : MemReq} {poison : Bool} {level p u k : Nat}

@[simp] theorem State.respond_queue (data : Option (BitVec 512)) : (s.respond r data poison level).queue = s.queue := by
  unfold State.respond
  split <;> simp

@[simp] theorem State.sendPoison_queue : (s.sendPoison r).queue = s.queue := by
  unfold State.sendPoison
  split <;> simp

@[simp] theorem State.answerPoison_queue : (s.answerPoison r).queue = s.queue := by
  unfold State.answerPoison
  split <;> simp

@[simp] theorem State.refuse_queue : (s.refuse r).queue = s.queue := by
  unfold State.refuse
  repeat' split <;> simp

@[simp] theorem State.answerLost_queue : (s.answerLost r).queue = s.queue := by simp [State.answerLost]

@[simp] theorem State.wrote_queue : (s.wrote r level).queue = s.queue := by
  unfold State.wrote
  split <;> simp

@[simp] theorem State.answerData_queue (data : BitVec 512) : (s.answerData r data poison level).queue = s.queue := by
  unfold State.answerData
  split <;> simp

@[simp] theorem State.heatSample_queue : (s.heatSample p).queue = s.queue := by
  unfold State.heatSample
  dsimp only
  repeat' split <;> simp

@[simp] theorem State.heat_queue : (s.heat p).queue = s.queue := by simp [State.heat]
@[simp] theorem State.markAccessed_queue : (s.markAccessed p).queue = s.queue := by simp [State.markAccessed]

@[simp] theorem State.capacityLoss_queue : (s.capacityLoss p).queue = s.queue := by
  unfold State.capacityLoss
  dsimp only
  split <;> simp

@[simp] theorem State.counterLookup_queue (key : Nat) :
    (s.counterLookup u key r).queue = s.queue := by simp [State.counterLookup]

@[simp] theorem State.placeLookup_queue : (s.placeLookup r).queue = s.queue := by simp [State.placeLookup]
@[simp] theorem State.readLine_queue : (s.readLine r k).queue = s.queue := by simp [State.readLine]
@[simp] theorem State.debugReady_queue : s.debugReady.queue = s.queue := by simp [State.debugReady]

@[simp] theorem State.promote_queue (buffer : Bool) : (s.promote p buffer r).queue = s.queue := by
  unfold State.promote
  dsimp only
  split <;> simp

@[simp] theorem State.park_queue : (s.park r).queue = s.queue := by simp [State.park]

@[simp] theorem State.holdReq_queue : (s.holdReq p r).queue = s.queue := by
  unfold State.holdReq
  split <;> simp

@[simp] theorem State.writeFrame_queue : (s.writeFrame r k).queue = s.queue := by simp [State.writeFrame]

@[simp] theorem State.firstWrite_queue (s : State) (r : MemReq) (adopt : Bool) :
    (s.firstWrite r adopt).queue = s.queue := by
  unfold State.firstWrite
  dsimp only
  split
  · rename_i h
    simp [State.allocate_queue h]
  · simp

@[simp] theorem State.accessStowed_queue : (s.accessStowed r).queue = s.queue := by simp [State.accessStowed]

@[simp] theorem State.access.frameAccess_queue (x : Page) (same w adopt : Bool) :
    (State.access.frameAccess s r x same w adopt).queue = s.queue := by simp [State.access.frameAccess]

@[simp] theorem State.access_queue (s : State) (r : MemReq) : (s.access r).queue = s.queue := by
  unfold State.access
  extract_lets p x host s1 touches s2 r' x' same w adopt s3
  split
  · simp
  · split
    · rfl
    · split
      · simp
      · split
        · simp
        ·
          have h1 : s1.queue = s.queue := by simp [s1]
          have h2 : s2.queue = s.queue := by simp [s2, h1]
          split
          · simp [h2]
          · simp [h2]
          · simp [h2]
          · simp [h2]
          · simp [h2, s3]
          · split
            · simp [h2]
            · split
              · simp [h2]
              · split
                · simp [h2]
                · split
                  · simp [h2]
                  · split
                    · simp [h2]
                    · simp [h2]

@[simp] theorem State.accessAll_queue (rs : List MemReq) : (s.accessAll rs).queue = s.queue := by simp [State.accessAll]
@[simp] theorem State.unpark_queue : s.unpark.queue = s.queue := by simp [State.unpark]
@[simp] theorem State.replayUnit_queue : (s.replayUnit u).queue = s.queue := by simp [State.replayUnit]
@[simp] theorem State.dropUnit_queue (code : Nat) : (s.dropUnit u code).1.queue = s.queue := by simp [State.dropUnit]

end

/-! ### Ordering at the home slices (R203-R227) -/

section
variable (s : State) {l h detail g : Nat} {r : MemReq} {shared : Bool}

@[simp] theorem State.putEntry_queue (e : SfEntry) : (s.putEntry l e).1.queue = s.queue := by
  unfold State.putEntry
  split <;> simp

@[simp] theorem State.grantEntry_queue : (s.grantEntry r).1.queue = s.queue := by
  unfold State.grantEntry
  dsimp only
  (repeat' split) <;> simp

@[simp] theorem State.lookup_queue : (s.lookup l).queue = s.queue := by simp [State.lookup]

@[simp] theorem State.serve_queue : (s.serve r).1.queue = s.queue := by
  unfold State.serve
  dsimp only
  (repeat' split) <;> simp

@[simp] theorem State.setTrack_queue (q : List MemReq) : (s.setTrack l q).queue = s.queue := by simp [State.setTrack]

@[simp] theorem State.runTracker_queue (n : Nat) (s : State) (l : Nat) : (State.runTracker n s l).queue = s.queue := by
  induction n generalizing s with
  | zero => rfl
  | succ n ih =>
    unfold State.runTracker
    split
    · rfl
    · dsimp only
      split
      · simp [ih]
      · split
        · simp [ih]
        · simp

@[simp] theorem State.tidy_queue : (s.tidy l).queue = s.queue := by simp [State.tidy]

@[simp] theorem State.finishLine_queue : (s.finishLine l).queue = s.queue := by
  unfold State.finishLine
  dsimp only
  repeat' split <;> simp

@[simp] theorem State.pump_queue : s.pump.queue = s.queue := by simp [State.pump]
@[simp] theorem State.order_queue : (s.order r).queue = s.queue := by simp [State.order]
@[simp] theorem State.dropSnoop_queue : (s.dropSnoop h l).queue = s.queue := by simp [State.dropSnoop]

@[simp] theorem State.unmatched_queue (addr : BitVec 64) :
    (s.unmatched h l addr detail).queue = s.queue := by simp [State.unmatched]

@[simp] theorem State.respondSnoop_queue : (s.respondSnoop h l shared).queue = s.queue := by simp [State.respondSnoop]

@[simp] theorem State.biRsp_queue (odd : Bool) : (s.biRsp h l shared odd detail).queue = s.queue := by
  unfold State.biRsp
  split <;> simp

@[simp] theorem State.pumpAcks_queue : s.pumpAcks.queue = s.queue := by simp [State.pumpAcks]

@[simp] theorem State.biConflict_queue (hpa : BitVec 64) : (s.biConflict h l hpa detail).queue = s.queue := by
  unfold State.biConflict
  split <;> simp

@[simp] theorem State.dropSnoops_queue : (s.dropSnoops g h).queue = s.queue := by simp [State.dropSnoops]
@[simp] theorem State.reclaim_queue : (s.reclaim g h).queue = s.queue := by simp [State.reclaim]

@[simp] theorem State.setGroupState_queue (v : Nat) :
    (s.setGroupState g v).queue = s.queue := by simp [State.setGroupState]

@[simp] theorem State.closeRoad_queue : (s.closeRoad g h).queue = s.queue := by simp [State.closeRoad]

@[simp] theorem State.snoopTimeout_queue : (s.snoopTimeout h l).queue = s.queue := by
  unfold State.snoopTimeout
  dsimp only
  split <;> simp

@[simp] theorem State.poisonLine_queue (ld : Nat) : (s.poisonLine l ld).queue = s.queue := by simp [State.poisonLine]

@[simp] theorem State.walkOver_queue (w : Walk) (ls : List Nat) :
    (s.walkOver w ls).queue = s.queue := by simp [State.walkOver]

@[simp] theorem State.endWalks_queue (s : State) : (s.endWalks).queue = s.queue := by
  unfold State.endWalks
  refine foldl_queue fun v w => ?_
  split <;> simp

@[simp] theorem State.walkEnd_queue (win : Nat) : (s.walkEnd h win).queue = s.queue := by
  unfold State.walkEnd
  split <;> simp

@[simp] theorem State.reopen_queue : (s.reopen g).queue = s.queue := by simp [State.reopen]

end

/-! ### Extents of dynamic capacity (R265-R273) -/

section
variable (s : State) {e : Nat} {h : HeadNo} {w : WfNo} {t : ThrNo} {d : Reg}

@[simp] theorem State.headMask_queue (f : Fld) (h : Nat) (v : Bool) :
    (s.headMask f e h v).queue = s.queue := by simp [State.headMask]

@[simp] theorem State.unserve_queue (rs : List MemReq) : (s.unserve rs).queue = s.queue := by simp [State.unserve]
@[simp] theorem State.blankExtent_queue : (s.blankExtent e).queue = s.queue := by simp [State.blankExtent]
@[simp] theorem State.extFree_queue : (s.extFree e).queue = s.queue := by simp [State.extFree]
@[simp] theorem State.extEval_queue : (s.extEval e).queue = s.queue := by simp [State.extEval]
@[simp] theorem State.extEvalAll_queue : s.extEvalAll.queue = s.queue := by simp [State.extEvalAll]
@[simp] theorem State.extRecall_queue : (s.extRecall e).queue = s.queue := by simp [State.extRecall]
@[simp] theorem State.extOffer_queue : (s.extOffer e).queue = s.queue := by simp [State.extOffer]
@[simp] theorem execOffer_queue (e : BitVec 14) : Answers s.queue (execOffer w t d e s) := by simp [execOffer]
@[simp] theorem execRecall_queue (e : BitVec 14) : Answers s.queue (execRecall w t d e s) := by simp [execRecall]

@[simp] theorem execExtentAccept_queue (e : BitVec 14) :
    Answers s.queue (execExtentAccept h e s) := by simp [execExtentAccept]

@[simp] theorem execExtentRelease_queue (e : BitVec 14) :
    Answers s.queue (execExtentRelease h e s) := by simp [execExtentRelease]

@[simp] theorem State.autoRelease_queue : s.autoRelease.queue = s.queue := by simp [State.autoRelease]

end

/-! ### Page operations and range jobs (R136, R137, R254-R264) -/

section
variable (s : State) {p status id target r t w : Nat} {is : List Nat} {j : Job}

@[simp] theorem State.readStowed_queue : (s.readStowed p).1.queue = s.queue := by
  unfold State.readStowed
  repeat' split <;> simp

@[simp] theorem State.readFrame_queue : (s.readFrame p is).1.queue = s.queue := by simp [State.readFrame]

@[simp] theorem State.readLines_queue : (s.readLines p is).1.queue = s.queue := by
  unfold State.readLines
  dsimp only
  repeat' split <;> simp

@[simp] theorem State.writeLines_queue (s : State) (p key : Nat) (ls : List (Nat × BitVec 512)) :
    (s.writeLines p key ls).1.queue = s.queue := by
  unfold State.writeLines
  dsimp only
  split
  · split
    · rename_i h
      simp [State.allocate_queue h]
    · rfl
  · simp
    split <;> simp

@[simp] theorem State.stallDone_queue : (s.stallDone p status).queue = s.queue := by simp [State.stallDone]
@[simp] theorem State.pageDone_queue : (s.pageDone p status).queue = s.queue := by simp [State.pageDone]
@[simp] theorem State.decodeTwice_queue : (s.decodeTwice p).queue = s.queue := by simp [State.decodeTwice]
@[simp] theorem State.moverRetry_queue : (s.moverRetry p).queue = s.queue := by simp [State.moverRetry]
@[simp] theorem State.setBusy_queue : (s.setBusy id p).queue = s.queue := by simp [State.setBusy]

@[simp] theorem State.startMove_queue (us : List Nat) : (s.startMove id p us).state.queue = s.queue := by
  unfold State.startMove
  dsimp only
  (repeat' split) <;> simp

@[simp] theorem State.queuePromo_queue : (s.queuePromo p target).queue = s.queue := by simp [State.queuePromo]
@[simp] theorem State.startPromo_queue : (s.startPromo id p target).state.queue = s.queue := by simp [State.startPromo]

@[simp] theorem State.startRelocate_queue (s : State) (id p : Nat) (c : Option Nat) :
    (s.startRelocate id p c).state.queue = s.queue := by
  unfold State.startRelocate
  extract_lets x place
  have placed {v : State} {loc : Nat} (h : place = some (v, loc)) : v.queue = s.queue := by
    unfold place at h
    split at h
    · exact State.placeSlot_queue h
    · split at h
      · split at h
        · exact State.takeSlot_queue h
        · simp at h
      · split at h
        · simp at h
        · simpa using State.takeSlot_queue h
  split
  · simp
  · cases h : place with
    | none => rfl
    | some found => simp [placed h]

@[simp] theorem State.takeRun_queue : (s.takeRun r t).queue = s.queue := by
  unfold State.takeRun
  dsimp only
  (repeat' split) <;> simp

@[simp] theorem State.dropRun_queue : (s.dropRun r).queue = s.queue := by simp [State.dropRun]

@[simp] theorem State.tierPage_queue : (s.tierPage j p).state.queue = s.queue := by
  unfold State.tierPage
  dsimp only
  split <;> simp

@[simp] theorem State.copyPage_queue (s : State) (j : Job) (p : Nat) (addr : Nat → Option Nat) :
    (s.copyPage j p addr).state.queue = s.queue := by
  unfold State.copyPage
  extract_lets x lo n src dst dl dps wr b r zipped res
  have read : r.1.queue = s.queue := by simp [r]
  have written : res.1.queue = s.queue := by simp [res, read]
  split
  · rfl
  · split
    · rfl
    · split
      · rfl
      · split
        · rfl
        · split
          · rfl
          · split
            · simp
            · simp [read, written]

@[simp] theorem State.zeroPage_queue : (s.zeroPage j p).state.queue = s.queue := by
  unfold State.zeroPage
  repeat' split <;> simp

@[simp] theorem State.rekeyPage_queue : (s.rekeyPage j p).state.queue = s.queue := by
  unfold State.rekeyPage
  repeat' split <;> simp

@[simp] theorem State.stowPage_queue : (s.stowPage j p).state.queue = s.queue := by
  unfold State.stowPage
  split <;> simp

@[simp] theorem State.unstowPage_queue : (s.unstowPage j p).state.queue = s.queue := by
  unfold State.unstowPage
  split <;> simp

@[simp] theorem State.pinPage_queue : (s.pinPage j p).state.queue = s.queue := by
  unfold State.pinPage
  repeat' split <;> simp

@[simp] theorem State.unpinPage_queue : (s.unpinPage p).state.queue = s.queue := by
  unfold State.unpinPage
  dsimp only
  split <;> simp

@[simp] theorem State.jobPage_queue : (s.jobPage j).state.queue = s.queue := by
  unfold State.jobPage
  repeat' split <;> simp

@[simp] theorem State.setJob_queue : (s.setJob j).queue = s.queue := by simp [State.setJob]
@[simp] theorem State.dropJob_queue : (s.dropJob id).queue = s.queue := by simp [State.dropJob]

@[simp] theorem State.moveRaises_queue (pc : Nat) : (s.moveRaises w t pc).queue = s.queue := by
  unfold State.moveRaises
  dsimp only
  split <;> simp

@[simp] theorem State.endJob_queue : (s.endJob j status).queue = s.queue := by
  unfold State.endJob
  dsimp only
  repeat' split <;> simp

@[simp] theorem State.jobAdvance_queue : (s.jobAdvance j).queue = s.queue := by simp [State.jobAdvance]

@[simp] theorem State.jobFail_queue : (s.jobFail j status).queue = s.queue := by
  unfold State.jobFail
  split <;> simp

@[simp] theorem State.runJob_queue (n : Nat) (s : State) (id : Nat) : (State.runJob n s id).queue = s.queue := by
  induction n generalizing s with
  | zero => rfl
  | succ n ih =>
    unfold State.runJob
    split
    · rfl
    · rename_i j _
      split
      · rfl
      · split
        · simp [ih]
        · simp [ih]
        · have page : (s.jobPage j).state.queue = s.queue := by simp
          split
          · rfl
          · split <;> rename_i h <;> simp [h] at page <;> simp [ih, page]

@[simp] theorem State.runJobs_queue : s.runJobs.queue = s.queue := by simp [State.runJobs]

@[simp] theorem State.binvDone_queue : (s.binvDone w t).queue = s.queue := by
  unfold State.binvDone
  dsimp only
  split <;> simp

@[simp] theorem State.drainCheck_queue (s : State) : (s.drainCheck).queue = s.queue := by
  unfold State.drainCheck
  dsimp only
  split
  · rfl
  · refine foldl_queue fun v b => ?_
    split <;> simp

@[simp] theorem State.dropBlocks_queue : s.dropBlocks.queue = s.queue := by simp [State.dropBlocks]
@[simp] theorem State.settle_queue : s.settle.queue = s.queue := by simp [State.settle]
@[simp] theorem State.startJob_queue : (s.startJob j).queue = s.queue := by simp [State.startJob]

end

/-! ### Movers, coders and decoders (R252-R258, R293-R299) -/

section
variable (s : State) {m : Move} {p : BitVec 34} {d : Nat} {engineFault : Bool}

@[simp] theorem execMoveDone_queue (w : WfNo) (t : ThrNo) (desc : BitVec 18) :
    Answers s.queue (execMoveDone w t desc s) := by
  unfold execMoveDone
  split <;> simp

@[simp] theorem State.redone_queue : (s.redone m).queue = s.queue := by simp [State.redone]
@[simp] theorem State.moverFails_queue : (s.moverFails m).queue = s.queue := by simp [State.moverFails]

@[simp] theorem State.badTarget_queue (s : State) (m : Move) : (s.badTarget m).queue = s.queue := by
  unfold State.badTarget
  dsimp only
  split
  · simp
  · split
    · split
      · simp
      · rename_i h
        simp [State.placeSlot_queue h]
    · split <;> simp

@[simp] theorem State.moverStops_queue (mv : Nat) : (s.moverStops mv).queue = s.queue := by simp [State.moverStops]

@[simp] theorem execPageMoveCopyPassEnd_queue (ev : CopyEvent) : Answers s.queue (execPageMoveCopyPassEnd p ev s) := by
  unfold execPageMoveCopyPassEnd
  split <;> simp

@[simp] theorem execPageMoveSwitch_queue : Answers s.queue (execPageMoveSwitch p s) := by
  unfold execPageMoveSwitch
  split <;> simp

@[simp] theorem execSlotRelocation_queue (loc : BitVec 36) : Answers s.queue (execSlotRelocation loc s) := by
  unfold execSlotRelocation
  dsimp only
  (repeat' split) <;> simp

@[simp] theorem State.dropStow_queue (p : Nat) : (s.dropStow p).queue = s.queue := by simp [State.dropStow]

@[simp] theorem execCoderAssign_queue : Answers s.queue (execCoderAssign s) := by
  unfold execCoderAssign
  dsimp only
  (repeat' split) <;> simp

@[simp] theorem State.stowEnds_queue (p status : Nat) :
    (s.stowEnds p status).queue = s.queue := by simp [State.stowEnds]

@[simp] theorem State.slotFor_queue (fails : Nat) (s : State) (cls p : Nat) (avoid : Option Nat) :
    (State.slotFor fails s cls p avoid).1.queue = s.queue := by
  induction fails generalizing s avoid with
  | zero =>
    unfold State.slotFor
    split
    · rfl
    · rename_i h
      exact State.placeSlot_queue h
  | succ n ih =>
    unfold State.slotFor
    split
    · rfl
    · rename_i h
      dsimp only
      split
      · simp [State.placeSlot_queue h]
      · simp [ih, State.placeSlot_queue h]

@[simp] theorem State.stowCode_queue (s : State) (c : Nat) (q : Queued) (p fails : Nat) (m : Move) :
    (s.stowCode c q p fails m).queue = s.queue := by
  unfold State.stowCode
  extract_lets x k at_ r s1 bytes pay
  have read : r.1.queue = s.queue := by simp [r]
  split
  · simp [read]
  · split
    · simp [s1, read]
    · rename_i cls _
      split
      · simp [s1, read]
      · have found := State.slotFor_queue fails s1 cls p none
        split <;> rename_i h <;> simp [h] at found <;> simp [found, s1, read]

@[simp] theorem execStowComplete_queue (ev : StowEvent) : Answers s.queue (execStowComplete p ev s) := by
  unfold execStowComplete
  dsimp only
  (repeat' split) <;> simp

@[simp] theorem State.dropPromo_queue (q : Queued) : (s.dropPromo q).queue = s.queue := by simp [State.dropPromo]

@[simp] theorem execDecoderGrant_queue : Answers s.queue (execDecoderGrant s) := by
  unfold execDecoderGrant
  dsimp only
  (repeat' split) <;> simp

@[simp] theorem State.decoderFails_queue : (s.decoderFails d).queue = s.queue := by simp [State.decoderFails]
@[simp] theorem State.refuseAll_queue (rs : List MemReq) : (s.refuseAll rs).queue = s.queue := by simp [State.refuseAll]
@[simp] theorem State.decoded_queue : (s.decoded d).queue = s.queue := by simp [State.decoded]

@[simp] theorem execPromotionComplete_queue : Answers s.queue (execPromotionComplete p engineFault s) := by
  unfold execPromotionComplete
  dsimp only
  (repeat' split) <;> simp

@[simp] theorem execPromotionBufferRead_queue : Answers s.queue (execPromotionBufferRead p engineFault s) := by
  unfold execPromotionBufferRead
  dsimp only
  (repeat' split) <;> simp

@[simp] theorem execHeatDecay_queue : Answers s.queue (execHeatDecay s) := by simp [execHeatDecay]

end

/-! ### Events, suspension and fences (R129-R133, R141) -/

section
variable (s : State) {w : WfNo} {t : ThrNo} {d a b : Reg} {expired : Bool} {i : Instr}

@[simp] theorem State.takeEvents_queue (w t : Nat) (mask : BitVec 32) :
    (s.takeEvents w t mask).2.queue = s.queue := by simp [State.takeEvents]

@[simp] theorem execWait_queue : Answers s.queue (execWait w t d a b s) := by simp [execWait]
@[simp] theorem execSleep_queue : Answers s.queue (execSleep w t a s) := by simp [execSleep]
@[simp] theorem State.wake_queue (w t : Nat) : (s.wake w t).queue = s.queue := by simp [State.wake]

@[simp] theorem State.resume_queue (w t : Nat) : (s.resume w t expired).queue = s.queue := by
  unfold State.resume
  dsimp only
  repeat' split <;> simp

@[simp] theorem execThreadResume_queue : Answers s.queue (execThreadResume w t expired s) := by simp [execThreadResume]

@[simp] theorem execStepBudgetExpiry_queue :
    Answers s.queue (execStepBudgetExpiry w t s) := by simp [execStepBudgetExpiry]

@[simp] theorem State.post_queue (w t : Nat) (sel v : BitVec 64) :
    (s.post w t d sel v).queue = s.queue := by simp [State.post]

@[simp] theorem postBody_queue : (postBody w t i d a b s).queue = s.queue := by
  unfold postBody
  refine ramer_queue fun v => ?_
  (repeat' split) <;> simp

@[simp] theorem execPostThread_queue : Answers s.queue (execPostThread w t d a b s) := by simp [execPostThread]
@[simp] theorem execPostMailbox_queue : Answers s.queue (execPostMailbox w t d a b s) := by simp [execPostMailbox]
@[simp] theorem execPostDoorbell_queue : Answers s.queue (execPostDoorbell w t d a b s) := by simp [execPostDoorbell]

@[simp] theorem execMbrd_queue : Answers s.queue (execMbrd w t d a s) := by
  unfold execMbrd
  rw [answers_next]
  refine ramer_queue fun v => ?_
  dsimp only
  (repeat' split) <;> simp

@[simp] theorem execMback_queue : Answers s.queue (execMback w t d a s) := by
  unfold execMback
  rw [answers_next]
  refine ramer_queue fun v => ?_
  dsimp only
  (repeat' split) <;> simp

@[simp] theorem State.bellTake_queue (f : Nat) (bits : BitVec 16) :
    (s.bellTake f bits).queue = s.queue := by simp [State.bellTake]

@[simp] theorem execDbtake_queue : Answers s.queue (execDbtake w t d a b s) := by
  unfold execDbtake
  rw [answers_next]
  refine ramer_queue fun v => ?_
  dsimp only
  (repeat' split) <;> simp

@[simp] theorem execTime_queue : Answers s.queue (execTime w t d s) := by simp [execTime]
@[simp] theorem fence_queue (scr tab mv : Bool) : (fence w t i scr tab mv s).queue = s.queue := by simp [fence]
@[simp] theorem execFenceS_queue : Answers s.queue (execFenceS w t s) := by simp [execFenceS]
@[simp] theorem execFenceT_queue : Answers s.queue (execFenceT w t s) := by simp [execFenceT]
@[simp] theorem execFenceD_queue : Answers s.queue (execFenceD w t s) := by simp [execFenceD]
@[simp] theorem execFenceA_queue : Answers s.queue (execFenceA w t s) := by simp [execFenceA]
@[simp] theorem execHalt_queue : Answers s.queue (execHalt w t a s) := by simp [execHalt]

end

/-! ### The election, mailboxes and doorbells of hosts, field service access (R79-R110) -/

section
variable (s : State) {c : Cand} {word v : BitVec 32} {f m : Nat} {p : Tlp} {method : BitVec 2} {w : WfNo} {t : ThrNo}

@[simp] theorem State.ownerReply_queue (c : Nat) : (s.ownerReply c).queue = s.queue := by simp [State.ownerReply]

@[simp] theorem State.claimBy_queue (c : Nat) : (s.claimBy c word).queue = s.queue := by
  unfold State.claimBy
  dsimp only
  split <;> simp

@[simp] theorem State.ownerOp_queue {s : State} {c : Nat} {f : State → State} (h : ∀ v, (f v).queue = v.queue) :
    (s.ownerOp c f).queue = s.queue := by
  simp [State.ownerOp, h]

@[simp] theorem execClaim_queue : Answers s.queue (execClaim c word s) := by simp [execClaim]
@[simp] theorem execStatus_queue : Answers s.queue (execStatus c s) := by simp [execStatus]

@[simp] theorem State.handoverBy_queue (c successor : Nat) :
    (s.handoverBy c successor).queue = s.queue := by simp [State.handoverBy]

@[simp] theorem execHandover_queue (successor : BitVec 6) :
    Answers s.queue (execHandover c successor s) := by simp [execHandover]

@[simp] theorem State.handoverEnds_queue : s.handoverEnds.queue = s.queue := by simp [State.handoverEnds]
@[simp] theorem State.cancelBy_queue (c : Nat) : (s.cancelBy c).queue = s.queue := by simp [State.cancelBy]
@[simp] theorem execHandoverCancel_queue : Answers s.queue (execHandoverCancel c s) := by simp [execHandoverCancel]
@[simp] theorem State.releaseBy_queue (c : Nat) : (s.releaseBy c).queue = s.queue := by simp [State.releaseBy]
@[simp] theorem execRelease_queue : Answers s.queue (execRelease c s) := by simp [execRelease]

@[simp] theorem execHandoverTimerExpiry_queue :
    Answers s.queue (execHandoverTimerExpiry s) := by simp [execHandoverTimerExpiry]

@[simp] theorem execLapseTimerExpiry_queue : Answers s.queue (execLapseTimerExpiry s) := by simp [execLapseTimerExpiry]
@[simp] theorem State.funcBack_queue (l : Nat) : (s.funcBack l).queue = s.queue := by simp [State.funcBack]
@[simp] theorem State.bmcReset_queue : s.bmcReset.queue = s.queue := by simp [State.bmcReset]
@[simp] theorem execBmcSclLowTimeout_queue : Answers s.queue (execBmcSclLowTimeout s) := by simp [execBmcSclLowTimeout]
@[simp] theorem execI3cTargetReset_queue : Answers s.queue (execI3cTargetReset s) := by simp [execI3cTargetReset]

@[simp] theorem State.ioViolate_queue (code resp : Nat) :
    (s.ioViolate f code resp p).queue = s.queue := by simp [State.ioViolate]

@[simp] theorem State.hostPosts_queue (v : BitVec 64) :
    (s.hostPosts f m v p).queue = s.queue := by simp [State.hostPosts]

@[simp] theorem execMailboxSend_queue (f : Func) (m : BitVec 4) (v : MailWord) :
    Answers s.queue (execMailboxSend f m v s) := by simp [execMailboxSend]

@[simp] theorem State.hostAcks_queue : (s.hostAcks f m).queue = s.queue := by simp [State.hostAcks]

@[simp] theorem execMailboxAck_queue (f : Func) (m : BitVec 4) :
    Answers s.queue (execMailboxAck f m s) := by simp [execMailboxAck]

@[simp] theorem execDbSet_queue (f : Func) : Answers s.queue (execDbSet f v s) := by simp [execDbSet]
@[simp] theorem State.bellClear_queue (m : BitVec 16) : (s.bellClear f m).queue = s.queue := by simp [State.bellClear]

@[simp] theorem execDbStatusClear_queue (f : Func) :
    Answers s.queue (execDbStatusClear f v s) := by simp [execDbStatusClear]

@[simp] theorem State.bellMask_queue (m : BitVec 16) : (s.bellMask f m).queue = s.queue := by simp [State.bellMask]
@[simp] theorem execDbMaskWrite_queue (f : Func) : Answers s.queue (execDbMaskWrite f v s) := by simp [execDbMaskWrite]
@[simp] theorem State.dbgRelease_queue : s.dbgRelease.queue = s.queue := by simp [State.dbgRelease]
@[simp] theorem State.relock_queue : s.relock.queue = s.queue := by simp [State.relock]
@[simp] theorem State.saNew_queue : s.saNew.queue = s.queue := by simp [State.saNew]
@[simp] theorem execSaNew_queue : Answers s.queue (execSaNew c s) := by simp [execSaNew]
@[simp] theorem State.saCheck_queue : (s.saCheck method).queue = s.queue := by simp [State.saCheck]
@[simp] theorem execSaSubmit_queue : Answers s.queue (execSaSubmit c method s) := by simp [execSaSubmit]
@[simp] theorem execSaLock_queue : Answers s.queue (execSaLock c s) := by simp [execSaLock]
@[simp] theorem State.dbgGo_queue : s.dbgGo.queue = s.queue := by simp [State.dbgGo]
@[simp] theorem execSaDbgGo_queue : Answers s.queue (execSaDbgGo c s) := by simp [execSaDbgGo]
@[simp] theorem execDebugHalt_queue : Answers s.queue (execDebugHalt w t s) := by simp [execDebugHalt]
@[simp] theorem execDebugResume_queue : Answers s.queue (execDebugResume w t s) := by simp [execDebugResume]
@[simp] theorem execDebugSingleStep_queue : Answers s.queue (execDebugSingleStep w t s) := by simp [execDebugSingleStep]

@[simp] theorem execTestAccessPortInstruction_queue (p : TapDrive) :
    Answers s.queue (execTestAccessPortInstruction p s) := by
  unfold execTestAccessPortInstruction
  (repeat' split) <;> simp

end

/-! ### Links, resets and HDM decoders (R83, R102, R172-R199) -/

section
variable (s : State) {idx ld f : Nat} {h : HeadNo} {v : Bool} {l : LinkNo} {width : BitVec 5} {snd : Sender}

@[simp] theorem State.commitBits_queue (tbl word : Nat) (bits : BitVec 64) :
    (s.commitBits tbl idx word bits).queue = s.queue := by simp [State.commitBits]

@[simp] theorem State.commitFlds_queue (fs : List Fld) :
    (s.commitFlds idx fs).queue = s.queue := by simp [State.commitFlds]

@[simp] theorem State.commitL_queue (h : Nat) : (s.commitL h).queue = s.queue := by simp [State.commitL]
@[simp] theorem State.commitL0p_queue (h : Nat) : (s.commitL0p h).queue = s.queue := by simp [State.commitL0p]
@[simp] theorem State.stopJob_queue (j : Job) : (s.stopJob j).queue = s.queue := by simp [State.stopJob]
@[simp] theorem State.stopRings_queue : (s.stopRings ld).queue = s.queue := by simp [State.stopRings]
@[simp] theorem State.stopTenants_queue : (s.stopTenants ld).queue = s.queue := by simp [State.stopTenants]
@[simp] theorem State.freeCtxs_queue : (s.freeCtxs ld).queue = s.queue := by simp [State.freeCtxs]
@[simp] theorem State.resetBell_queue : (s.resetBell f).queue = s.queue := by simp [State.resetBell]
@[simp] theorem State.resetLd_queue : (s.resetLd ld).queue = s.queue := by simp [State.resetLd]
@[simp] theorem State.setInReset_queue : (s.setInReset f v).queue = s.queue := by simp [State.setInReset]
@[simp] theorem State.functionReset_queue : (s.functionReset f).queue = s.queue := by simp [State.functionReset]

@[simp] theorem execFunctionLevelReset_queue (f : Func) :
    Answers s.queue (execFunctionLevelReset f s) := by simp [execFunctionLevelReset]

@[simp] theorem execLdReset_queue (ld : LdNo) : Answers s.queue (execLdReset ld s) := by simp [execLdReset]

@[simp] theorem execFunctionOutOfReset_queue (f : Func) :
    Answers s.queue (execFunctionOutOfReset f s) := by simp [execFunctionOutOfReset]

@[simp] theorem execLinkTrainingComplete_queue (rate : BitVec 4) (flit256 cxl : Bool) :
    Answers s.queue (execLinkTrainingComplete l rate width flit256 cxl s) := by simp [execLinkTrainingComplete]

@[simp] theorem execLinkDown_queue : Answers s.queue (execLinkDown l s) := by simp [execLinkDown]
@[simp] theorem State.setPerst_queue (l : Nat) : (s.setPerst l v).queue = s.queue := by simp [State.setPerst]
@[simp] theorem execHdperstNFall_queue : Answers s.queue (execHdperstNFall h s) := by simp [execHdperstNFall]
@[simp] theorem execHdperstNRise_queue : Answers s.queue (execHdperstNRise h s) := by simp [execHdperstNRise]
@[simp] theorem execMgPerstNFall_queue : Answers s.queue (execMgPerstNFall s) := by simp [execMgPerstNFall]
@[simp] theorem execMgPerstNRise_queue : Answers s.queue (execMgPerstNRise s) := by simp [execMgPerstNRise]

@[simp] theorem execHdmDecoderCommit_queue (ld : LdNo) (n : Fin 4) (dec : DecoderSet) :
    Answers s.queue (execHdmDecoderCommit ld n dec s) := by simp [execHdmDecoderCommit]

@[simp] theorem State.cfgRead_queue (r : CfgReg) : (s.cfgRead f r).queue = s.queue := by
  unfold State.cfgRead
  split <;> simp

@[simp] theorem execConfigurationRequest_queue (r : CfgReq) : Answers s.queue (execConfigurationRequest r s) := by
  unfold execConfigurationRequest
  (repeat' split) <;> simp

@[simp] theorem execIsolationInterval_queue :
    Answers s.queue (execIsolationInterval h s) := by simp [execIsolationInterval]

@[simp] theorem execIsolatedClear_queue (w : WfNo) (t : ThrNo) (d : Reg) :
    Answers s.queue (execIsolatedClear w t d h s) := by simp [execIsolatedClear]

@[simp] theorem execViolationLogRead_queue : Answers s.queue (execViolationLogRead snd h s) := by
  unfold execViolationLogRead
  (repeat' split) <;> simp

@[simp] theorem execViolationLogClear_queue :
    Answers s.queue (execViolationLogClear snd h s) := by simp [execViolationLogClear]

@[simp] theorem State.askWidth_queue (h w : Nat) : (s.askWidth h w).queue = s.queue := by simp [State.askWidth]
@[simp] theorem State.stopWidth_queue (h : Nat) : (s.stopWidth h).queue = s.queue := by simp [State.stopWidth]

@[simp] theorem execL0pSample_queue (load : BitVec 7) : Answers s.queue (execL0pSample h load s) := by
  unfold execL0pSample
  (repeat' split) <;> simp

@[simp] theorem execHostL0pRequest_queue : Answers s.queue (execHostL0pRequest h width s) := by
  unfold execHostL0pRequest
  dsimp only
  (repeat' split) <;> simp

@[simp] theorem State.expressWidth_queue (h : Nat) : (s.expressWidth h).queue = s.queue := by simp [State.expressWidth]
@[simp] theorem State.reviewWidth_queue (h : Nat) : (s.reviewWidth h).queue = s.queue := by simp [State.reviewWidth]

@[simp] theorem execL0pChangeComplete_queue : Answers s.queue (execL0pChangeComplete h s) := by
  unfold execL0pChangeComplete
  dsimp only
  (repeat' split) <;> simp

@[simp] theorem execL1Entry_queue : Answers s.queue (execL1Entry h s) := by simp [execL1Entry]
@[simp] theorem execL1Exit_queue : Answers s.queue (execL1Exit h s) := by simp [execL1Exit]

@[simp] theorem execFlowControlCreditReturn_queue (kind : CreditKind) (n : BitVec 16) :
    Answers s.queue (execFlowControlCreditReturn h kind n s) := by
  unfold execFlowControlCreditReturn
  split <;> simp

@[simp] theorem State.biRspRow_queue (h l : Nat) (shared odd : Bool) (detail : Nat) :
    (s.biRspRow h l shared odd detail).queue = s.queue := by simp [State.biRspRow]

@[simp] theorem execBiRspI_queue (r : RspI) : Answers s.queue (execBiRspI h r s) := by simp [execBiRspI]
@[simp] theorem execBiRspS_queue (r : RspS) : Answers s.queue (execBiRspS h r s) := by simp [execBiRspS]
@[simp] theorem execBiConflict_queue (r : Conflict) : Answers s.queue (execBiConflict h r s) := by simp [execBiConflict]

@[simp] theorem execReclaimWalkEnd_queue (win : BitVec 12) :
    Answers s.queue (execReclaimWalkEnd h win s) := by simp [execReclaimWalkEnd]

@[simp] theorem execDwellWindowEnd_queue (dpa : BitVec 46) :
    Answers s.queue (execDwellWindowEnd dpa s) := by simp [execDwellWindowEnd]

@[simp] theorem execVictimSnoopIssue_queue (hs : SliceNo) :
    Answers s.queue (execVictimSnoopIssue hs s) := by simp [execVictimSnoopIssue]

end

/-! ### Temperatures and the life ledger (R442-R448, R458-R460) -/

section
variable (s : State) {th : Nat}

@[simp] theorem State.roundFree_queue (num den : Nat) : (s.roundFree num den).2.queue = s.queue := by
  unfold State.roundFree
  split <;> simp

@[simp] theorem State.sensorFails_queue : (s.sensorFails th).queue = s.queue := by simp [State.sensorFails]

@[simp] theorem State.refreshRate_queue (u : Nat) (twice : Bool) :
    (s.refreshRate u twice).queue = s.queue := by simp [State.refreshRate]

@[simp] theorem State.stackRefresh_queue (st : Nat) :
    (s.stackRefresh st).queue = s.queue := by simp [State.stackRefresh]

@[simp] theorem State.hardTrip_queue : (s.hardTrip th).queue = s.queue := by simp [State.hardTrip]
@[simp] theorem State.shutdown_queue (by_ : Nat) : (s.shutdown by_).queue = s.queue := by simp [State.shutdown]

@[simp] theorem execThermalSample_queue (th : ThNo) (raw : Option (BitVec 16)) :
    Answers s.queue (execThermalSample th raw s) := by
  unfold execThermalSample
  (repeat' split) <;> simp

@[simp] theorem execHardTrip_queue (th : ThNo) : Answers s.queue (execHardTrip th s) := by simp [execHardTrip]
@[simp] theorem execShutdownGraceEnd_queue : Answers s.queue (execShutdownGraceEnd s) := by simp [execShutdownGraceEnd]

@[simp] theorem State.cutNow_queue (hot : Option Nat) : (s.cutNow hot).2.queue = s.queue := by
  unfold State.cutNow
  dsimp only
  (repeat' split) <;> simp

@[simp] theorem execThrottleUpdate_queue : Answers s.queue (execThrottleUpdate s) := by
  unfold execThrottleUpdate
  dsimp only
  (repeat' split) <;> simp

@[simp] theorem execDimmSensorRead_queue (c : ChanNo) (reading : Option (BitVec 16)) (dramHot : Bool) :
    Answers s.queue (execDimmSensorRead c reading dramHot s) := by simp [execDimmSensorRead]

@[simp] theorem State.lifeUp_queue : s.lifeUp.queue = s.queue := by simp [State.lifeUp]

@[simp] theorem execLedgerSecond_queue (util : BitVec 7) :
    Answers s.queue (execLedgerSecond util s) := by simp [execLedgerSecond]

@[simp] theorem execAgeingRead_queue (drift : BitVec 16) :
    Answers s.queue (execAgeingRead drift s) := by simp [execAgeingRead]

@[simp] theorem execLedgerWrite_queue (ok : Bool) : Answers s.queue (execLedgerWrite ok s) := by simp [execLedgerWrite]

end

/-! ### Tollgates and roundabouts (R386-R413) -/

section
variable (s : State) {g c : Nat} {r : MemReq}

@[simp] theorem State.commitTbl_queue (tbl : Nat) (ok : Nat → Bool) :
    (s.commitTbl tbl ok).queue = s.queue := by simp [State.commitTbl]

@[simp] theorem State.tollWr_queue (f : Fld) (v : Nat) : (s.tollWr f g c v).queue = s.queue := by simp [State.tollWr]

@[simp] theorem State.tollLevel_queue : s.tollLevel.2.queue = s.queue := by
  unfold State.tollLevel
  split <;> simp

@[simp] theorem State.tollClass_queue (s : State) (g f scale c : Nat) : (s.tollClass g f scale c).queue = s.queue := by
  unfold State.tollClass
  extract_lets t bytes express guar cap eff above throttled y gain t' s1 r s2 s3 s4
  have h1 : s1.queue = s.queue := by simp [s1]
  have h2 : s2.queue = s.queue := by simp [s2, r, h1]
  have h3 : s3.queue = s.queue := by
    unfold s3
    generalize gain = o
    cases o <;> simp [h2]
  have h4 : s4.queue = s.queue := by simp [s4, h3]
  simp [h4]

@[simp] theorem execTollInterval_queue : Answers s.queue (execTollInterval s) := by simp [execTollInterval]

@[simp] theorem execQueueLevelReport_queue (u : UnitNo) (level : BitVec 7) :
    Answers s.queue (execQueueLevelReport u level s) := by simp [execQueueLevelReport]

@[simp] theorem State.tollCount_queue : (s.tollCount g c).queue = s.queue := by simp [State.tollCount]

@[simp] theorem State.toSlice_queue : (s.toSlice r).queue = s.queue := by
  unfold State.toSlice
  split <;> simp

@[simp] theorem execTollgateAdmit_queue (g : TollNo) : Answers s.queue (execTollgateAdmit g s) := by
  unfold execTollgateAdmit
  dsimp only
  (repeat' split) <;> simp

@[simp] theorem State.tollArrive_queue (h : Nat) (shared : Bool) :
    (s.tollArrive h shared r).queue = s.queue := by simp [State.tollArrive]

@[simp] theorem State.refillRb_queue (r : Nat) : (s.refillRb r).queue = s.queue := by simp [State.refillRb]
@[simp] theorem execRoundaboutRefill_queue : Answers s.queue (execRoundaboutRefill s) := by simp [execRoundaboutRefill]
@[simp] theorem State.rbPass_queue (r : Nat) (q : MemReq) : (s.rbPass r q).queue = s.queue := by simp [State.rbPass]

@[simp] theorem execRoundaboutGrant_queue (r : RbNo) : Answers s.queue (execRoundaboutGrant r s) := by
  unfold execRoundaboutGrant
  dsimp only
  (repeat' split) <;> simp

end

/-! ### CXL.mem requests (R176-R187) -/

section
variable (s : State) {ld : LdNo} {mv : MetaVal} {hpa mask : BitVec 64} {tag : BitVec 16} {data : BitVec 512}
    {poisoned : Bool}

@[simp] theorem State.headRefuse_queue (r : MemReq) (code : Nat) :
    (s.headRefuse r code).queue = s.queue := by simp [State.headRefuse]

@[simp] theorem State.expressArrives_queue (h cls : Nat) :
    (s.expressArrives h cls).queue = s.queue := by simp [State.expressArrives]

@[simp] theorem State.hostReq_queue (ld : Nat) (kind : Req) (dec : Decode) :
    (s.hostReq ld kind mv hpa tag data mask poisoned dec).queue = s.queue := by
  unfold State.hostReq
  repeat' split <;> simp

@[simp] theorem execMemRd_queue : Answers s.queue (execMemRd ld mv hpa tag s) := by simp [execMemRd]
@[simp] theorem execMemRdData_queue : Answers s.queue (execMemRdData ld mv hpa tag s) := by simp [execMemRdData]
@[simp] theorem execMemRdFwd_queue : Answers s.queue (execMemRdFwd ld mv hpa tag s) := by simp [execMemRdFwd]
@[simp] theorem execMemSpecRd_queue : Answers s.queue (execMemSpecRd ld mv hpa tag s) := by simp [execMemSpecRd]
@[simp] theorem execMemInv_queue : Answers s.queue (execMemInv ld mv hpa tag s) := by simp [execMemInv]
@[simp] theorem execMemInvNt_queue : Answers s.queue (execMemInvNt ld mv hpa tag s) := by simp [execMemInvNt]
@[simp] theorem execMemWr_queue : Answers s.queue (execMemWr ld mv hpa tag data poisoned s) := by simp [execMemWr]

@[simp] theorem execMemWrPtl_queue (p : PtlWrite) :
    Answers s.queue (execMemWrPtl ld mv hpa tag data mask p s) := by simp [execMemWrPtl]

end

/-! ### Region-table blocks, subtrees and evacuation (R238, R284, R455) -/

section
variable (s : State) {b win hs h : Nat} {w : WfNo} {t : ThrNo} {d : Reg} {mask : BitVec 32}

theorem State.takeBlock_queue {s u : State} {b : Nat} (h : s.takeBlock b = some u) : u.queue = s.queue := by
  unfold State.takeBlock at h
  split at h
  · rw [Option.some.inj h]
  · split at h
    · simp at h
    · rw [← Option.some.inj h]
      simp [foldl_fst_queue]

theorem State.takeBlocks_queue {s u : State} {base size : Nat} (h : s.takeBlocks base size = some u) :
    u.queue = s.queue := by
  have step : ∀ v : State, s.takeBlocks base size = some v → v.queue = s.queue := by
    refine List.foldlRecOn (motive := fun o => ∀ v : State, o = some v → v.queue = s.queue) _ _ (fun v h => ?_)
      fun o ih i _ v h => ?_
    · rw [← Option.some.inj h]
    · cases o with
      | none => simp at h
      | some w => exact (State.takeBlock_queue h).trans (ih w rfl)
  exact step u h

@[simp] theorem State.placeSubtrees_queue : s.placeSubtrees.queue = s.queue := by simp [State.placeSubtrees]
@[simp] theorem State.evacuateBay_queue : (s.evacuateBay b).queue = s.queue := by simp [State.evacuateBay]

@[simp] theorem State.evacuate_queue : (s.evacuate b).2.queue = s.queue := by
  unfold State.evacuate
  repeat' split <;> simp

@[simp] theorem State.cancelEvac_queue : (s.cancelEvac b).queue = s.queue := by simp [State.cancelEvac]
@[simp] theorem execEvacuate_queue (b : BayNo) : Answers s.queue (execEvacuate w t d b s) := by simp [execEvacuate]
@[simp] theorem execCancel_queue (b : BayNo) : Answers s.queue (execCancel w t d b s) := by simp [execCancel]

@[simp] theorem State.reopenStore_queue : (s.reopenStore win).queue = s.queue := by
  unfold State.reopenStore
  (repeat' split) <;> simp

@[simp] theorem execReopen_queue (win : BitVec 12) : Answers s.queue (execReopen w t d win s) := by simp [execReopen]

@[simp] theorem State.clearReclaimed_queue : (s.clearReclaimed win mask).queue = s.queue := by
  unfold State.clearReclaimed
  repeat' split <;> simp

@[simp] theorem execReclaimedClear_queue (win : BitVec 12) :
    Answers s.queue (execReclaimedClear w t d win mask s) := by simp [execReclaimedClear]

@[simp] theorem State.sfRead_queue (dec : Decode) : (s.sfRead hs dec).queue = s.queue := by
  unfold State.sfRead
  split <;> simp

@[simp] theorem State.scrubStep_queue : (s.scrubStep hs).queue = s.queue := by simp [State.scrubStep]

@[simp] theorem execSnoopFilterScrub_queue (hs : SliceNo) (set : BitVec 14) (x2 : BitVec 4) (ev : SfRead) :
    Answers s.queue (execSnoopFilterScrub hs set x2 ev s) := by
  unfold execSnoopFilterScrub
  (repeat' split) <;> simp

@[simp] theorem State.windowOff_queue : (s.windowOff win).queue = s.queue := by simp [State.windowOff]
@[simp] theorem State.leaveRange_queue : (s.leaveRange win h).queue = s.queue := by simp [State.leaveRange]

@[simp] theorem State.disableWindow_queue : (s.disableWindow win).queue = s.queue := by
  unfold State.disableWindow
  repeat' split <;> simp

@[simp] theorem execWindowDisable_queue (win : BitVec 12) :
    Answers s.queue (execWindowDisable w t d win s) := by simp [execWindowDisable]

@[simp] theorem State.disableDone_queue : (s.disableDone win).queue = s.queue := by simp [State.disableDone]

@[simp] theorem execWindowDisableComplete_queue (win : BitVec 12) :
    Answers s.queue (execWindowDisableComplete win s) := by simp [execWindowDisableComplete]

@[simp] theorem State.timeoutRow_queue (l : Nat) : (s.timeoutRow h l).queue = s.queue := by
  unfold State.timeoutRow
  dsimp only
  split <;> simp

@[simp] theorem execSnoopTimeout_queue (h : HeadNo) (dpa : BitVec 46) :
    Answers s.queue (execSnoopTimeout h dpa s) := by simp [execSnoopTimeout]

end

/-! ### Channel and stack controllers (R362-R384) -/

section
variable (s : State) {u : UnitNo} {r : MemReq} {k span code level idx detail : Nat} {dec : Decode} {w : WfNo}
    {t : ThrNo} {d : Reg}

@[simp] theorem State.issueRead_queue (u : Nat) (r : Rd) :
    (s.issueRead u r).queue = s.queue := by simp [State.issueRead]

@[simp] theorem execDramCommandIssue_queue : Answers s.queue (execDramCommandIssue u s) := by
  unfold execDramCommandIssue
  dsimp only
  (repeat' split) <;> simp

@[simp] theorem State.spanFails_queue (corrected : Bool) :
    (s.spanFails r k corrected).queue = s.queue := by simp [State.spanFails]

@[simp] theorem State.keepTwin_queue (u l : Nat) : (s.keepTwin u l).queue = s.queue := by simp [State.keepTwin]
@[simp] theorem State.keepSpan_queue : (s.keepSpan k span).queue = s.queue := by simp [State.keepSpan]

@[simp] theorem State.readDone_queue (u : Nat) : (s.readDone u r dec).queue = s.queue := by
  unfold State.readDone
  split <;> simp

@[simp] theorem State.poisonReads_queue (hit : MemReq → Bool) :
    (s.poisonReads hit).queue = s.queue := by simp [State.poisonReads]

@[simp] theorem State.losePagesTo_queue (ps : List Nat) :
    (s.losePagesTo ps code).queue = s.queue := by simp [State.losePagesTo]

@[simp] theorem State.leafLost_queue (sealWord : Bool) :
    (s.leafLost k sealWord).queue = s.queue := by simp [State.leafLost]

@[simp] theorem State.nodeLost_queue : (s.nodeLost level idx).queue = s.queue := by simp [State.nodeLost]

@[simp] theorem State.nodeFails_queue : (s.nodeFails level idx).queue = s.queue := by
  unfold State.nodeFails
  dsimp only
  split <;> simp

@[simp] theorem State.leafFails_queue : (s.leafFails k).queue = s.queue := by
  unfold State.leafFails
  split <;> simp

@[simp] theorem State.tagLost_queue : (s.tagLost k span).queue = s.queue := by
  unfold State.tagLost
  split <;> simp

@[simp] theorem State.copyBad_queue (unit loc : Nat) :
    (s.copyBad unit code loc).queue = s.queue := by simp [State.copyBad]

@[simp] theorem State.mapLost_queue (u r : Nat) : (s.mapLost u r).queue = s.queue := by simp [State.mapLost]

@[simp] theorem State.metaRead_queue (u : Nat) (m : MetaRead) : (s.metaRead u m).queue = s.queue := by
  unfold State.metaRead
  split <;> simp

@[simp] theorem execDramReadComplete_queue (ev : DramRead) : Answers s.queue (execDramReadComplete u ev s) := by
  unfold execDramReadComplete
  (repeat' split) <;> simp

@[simp] theorem State.stopUnit_queue (u cause : Nat) : (s.stopUnit u cause).queue = s.queue := by simp [State.stopUnit]
@[simp] theorem State.resetUnit_queue (u : Nat) : (s.resetUnit u).queue = s.queue := by simp [State.resetUnit]

@[simp] theorem State.recover_queue (u : Nat) : (s.recover u detail).queue = s.queue := by
  unfold State.recover
  repeat' split <;> simp

@[simp] theorem State.alert_queue (u : Nat) : (s.alert u detail).queue = s.queue := by simp [State.alert]

@[simp] theorem execCaParityAlert_queue (slot : Bool) :
    Answers s.queue (execCaParityAlert u slot s) := by simp [execCaParityAlert]

@[simp] theorem execWriteCrcAlert_queue (place : BitVec 5) :
    Answers s.queue (execWriteCrcAlert u place s) := by simp [execWriteCrcAlert]

@[simp] theorem execRecoveryRetrainingEnd_queue (ok : Bool) :
    Answers s.queue (execRecoveryRetrainingEnd u ok s) := by simp [execRecoveryRetrainingEnd]

@[simp] theorem execPmicFault_queue : Answers s.queue (execPmicFault u s) := by simp [execPmicFault]
@[simp] theorem State.commitMemch_queue (u : Nat) : (s.commitMemch u).queue = s.queue := by simp [State.commitMemch]

@[simp] theorem execRefresh_queue (hot postpone : Bool) :
    Answers s.queue (execRefresh u hot postpone s) := by simp [execRefresh]

@[simp] theorem execRetrainingPause_queue : Answers s.queue (execRetrainingPause u s) := by simp [execRetrainingPause]
@[simp] theorem State.scrubbed_queue (u : Nat) : (s.scrubbed u).queue = s.queue := by simp [State.scrubbed]

@[simp] theorem execPatrolScrubRead_queue (line : BitVec 34) : Answers s.queue (execPatrolScrubRead u line dec s) := by
  unfold execPatrolScrubRead
  split <;> simp

@[simp] theorem execCeDecay_queue : Answers s.queue (execCeDecay u s) := by simp [execCeDecay]
@[simp] theorem execCeClear_queue : Answers s.queue (execCeClear w t d u s) := by simp [execCeClear]
@[simp] theorem execMemchReset_queue : Answers s.queue (execMemchReset w t d u s) := by simp [execMemchReset]

end

/-! ### Power domains (R374, R409, R436-R441) -/

section
variable (s : State) {d level : Nat} {dom : DomNo} {error : Bool} {u : UnitNo}

@[simp] theorem State.refuseEntry_queue (unit cause : Nat) :
    (s.refuseEntry d unit cause).queue = s.queue := by simp [State.refuseEntry]

@[simp] theorem State.enterLevel_queue : (s.enterLevel d level).queue = s.queue := by
  unfold State.enterLevel
  split <;> simp

@[simp] theorem State.tryLevel_queue : (s.tryLevel d level).queue = s.queue := by
  unfold State.tryLevel
  split <;> simp

@[simp] theorem execDomainEvaluation_queue (idle : BitVec 32) :
    Answers s.queue (execDomainEvaluation dom idle s) := by simp [execDomainEvaluation]

@[simp] theorem State.drainAll_queue (n : Nat) (s : State) (u : Nat) : (State.drainAll n s u).queue = s.queue := by
  induction n generalizing s with
  | zero => rfl
  | succ n ih =>
    unfold State.drainAll
    split
    · simp [ih]
    · rfl

@[simp] theorem State.reached_queue : (s.reached d).queue = s.queue := by
  unfold State.reached
  split <;> simp

@[simp] theorem State.entryEnds_queue : (s.entryEnds d error).queue = s.queue := by simp [State.entryEnds]
@[simp] theorem State.orderEarly_queue (hs : Nat) : (s.orderEarly hs).queue = s.queue := by simp [State.orderEarly]

@[simp] theorem State.domReady_queue : (s.domReady d).queue = s.queue := by
  unfold State.domReady
  repeat' split <;> simp

@[simp] theorem execDomainEntryComplete_queue :
    Answers s.queue (execDomainEntryComplete dom error s) := by simp [execDomainEntryComplete]

@[simp] theorem execDomainWake_queue : Answers s.queue (execDomainWake dom s) := by simp [execDomainWake]
@[simp] theorem execDomainReady_queue : Answers s.queue (execDomainReady dom s) := by simp [execDomainReady]

@[simp] theorem execLayByEntryComplete_queue :
    Answers s.queue (execLayByEntryComplete u s) := by simp [execLayByEntryComplete]

@[simp] theorem execLayByExitComplete_queue :
    Answers s.queue (execLayByExitComplete u s) := by simp [execLayByExitComplete]

end

/-! ### The ends of power-on steps -/

section
variable (s : State) {n : Nat}

@[simp] theorem State.stepDone_queue : (s.stepDone n).queue = s.queue := by simp [State.stepDone]
@[simp] theorem State.stepFailed_queue : (s.stepFailed n).queue = s.queue := by simp [State.stepFailed]
@[simp] theorem State.startWayfinders_queue : s.startWayfinders.queue = s.queue := by simp [State.startWayfinders]
@[simp] theorem State.stepEnds_queue (ms : Nat) : (s.stepEnds ms).queue = s.queue := by simp [State.stepEnds]
@[simp] theorem State.stepLoses_queue : s.stepLoses.queue = s.queue := by simp [State.stepLoses]

end

/-! ### Bays (R46, R60-R63, R450-R456) -/

section
variable (s : State) {u code detail : Nat} {dimms : List Dimm} {b : BayNo} {bayvinMv bayvsMv current mv : BitVec 16}
    {w : WfNo} {t : ThrNo} {d : Reg}

@[simp] theorem State.describe_queue (width dimms ranks gib speed : Nat) :
    (s.describe u width dimms ranks gib speed).queue = s.queue := by simp [State.describe]

@[simp] theorem State.applySpd_queue (inService : Bool) : (s.applySpd u dimms inService).queue = s.queue := by
  unfold State.applySpd
  dsimp only
  split <;> simp

@[simp] theorem State.train_queue : (s.train u).queue = s.queue := by simp [State.train]
@[simp] theorem State.gatesLow_queue (b : Nat) : (s.gatesLow b).queue = s.queue := by simp [State.gatesLow]
@[simp] theorem State.bayFault_queue (b : Nat) : (s.bayFault b code detail).queue = s.queue := by simp [State.bayFault]

@[simp] theorem State.startBay_queue (b : Nat) (insertion : Bool) : (s.startBay b insertion).queue = s.queue := by
  unfold State.startBay
  dsimp only
  (repeat' split) <;> simp

@[simp] theorem State.bayUnitsGone_queue (s : State) (b : Nat) : (s.bayUnitsGone b).1.queue = s.queue := by
  unfold State.bayUnitsGone
  split
  · rfl
  · simp [foldl_fst_queue]

@[simp] theorem State.forceOff_queue (b st : Nat) (byPresence : Bool) :
    (s.forceOff b st byPresence).queue = s.queue := by
  unfold State.forceOff
  dsimp only
  split <;> simp

@[simp] theorem State.tripBay_queue (b cause : Nat) :
    (s.tripBay b cause code detail).queue = s.queue := by simp [State.tripBay]

@[simp] theorem execBayPresenceValid_queue :
    Answers s.queue (execBayPresenceValid b s) := by simp [execBayPresenceValid]

@[simp] theorem execBayPresenceLost_queue : Answers s.queue (execBayPresenceLost b s) := by simp [execBayPresenceLost]
@[simp] theorem execDebounceExpiry_queue : Answers s.queue (execDebounceExpiry b s) := by simp [execDebounceExpiry]

@[simp] theorem execHoldoffExpiry_queue : Answers s.queue (execHoldoffExpiry b bayvinMv s) := by
  unfold execHoldoffExpiry
  dsimp only
  (repeat' split) <;> simp

@[simp] theorem execBayTurn_queue : Answers s.queue (execBayTurn b bayvinMv s) := by simp [execBayTurn]

@[simp] theorem execPrechargeComplete_queue :
    Answers s.queue (execPrechargeComplete b bayvsMv s) := by simp [execPrechargeComplete]

@[simp] theorem execPrechargeTimeout_queue :
    Answers s.queue (execPrechargeTimeout b bayvsMv s) := by simp [execPrechargeTimeout]

@[simp] theorem execRampTimeout_queue : Answers s.queue (execRampTimeout b bayvsMv s) := by simp [execRampTimeout]

@[simp] theorem State.insertionDone_queue (b : Nat) :
    (s.insertionDone b).queue = s.queue := by simp [State.insertionDone]

@[simp] theorem execGateFullyOn_queue : Answers s.queue (execGateFullyOn b bayvsMv dimms s) := by simp [execGateFullyOn]

@[simp] theorem State.current_queue (b : Nat) (c : BitVec 16) :
    (s.current b c).queue = s.queue := by simp [State.current]

@[simp] theorem execFastTrip_queue : Answers s.queue (execFastTrip b current s) := by simp [execFastTrip]
@[simp] theorem execSlowTrip_queue : Answers s.queue (execSlowTrip b current s) := by simp [execSlowTrip]
@[simp] theorem execVbaydrvLoss_queue : Answers s.queue (execVbaydrvLoss mv s) := by simp [execVbaydrvLoss]

@[simp] theorem execVbaydrvPassesAgain_queue :
    Answers s.queue (execVbaydrvPassesAgain s) := by simp [execVbaydrvPassesAgain]

@[simp] theorem execBayvinExcursion_queue :
    Answers s.queue (execBayvinExcursion b mv s) := by simp [execBayvinExcursion]

@[simp] theorem State.enableBay_queue (b : Nat) (on : Bool) : (s.enableBay b on).2.queue = s.queue := by
  unfold State.enableBay
  dsimp only
  (repeat' split) <;> simp

@[simp] theorem execBayEnable_queue : Answers s.queue (execBayEnable w t d b s) := by simp [execBayEnable]
@[simp] theorem execBayDisable_queue : Answers s.queue (execBayDisable w t d b s) := by simp [execBayDisable]
@[simp] theorem execBayPowerDown_queue : Answers s.queue (execBayPowerDown b s) := by simp [execBayPowerDown]

end

/-! ### Power pins, power-on and the phase (R42-R78) -/

section
variable (s : State) {st : Straps} {u n : Nat} {fl : Flash}

@[simp] theorem State.resetReturns_queue : s.resetReturns.queue = s.queue := by simp [State.resetReturns]
@[simp] theorem State.deviceReset_queue : s.deviceReset.queue = s.queue := by simp [State.deviceReset]

@[simp] theorem State.draw_queue (n : Nat) (s : State) : (State.draw n s).2.queue = s.queue := by
  induction n generalizing s with
  | zero => rfl
  | succ n ih => simp [State.draw, ih]

@[simp] theorem State.powerOn_queue : (s.powerOn st).queue = s.queue := by simp [State.powerOn]

@[simp] theorem execPwrgoodRise_queue (sysrstHigh : Bool) :
    Answers s.queue (execPwrgoodRise sysrstHigh s) := by simp [execPwrgoodRise]

@[simp] theorem execSysrstNTakenAsRising_queue :
    Answers s.queue (execSysrstNTakenAsRising st s) := by simp [execSysrstNTakenAsRising]

@[simp] theorem execSysrstNRise_queue : Answers s.queue (execSysrstNRise st s) := by simp [execSysrstNRise]

@[simp] theorem execSysrstNFall_queue : Answers s.queue (execSysrstNFall s) := by
  unfold execSysrstNFall
  repeat' split <;> simp

@[simp] theorem execPwrgoodFall_queue : Answers s.queue (execPwrgoodFall s) := by simp [execPwrgoodFall]

@[simp] theorem execSpdReadsComplete_queue (dimms : List Dimm) :
    Answers s.queue (execSpdReadsComplete dimms s) := by simp [execSpdReadsComplete]

@[simp] theorem execRootPllLock_queue : Answers s.queue (execRootPllLock s) := by simp [execRootPllLock]
@[simp] theorem execPllLockTimeout_queue : Answers s.queue (execPllLockTimeout s) := by simp [execPllLockTimeout]
@[simp] theorem State.joinPool_queue : (s.joinPool u).queue = s.queue := by simp [State.joinPool]
@[simp] theorem State.sramFails_queue : (s.sramFails u).queue = s.queue := by simp [State.sramFails]

@[simp] theorem execSelfTestComplete_queue (u : UnitNo) (res : TestResult) :
    Answers s.queue (execSelfTestComplete u res s) := by
  unfold execSelfTestComplete
  repeat' split <;> simp

@[simp] theorem State.loadLedger_queue (l : LedgerRec) : (s.loadLedger l).queue = s.queue := by simp [State.loadLedger]
@[simp] theorem State.bayAtStep6_queue (b : Nat) : (s.bayAtStep6 b).queue = s.queue := by simp [State.bayAtStep6]

@[simp] theorem State.bootFields_queue (r : List (BitVec 8)) :
    (s.bootFields r).queue = s.queue := by simp [State.bootFields]

@[simp] theorem State.startTraining_queue : s.startTraining.queue = s.queue := by simp [State.startTraining]

@[simp] theorem State.groupAtStep6_queue (clock : Bool) :
    (s.groupAtStep6 n clock).queue = s.queue := by simp [State.groupAtStep6]

@[simp] theorem State.applyBoot_queue : (s.applyBoot fl n).queue = s.queue := by simp [State.applyBoot]

@[simp] theorem State.bootWaits_queue (cause detail : Nat) :
    (s.bootWaits cause detail).queue = s.queue := by simp [State.bootWaits]

@[simp] theorem execBootImageVerify_queue (f0 f1 : Option Flash) (ledger : Option LedgerRec) (refclk : BitVec 16) :
    Answers s.queue (execBootImageVerify f0 f1 ledger refclk s) := by
  unfold execBootImageVerify
  repeat' split <;> simp

@[simp] theorem State.recoveryImage_queue : (s.recoveryImage fl).2.queue = s.queue := by
  unfold State.recoveryImage
  repeat' split <;> simp

@[simp] theorem execRecoveryImageSubmit_queue (c : Cand) (image : Flash) :
    Answers s.queue (execRecoveryImageSubmit c image s) := by simp [execRecoveryImageSubmit]

@[simp] theorem execFillComplete_queue (u : UnitNo) (failedAt : Option (BitVec 64)) (ms : BitVec 32) :
    Answers s.queue (execFillComplete u failedAt ms s) := by
  unfold execFillComplete
  repeat' split <;> simp

@[simp] theorem execBaseProgramReady_queue (ms : BitVec 32) (s : State) :
    Answers s.queue (execBaseProgramReady ms s) := by
  unfold execBaseProgramReady
  rw [answers_next]
  split
  · rw [queue_with]
    simp
  · rfl

@[simp] theorem execBaseProgramTimeout_queue (code : BitVec 8) :
    Answers s.queue (execBaseProgramTimeout code s) := by simp [execBaseProgramTimeout]

@[simp] theorem State.phaseStore_queue (v : Nat) : (s.phaseStore v).2.queue = s.queue := by
  unfold State.phaseStore
  dsimp only
  (repeat' split) <;> simp

@[simp] theorem execPhaseStore_queue (w : WfNo) (t : ThrNo) (d : Reg) (v : BitVec 2) :
    Answers s.queue (execPhaseStore w t d v s) := by simp [execPhaseStore]

end

/-! ### Mileposts (R141, R467-R484) -/

section
variable (s : State) {g : Nat} {mask : BitVec 17} {w : WfNo} {t : ThrNo} {d a : Reg}

@[simp] theorem State.capture_queue : (s.capture g).queue = s.queue := by simp [State.capture]

@[simp] theorem State.snapAsk_queue : (s.snapAsk g).1.queue = s.queue := by
  unfold State.snapAsk
  split <;> simp

@[simp] theorem State.snapReq_queue : (s.snapReq mask).queue = s.queue := by simp [State.snapReq]
@[simp] theorem execSnapReq_queue (c : Cand) : Answers s.queue (execSnapReq c mask s) := by simp [execSnapReq]

@[simp] theorem execSnapshotComplete_queue (g : Fin 17) : Answers s.queue (execSnapshotComplete g s) := by
  unfold execSnapshotComplete
  split <;> simp

@[simp] theorem execCounterWrap_queue (n : Fin 544) (occ : Occurrence) :
    Answers s.queue (execCounterWrap n occ s) := by simp [execCounterWrap]

@[simp] theorem State.clearAll_queue : s.clearAll.queue = s.queue := by simp [State.clearAll]
@[simp] theorem execClearAll_queue : Answers s.queue (execClearAll w t d s) := by simp [execClearAll]

@[simp] theorem execMprd_queue : Answers s.queue (execMprd w t d a s) := by
  unfold execMprd
  rw [answers_next]
  refine ramer_queue fun v => ?_
  (repeat' split) <;> simp

@[simp] theorem execMpsnap_queue : Answers s.queue (execMpsnap w t d a s) := by simp [execMpsnap]

end

/-! ### The placement policy (R251, R261-R264) -/

section
variable (s : State) {p : Nat} {w : WfNo} {t : ThrNo} {d a : Reg}

@[simp] theorem State.dropHot_queue : (s.dropHot p).queue = s.queue := by simp [State.dropHot]

@[simp] theorem State.policyJob_queue (kind : JobKind) (arg : Nat) :
    (s.policyJob kind p arg).queue = s.queue := by simp [State.policyJob]

@[simp] theorem State.drainHeat_queue (n : Nat) (s : State) : (State.drainHeat n s).queue = s.queue := by
  induction n generalizing s with
  | zero => rfl
  | succ n ih =>
    unfold State.drainHeat
    split
    · simp [ih]
    · rfl

@[simp] theorem State.noteTouched_queue : s.noteTouched.queue = s.queue := by simp [State.noteTouched]

@[simp] theorem State.placePages_queue (s : State) : (s.placePages).queue = s.queue := by
  unfold State.placePages
  refine foldl_queue fun v q => ?_
  dsimp only
  (repeat' split) <;> simp

@[simp] theorem State.coolPages_queue : s.coolPages.queue = s.queue := by simp [State.coolPages]
@[simp] theorem State.hintJob_queue (c : RingCmd) : (s.hintJob c).queue = s.queue := by simp [State.hintJob]
@[simp] theorem State.takeHints_queue : s.takeHints.queue = s.queue := by simp [State.takeHints]
@[simp] theorem State.runPolicy_queue : s.runPolicy.queue = s.queue := by simp [State.runPolicy]
@[simp] theorem State.baseCheckin_queue : s.baseCheckin.queue = s.queue := by simp [State.baseCheckin]
@[simp] theorem execTick_queue : Answers s.queue (execTick s) := by simp [execTick]

@[simp] theorem execHeat_queue : Answers s.queue (execHeat w t d s) := by
  unfold execHeat
  rw [answers_next]
  refine ramer_queue fun v => ?_
  (repeat' split) <;> simp

@[simp] theorem execRget_queue : Answers s.queue (execRget w t d a s) := by
  unfold execRget
  rw [answers_next]
  refine ramer_queue fun v => ?_
  (repeat' split) <;> simp

@[simp] theorem execRput_queue (b : Reg) : Answers s.queue (execRput w t d a b s) := by
  unfold execRput
  rw [answers_next]
  refine ramer_queue fun v => ?_
  (repeat' split) <;> simp

end

/-! ### Command rings (R87-R96, R260) -/

section
variable (s : State) {ld : LdNo} {addr : Nat} {resp : HostResp} {r : RingNo} {v i : BitVec 16} {c : RingCmd}

@[simp] theorem State.hostPost_queue (ld : Nat) (bytes : List (BitVec 8)) :
    (s.hostPost ld addr bytes).queue = s.queue := by simp [State.hostPost]

@[simp] theorem State.hostAsk_queue (ld ring : Nat) (idx : Option Nat) (n : Nat) :
    (s.hostAsk ld ring idx addr n resp).queue = s.queue := by simp [State.hostAsk]

@[simp] theorem State.fetchStops_queue (ld r : Nat) : (s.fetchStops ld r).queue = s.queue := by simp [State.fetchStops]

@[simp] theorem State.ringError_queue (ld r cause : Nat) :
    (s.ringError ld r cause).queue = s.queue := by simp [State.ringError]

@[simp] theorem State.ringStart_queue (ld r : Nat) : (s.ringStart ld r).queue = s.queue := by simp [State.ringStart]
@[simp] theorem execRingEnable_queue : Answers s.queue (execRingEnable ld r s) := by simp [execRingEnable]
@[simp] theorem State.ringStop_queue (ld r : Nat) : (s.ringStop ld r).queue = s.queue := by simp [State.ringStop]
@[simp] theorem execRingDisable_queue : Answers s.queue (execRingDisable ld r s) := by simp [execRingDisable]
@[simp] theorem State.tailWrite_queue (ld r : Nat) : (s.tailWrite ld r v).queue = s.queue := by simp [State.tailWrite]
@[simp] theorem execCmdTailWrite_queue : Answers s.queue (execCmdTailWrite ld r v s) := by simp [execCmdTailWrite]
@[simp] theorem State.headWrite_queue (ld r : Nat) : (s.headWrite ld r v).queue = s.queue := by simp [State.headWrite]
@[simp] theorem execCplHeadWrite_queue : Answers s.queue (execCplHeadWrite ld r v s) := by simp [execCplHeadWrite]

@[simp] theorem State.fetched_queue (ld r : Nat) (desc : List (BitVec 8)) :
    (s.fetched ld r desc).queue = s.queue := by simp [State.fetched]

@[simp] theorem State.fetchAnswer_queue (ld r : Nat) : (s.fetchAnswer ld r resp).queue = s.queue := by
  unfold State.fetchAnswer
  split <;> simp

@[simp] theorem execCommandFetch_queue : Answers s.queue (execCommandFetch ld r resp s) := by simp [execCommandFetch]
@[simp] theorem State.setCmd_queue : (s.setCmd c).queue = s.queue := by simp [State.setCmd]

@[simp] theorem State.releaseFence_queue (ld r : Nat) : (s.releaseFence ld r).queue = s.queue := by
  unfold State.releaseFence
  split <;> simp

@[simp] theorem State.complete_queue (status : BitVec 8) (result : BitVec 64) (ok : Bool) :
    (s.complete c status result ok).queue = s.queue := by simp [State.complete]

@[simp] theorem execCommandComplete_queue (hostOk : Bool) : Answers s.queue (execCommandComplete ld r i hostOk s) := by
  unfold execCommandComplete
  (repeat' split) <;> simp

@[simp] theorem State.fail_queue (status : Nat) : (s.fail c status).queue = s.queue := by simp [State.fail]
@[simp] theorem State.work_queue (j : Job) : (s.work c j).queue = s.queue := by simp [State.work]

@[simp] theorem State.takeUp_queue {s : State} {ld r i op : Nat} {f : RingCmd → State}
    (h : ∀ c, (f c).queue = s.queue) :
    (s.takeUp ld r i op f).queue = s.queue := by
  unfold State.takeUp
  split <;> simp [h]

@[simp] theorem execCopy_queue : Answers s.queue (execCopy ld r i s) := by
  unfold execCopy
  rw [answers_next]
  refine State.takeUp_queue fun c => ?_
  (repeat' split) <;> simp

@[simp] theorem execZero_queue : Answers s.queue (execZero ld r i s) := by
  unfold execZero
  rw [answers_next]
  refine State.takeUp_queue fun c => ?_
  (repeat' split) <;> simp

@[simp] theorem execRekey_queue : Answers s.queue (execRekey ld r i s) := by simp [execRekey]
@[simp] theorem execStow_queue : Answers s.queue (execStow ld r i s) := by simp [execStow]
@[simp] theorem execUnstow_queue : Answers s.queue (execUnstow ld r i s) := by simp [execUnstow]
@[simp] theorem execPin_queue : Answers s.queue (execPin ld r i s) := by simp [execPin]
@[simp] theorem execUnpin_queue : Answers s.queue (execUnpin ld r i s) := by simp [execUnpin]
@[simp] theorem execHint_queue : Answers s.queue (execHint ld r i s) := by simp [execHint]

end

/-! ### Streams (R301-R306, R310) -/

section
variable (s : State) {c : RingCmd} {status : Nat} {broke hostOk : Bool} {ld : LdNo} {r : RingNo} {i : BitVec 16}
    {resp : HostResp}

@[simp] theorem execContextRelease_queue (w : WfNo) (t : ThrNo) (d : Reg) (c : BitVec 12) :
    Answers s.queue (execContextRelease w t d c s) := by simp [execContextRelease]

@[simp] theorem State.streamEnds_queue (result : Nat) (free : Bool) :
    (s.streamEnds c status result free broke).queue = s.queue := by simp [State.streamEnds]

@[simp] theorem State.exportOut_queue (bytes : List (BitVec 8)) :
    (s.exportOut c bytes).queue = s.queue := by simp [State.exportOut]

@[simp] theorem State.exportEnd_queue : (s.exportEnd c hostOk).queue = s.queue := by simp [State.exportEnd]

@[simp] theorem State.exportPage_queue : (s.exportPage c hostOk).state.queue = s.queue := by
  unfold State.exportPage
  dsimp only
  (repeat' split) <;> simp

@[simp] theorem State.exportRun_queue (ld r i : Nat) (hostOk : Bool) (n : Nat) (s : State) :
    (State.exportRun ld r i hostOk n s).queue = s.queue := by
  induction n generalizing s with
  | zero => rfl
  | succ n ih =>
    unfold State.exportRun
    split
    · rfl
    · rename_i c _
      have page : (s.exportPage c hostOk).state.queue = s.queue := by simp
      split
      · simp
      · split <;> rename_i h <;> simp [h] at page <;> simp [ih, page]

@[simp] theorem execExportStream_queue : Answers s.queue (execExportStream ld r i hostOk s) := by
  unfold execExportStream
  (repeat' split) <;> simp

@[simp] theorem State.importPage_queue : (s.importPage c).state.queue = s.queue := by
  unfold State.importPage
  dsimp only
  (repeat' split) <;> simp

@[simp] theorem State.importStops_queue : (s.importStops c status broke).queue = s.queue := by simp [State.importStops]

@[simp] theorem State.importRun_queue (ld r i n : Nat) (s : State) : (State.importRun ld r i n s).queue = s.queue := by
  induction n generalizing s with
  | zero => rfl
  | succ n ih =>
    unfold State.importRun
    split
    · rfl
    · rename_i c _
      dsimp only
      split
      · simp
      · simp
      · generalize hv : s.setCtx c.ctxNo _ = v
        have page : (v.importPage c).state.queue = v.queue := by simp
        split <;> rename_i h <;> simp [h] at page <;> simp [ih, page, ← hv]

@[simp] theorem State.importData_queue (s : State) (c : RingCmd) (resp : HostResp) :
    (s.importData c resp).queue = s.queue := by
  unfold State.importData
  split <;> simp

@[simp] theorem State.readHost_queue {s : State} {c : RingCmd} {n : Nat} {resp : HostResp}
    {f : State → HostResp → State}
    (h : ∀ v x, (f v x).queue = v.queue) : (s.readHost c n resp f).queue = s.queue := by
  simp [State.readHost, h]

@[simp] theorem execImportStream_queue : Answers s.queue (execImportStream ld r i resp s) := by
  unfold execImportStream
  (repeat' split) <;> simp

@[simp] theorem State.takeCtxOp_queue {s : State} {ld r i op : Nat} {f : RingCmd → State}
    (h : ∀ c, (f c).queue = s.queue) :
    (s.takeCtxOp ld r i op f).queue = s.queue := by
  unfold State.takeCtxOp
  split <;> simp [h]

@[simp] theorem execSave_queue : Answers s.queue (execSave ld r i hostOk s) := by simp [execSave]

@[simp] theorem State.restoreData_queue : (s.restoreData c resp).queue = s.queue := by
  unfold State.restoreData
  repeat' split <;> simp

@[simp] theorem execRestore_queue : Answers s.queue (execRestore ld r i resp s) := by simp [execRestore]

end

/-! ### RUN, SNAP, and the answers of hosts (R157, R475) -/

section
variable (s : State) {c : RingCmd} {resp : HostResp} {ld : LdNo} {r : RingNo} {i : BitVec 16} {hostOk : Bool}

@[simp] theorem State.runStart_queue (p : Program) (w t : Nat) : (s.runStart c p w t).queue = s.queue := by
  unfold State.runStart
  split <;> simp

@[simp] theorem State.dispatchRun_queue : s.dispatchRun.queue = s.queue := by
  unfold State.dispatchRun
  split <;> simp

@[simp] theorem execRunDispatch_queue : Answers s.queue (execRunDispatch s) := by simp [execRunDispatch]

@[simp] theorem State.runData_queue : (s.runData c resp).queue = s.queue := by
  unfold State.runData
  split <;> simp

@[simp] theorem execRun_queue : Answers s.queue (execRun ld r i resp s) := by
  unfold execRun
  rw [answers_next]
  refine State.takeUp_queue fun c => ?_
  (repeat' split) <;> simp

@[simp] theorem State.snapWrite_queue : (s.snapWrite c hostOk).queue = s.queue := by simp [State.snapWrite]

@[simp] theorem execSnap_queue : Answers s.queue (execSnap ld r i hostOk s) := by
  unfold execSnap
  (repeat' split) <;> simp

@[simp] theorem State.hostData_queue : (s.hostData c resp).queue = s.queue := by simp [State.hostData]

@[simp] theorem execCxlIoCompletion_queue (h : HeadNo) (tag : BitVec 16) :
    Answers s.queue (execCxlIoCompletion h tag resp s) := by
  unfold execCxlIoCompletion
  dsimp only
  (repeat' split) <;> simp

end

/-! ### The loader (R150-R164) -/

section
variable (s : State) {snd : Sender} {status n w t : Nat} {mask : BitVec 16} {prog thr : BitVec 8}
    {args : List (BitVec 8)}

@[simp] theorem State.reply_queue (program : Nat) (extra : List (BitVec 8)) :
    (s.reply snd status program extra).queue = s.queue := by simp [State.reply]

@[simp] theorem State.replyNone_queue : (s.replyNone snd status).queue = s.queue := by simp [State.replyNone]

@[simp] theorem State.loaderOp_queue {s : State} {snd : Sender} {held : State → Bool} {f : State → State}
    (h : ∀ v, (f v).queue = v.queue) : (s.loaderOp snd held f).queue = s.queue := by
  simp [State.loaderOp, h]
  split <;> simp

@[simp] theorem State.place_queue (img : List (BitVec 8)) : (s.place mask img).queue = s.queue := by simp [State.place]

@[simp] theorem execLoad_queue (image : List (BitVec 8)) :
    Answers s.queue (execLoad snd mask image s) := by simp [execLoad]

@[simp] theorem State.removeProgram_queue : (s.removeProgram n).queue = s.queue := by
  unfold State.removeProgram
  split <;> simp

@[simp] theorem execUnload_queue : Answers s.queue (execUnload snd prog s) := by simp [execUnload]

@[simp] theorem State.startOwner_queue : (s.startOwner w t n args).queue = s.queue := by
  unfold State.startOwner
  split <;> simp

@[simp] theorem execStart_queue : Answers s.queue (execStart snd mask thr prog args s) := by simp [execStart]

@[simp] theorem State.stopThread_queue : (s.stopThread w t).queue = s.queue := by
  unfold State.stopThread
  dsimp only
  split <;> simp

@[simp] theorem execStop_queue : Answers s.queue (execStop snd mask thr s) := by simp [execStop]

@[simp] theorem execQuery_queue : Answers s.queue (execQuery snd mask prog s) := by
  unfold execQuery
  split <;> simp

@[simp] theorem execRestart_queue : Answers s.queue (execRestart snd mask s) := by
  unfold execRestart
  split <;> simp

@[simp] theorem State.winClear_queue : s.winClear.queue = s.queue := by simp [State.winClear]
@[simp] theorem execWinClear_queue : Answers s.queue (execWinClear s) := by simp [execWinClear]
@[simp] theorem State.winGo_queue : s.winGo.queue = s.queue := by simp [State.winGo]

@[simp] theorem execWayfinderRestartComplete_queue (w : WfNo) :
    Answers s.queue (execWayfinderRestartComplete w s) := by simp [execWayfinderRestartComplete]

end

/-! ### Key slots and the events of sealing (R313-R338) -/

section
variable (s : State) {k mode : Nat} {material : BitVec 256} {dbg gen : Bool} {w : WfNo} {t : ThrNo} {d : Reg}
    {u : UnitNo} {frame : BitVec 28} {span : BitVec 4} {idx : BitVec 33}

@[simp] theorem State.installed_queue : (s.installed k material mode dbg gen).queue = s.queue := by
  unfold State.installed
  split <;> simp

@[simp] theorem State.install_queue : (s.install k material mode dbg gen).2.queue = s.queue := by simp [State.install]

@[simp] theorem execInstall_queue (k : BitVec 12) (mode : BitVec 2) :
    Answers s.queue (execInstall w t d k material mode dbg gen s) := by simp [execInstall]

@[simp] theorem State.clearKey_queue : (s.clearKey k).queue = s.queue := by simp [State.clearKey]
@[simp] theorem execClear_queue (k : BitVec 12) : Answers s.queue (execClear w t d k s) := by simp [execClear]

@[simp] theorem execMergeWindowExpiry_queue :
    Answers s.queue (execMergeWindowExpiry u frame span s) := by simp [execMergeWindowExpiry]

@[simp] theorem execMergeEntrySeal_queue (dec : Decode) : Answers s.queue (execMergeEntrySeal u frame span dec s) := by
  unfold execMergeEntrySeal
  split <;> simp

@[simp] theorem execReencryptionComplete_queue (p : BitVec 34) :
    Answers s.queue (execReencryptionComplete p s) := by simp [execReencryptionComplete]

@[simp] theorem execTreeNodeWriteback_queue (level : Fin 4) :
    Answers s.queue (execTreeNodeWriteback level idx s) := by simp [execTreeNodeWriteback]

@[simp] theorem execNodeRebaseComplete_queue (level : Fin 6) :
    Answers s.queue (execNodeRebaseComplete level idx s) := by simp [execNodeRebaseComplete]

end

/-! ### The data-path instructions (R134-R140) -/

section
variable (s : State) {w : WfNo} {t : ThrNo} {d a b : Reg} {p pg : Nat} {x : Page} {dec : Decode}

@[simp] theorem moveBody_queue (kind : Nat) (i : Instr) : (moveBody kind w t i d a s).queue = s.queue := by
  unfold moveBody
  refine ramer_queue fun v => ?_
  dsimp only
  (repeat' split) <;> simp

@[simp] theorem execMoveTier_queue : Answers s.queue (execMoveTier w t d a s) := by simp [execMoveTier]
@[simp] theorem execMoveCopy_queue : Answers s.queue (execMoveCopy w t d a s) := by simp [execMoveCopy]
@[simp] theorem execMoveZero_queue : Answers s.queue (execMoveZero w t d a s) := by simp [execMoveZero]
@[simp] theorem execMoveRekey_queue : Answers s.queue (execMoveRekey w t d a s) := by simp [execMoveRekey]

@[simp] theorem pageJob_queue (code : Nat) (kind : JobKind) (a arg : Nat) (force : Bool) :
    (pageJob w t d code kind a arg force s).Leaves s.queue := by
  unfold pageJob
  dsimp only
  (repeat' split) <;> simp

@[simp] theorem execStowInstr_queue : Answers s.queue (execStowInstr w t d a b s) := by simp [execStowInstr]
@[simp] theorem execUnstowInstr_queue : Answers s.queue (execUnstowInstr w t d a b s) := by simp [execUnstowInstr]

@[simp] theorem execBinv_queue : Answers s.queue (execBinv w t d a b s) := by
  unfold execBinv
  rw [answers_next]
  refine ramer_queue fun v => ?_
  dsimp only
  (repeat' split) <;> simp

@[simp] theorem State.stallOn_queue (w t : Nat) : (s.stallOn w t p).queue = s.queue := by simp [State.stallOn]
@[simp] theorem State.unstall_queue (w t : Nat) : (s.unstall w t).queue = s.queue := by simp [State.unstall]
@[simp] theorem State.queueDecode_queue : (s.queueDecode p).queue = s.queue := by simp [State.queueDecode]

@[simp] theorem readEnds_queue (w : WfNo) (t : ThrNo) (d : Reg) (p : Nat) (s : State)
    (lines : List (BitVec 512)) (status : Nat)
    (q : List Instr) : (readEnds w t d p s lines status).Leaves q ↔ s.queue = q := by
  simp [readEnds]

@[simp] theorem readStowedPage_queue (ls : List Nat) : (readStowedPage w t d p pg ls s).Leaves s.queue := by
  unfold readStowedPage
  (repeat' split) <;> simp

@[simp] theorem execMread_queue (w : WfNo) (t : ThrNo) (n : Fin 7) (d a b : Reg) (s : State) :
    Answers s.queue (execMread w t n d a b s) := by
  unfold execMread
  rw [answers_next]
  refine ramer_queue fun v => ?_
  extract_lets size x key ended pg e ls none_ r
  split
  · trivial
  · split
    · trivial
    · (repeat' split) <;> simp [ended, r]

@[simp] theorem writePromotes_queue : (writePromotes w t d pg s).Leaves s.queue := by
  unfold writePromotes
  split <;> simp

@[simp] theorem execMwrite_queue (n : Fin 7) : Answers s.queue (execMwrite w t n d a b s) := by
  unfold execMwrite
  rw [answers_next]
  refine ramer_queue fun v => ?_
  dsimp only
  (repeat' split) <;> simp

@[simp] theorem State.dbgEnds_queue (result : BitVec 4) (data : BitVec 512) :
    (s.dbgEnds result x data).queue = s.queue := by simp [State.dbgEnds]

@[simp] theorem State.dbgFrame_queue (line : Nat) : (s.dbgFrame line x dec).queue = s.queue := by
  unfold State.dbgFrame
  split <;> simp

@[simp] theorem execDebugReadComplete_queue : Answers s.queue (execDebugReadComplete dec s) := by
  unfold execDebugReadComplete
  dsimp only
  (repeat' split) <;> simp

end

/-! ### Table stores admitted (R125-R128) -/

section
variable (s : State)

@[simp] theorem State.candidate_queue (tbl idx : Nat) (st : Staged) :
    (s.candidate tbl idx st).queue = s.queue := by simp [State.candidate]

end

/-! ### Commit points (R126, R168, R169) -/

section
variable (s : State) {tbl idx by_ i : Nat} {st : Staged}

@[simp] theorem State.hold_queue (word : Nat) (mask old ones : BitVec 64) :
    (s.hold tbl idx word mask old ones by_).queue = s.queue := by simp [State.hold]

@[simp] theorem State.storeLater_queue (keep : Nat → BitVec 64) :
    (s.storeLater tbl idx st by_ keep).queue = s.queue := by simp [State.storeLater]

@[simp] theorem State.storePort_queue (h : Nat) : (s.storePort h st by_).queue = s.queue := by simp [State.storePort]
@[simp] theorem State.storeWindow_queue : (s.storeWindow i st by_).queue = s.queue := by simp [State.storeWindow]
@[simp] theorem State.storePlace_queue : (s.storePlace i st).queue = s.queue := by simp [State.storePlace]
@[simp] theorem State.storeBay_queue (b : Nat) : (s.storeBay b st).queue = s.queue := by simp [State.storeBay]
@[simp] theorem State.storeFault_queue : (s.storeFault i st).queue = s.queue := by simp [State.storeFault]

@[simp] theorem State.storeMilepost_queue (n : Nat) :
    (s.storeMilepost n st).queue = s.queue := by simp [State.storeMilepost]

@[simp] theorem State.storeAccess_queue (ld : Nat) :
    (s.storeAccess ld st).queue = s.queue := by simp [State.storeAccess]

@[simp] theorem State.storeOwner_queue : (s.storeOwner i st).queue = s.queue := by simp [State.storeOwner]

@[simp] theorem State.store_queue : (s.store tbl idx st by_).queue = s.queue := by
  unfold State.store
  repeat' split <;> simp

@[simp] theorem State.commitWindow_queue (s : State) (i : Nat) : (s.commitWindow i).queue = s.queue := by
  have taken (v : State) : ((v.takeBlocks (v.inf WINDOW.DEV_BASE i) (v.inf WINDOW.SIZE i)).getD v).queue = v.queue := by
    cases h : v.takeBlocks (v.inf WINDOW.DEV_BASE i) (v.inf WINDOW.SIZE i) with
    | none => rfl
    | some u => exact State.takeBlocks_queue h
  unfold State.commitWindow
  dsimp only
  (repeat' split) <;> simp [taken]

@[simp] theorem State.commitKeyslot_queue (k : Nat) :
    (s.commitKeyslot k).queue = s.queue := by simp [State.commitKeyslot]

@[simp] theorem State.commitCapacity_queue : (s.commitCapacity i).queue = s.queue := by simp [State.commitCapacity]
@[simp] theorem State.commitSnoop_queue : (s.commitSnoop i).queue = s.queue := by simp [State.commitSnoop]

@[simp] theorem State.commit_queue : (s.commit tbl idx).queue = s.queue := by
  unfold State.commit
  split <;> simp

@[simp] theorem execTableCommit_queue (tbl : BitVec 8) (idx : BitVec 48) :
    Answers s.queue (execTableCommit tbl idx s) := by simp [execTableCommit]

end

/-! ### Integer, branch and jump instructions (R121, R122) -/

section
variable (s : State) {w : WfNo} {t : ThrNo} {i : Instr} {d a b : Reg} {f : BitVec 64 → BitVec 64 → BitVec 64}
    {imm : BitVec 16}

@[simp] theorem aluReg_queue : (aluReg w t i d a b f s).queue = s.queue := by simp [aluReg]
@[simp] theorem aluImm_queue (imm : BitVec 64) : (aluImm w t i d a imm f s).queue = s.queue := by simp [aluImm]
@[simp] theorem execAdd_queue : Answers s.queue (execAdd w t d a b s) := by simp [execAdd]
@[simp] theorem execSub_queue : Answers s.queue (execSub w t d a b s) := by simp [execSub]
@[simp] theorem execAnd_queue : Answers s.queue (execAnd w t d a b s) := by simp [execAnd]
@[simp] theorem execOr_queue : Answers s.queue (execOr w t d a b s) := by simp [execOr]
@[simp] theorem execXor_queue : Answers s.queue (execXor w t d a b s) := by simp [execXor]
@[simp] theorem execShl_queue : Answers s.queue (execShl w t d a b s) := by simp [execShl]
@[simp] theorem execShr_queue : Answers s.queue (execShr w t d a b s) := by simp [execShr]
@[simp] theorem execSar_queue : Answers s.queue (execSar w t d a b s) := by simp [execSar]
@[simp] theorem execMul_queue : Answers s.queue (execMul w t d a b s) := by simp [execMul]
@[simp] theorem execMulh_queue : Answers s.queue (execMulh w t d a b s) := by simp [execMulh]
@[simp] theorem execDivu_queue : Answers s.queue (execDivu w t d a b s) := by simp [execDivu]
@[simp] theorem execRemu_queue : Answers s.queue (execRemu w t d a b s) := by simp [execRemu]
@[simp] theorem execMin_queue : Answers s.queue (execMin w t d a b s) := by simp [execMin]
@[simp] theorem execMax_queue : Answers s.queue (execMax w t d a b s) := by simp [execMax]
@[simp] theorem execClz_queue : Answers s.queue (execClz w t d a s) := by simp [execClz]
@[simp] theorem execPopc_queue : Answers s.queue (execPopc w t d a s) := by simp [execPopc]
@[simp] theorem execSeq_queue : Answers s.queue (execSeq w t d a b s) := by simp [execSeq]
@[simp] theorem execSlt_queue : Answers s.queue (execSlt w t d a b s) := by simp [execSlt]
@[simp] theorem execSltu_queue : Answers s.queue (execSltu w t d a b s) := by simp [execSltu]
@[simp] theorem execAddi_queue : Answers s.queue (execAddi w t d a imm s) := by simp [execAddi]
@[simp] theorem execAndi_queue : Answers s.queue (execAndi w t d a imm s) := by simp [execAndi]
@[simp] theorem execOri_queue : Answers s.queue (execOri w t d a imm s) := by simp [execOri]
@[simp] theorem execXori_queue : Answers s.queue (execXori w t d a imm s) := by simp [execXori]
@[simp] theorem execShli_queue : Answers s.queue (execShli w t d a imm s) := by simp [execShli]
@[simp] theorem execShri_queue : Answers s.queue (execShri w t d a imm s) := by simp [execShri]
@[simp] theorem execSari_queue : Answers s.queue (execSari w t d a imm s) := by simp [execSari]
@[simp] theorem execMuli_queue : Answers s.queue (execMuli w t d a imm s) := by simp [execMuli]
@[simp] theorem execSlti_queue : Answers s.queue (execSlti w t d a imm s) := by simp [execSlti]
@[simp] theorem execSltiu_queue : Answers s.queue (execSltiu w t d a imm s) := by simp [execSltiu]
@[simp] theorem execSeqi_queue : Answers s.queue (execSeqi w t d a imm s) := by simp [execSeqi]
@[simp] theorem execLhi_queue : Answers s.queue (execLhi w t d imm s) := by simp [execLhi]

@[simp] theorem branch_queue (c : BitVec 64 → BitVec 64 → Bool) :
    (branch w t i a b imm c s).queue = s.queue := by simp [branch]

@[simp] theorem execBeq_queue : Answers s.queue (execBeq w t a b imm s) := by simp [execBeq]
@[simp] theorem execBne_queue : Answers s.queue (execBne w t a b imm s) := by simp [execBne]
@[simp] theorem execBlt_queue : Answers s.queue (execBlt w t a b imm s) := by simp [execBlt]
@[simp] theorem execBge_queue : Answers s.queue (execBge w t a b imm s) := by simp [execBge]
@[simp] theorem execBltu_queue : Answers s.queue (execBltu w t a b imm s) := by simp [execBltu]
@[simp] theorem execBgeu_queue : Answers s.queue (execBgeu w t a b imm s) := by simp [execBgeu]
@[simp] theorem execJ_queue (imm : BitVec 26) : Answers s.queue (execJ w t imm s) := by simp [execJ]
@[simp] theorem execJal_queue (imm : BitVec 26) : Answers s.queue (execJal w t imm s) := by simp [execJal]
@[simp] theorem execJr_queue : Answers s.queue (execJr w t d a s) := by simp [execJr]

@[simp] theorem execIllegalInstruction_queue (t : BadFetch) :
    Answers s.queue (execIllegalInstruction w t s) := by simp [execIllegalInstruction]

@[simp] theorem execTrap_queue : Answers s.queue (execTrap w t imm s) := by simp [execTrap]

end

/-! ### Scratch loads and stores (R124) -/

section
variable (s : State) {w : WfNo} {t : ThrNo} {i : Instr} {d a : Reg} {imm : BitVec 16} {n : Nat}

@[simp] theorem loadScr_queue (ext : Nat → BitVec 64) : (loadScr w t i d a imm n ext s).queue = s.queue := by
  unfold loadScr
  refine ramer_queue fun v => ?_
  (repeat' split) <;> simp

@[simp] theorem storeScr_queue : (storeScr w t i d a imm n s).queue = s.queue := by
  unfold storeScr
  refine ramer_queue fun v => ?_
  (repeat' split) <;> simp

@[simp] theorem execLdb_queue : Answers s.queue (execLdb w t d a imm s) := by simp [execLdb]
@[simp] theorem execLdbu_queue : Answers s.queue (execLdbu w t d a imm s) := by simp [execLdbu]
@[simp] theorem execLdh_queue : Answers s.queue (execLdh w t d a imm s) := by simp [execLdh]
@[simp] theorem execLdhu_queue : Answers s.queue (execLdhu w t d a imm s) := by simp [execLdhu]
@[simp] theorem execLdw_queue : Answers s.queue (execLdw w t d a imm s) := by simp [execLdw]
@[simp] theorem execLdwu_queue : Answers s.queue (execLdwu w t d a imm s) := by simp [execLdwu]
@[simp] theorem execLdd_queue : Answers s.queue (execLdd w t d a imm s) := by simp [execLdd]
@[simp] theorem execStb_queue : Answers s.queue (execStb w t d a imm s) := by simp [execStb]
@[simp] theorem execSth_queue : Answers s.queue (execSth w t d a imm s) := by simp [execSth]
@[simp] theorem execStw_queue : Answers s.queue (execStw w t d a imm s) := by simp [execStw]
@[simp] theorem execStd_queue : Answers s.queue (execStd w t d a imm s) := by simp [execStd]

end

/-! ### The table instructions (R125-R128) -/

section
variable (s : State) {w : WfNo} {t : ThrNo} {d a b : Reg}

@[simp] theorem State.walk_queue (i : Nat) : (s.walk i).2.queue = s.queue := by
  unfold State.walk
  dsimp only
  split <;> simp

@[simp] theorem tldBody_queue (i : Instr) : (tldBody w t i d a s).queue = s.queue := by
  unfold tldBody
  refine ramer_queue fun v => ?_
  dsimp only
  (repeat' split) <;> simp

@[simp] theorem execTld_queue : Answers s.queue (execTld w t d a s) := by simp [execTld]
@[simp] theorem execWalkerNext_queue : Answers s.queue (execWalkerNext w t d a s) := by simp [execWalkerNext]
@[simp] theorem State.submit_queue (w t : Nat) : (s.submit w t).2.queue = s.queue := by simp [State.submit]

@[simp] theorem execTst_queue : Answers s.queue (execTst w t d a b s) := by
  unfold execTst
  rw [answers_next]
  refine ramer_queue fun v => ?_
  dsimp only
  (repeat' split) <;> simp

@[simp] theorem execTstC_queue : Answers s.queue (execTstC w t d a b s) := by
  unfold execTstC
  rw [answers_next]
  refine ramer_queue fun v => ?_
  dsimp only
  (repeat' split) <;> simp

@[simp] theorem execTcas_queue : Answers s.queue (execTcas w t d a b s) := by
  unfold execTcas
  rw [answers_next]
  refine ramer_queue fun v => ?_
  dsimp only
  (repeat' split) <;> simp

end

/-! ### Accesses to registers (R97-R107) -/

section
variable (s : State) {f b ld off size : Nat} {w m : BitVec 64} {p : Tlp} {op : RegOp}

@[simp] theorem State.mailOut_queue : (s.mailOut f b w p).queue = s.queue := by simp [State.mailOut]
@[simp] theorem State.mailIn_queue : (s.mailIn f b).queue = s.queue := by simp [State.mailIn]
@[simp] theorem State.bellWord_queue : (s.bellWord f b w m).queue = s.queue := by simp [State.bellWord]
@[simp] theorem State.ownerWord_queue : (s.ownerWord b w m).queue = s.queue := by simp [State.ownerWord]
@[simp] theorem State.winWord_queue : (s.winWord b w m).queue = s.queue := by simp [State.winWord]
@[simp] theorem State.faultRegs_queue : (s.faultRegs b w).queue = s.queue := by simp [State.faultRegs]

@[simp] theorem State.serviceWord_queue (c : Nat) :
    (s.serviceWord c b w m).queue = s.queue := by simp [State.serviceWord]

@[simp] theorem State.endpointWord_queue : (s.endpointWord b w m p).queue = s.queue := by simp [State.endpointWord]
@[simp] theorem State.ringWord_queue (r : Nat) : (s.ringWord ld r b w m).queue = s.queue := by simp [State.ringWord]
@[simp] theorem State.ldWord_queue : (s.ldWord ld b w m p).queue = s.queue := by simp [State.ldWord]
@[simp] theorem State.turnAway_queue (code : Nat) : (s.turnAway f code p).queue = s.queue := by simp [State.turnAway]

@[simp] theorem State.regWrite_queue (v : BitVec 64) : (s.regWrite f p off size v).queue = s.queue := by
  unfold State.regWrite
  split <;> simp

@[simp] theorem State.regRead_queue : (s.regRead f p off size).queue = s.queue := by
  unfold State.regRead
  (repeat' split) <;> simp

@[simp] theorem State.tlpError_queue : (s.tlpError f p).queue = s.queue := by simp [State.tlpError]

@[simp] theorem State.saMessage_queue : (s.saMessage off size op).queue = s.queue := by
  unfold State.saMessage
  split <;> simp

@[simp] theorem execRegisterWrite_queue (p : RegPath) (off : BitVec 24) (size : BitVec 8) :
    Answers s.queue (execRegisterWrite p off size op s) := by
  unfold execRegisterWrite
  (repeat' split) <;> simp

end

/-! ### Every command -/

section
variable (s : State)

@[simp] theorem exec_queue (i : Instr) : Answers s.queue (exec i s) := by
  unfold exec
  split <;> simp

end

/-! ### A cycle with no command waiting (R10, R141) -/

section
variable (s : State)

@[simp] theorem State.condCycle_queue (n : Nat) (us : List Nat) :
    (s.condCycle n us).queue = s.queue := by simp [State.condCycle]

@[simp] theorem State.tickConds_queue : s.tickConds.queue = s.queue := by simp [State.tickConds]
@[simp] theorem State.tickFixed_queue : s.tickFixed.queue = s.queue := by simp [State.tickFixed]
@[simp] theorem State.tickClock_queue : s.tickClock.queue = s.queue := by simp [State.tickClock]

end

/-! ### The statements -/

/-- Settles O1: what `step` is on a queue that is not empty. -/
theorem stepRunsFrontCommand : Obligations.StepRunsFrontCommand := by
  unfold Obligations.StepRunsFrontCommand
  intro c rest s
  rfl

/-- What a command answers has the queue that the command was given. -/
theorem exec_pending {c : Instr} {s u : State} (h : exec c s = .next u) : u.pending = s.pending := by
  rw [← u.queue_eq, ← s.queue_eq]
  exact exec_queue s c u h

theorem tickClock_pending (s : State) : s.tickClock.pending = s.pending := by
  rw [← State.queue_eq, State.tickClock_queue, State.queue_eq]

/-- A step takes the front command off the queue, where one waits. -/
theorem step_pending {s u : State} (h : step s = .next u) : u.pending = s.pending.tail := by
  unfold step at h
  split at h
  · rename_i c rest waits
    rw [exec_pending h, waits, List.tail_cons]
  · rename_i idle
    obtain rfl := Host.Outcome.next.inj h
    rw [tickClock_pending, idle, List.tail_nil]

/-- Settles O29: every operation that a command or an idle cycle is made of leaves the queue as it is. -/
theorem commandsLeaveTheQueueAlone : Obligations.CommandsLeaveTheQueueAlone := by
  unfold Obligations.CommandsLeaveTheQueueAlone
  refine ⟨fun c s u => exec_pending, fun s u wf h => ?_⟩
  have rest := step_pending h
  refine ⟨rest, ?_⟩
  unfold QueueWf at wf ⊢
  rw [rest]
  exact List.all_eq_true.mpr fun c hc => List.all_eq_true.mp wf c (List.mem_of_mem_tail hc)

end Sys2Proof.Machine

end

section
/-! PROOFS. Ramer's integer, compare, branch and jump instructions, refused fetches, and scratch accesses (R114-R124). -/
namespace Sys2Proof.Machine

/-! ### Conditions (R121, R122) -/

theorem flag_isEq (x y : BitVec 64) : flag (isEq x y) = if x = y then 1 else 0 := by simp [flag, isEq]

theorem flag_isLt (x y : BitVec 64) : flag (isLt x y) = if x.toInt < y.toInt then 1 else 0 := by
  simp [flag, isLt, BitVec.slt]

theorem flag_isLtu (x y : BitVec 64) : flag (isLtu x y) = if x.toNat < y.toNat then 1 else 0 := by
  simp [flag, isLtu, BitVec.ult]

theorem minS_eq (x y : BitVec 64) : minS x y = if x.toInt < y.toInt then x else y := by simp [minS, isLt, BitVec.slt]

theorem maxS_eq (x y : BitVec 64) : maxS x y = if x.toInt < y.toInt then y else x := by simp [maxS, isLt, BitVec.slt]

/-! ### Integer and compare instructions (R121) -/

section
variable {s : State} {w : WfNo} {t : ThrNo} {i : Instr} {d a b : Reg} {f : BitVec 64 → BitVec 64 → BitVec 64}
  {imm v : BitVec 64}

/-- The register form writes its function of the two operands. -/
theorem computes_aluReg (h : Issues s w t) (he : exec i s = .next (aluReg w t i d a b f s))
    (hv : v = f (s.g w t a) (s.g w t b)) : Computes i s w t d v :=
  computes_of h he (by simp [hv])

/-- The immediate form writes its function of the operand and the immediate. -/
theorem computes_aluImm (h : Issues s w t) (he : exec i s = .next (aluImm w t i d a imm f s))
    (hv : v = f (s.g w t a) imm) : Computes i s w t d v :=
  computes_of h he (by simp [hv])

end

/-- A zero-extended immediate shifts by its low six bits (R118). -/
theorem shAmt_zimm (imm : BitVec 16) : shAmt (zimm imm) = imm.toNat % 64 := by
  simp [shAmt, zimm]

/-- Settles O4: each row is one of the two forms, with the function that R121 states. -/
theorem integerInstructionsWriteTheirResult : Obligations.IntegerInstructionsWriteTheirResult := by
  unfold Obligations.IntegerInstructionsWriteTheirResult
  intro s w t h d a b imm
  refine ⟨?add, ?sub, ?and, ?or, ?xor, ?shl, ?shr, ?sar, ?mul, ?mulh, ?divu, ?remu, ?min, ?max, ?seq, ?slt, ?sltu, ?clz,
    ?popc, ?addi, ?andi, ?ori, ?xori, ?shli, ?shri, ?sari, ?muli, ?slti, ?sltiu, ?seqi, ?lhi⟩
  case clz => exact fun n hn => computes_aluReg (b := 0) h rfl (by simp [clz64, hn])
  case min => exact computes_aluReg h rfl (minS_eq _ _).symm
  case max => exact computes_aluReg h rfl (maxS_eq _ _).symm
  case seq => exact computes_aluReg h rfl (flag_isEq _ _).symm
  case slt => exact computes_aluReg h rfl (flag_isLt _ _).symm
  case sltu => exact computes_aluReg h rfl (flag_isLtu _ _).symm
  case slti => exact computes_aluImm h rfl (flag_isLt _ _).symm
  case sltiu => exact computes_aluImm h rfl (flag_isLtu _ _).symm
  case seqi => exact computes_aluImm h rfl (flag_isEq _ _).symm
  case shli => exact computes_aluImm h rfl (by rw [shAmt_zimm])
  case shri => exact computes_aluImm h rfl (by rw [shAmt_zimm])
  case sari => exact computes_aluImm h rfl (by rw [shAmt_zimm])
  case popc => exact computes_aluReg (b := 0) h rfl rfl
  case lhi => exact computes_aluImm h rfl rfl
  case addi | andi | ori | xori | muli => exact computes_aluImm h rfl rfl
  all_goals exact computes_aluReg h rfl rfl

/-! ### Branches and jumps (R122) -/

/-- A legal fetch happens at the PC. -/
theorem fetchAt_of_legal {s : State} {w t : Nat} (h : (s.fetchAt w t).2 = true) :
    (s.fetchAt w t).1 = (s.thread w t).pc.zeroExtend 64 := by
  unfold State.fetchAt at h ⊢
  dsimp only at h ⊢
  split at h
  · contradiction
  · rfl

/-- The body sees the PC of the instruction. -/
@[simp] theorem issued_pc (s : State) (w t : Nat) : ((issuedState s w t).thread w t).pc = (s.thread w t).pc := by
  rw [issued_thread]
  rfl

theorem setG_zero (s : State) (w t : Nat) (v : BitVec 64) : s.setG w t 0 v = s := rfl

section
variable {s : State} {w : WfNo} {t : ThrNo} {i : Instr} {a b : Reg} {imm : BitVec 16} {c : BitVec 64 → BitVec 64 → Bool}
  {p : Prop} [Decidable p]

/-- A branch goes to its target where its comparison holds, and on where it does not. -/
theorem jumps_branch (h : Issues s w t) (he : exec i s = .next (branch w t i a b imm c s))
    (hc : c (s.g w t a) (s.g w t b) = true ↔ p) :
    Jumps i s w t 0 0 (if p then (s.fetchAt w t).1 + 4 * imm.signExtend 64 else (s.fetchAt w t).1 + 4) := by
  have pc := fetchAt_of_legal h.2.1
  by_cases hp : p
  · rw [if_pos hp, pc]
    refine jumps_of h he ?_
    simp [hc.mpr hp, branchTarget, simm, setG_zero]
  · rw [if_neg hp]
    exact computes_of (x := 0) h he (by simp [Bool.eq_false_of_not_eq_true (mt hc.mp hp), setG_zero])

end

/-- Settles O5: a branch by its comparison, a jump by its target. -/
theorem branchesAndJumpsMoveThePc : Obligations.BranchesAndJumpsMoveThePc := by
  unfold Obligations.BranchesAndJumpsMoveThePc
  intro s w t h d a b imm far pc
  have next : (issuedState s w t).nextPc w t = pc + 4 := by
    simp only [State.nextPc, issued_pc, pc, fetchAt_of_legal h.2.1]
  refine ⟨?beq, ?bne, ?blt, ?bge, ?bltu, ?bgeu, ?j, ?jal, ?jr⟩
  case beq => exact jumps_branch h rfl (by simp [isEq])
  case bne => exact jumps_branch h rfl (by simp [isEq])
  case blt => exact jumps_branch h rfl (by simp [isLt, BitVec.slt])
  case bge => exact jumps_branch h rfl (by simp [isLt, BitVec.slt])
  case bltu => exact jumps_branch h rfl (by simp [isLtu, BitVec.ult])
  case bgeu => exact jumps_branch h rfl (by simp [isLtu, BitVec.ult])
  case j => exact jumps_of h rfl rfl
  case jal => exact jumps_of (d := 31) h rfl (by rw [next]; rfl)
  case jr => exact jumps_of h rfl (by rw [next, issued_g])

/-! ### Refused fetches (R115, R123) -/

/-- An instruction of a thread whose budget is used up raises STEP_BUDGET (R115). -/
theorem raises_of_budget {s : State} {w : WfNo} {t : ThrNo} {i : Instr} {body : State → Eff} (h : s.canIssue w t = true)
    (he : exec i s = .next (ramer w t i body s))
    (hb : (s.thread w t).budget ≠ 0 ∧ (s.thread w t).budget ≤ (s.thread w t).steps) : Raises i s w t 5 0 := by
  intro hf
  have ok : (!(s.fetchAt w t).2 || fits i (s.fetchedWord w t)) = true := by
    cases hl : (s.fetchAt w t).2
    · rfl
    · exact hf hl
  rw [he]
  simp only [ramer, issue, h, ok, Bool.and_self, if_true, runBody, if_pos hb]

/-- An instruction at a refused address raises ILLEGAL (R123). -/
theorem raises_of_refused {s : State} {w : WfNo} {t : ThrNo} {i : Instr} {body : State → Eff} (h : s.canIssue w t = true)
    (he : exec i s = .next (ramer w t i body s))
    (hb : (s.thread w t).budget = 0 ∨ (s.thread w t).steps < (s.thread w t).budget) (hl : (s.fetchAt w t).2 = false) :
    Raises i s w t 1 0 := by
  intro _
  have left : ¬ ((s.thread w t).budget ≠ 0 ∧ (s.thread w t).budget ≤ (s.thread w t).steps) := by omega
  rw [he]
  simp only [ramer, issue, h, hl, Bool.not_false, Bool.true_or, Bool.and_self, if_true, runBody, if_neg left]

/-- With no refused target, a fetch is legal exactly in the image of the invocation's program. -/
theorem fetch_legal_iff {s : State} {w t : Nat} (h : (s.thread w t).badTarget = none) :
    (s.fetchAt w t).2 = true ↔
      ∃ p, s.program (s.thread w t).prog = some p ∧ p.base ≤ (s.thread w t).pc.toNat ∧
        (s.thread w t).pc.toNat < p.base + p.len := by
  have small : (s.thread w t).pc.toNat < 65536 := (s.thread w t).pc.isLt
  simp only [State.fetchAt, h, State.imageOf]
  cases s.program (s.thread w t).prog with
  | none => simp
  | some p => simp [inImage, small]

/-- Settles O6: STEP_BUDGET goes before ILLEGAL, and a fetch is legal in the program's image. -/
theorem illegalFetchTakesTheException : Obligations.IllegalFetchTakesTheException := by
  unfold Obligations.IllegalFetchTakesTheException
  intro s w t d a b h
  exact ⟨raises_of_budget h rfl, raises_of_refused h rfl, fetch_legal_iff⟩

end Sys2Proof.Machine
end

section
/-! PROOFS. Instructions that change the programs' objects, and scratch loads and stores (R114, R115, R124). -/
namespace Sys2Proof.Machine

/-! ### Instructions that change the programs' objects (R115) -/

/-- What the body of an instruction may have made of the issued state: register `d` holds `v`, and of the programs' objects
only what `soft` says has changed. -/
structure Effect (s v : State) (w : WfNo) (t : ThrNo) (d : Reg) (x : BitVec 64) (soft : Soft) : Prop where
  device : SameDevice s v
  tables : SameTables s v
  regs : v.regs = (s.setG w t d x).regs
  threads : v.soft.threads = (s.setThread w t (s.thread w t).stepped).soft.threads
  objects : v.soft = { soft with threads := v.soft.threads }

namespace Effect
variable {s v : State} {w : WfNo} {t : ThrNo} {d : Reg} {x : BitVec 64} {soft : Soft}

/-- The issued state, with further mileposts counted, then with other objects and a register written. -/
theorem of_counted {i u : State} (hcount : CountFrame (issuedState s w t) i) (hdev : SameDevice i u) (htab : u.tab = i.tab)
    (hregs : u.regs = (i.setG w t d x).regs) (hsoft : u.soft = { soft with threads := i.soft.threads }) :
    Effect s u w t d x soft := by
  obtain ⟨device, tables, same, regs⟩ := (issued_count s w t).trans hcount
  refine ⟨?_, ?_, ?_, ?_, ?_⟩
  · unfold SameDevice at hdev device ⊢
    simp only [hdev, device]
    simp
  · intro tbl idx word ht hi hw
    have := tables tbl idx word ht hi hw
    simpa [State.wordAt, htab] using this
  · rw [hregs]
    unfold State.setG
    split <;> simp [regs]
  · rw [hsoft, same]
  · rw [hsoft]

/-- The issued state with other objects and a register written. -/
theorem of_issued {u : State} (hdev : SameDevice (issuedState s w t) u) (htab : u.tab = (issuedState s w t).tab)
    (hregs : u.regs = ((issuedState s w t).setG w t d x).regs)
    (hsoft : u.soft = { soft with threads := (issuedState s w t).soft.threads }) : Effect s u w t d x soft :=
  of_counted (.refl _) hdev htab hregs hsoft

theorem thread_self (h : Effect s v w t d x soft) : v.thread w t = (s.thread w t).stepped := by
  unfold State.thread
  rw [h.threads]
  exact tget_tset_self _ _ _ _

theorem thread_other (h : Effect s v w t d x soft) : SameOtherThreads s v w t := by
  intro w' t' hne
  unfold State.thread
  rw [h.threads]
  exact (State.thread_setThread s w t _ w' t').trans (if_neg (by rw [thKey_inj]; exact hne))

theorem g_eq (h : Effect s v w t d x soft) (w' t' r : Nat) : v.g w' t' r = (s.setG w t d x).g w' t' r := by
  unfold State.g
  rw [h.regs]

end Effect

/-- Where such an instruction goes on, and what it leaves alone. -/
theorem goes_of_effect {s v : State} {w : WfNo} {t : ThrNo} {d : Reg} {x : BitVec 64} {soft : Soft}
    (h : Effect s v w t d x soft) (target : BitVec 64) :
    let u := finish v w t target (s.thread w t).single
    Writes s u w t d x ∧ GoesTo s u w t target ∧ RamerFrame s u w t soft := by
  intro u
  have self := h.thread_self
  obtain ⟨hfetch, hu, pc, bad, hthread⟩ := finish_spec v w t target (s.thread w t).single (by rw [self]; rfl)
  have hu : u = v.setThread w t (u.thread w t) := hu
  have hg (w' t' r : Nat) : u.g w' t' r = (s.setG w t d x).g w' t' r := by
    rw [hu, State.g_setThread, h.g_eq]
  refine ⟨?_, ⟨hfetch, pc, bad, ?_⟩, ?_, ?_, ?_, ?_, ?_⟩
  · intro r
    rw [hg, State.g_setG]
    rcases eq_or_ne r 0 with rfl | hr
    · simp
    · have hr' : (r : Nat) ≠ 0 := fun e => hr (Fin.ext e)
      rcases eq_or_ne r d with rfl | hd
      · simp [hr, hr']
      · have hd' : (r : Nat) ≠ d := fun e => hd (Fin.ext e)
        simp [hr, hr', hd, hd']
  · exact hthread.trans (by rw [self]; rfl)
  · rw [hu]
    simpa [SameDevice] using h.device
  · rw [hu]
    simpa [SameTables] using h.tables
  · intro w' t' r hne
    rw [hg, State.g_setG]
    rcases eq_or_ne (r : Nat) 0 with hr | hr
    · simp [hr, State.g]
    · rw [if_neg hr, if_neg]
      rintro ⟨_, e⟩
      exact hne ((thKey_inj w' w t' t).mp (by omega))
  · intro w' t' hne
    rw [hu, State.thread_setThread, if_neg (by rw [thKey_inj]; exact hne)]
    exact h.thread_other w' t' hne
  · rw [hu]
    have := h.objects
    simp only [State.setThread]
    rw [this]

section
variable {i : Instr} {s v : State} {w : WfNo} {t : ThrNo} {body : State → Eff} {d : Reg} {x : BitVec 64} {soft : Soft}

theorem acts_of (h : Issues s w t) (he : exec i s = .next (ramer w t i body s)) (hb : body (issuedState s w t) = .next v)
    (hv : Effect s v w t d x soft) : Acts i s w t d x soft :=
  fun hf => ⟨_, does_of h he hb hf, goes_of_effect hv _⟩

end

/-! ### Scratch loads and stores (R114, R124) -/

@[simp] theorem issued_scratch (s : State) (w t : Nat) : (issuedState s w t).soft.scratch = s.soft.scratch := by
  rw [issued_soft]
  rfl

@[simp] theorem issued_scr (s : State) (w t w' a n : Nat) : (issuedState s w t).scr w' a n = s.scr w' a n := by
  simp [State.scr]

@[simp] theorem issued_scratchAt (s : State) (w t : Nat) (a : BitVec 64) (n al : Nat) :
    (issuedState s w t).scratchAt w t a n al = s.scratchAt w t a n al := by
  simp only [State.scratchAt, issued_thread]
  rfl

@[simp] theorem issued_ea (s : State) (w t : Nat) (a : Reg) (imm : BitVec 16) :
    (issuedState s w t).ea w t a imm = s.ea w t a imm := by
  simp [State.ea]

section
variable {i : Instr} {s : State} {w : WfNo} {t : ThrNo} {d a : Reg} {imm : BitVec 16} {n : Nat} {ext : Nat → BitVec 64}

/-- The aligned bytes of an access inside the window. -/
theorem scratchAt_inside (h : (s.ea w t a imm).toNat % n = 0 ∧ (s.ea w t a imm).toNat + n ≤ (s.thread w t).winSize) :
    s.scratchAt w t (s.ea w t a imm) n n = some ((s.thread w t).winBase + (s.ea w t a imm).toNat) := if_pos h

theorem scratchAt_outside
    (h : ¬ ((s.ea w t a imm).toNat % n = 0 ∧ (s.ea w t a imm).toNat + n ≤ (s.thread w t).winSize)) :
    s.scratchAt w t (s.ea w t a imm) n n = none := if_neg h

theorem computes_loadScr (h : Issues s w t) (he : exec i s = .next (loadScr w t i d a imm n ext s))
    (hin : (s.ea w t a imm).toNat % n = 0 ∧ (s.ea w t a imm).toNat + n ≤ (s.thread w t).winSize) {v : Nat}
    (hv : v = leNat (s.scr w ((s.thread w t).winBase + (s.ea w t a imm).toNat) n)) {x : BitVec 64} (hx : x = ext v) :
    Computes i s w t d x :=
  computes_of h he (by simp [scratchAt_inside hin, hv, hx])

theorem raises_loadScr (h : Issues s w t) (he : exec i s = .next (loadScr w t i d a imm n ext s))
    (hout : ¬ ((s.ea w t a imm).toNat % n = 0 ∧ (s.ea w t a imm).toNat + n ≤ (s.thread w t).winSize)) :
    Raises i s w t 4 0 :=
  raises_of h he (by simp [scratchAt_outside hout])

theorem raises_storeScr (h : Issues s w t) (he : exec i s = .next (storeScr w t i d a imm n s))
    (hout : ¬ ((s.ea w t a imm).toNat % n = 0 ∧ (s.ea w t a imm).toNat + n ≤ (s.thread w t).winSize)) :
    Raises i s w t 4 0 :=
  raises_of h he (by simp [scratchAt_outside hout])

theorem stores_storeScr (h : Issues s w t) (he : exec i s = .next (storeScr w t i d a imm n s))
    (hin : (s.ea w t a imm).toNat % n = 0 ∧ (s.ea w t a imm).toNat + n ≤ (s.thread w t).winSize) :
    StoresScratch i s w t ((s.thread w t).winBase + (s.ea w t a imm).toNat) (leBytes n (s.g w t d).toNat) := by
  intro hf
  let p := (s.thread w t).winBase + (s.ea w t a imm).toNat
  let bs := leBytes n (s.g w t d).toNat
  have effect : Effect s ((issuedState s w t).setScr w p bs) w t 0 0 (s.setScr w p bs).soft :=
    .of_issued (by simp [SameDevice, State.setScr]) rfl rfl (by simp [State.setScr, issued_soft, State.setThread])
  obtain ⟨u, hu, writes, goes, device, tables, regs, threads, soft⟩ :=
    acts_of h he (by simp [scratchAt_inside hin, p, bs]) effect hf
  have hs : u.soft.scratch = _ := congrArg Soft.scratch soft
  refine ⟨u, hu, writes, goes, ⟨device, tables, regs, threads, by rw [hs]; exact soft⟩, ?_, fun b hb => ?_⟩
  · rw [State.scr, hs]
    exact Mem.readN_writeN _ _ _
  · rw [hs]
    exact Mem.read_writeN_out _ _ _ _ hb

end

/-- Settles O8: each row is a load or a store of its number of bytes. -/
theorem scratchLoadsAndStores : Obligations.ScratchLoadsAndStores := by
  unfold Obligations.ScratchLoadsAndStores
  intro s w t h d a imm ea base inside bytesAt
  refine ⟨?ldb, ?ldbu, ?ldh, ?ldhu, ?ldw, ?ldwu, ?ldd, ?stb, ?sth, ?stw, ?std, ?ldb', ?ldbu', ?ldh', ?ldhu', ?ldw', ?ldwu',
    ?ldd', ?stb', ?sth', ?stw', ?std'⟩
  case ldb | ldbu | ldh | ldhu | ldw | ldwu | ldd => exact fun hin v hv => computes_loadScr h rfl hin hv rfl
  case stb | sth | stw | std => exact stores_storeScr h rfl
  case ldb' | ldbu' | ldh' | ldhu' | ldw' | ldwu' | ldd' => exact raises_loadScr h rfl
  case stb' | sth' | stw' | std' => exact raises_storeScr h rfl

end Sys2Proof.Machine
end

section
/-! PROOFS. Words not listed, TRAP, and an uncorrectable error at a fetch: ends of invocations and restarts (R117, R141-R144,
R164, R165). -/
namespace Sys2Proof.Machine

/-! ### What a halt leaves alone (R197, R425) -/

/-- The programs' objects and the AON units are the same. -/
structure HaltFrame (s u : State) : Prop where
  soft : u.soft = s.soft
  aon : u.aon = s.aon

theorem HaltFrame.trans {s u v : State} (h : HaltFrame s u) (k : HaltFrame u v) : HaltFrame s v :=
  ⟨k.soft.trans h.soft, k.aon.trans h.aon⟩

theorem OnlyTables.haltFrame {s u : State} (h : OnlyTables s u) : HaltFrame s u := by
  rw [h]
  exact ⟨rfl, rfl⟩

theorem OnlyTraffic.haltFrame {s u : State} (h : OnlyTraffic s u) : HaltFrame s u := by
  rw [h]
  exact ⟨rfl, rfl⟩

theorem haltFrame_ownerDown (s : State) (c : Nat) : HaltFrame s (s.ownerDown c) := by
  unfold State.ownerDown
  split <;> exact ⟨rfl, rfl⟩

theorem haltFrame_decodersDropped (s : State) (l : Nat) : HaltFrame s (decodersDropped s l) := by
  have decoders : HaltFrame s
      ((List.range 64).foldl (fun (v : State) i => v.setDecoder (16 * l + i / 4) (i % 4) Decoder.init) s) :=
    List.foldlRecOn (motive := HaltFrame s) _ _ ⟨rfl, rfl⟩ (fun v hv i _ => hv.trans ⟨rfl, rfl⟩)
  exact decoders.trans (onlyTables_tagCleared _ l).haltFrame

theorem haltFrame_headDropped (s : State) (l : Nat) : HaltFrame s (headDropped s l) := by
  have cleared : HaltFrame s (linkCleared s l) := ⟨rfl, rfl⟩
  exact (((cleared.trans (onlyTables_portShows _ l 0 0 0 0).haltFrame).trans (haltFrame_decodersDropped _ l)).trans
    (onlyTables_isolationEnded _ l).haltFrame).trans (requestsDropped_spec _ l).1.haltFrame

theorem haltFrame_linkLost (s : State) {l : Nat} (hl : l < 33) : HaltFrame s (s.linkLost l) := by
  by_cases hup : (s.link l).up = true
  · by_cases hhead : l < 32
    · rw [linkLost_head hup hhead]
      exact (haltFrame_headDropped s l).trans (haltFrame_ownerDown _ _)
    · obtain rfl : l = 32 := by omega
      rw [linkLost_endpoint hup]
      exact HaltFrame.trans (u := linkCleared s 32) ⟨rfl, rfl⟩ (haltFrame_ownerDown _ 0)
  · rw [linkLost_down (by simpa using hup)]
    exact ⟨rfl, rfl⟩

theorem haltFrame_dropQueues (s : State) : HaltFrame s s.dropQueues := ⟨rfl, rfl⟩

theorem haltFrame_halt (s : State) : HaltFrame s s.halt := by
  unfold State.halt
  extract_lets _ v
  have halted : HaltFrame s (v.wr FAULT.HALTED 0 1) := ⟨rfl, rfl⟩
  exact (List.foldlRecOn (motive := HaltFrame s) _ _ halted
    (fun v hv l hl => hv.trans (haltFrame_linkLost v (List.mem_range.mp hl)))).trans (haltFrame_dropQueues _)

/-! ### Pending reports -/

/-- A report of a unit with a code is pending. -/
def Pends (s : State) (unit code : Nat) : Prop := ∃ r ∈ s.aon.reports, r.unit = unit ∧ r.code = code

theorem pends_of_aon {s u : State} {unit code : Nat} (h : Pends s unit code) (same : u.aon = s.aon) :
    Pends u unit code := by
  unfold Pends
  rwa [same]

/-- A further fault withdraws no report. -/
theorem pends_report {s : State} {unit code : Nat} (h : Pends s unit code) (u c cls detail : Nat) (alarm : Bool) :
    Pends (s.report u c cls detail alarm) unit code := by
  obtain ⟨r, hr, hkind⟩ := h
  unfold Pends State.report
  split
  · refine ⟨_, List.mem_map_of_mem hr, ?_⟩
    split <;> exact hkind
  · exact ⟨r, List.mem_append_left _ hr, hkind⟩

theorem fatal_soft (s : State) (unit code detail : Nat) : (s.fatal unit code detail).soft = s.soft := by
  unfold State.fatal
  split
  · simp
  · rw [(haltFrame_halt _).soft, report_soft]

theorem pends_fatal {s : State} {unit code : Nat} (h : Pends s unit code) (u c detail : Nat) :
    Pends (s.fatal u c detail) unit code := by
  unfold State.fatal
  split
  · exact pends_report h ..
  · exact pends_of_aon (pends_report h ..) (haltFrame_halt _).aon

/-! ### Ends of invocations (R144, R157) -/

@[simp] theorem detachOps_thread (s : State) (w t : Nat) : (s.detachOps w t).thread = s.thread := rfl

@[simp] theorem orphanMoves_thread (s : State) (w t : Nat) : (s.orphanMoves w t).thread = s.thread := rfl

@[simp] theorem finishCmd_thread (s : State) (ld ring idx : Nat) (status : BitVec 8) (result : BitVec 64) :
    (s.finishCmd ld ring idx status result).thread = s.thread := rfl

theorem CountFrame.thread {s u : State} (h : CountFrame s u) : u.thread = s.thread := by
  obtain ⟨-, -, soft, -⟩ := h
  unfold State.thread
  rw [soft]

/-- A thread whose invocation has ended. -/
def Thread.ended (x : Thread) (kind : BitVec 2) (status : BitVec 16) : Thread :=
  { x with st := .idle, dbg := false, single := false, wait := .none, staged := [], badTarget := none, run := none,
           stall := none, lastProg := x.prog, endStatus := status, endKind := kind }

/-- What an end leaves before it is counted: the thread's record of it, and the RUN command that it answered. -/
def endRecorded (s : State) (w t : Nat) (kind : BitVec 2) (status : BitVec 16) (runStatus : BitVec 8)
    (result : BitVec 64) : State :=
  let v := (s.detachOps w t).setThread w t ((s.thread w t).ended kind status)
  match (s.thread w t).run with
  | some (ld, ring, idx) => v.finishCmd ld ring idx runStatus result
  | none => v

section
variable (s : State) (w t : Nat) (kind : BitVec 2) (status : BitVec 16) (runStatus : BitVec 8) (result : BitVec 64)

theorem endInvocation_count :
    CountFrame (endRecorded s w t kind status runStatus result) (s.endInvocation w t kind status runStatus result) := by
  unfold State.endInvocation endRecorded
  dsimp only [detachOps_thread]
  rcases (s.thread w t).run with _ | ⟨ld, ring, idx⟩
  · exact .refl _
  · exact countFrame_fixed _ 538 (by omega)

/-- The parts of the device beside the programs' objects and the slices' queues. -/
theorem endRecorded_frame : ∃ soft coh, endRecorded s w t kind status runStatus result = { s with soft := soft, coh := coh } := by
  unfold endRecorded
  dsimp only
  split <;> exact ⟨_, _, rfl⟩

theorem endRecorded_thread : (endRecorded s w t kind status runStatus result).thread =
    (s.setThread w t ((s.thread w t).ended kind status)).thread := by
  unfold endRecorded
  dsimp only
  split <;> rfl

theorem endRecorded_answers {c : RingCmd} (hc : c ∈ s.soft.cmds) (hrun : (s.thread w t).run = some (c.ld, c.ring, c.idx)) :
    { c with st := .done runStatus result } ∈ (endRecorded s w t kind status runStatus result).soft.cmds := by
  unfold endRecorded
  dsimp only
  rw [hrun]
  refine List.mem_map.mpr ⟨c, hc, if_pos ⟨rfl, rfl, rfl⟩⟩

end

/-! ### Exceptions of threads 1 to 3 (R144) -/

theorem movesOut_detachOps (s : State) (w t w' t' : Nat) : (s.detachOps w t).movesOut w' t' = s.movesOut w' t' := by
  unfold State.movesOut State.detachOps
  dsimp only
  rw [List.filter_map, List.length_map]
  congr 2
  funext j
  cases hj : j.origin <;> simp only [Function.comp_apply, hj]
  case instr w'' t'' d =>
    by_cases hown : w'' = w ∧ t'' = t
    · simp [hown]
    · simp [hown, hj]

theorem CountFrame.movesOut {s u : State} (h : CountFrame s u) : u.movesOut = s.movesOut := by
  obtain ⟨-, -, soft, -⟩ := h
  unfold State.movesOut
  rw [soft]

/-- An exception is counted, and outside a tenant it is reported (R144). -/
def excReported (s : State) (w t code trap addr : Nat) : State :=
  match (s.thread w t).kind with
  | .tenant _ => s.event (uid 8 w) 4
  | _ => (s.event (uid 8 w) 4).report (uid 8 w) 0x1D 1
      ((s.thread w t).prog % 256 + t * 2 ^ 8 + code * 2 ^ 10 + trap * 2 ^ 18 + addr % 2 ^ 16 * 2 ^ 34)

section
variable {s : State} {w t code trap addr : Nat}

/-- What an exception leaves alone but for the AON units. -/
theorem excReported_frame : (excReported s w t code trap addr).soft = s.soft ∧ (excReported s w t code trap addr).regs = s.regs ∧
    (excReported s w t code trap addr).dram = s.dram ∧ (excReported s w t code trap addr).plc = s.plc ∧
    (excReported s w t code trap addr).own = s.own := by
  obtain ⟨device, -, soft, regs⟩ := countFrame_event s (uid 8 w) 4
  unfold SameDevice at device
  have report (v : State) (u c cls d : Nat) : ∃ o, v.report u c cls d = { v with aon := o } := by
    unfold State.report
    split <;> exact ⟨_, rfl⟩
  unfold excReported
  split
  · simp [device, soft, regs]
  · obtain ⟨o, ho⟩ := report (s.event (uid 8 w) 4) (uid 8 w) 0x1D 1
      ((s.thread w t).prog % 256 + t * 2 ^ 8 + code * 2 ^ 10 + trap * 2 ^ 18 + addr % 2 ^ 16 * 2 ^ 34)
    rw [ho]
    simp [device, soft, regs]

theorem excReported_pends (h : (s.thread w t).kind = .owner) : Pends (excReported s w t code trap addr) (uid 8 w) 0x1D := by
  unfold excReported
  rw [h]
  exact report_pends ..

/-- With no MOVE outstanding, an exception but STEP_BUDGET ends the invocation of a thread of 1 to 3 at once. -/
theorem takeException_ends (ht : t ≠ 0) (hcode : code ≠ 5) (hmoves : s.movesOut w t = 0) :
    s.takeException w t code trap addr = ((excReported s w t code trap addr).detachOps w t).endInvocation w t 0b01
      (BitVec.ofNat 16 code) 0x0D (excResult code trap addr) := by
  have count := countFrame_event s (uid 8 w) 4
  have ends {v : State} (hv : v.movesOut w t = 0) : v.endWhenMoved w t 0b01 (BitVec.ofNat 16 code) 0x0D
      (excResult code trap addr) = (v.detachOps w t).endInvocation w t 0b01 (BitVec.ofNat 16 code) 0x0D
      (excResult code trap addr) := by
    unfold State.endWhenMoved
    dsimp only
    rw [movesOut_detachOps, if_pos hv]
  have moves : (excReported s w t code trap addr).movesOut w t = 0 := by
    unfold State.movesOut at hmoves ⊢
    rw [excReported_frame.1, hmoves]
  rw [← ends moves]
  unfold State.takeException excReported
  dsimp only
  rw [if_neg ht, count.thread]
  cases (s.thread w t).kind <;> simp only [if_neg hcode]

end

/-! ### Restarts (R164, R165) -/

/-- The threads and the wayfinders' own states are what they were, and the reports still pend. -/
structure RestartFrame (s u : State) : Prop where
  threads : u.soft.threads = s.soft.threads
  wfs : u.soft.wfs = s.soft.wfs
  pends : ∀ unit code, Pends s unit code → Pends u unit code

theorem RestartFrame.trans {s u v : State} (h : RestartFrame s u) (k : RestartFrame u v) : RestartFrame s v :=
  ⟨k.threads.trans h.threads, k.wfs.trans h.wfs, fun unit code hp => k.pends unit code (h.pends unit code hp)⟩

theorem RestartFrame.thread {s u : State} (h : RestartFrame s u) : u.thread = s.thread := by
  unfold State.thread
  rw [h.threads]

theorem RestartFrame.wf {s u : State} (h : RestartFrame s u) : u.wf = s.wf := by
  unfold State.wf
  rw [h.wfs]

theorem restartFrame_abortUnservable (s : State) : RestartFrame s s.abortUnservable := by
  unfold State.abortUnservable
  exact List.foldlRecOn (motive := RestartFrame s) _ _ ⟨rfl, rfl, fun _ _ h => h⟩
    (fun v hv c _ => hv.trans ⟨rfl, rfl, fun _ _ h => h⟩)

theorem restartFrame_rewriteStore (s : State) (w : Nat) : RestartFrame s (s.rewriteStore w) := by
  unfold State.rewriteStore
  refine List.foldlRecOn (motive := RestartFrame s) _ _ ⟨rfl, rfl, fun _ _ h => h⟩ (fun v hv np _ => hv.trans ?_)
  dsimp only
  repeat' split
  all_goals exact ⟨rfl, rfl, fun _ _ h => h⟩

theorem restartFrame_report (s : State) (unit code cls detail : Nat) (alarm : Bool) :
    RestartFrame s (s.report unit code cls detail alarm) :=
  ⟨by rw [report_soft], by rw [report_soft], fun _ _ h => pends_report h ..⟩

theorem restartFrame_fatal (s : State) (unit code detail : Nat) : RestartFrame s (s.fatal unit code detail) :=
  ⟨by rw [fatal_soft], by rw [fatal_soft], fun _ _ h => pends_fatal h ..⟩

/-- A thread's end for a restart, where an invocation stands. -/
def endedForRestart (s : State) (w t : Nat) : State :=
  let s := s.orphanMoves w t
  if (s.thread w t).st = .idle then s else s.endInvocation w t 0b11 0xFE 0x0C 0

/-- It is idle, and no other thread and no report is touched. -/
theorem endedForRestart_spec (s : State) (w t : Nat) :
    ((endedForRestart s w t).thread w t).st = .idle ∧
    (∀ t', t' ≠ t → (endedForRestart s w t).thread w t' = s.thread w t') ∧ (endedForRestart s w t).aon = s.aon := by
  unfold endedForRestart
  dsimp only
  split
  case isTrue idle => exact ⟨idle, fun _ _ => rfl, rfl⟩
  case isFalse =>
    have count := endInvocation_count (s.orphanMoves w t) w t 0b11 0xFE 0x0C 0
    obtain ⟨soft, coh, frame⟩ := endRecorded_frame (s.orphanMoves w t) w t 0b11 0xFE 0x0C 0
    refine ⟨?_, fun t' hne => ?_, ?_⟩
    · rw [count.thread, endRecorded_thread, State.thread_setThread_self]
      rfl
    · rw [count.thread, endRecorded_thread, State.thread_setThread, if_neg (by unfold thKey; omega)]
      rfl
    · obtain ⟨device, -⟩ := count
      unfold SameDevice at device
      simp only [device, frame]
      rfl

theorem endThreads_spec (s : State) (w : Nat) :
    (∀ t, 1 ≤ t → t ≤ 3 → ((s.endThreads w).thread w t).st = .idle) ∧ (s.endThreads w).aon = s.aon := by
  have steps : s.endThreads w = endedForRestart (endedForRestart (endedForRestart s w 1) w 2) w 3 := rfl
  obtain ⟨idle1, -, aon1⟩ := endedForRestart_spec s w 1
  obtain ⟨idle2, other2, aon2⟩ := endedForRestart_spec (endedForRestart s w 1) w 2
  obtain ⟨idle3, other3, aon3⟩ := endedForRestart_spec (endedForRestart (endedForRestart s w 1) w 2) w 3
  rw [steps]
  refine ⟨fun t lo hi => ?_, aon3.trans (aon2.trans aon1)⟩
  obtain rfl | rfl | rfl : t = 1 ∨ t = 2 ∨ t = 3 := by omega
  · rw [other3 1 (by decide), other2 1 (by decide), idle1]
  · rw [other3 2 (by decide), idle2]
  · exact idle3

/-- A wayfinder's threads as a restart leaves them. -/
def restartIdle (s : State) (w : Nat) : State :=
  let v := ((s.endThreads w).orphanMoves w 0).detachOps w 0
  let x := v.thread w 0
  v.setThread w 0
    { x with st := .idle, dbg := false, single := false, staged := [], wait := .none, badTarget := none, stall := none }

/-- The restarts of a wayfinder within the last 10 s. -/
def recentRestarts (s : State) (w : Nat) : List Nat :=
  (s.wf w).restarts.filter (fun at_ => s.time.fclk < at_ + 10000000000)

/-- A wayfinder restarting, its FCLK cycle noted and its scratch cleared. -/
def restartNoted (s : State) (w : Nat) : State :=
  let v := s.setWf w { s.wf w with restarts := s.time.fclk :: recentRestarts s w, restarting := true }
  { v with soft.scratch := v.soft.scratch.filter (fun c => c.1 / 2 ^ 18 ≠ w) }

/-- A wayfinder stopped for good, after `n` restarts (R165). -/
def wfStops (s : State) (w n : Nat) : State :=
  let s := s.setWf w { s.wf w with stopped := true, restarting := false }
  let s := (s.report (uid 8 w) 0x20 2 n).abortUnservable
  if s.lowestRunning.isNone then s.fatal (uid 8 0) 0x21 0 else s

theorem restartWf_eq (s : State) (w : Nat) : s.restartWf w =
    if 3 ≤ (recentRestarts (restartIdle s w) w).length then
      wfStops (restartNoted (restartIdle s w) w) w ((recentRestarts (restartIdle s w) w).length + 1)
    else (restartNoted (restartIdle s w) w).rewriteStore w := rfl

theorem restartIdle_spec (s : State) (w : Nat) :
    (∀ t : ThrNo, ((restartIdle s w).thread w t).st = .idle) ∧ (restartIdle s w).aon = s.aon := by
  obtain ⟨idle, aon⟩ := endThreads_spec s w
  unfold restartIdle
  generalize s.endThreads w = v at idle aon
  refine ⟨fun t => ?_, aon⟩
  dsimp only
  rw [State.thread_setThread]
  split
  · rfl
  · rename_i hne
    rw [detachOps_thread, orphanMoves_thread]
    exact idle t (by unfold thKey at hne; omega) (by omega)

theorem restartNoted_spec (s : State) (w : Nat) : (restartNoted s w).thread = s.thread ∧
    ((restartNoted s w).wf w).restarting = true ∧ (restartNoted s w).aon = s.aon :=
  ⟨rfl, congrArg Wf.restarting (State.wf_setWf_self s w _), rfl⟩

theorem wfStops_spec (s : State) (w n : Nat) : (wfStops s w n).thread = s.thread ∧ ((wfStops s w n).wf w).stopped = true ∧
    ∀ unit code, Pends s unit code → Pends (wfStops s w n) unit code := by
  unfold wfStops
  extract_lets src e f
  have stopped : (e.wf w).stopped = true := congrArg Wf.stopped (State.wf_setWf_self s w _)
  have toF : RestartFrame e f := (restartFrame_report ..).trans (restartFrame_abortUnservable _)
  have toEnd : RestartFrame e (if f.lowestRunning.isNone = true then f.fatal (uid 8 0) 0x21 0 else f) := by
    split
    · exact toF.trans (restartFrame_fatal ..)
    · exact toF
  exact ⟨toEnd.thread, by rw [toEnd.wf, stopped], toEnd.pends⟩

/-- After a restart no thread of the wayfinder runs, and it is restarting or has stopped. -/
theorem restartWf_spec (s : State) (w : Nat) : (∀ t : ThrNo, ((s.restartWf w).thread w t).st = .idle) ∧
    (((s.restartWf w).wf w).restarting = true ∨ ((s.restartWf w).wf w).stopped = true) ∧
    ∀ unit code, Pends s unit code → Pends (s.restartWf w) unit code := by
  obtain ⟨idle, aon⟩ := restartIdle_spec s w
  obtain ⟨thread, restarting, aon'⟩ := restartNoted_spec (restartIdle s w) w
  rw [restartWf_eq]
  generalize restartNoted (restartIdle s w) w = v at thread restarting aon'
  have pends : ∀ unit code, Pends s unit code → Pends v unit code := fun _ _ h => pends_of_aon h (aon'.trans aon)
  rw [← thread] at idle
  split
  · obtain ⟨same, stopped, keeps⟩ := wfStops_spec v w ((recentRestarts (restartIdle s w) w).length + 1)
    rw [same]
    exact ⟨idle, .inr stopped, fun unit code h => keeps unit code (pends unit code h)⟩
  · have frame := restartFrame_rewriteStore v w
    rw [frame.thread, frame.wf]
    exact ⟨idle, .inl restarting, fun unit code h => frame.pends unit code (pends unit code h)⟩

/-! ### Words not listed, and TRAP (R117, R141, R164) -/

/-- An instruction that stalls does at once what it starts. -/
theorem retries_of {i : Instr} {s : State} {w : WfNo} {t : ThrNo} {body : State → Eff} {f : State → State}
    (h : Issues s w t) (he : exec i s = .next (ramer w t i body s)) (hb : body (issuedState s w t) = .retry f)
    (hf : Fetched i s w t) :
    exec i s = .next (if (s.thread w t).single then (f s).setThread w t { (f s).thread w t with single := false } else f s) := by
  rw [he, ramer, issue_issues s w t _ body h hf, hb]

/-- The end of a debugger's single step changes no thread's state. -/
theorem st_setSingle (u : State) (w t t' : Nat) (b : Bool) :
    ((u.setThread w t { u.thread w t with single := b }).thread w t').st = (u.thread w t').st := by
  rw [State.thread_setThread]
  split
  · rename_i same
    obtain rfl : t' = t := by unfold thKey at same; omega
    rfl
  · rfl

/-- An uncorrectable error at the fetch restarts the wayfinder. -/
theorem exec_fetchError {s : State} {w : WfNo} {t : ThrNo} (h : Issues s w t) :
    ∃ u, exec (.illegalInstruction w ⟨t, true⟩) s = .next u ∧ (∀ t' : ThrNo, (u.thread w t').st = .idle) ∧
      ((u.wf w).restarting = true ∨ (u.wf w).stopped = true) ∧ Pends u (uid 8 w) 0x1E := by
  obtain ⟨idle, ended, pends⟩ := restartWf_spec (s.report (uid 8 w) 0x1E 2 (s.thread w t).pc.toNat) w
  have reported := pends _ _ (report_pends s (uid 8 w) 0x1E 2 (s.thread w t).pc.toNat false)
  refine ⟨_, retries_of h rfl rfl rfl, ?_⟩
  unfold State.wfUe
  split
  · rw [State.wf_setThread]
    exact ⟨fun t' => (st_setSingle _ w t t' false).trans (idle t'), ended, pends_of_aon reported (State.setThread_aon ..)⟩
  · exact ⟨idle, ended, reported⟩

/-- An invocation's end: the thread's record of it, the parts it leaves alone, the RUN answered, the reports kept. -/
theorem endInvocation_spec (v : State) (w t : Nat) (kind : BitVec 2) (status : BitVec 16) (runStatus : BitVec 8)
    (result : BitVec 64) :
    let u := v.endInvocation w t kind status runStatus result
    u.thread w t = (v.thread w t).ended kind status ∧
    (u.regs = v.regs ∧ u.dram = v.dram ∧ u.plc = v.plc ∧ u.own = v.own ∧ u.aon = v.aon) ∧
    ∀ c ∈ v.soft.cmds, (v.thread w t).run = some (c.ld, c.ring, c.idx) →
      { c with st := .done runStatus result } ∈ u.soft.cmds := by
  have count := endInvocation_count v w t kind status runStatus result
  have thread := (congrFun₂ count.thread w t).trans
    ((congrFun₂ (endRecorded_thread v w t kind status runStatus result) w t).trans (State.thread_setThread_self ..))
  obtain ⟨soft, coh, frame⟩ := endRecorded_frame v w t kind status runStatus result
  obtain ⟨device, -, sameSoft, regs⟩ := count
  unfold SameDevice at device
  refine ⟨thread, ?_, fun c hc hrun => sameSoft ▸ endRecorded_answers v w t kind status runStatus result hc hrun⟩
  simp [regs, device, frame]

/-- The end of a single step changes nothing of a thread whose invocation has ended. -/
theorem singleOver_ended {u : State} {w t : Nat} {x : Thread} {kind : BitVec 2} {status : BitVec 16} (b : Bool)
    (h : u.thread w t = x.ended kind status) :
    let r := if b then u.setThread w t { u.thread w t with single := false } else u
    r.thread w t = x.ended kind status ∧ ∃ threads, r = { u with soft.threads := threads } := by
  intro r
  cases b
  · exact ⟨h, u.soft.threads, rfl⟩
  · refine ⟨?_, _, rfl⟩
    change (u.setThread w t { u.thread w t with single := false }).thread w t = _
    rw [State.thread_setThread_self, h]
    rfl

theorem excReported_thread (s : State) (w t code trap addr : Nat) : (excReported s w t code trap addr).thread = s.thread := by
  unfold State.thread
  rw [excReported_frame.1]

/-- Settles O7: an exception ends the invocation as `endInvocation` does, once it is reported. -/
theorem illegalAndTrapEndTheInvocation : Obligations.IllegalAndTrapEndTheInvocation := by
  unfold Obligations.IllegalAndTrapEndTheInvocation
  refine ⟨fun s w t => exec_fetchError, fun s w t imm issues ht moves i code trap hi fetched => ?_⟩
  have raises : Raises i s w t code trap := by
    rcases hi with ⟨rfl, rfl, rfl⟩ | ⟨rfl, rfl, rfl⟩
    · exact raises_of issues rfl rfl
    · exact raises_of issues rfl rfl
  have code5 : code ≠ 5 := by omega
  have t0 : (t : Nat) ≠ 0 := fun e => ht (Fin.ext e)
  have ends := takeException_ends (trap := trap) (addr := (s.fetchAt w t).1.toNat) t0 code5 moves
  have raises := raises (fun _ => fetched)
  dsimp only at raises
  rw [ends] at raises
  generalize (s.fetchAt w t).1.toNat = addr at raises ⊢
  obtain ⟨soft, regs, dram, plc, own⟩ := excReported_frame (s := s) (w := w) (t := t) (code := code) (trap := trap) (addr := addr)
  have sameThread := excReported_thread s w t code trap addr
  have pends := excReported_pends (s := s) (w := w) (t := t) (code := code) (trap := trap) (addr := addr)
  generalize excReported s w t code trap addr = v at raises soft regs dram plc own sameThread pends
  obtain ⟨thread, ⟨uregs, udram, uplc, uown, uaon⟩, answers⟩ := endInvocation_spec (v.detachOps w t) w t 0b01
    (BitVec.ofNat 16 code) 0x0D (excResult code trap addr)
  generalize (v.detachOps w t).endInvocation w t 0b01 (BitVec.ofNat 16 code) 0x0D (excResult code trap addr) = u at *
  obtain ⟨thread', threads, frame⟩ := singleOver_ended (s.thread w t).single thread
  refine ⟨_, raises, ?_⟩
  generalize (if (s.thread w t).single then u.setThread w t { u.thread w t with single := false } else u) = r at *
  subst frame
  rw [thread']
  refine ⟨rfl, rfl, rfl, rfl, rfl, uregs.trans regs, udram.trans dram, uplc.trans plc, uown.trans own, ?_, fun owner => ?_⟩
  · rintro ld ring k run c hc rfl rfl rfl
    refine answers c (by rw [← soft] at hc; exact hc) ?_
    rw [detachOps_thread, sameThread, run]
  · exact pends_of_aon (pends owner) uaon

end Sys2Proof.Machine
end

section
/-! PROOFS. A tenant's TLD of a page where a window's INDEX is out of range (R125, R181, R471). -/
namespace Sys2Proof.Machine
open Sys2Proof.Tests

/-- A WINDOW index that no handle carries: the key of its SIZE is the key of the VALUE of fixed counter 539. -/
def countedWindow : Nat := 13 * 2 ^ 48 + 539

/-- A tenant of that window's LD may read page 0, as a store that waits for its commit point lists the window: enabled, from
region 0 on, and of the size that counter 539 shows, which its next issue carries over to 0 regions. -/
def countedReader : State :=
  let s := ((runs (.tenant (winLd countedWindow))).wr WINDOW.ENABLE countedWindow 1).wr WINDOW.SIZE countedWindow (2 ^ 26 - 1)
  codeAt (.tld 0 1 3 1) ({ s with uncommitted := [⟨0x02, countedWindow, 0, 0, 0, 0, 0⟩] }.setG 0 1 1 (hnd 8 0 0))

/-- What a thread's state is after a command. -/
def stAfter (r : Host.Outcome State Fault Refusal) (w t : Nat) : Option ThSt :=
  match r with
  | .next u => some (u.thread w t).st
  | _ => none

/-- The read raises TABLE_BOUNDS: once the issue is counted, the window holds no region. -/
theorem countedReader_ends : stAfter (exec (.tld 0 1 3 1) countedReader) 0 1 = some .idle := by decide +kernel

/-- An instruction that writes a register and goes on leaves its thread's state as it was. -/
theorem stAfter_finish_setG (s : State) (w : WfNo) (t : ThrNo) (d : Reg) (x target : BitVec 64) :
    stAfter (.next (finish ((issuedState s w t).setG w t d x) w t target (s.thread w t).single)) w t =
      some (s.thread w t).st := by
  obtain ⟨-, ⟨-, pc, bad, thread⟩, -⟩ := goes s w t d x target
  unfold stAfter
  dsimp only
  rw [thread]

/-- Refutes O9: in `countedReader` a TLD of page 0, which the tenant may read as it issues, ends the invocation. -/
theorem not_tableInstructionsReadStageAndSubmit : ¬ Obligations.TableInstructionsReadStageAndSubmit := by
  unfold Obligations.TableInstructionsReadStageAndSubmit
  intro holds
  have issued : Issues countedReader 0 1 := (issues_iff countedReader 0 1).mp (by decide +kernel)
  have fetched : Fetched (.tld 0 1 3 1) countedReader 0 1 := by
    unfold Fetched
    decide +kernel
  have running : (countedReader.thread 0 1).st = .running := by decide +kernel
  obtain ⟨reads, -⟩ := holds countedReader 0 1 issued 3 1 0
  have goesOn := congrArg (stAfter · 0 1) (reads (by decide +kernel) (by decide +kernel) fetched)
  have stays := goesOn.trans (stAfter_finish_setG countedReader 0 1 3 _ _)
  exact absurd (countedReader_ends.symm.trans (stays.trans (congrArg some running))) (by decide)

end Sys2Proof.Machine
end

section
/-! PROOFS. Submissions, WAIT and SLEEP, ports, MOVE, HEAT, the policy queue, counters, time, fences and HALT (R125-R146,
R162). -/
namespace Sys2Proof.Machine
open Sys2Proof.Tests

/-! ### What the body of an instruction reads as it was (R115, R471) -/

section
variable (s : State) (w t : Nat)

@[simp] theorem issued_time : (issuedState s w t).time = s.time := by
  rw [(issued_count s w t).time]
  rfl

@[simp] theorem issued_plc : (issuedState s w t).plc = s.plc := by
  obtain ⟨⟨-, -, -, -, -, -, -, -, plc, -⟩, -⟩ := issued_count s w t
  exact plc

@[simp] theorem issued_uncommitted : (issuedState s w t).uncommitted = s.uncommitted := by
  rw [(issued_count s w t).uncommitted]
  rfl

@[simp] theorem issued_record : (issuedState s w t).board = s.board := by
  obtain ⟨⟨board, -⟩, -⟩ := issued_count s w t
  exact board

@[simp] theorem issued_movesOut (w' t' : Nat) : (issuedState s w t).movesOut w' t' = s.movesOut w' t' := by
  unfold State.movesOut
  rw [issued_soft]
  rfl

@[simp] theorem issued_storesOut (w' t' : Nat) : (issuedState s w t).storesOut w' t' = s.storesOut w' t' := by
  unfold State.storesOut
  rw [issued_uncommitted]

@[simp] theorem issued_eventMask : (issuedState s w t).eventMask w t = s.eventMask w t := by
  unfold State.eventMask
  rw [issued_tenant]

@[simp] theorem issued_mailbox (f : Nat) (toDev : Bool) (m : Nat) :
    (issuedState s w t).mailbox f toDev m = s.mailbox f toDev m := by
  unfold State.mailbox
  rw [issued_soft]
  rfl

@[simp] theorem issued_bell (f : Nat) : (issuedState s w t).bell f = s.bell f := by
  unfold State.bell
  rw [issued_soft]
  rfl

@[simp] theorem issued_policyQ : (issuedState s w t).soft.policyQ = s.soft.policyQ := by
  rw [issued_soft]
  rfl

@[simp] theorem issued_cmds : (issuedState s w t).soft.cmds = s.soft.cmds := by
  rw [issued_soft]
  rfl

@[simp] theorem issued_hottestPage : (issuedState s w t).hottestPage = s.hottestPage := by
  unfold State.hottestPage
  rw [issued_plc]

/-- LD_COUNT is in the PORT table, which no counter touches. -/
theorem issued_ldExists {ld : Nat} (h : ld < 2 ^ 11) : (issuedState s w t).ldExists ld = s.ldExists ld := by
  have count := (issued_count s w t).inf (f := PORT.LD_COUNT) (i := ld / 16) (by decide) (by omega) (by decide)
  unfold State.ldExists State.headExists State.pgMode
  rw [count, issued_record]
  rfl

@[simp] theorem issued_selectorFault (v : BitVec 64) (kinds : List Nat) :
    (issuedState s w t).selectorFault w t v kinds = s.selectorFault w t v kinds := by
  have named : (issuedState s w t).namesObject v = s.namesObject v := by
    unfold State.namesObject
    rw [issued_ldExists s w t (by unfold pFunc; omega)]
  unfold State.selectorFault
  rw [issued_tenant, named]

end

/-! ### Submissions (R127, R128) -/

theorem countFrame_submitted (s : State) (w status : Nat) : CountFrame s (s.submitted w status) := by
  unfold State.submitted
  split
  · exact (countFrame_event _ _ _).trans (countFrame_fixed _ _ (by norm_num))
  · exact (countFrame_event _ _ _).trans (countFrame_fixed _ _ (by norm_num))

/-- Settles O10: a refused submission is counted, and stores nothing. -/
theorem submissionIsAtomic : Obligations.SubmissionIsAtomic := by
  unfold Obligations.SubmissionIsAtomic
  intro s w t x emptied refused
  have count := countFrame_submitted emptied w (emptied.admission x.stTbl x.stIdx x.staged)
  have result : (s.submit w t).2 = emptied.submitted w (emptied.admission x.stTbl x.stIdx x.staged) := if_neg refused
  rw [result]
  refine ⟨rfl, fun tbl idx word ht hi hw => ?_, count.uncommitted, ?_⟩
  · obtain ⟨-, tables, -⟩ := count
    rw [tables tbl idx word ht hi hw, State.wordAt_setThread]
  · rw [count.thread, State.thread_setThread_self]

/-! ### Suspensions (R157) -/

theorem suspends_of {i : Instr} {s v : State} {w : WfNo} {t : ThrNo} {body : State → Eff} {wait : Wait}
    (h : Issues s w t) (he : exec i s = .next (ramer w t i body s)) (hb : body (issuedState s w t) = .suspend v wait)
    (hv : v.time = s.time) : Suspends i s w t v wait := by
  intro hf
  rw [he, ramer, issue_issues s w t _ body h hf, hb, ← hv]
  rfl

/-- Settles O11. -/
theorem waitAndSleepFollowPendingEvents : Obligations.WaitAndSleepFollowPendingEvents := by
  unfold Obligations.WaitAndSleepFollowPendingEvents
  intro s w t h d a b _ j mask bits
  have taken : j.takeEvents w t mask = (bits, j.setThread w t { j.thread w t with pend := (s.thread w t).pend &&& ~~~ bits }) := by
    simp only [State.takeEvents, j, bits, issued_thread, issued_eventMask]
    rfl
  refine ⟨fun some_ => does_of h rfl ?_, fun none_ zero => computes_of h rfl ?_,
    fun none_ limit => suspends_of h rfl ?_ (issued_time s w t), suspends_of h rfl (by simp [j]) (issued_time s w t)⟩
  all_goals
    dsimp only
    rw [issued_g, issued_g, taken]
    dsimp only
  · exact if_pos some_
  · rw [if_neg (not_not_intro none_), if_pos zero]
  · rw [if_neg (not_not_intro none_), if_neg limit, issued_time]
    rfl

/-! ### Instructions of owner programs only (R162) -/

/-- Settles O30: each is an owner program's table store, or the TST itself. -/
theorem ownerStoreRowsArePrivileged : Obligations.OwnerStoreRowsArePrivileged := by
  unfold Obligations.OwnerStoreRowsArePrivileged
  intro s w t d a b _ bay un v win k e mask x m f g h tenant i hi
  simp only [List.mem_cons, List.not_mem_nil, or_false] at hi
  rcases hi with rfl | rfl | rfl | rfl | rfl | rfl | rfl | rfl | rfl | rfl | rfl | rfl | rfl | rfl | rfl | rfl | rfl | rfl | rfl | rfl
  case inr.inr.inr.inr.inr.inr.inr.inr.inr.inr.inr.inr.inr.inr.inr.inr.inr.inr.inr =>
    exact raises_of h rfl (by simp [State.storeFaults, tenant])
  all_goals exact privileged_of h rfl rfl tenant

/-! ### Ports (R130-R132) -/

/-- The management endpoint's first device-to-host mailbox, empty, is listed although it is as after reset. -/
def listedBox : State :=
  codeAt (.mback 0 1 3 1) ({ own with soft := { own.soft with mail := [(mailKey 256 true 0, Mailbox.init)] } }.setG 0 1 1
    (BitVec.ofNat 64 (3 * 2 ^ 30 + 256)))

/-- What is listed of the mailboxes after a command. -/
def mailAfter (r : Host.Outcome State Fault Refusal) : Option (Tab Mailbox) :=
  match r with
  | .next u => some u.soft.mail
  | _ => none

/-- Writing the empty mailbox back leaves it unlisted. -/
theorem listedBox_unlisted : mailAfter (exec (.mback 0 1 3 1) listedBox) = some [] := by decide +kernel

/-- Refutes O12: an MBACK of an empty mailbox writes it back, which in `listedBox` changes the programs' objects. -/
theorem not_portInstructionsReachTheirObject : ¬ Obligations.PortInstructionsReachTheirObject := by
  unfold Obligations.PortInstructionsReachTheirObject
  intro holds
  have issued : Issues listedBox 0 1 := (issues_iff listedBox 0 1).mp (by decide +kernel)
  have fetched : Fetched (.mback 0 1 3 1) listedBox 0 1 := by
    unfold Fetched
    decide +kernel
  obtain ⟨-, -, -, -, -, -, quiet, -⟩ := holds listedBox 0 1 issued 3 1 0
  obtain ⟨u, hu, -, -, -, -, -, -, soft⟩ := quiet (by decide +kernel) (by decide +kernel) fetched
  have mail : u.soft.mail = listedBox.soft.mail := by rw [soft]
  have unlisted := listedBox_unlisted
  rw [hu] at unlisted
  simp only [mailAfter, Option.some.injEq, mail] at unlisted
  exact absurd unlisted (by decide)

end Sys2Proof.Machine
end

section
/-! PROOFS. MOVE, HEAT, the policy queue, counters, time, fences and HALT (R134-R146). -/
namespace Sys2Proof.Machine

/-! ### MOVE (R134, R136, R137) -/

section
variable {i : Instr} {s : State} {w : WfNo} {t : ThrNo} {d a : Reg} {kind p : Nat}

/-- A MOVE of its own row's kind, with fewer than 16 outstanding, starts where its descriptor passes its checks. -/
theorem does_moveBody_accepted (h : Issues s w t) (he : exec i s = .next (moveBody kind w t i d a s))
    (hp : s.scratchAt w t (s.g w t a) 32 32 = some p) (hfree : s.movesOut w t < 16) (hk : leAt (s.scr w p 32) 0 1 = kind)
    (ok : (issuedState s w t).moveStatus (s.tenant w t) (s.scr w p 32) = 0) :
    Does i s w t ((((issuedState s w t).setScr w (p + 0x1C) [0xFF]).setG w t d 0).startJob
      ((issuedState s w t).moveJob w t (s.tenant w t) p (s.scr w p 32))) :=
  does_of h he (by simp [hp, hk, ok, not_le.mpr hfree])

/-- With the status of the failed check otherwise. -/
theorem does_moveBody_refused (h : Issues s w t) (he : exec i s = .next (moveBody kind w t i d a s))
    (hp : s.scratchAt w t (s.g w t a) 32 32 = some p) (hfree : s.movesOut w t < 16) (hk : leAt (s.scr w p 32) 0 1 = kind)
    {n : Nat} (hn : n = (issuedState s w t).moveStatus (s.tenant w t) (s.scr w p 32)) (fails : n ≠ 0) :
    Does i s w t ((issuedState s w t).setG w t d (BitVec.ofNat 64 n)) :=
  does_of h he (by simp [hp, hk, ← hn, fails, not_le.mpr hfree])

theorem raises_moveBody (h : Issues s w t) (he : exec i s = .next (moveBody kind w t i d a s))
    (hp : s.scratchAt w t (s.g w t a) 32 32 = none) : Raises i s w t 4 0 :=
  raises_of h he (by simp [hp])

end

/-- Settles O14: the four rows differ in the KIND they take. -/
theorem moveIsAcceptedOrRefused : Obligations.MoveIsAcceptedOrRefused := by
  unfold Obligations.MoveIsAcceptedOrRefused
  intro s w t h d a j ok
  refine ⟨fun p ⟨hp, free⟩ => ⟨?tier, ?copy, ?zero, ?rekey, ?refused⟩, fun p ⟨hp, free⟩ => ?others, fun outside => ?outside⟩
  case tier | copy | zero | rekey => exact does_moveBody_accepted h rfl hp free
  case refused => exact fun n hk => does_moveBody_refused h rfl hp free hk
  case others =>
    rintro i k (⟨rfl, rfl⟩ | ⟨rfl, rfl⟩ | ⟨rfl, rfl⟩) hk n
    all_goals exact does_moveBody_refused h rfl hp free hk
  case outside =>
    intro i hi
    simp only [List.mem_cons, List.not_mem_nil, or_false] at hi
    rcases hi with rfl | rfl | rfl | rfl
    all_goals exact raises_moveBody h rfl outside

/-! ### HEAT and the policy queue (R135, R140) -/

/-- Settles O16. -/
theorem ownerQueueAndHeatInstructions : Obligations.OwnerQueueAndHeatInstructions := by
  unfold Obligations.OwnerQueueAndHeatInstructions
  intro s w t h d a b sel j
  refine ⟨fun own cold => ?_, fun own x hot => ?_,
    fun own p (hp : s.scratchAt w t (s.g w t a) 72 8 = some p) => ⟨fun empty => ?_, fun c rest queue => ?_, ?_⟩, fun ten => ?_⟩
  · exact computes_of h rfl (by simp [own, cold])
  · exact does_of h rfl (by simp [own, hot, j])
  · exact computes_of h rfl (by simp [own, hp, empty])
  · refine acts_of h rfl (v := ({ j with soft := { j.soft with policyQ := rest } }.setScr w p (c.desc ++ leBytes 8 c.route)).setG w t d 0)
      ?_ (.of_issued ?_ ?_ ?_ ?_)
    · simp [own, hp, queue, j]
    · simp [SameDevice, j]
    · simp [j]
    · unfold State.setG
      split <;> simp [j]
    · simp [j, State.setScr, issued_soft, State.setThread, RingCmd.route]
  · intro r hr ld ring k hring hld hk live
    refine does_of h rfl ?_
    simp only [issued_tenant, own, issued_g, issued_scratchAt, hp, issued_scr, issued_cmds, issued_policyQ,
      ← hr, ← hring, ← hld, ← hk]
    exact congrArg Eff.next (if_pos live)
  · exact ⟨raises_of h rfl (by simp [ten]), raises_of h rfl (by simp [ten]), raises_of h rfl (by simp [ten])⟩

/-! ### Counters, time, fences and HALT (R141, R146) -/

section
variable {i : Instr} {s : State} {w : WfNo} {t : ThrNo} {scr tab mv : Bool}

/-- A fence whose condition holds has no other effect. -/
theorem computes_fence (h : Issues s w t) (he : exec i s = .next (fence w t i scr tab mv s))
    (met : s.fenceMet w t tab mv = true) : Computes i s w t 0 0 :=
  computes_of h he (by
    have met' : (issuedState s w t).fenceMet w t tab mv = true := by simpa [State.fenceMet] using met
    simp [met', setG_zero])

theorem suspends_fence (h : Issues s w t) (he : exec i s = .next (fence w t i scr tab mv s))
    (unmet : s.fenceMet w t tab mv = false) : Suspends i s w t (issuedState s w t) (.fence scr tab mv) :=
  suspends_of h he (by
    have unmet' : (issuedState s w t).fenceMet w t tab mv = false := by simpa [State.fenceMet] using unmet
    simp [unmet']) (issued_time s w t)

end

theorem snapAsk_time (s : State) (g : Nat) : (s.snapAsk g).1.time = s.time := by
  unfold State.snapAsk
  dsimp only
  split
  · split <;> rfl
  · rfl

theorem detachOps_regs (s : State) (w t : Nat) : (s.detachOps w t).regs = s.regs := rfl

/-- The instruction that ends its invocation. -/
theorem exec_halt {s : State} {w : WfNo} {t : ThrNo} {a : Reg} (h : Issues s w t) (hf : Fetched (.halt w t a) s w t) :
    exec (.halt w t a) s = .next (let u := (issuedState s w t).endWhenMoved w t 0b00 ((s.g w t a).truncate 16) 0x00 (s.g w t a)
      if (s.thread w t).single then u.setThread w t { u.thread w t with single := false } else u) := by
  have run : exec (.halt w t a) s = .next (ramer w t (.halt w t a) (fun s =>
    .stop (s.endWhenMoved w t 0b00 ((s.g w t a).truncate 16) 0x00 (s.g w t a))) s) := rfl
  rw [run, ramer, issue_issues s w t _ _ h hf, issued_g]

/-- Settles O17. -/
theorem counterTimeFenceAndHaltInstructions : Obligations.CounterTimeFenceAndHaltInstructions := by
  unfold Obligations.CounterTimeFenceAndHaltInstructions
  intro s w t h d a b v j
  refine ⟨?mprd, ?beyond, ?mpsnap, ?time, ?fenceS, ?fenceT, ?fenceD, ?fenceA, ?stores, ?moves, ?halts, ?waits⟩
  case mprd => exact fun hn own => does_of h rfl (by simp [own, j, not_lt.mpr hn, v])
  case beyond => exact fun hn => raises_of h rfl (by simp [v] at hn ⊢; omega)
  case mpsnap =>
    intro hn own
    refine suspends_of h rfl ?_ ((snapAsk_time j _).trans (issued_time s w t))
    simp [own, j, not_lt.mpr hn, v]
  case time => exact computes_of h rfl (by simp)
  case fenceS => exact computes_fence h rfl rfl
  case fenceT => exact fun stores => computes_fence h rfl (by simp [State.fenceMet, stores])
  case fenceD => exact fun moves => computes_fence h rfl (by simp [State.fenceMet, moves])
  case fenceA => exact fun stores moves => computes_fence h rfl (by simp [State.fenceMet, stores, moves])
  case stores =>
    exact fun stores => ⟨suspends_fence h rfl (by simp [State.fenceMet, stores]), suspends_fence h rfl (by simp [State.fenceMet, stores])⟩
  case moves => exact fun moves => suspends_fence h rfl (by simp [State.fenceMet, moves])
  case halts =>
    intro moves hf
    refine ⟨_, exec_halt h hf, ?_⟩
    have ends : j.endWhenMoved w t 0b00 (v.truncate 16) 0x00 v = (j.detachOps w t).endInvocation w t 0b00 (v.truncate 16) 0x00 v :=
      if_pos (by rw [movesOut_detachOps, issued_movesOut, moves])
    obtain ⟨thread, ⟨regs, -⟩, answers⟩ := endInvocation_spec (j.detachOps w t) w t 0b00 (v.truncate 16) 0x00 v
    rw [ends]
    generalize (j.detachOps w t).endInvocation w t 0b00 (v.truncate 16) 0x00 v = u at *
    obtain ⟨thread', threads, frame⟩ := singleOver_ended (s.thread w t).single thread
    dsimp only
    generalize (if (s.thread w t).single then u.setThread w t { u.thread w t with single := false } else u) = r at *
    subst frame
    rw [thread']
    obtain ⟨-, -, -, sameRegs⟩ := issued_count s w t
    refine ⟨rfl, rfl, rfl, regs.trans ((detachOps_regs j w t).trans sameRegs), ?_⟩
    rintro ld ring k run c hc rfl rfl rfl
    refine answers c (by rw [← issued_cmds s w t] at hc; exact hc) ?_
    rw [detachOps_thread, issued_thread]
    exact run
  case waits =>
    intro moves hf
    refine ⟨_, exec_halt h hf, ?_⟩
    have waits : j.endWhenMoved w t 0b00 (v.truncate 16) 0x00 v = (j.detachOps w t).setThread w t { (j.detachOps w t).thread w t with
        st := .suspended, staged := [], badTarget := none, wait := .ending 0b00 (v.truncate 16) v, suspAt := (j.detachOps w t).time.fclk } :=
      if_neg (by rwa [movesOut_detachOps, issued_movesOut])
    obtain ⟨-, -, -, sameRegs⟩ := issued_count s w t
    rw [waits]
    split
    · simp [detachOps_regs, j, sameRegs]
    · simp [detachOps_regs, j, sameRegs]

end Sys2Proof.Machine
end

section
/-! PROOFS. The ends of suspensions, TICK and MOVE_DONE (R129, R131, R133, R137, R144, R146, R157, R160, R166). -/
namespace Sys2Proof.Machine

/-! ### Waking a unit's domain leaves the programs' objects (R436) -/

theorem wakeDom_objects (s : State) (d : Nat) : (s.wakeDom d).soft = s.soft ∧ (s.wakeDom d).regs = s.regs := by
  unfold State.wakeDom
  dsimp only
  split
  · exact ⟨rfl, rfl⟩
  · split
    · exact ⟨rfl, rfl⟩
    · split
      · obtain ⟨-, -, soft, regs⟩ := countFrame_fixed ((s.wr POWER.STATE d 5).inc POWER.WAKES d) 535 (by norm_num)
        exact ⟨soft, regs⟩
      · exact ⟨rfl, rfl⟩

theorem wakeUnit_objects (s : State) (u : Nat) : (s.wakeUnit u).soft = s.soft ∧ (s.wakeUnit u).regs = s.regs := by
  unfold State.wakeUnit
  split
  · exact wakeDom_objects s _
  · exact ⟨rfl, rfl⟩

@[simp] theorem thread_wakeUnit (s : State) (u : Nat) : (s.wakeUnit u).thread = s.thread := by
  unfold State.thread
  rw [(wakeUnit_objects s u).1]

theorem thread_wake (s : State) (w t : Nat) : (s.wake w t).thread = (s.setThread w t ((s.thread w t).runOn s.time.fclk)).thread :=
  thread_wakeUnit ..

/-! ### Events (R129) -/

/-- An event sets its bit of the thread's pending events, and of no other thread's. -/
theorem thread_raise (s : State) (w t bit w' t' : Nat) : (s.raise w t bit).thread w' t' =
    if thKey w' t' = thKey w t then { s.thread w t with pend := (s.thread w t).pend ||| BitVec.ofNat 32 (2 ^ bit) }
    else s.thread w' t' := by
  unfold State.raise
  rw [thread_wakeUnit, State.thread_setThread]

/-- The event to the threads of the owner programs, for one thread. -/
def raisedOwner (bit : Nat) (s : State) (k : Nat) : State :=
  if (s.thread (k / 4) (k % 4)).st ≠ .idle ∧ (s.thread (k / 4) (k % 4)).kind = .owner then s.raise (k / 4) (k % 4) bit else s

theorem raiseOwners_eq (s : State) (bit : Nat) : s.raiseOwners bit = (List.range 64).foldl (raisedOwner bit) s := rfl

theorem thread_raisedOwner_other (bit : Nat) (s : State) {k w t : Nat} (hk : k ≠ thKey w t) :
    (raisedOwner bit s k).thread w t = s.thread w t := by
  unfold raisedOwner
  split
  · rw [thread_raise, if_neg (by unfold thKey at hk ⊢; omega)]
  · rfl

theorem thread_raisedOwner_self (bit : Nat) (s : State) {w t : Nat} (ht : t < 4) (hst : (s.thread w t).st ≠ .idle)
    (howner : (s.thread w t).kind = .owner) : (raisedOwner bit s (thKey w t)).thread w t =
      { s.thread w t with pend := (s.thread w t).pend ||| BitVec.ofNat 32 (2 ^ bit) } := by
  have key : thKey w t / 4 = w ∧ thKey w t % 4 = t := by unfold thKey; omega
  unfold raisedOwner
  rw [key.1, key.2, if_pos ⟨hst, howner⟩, thread_raise, if_pos rfl]

theorem thread_raisedOwners_others (bit : Nat) (l : List Nat) {w t : Nat} (hl : thKey w t ∉ l) (s : State) :
    (l.foldl (raisedOwner bit) s).thread w t = s.thread w t :=
  List.foldlRecOn (motive := fun v : State => v.thread w t = s.thread w t) l _ rfl fun v hv _ hk =>
    (thread_raisedOwner_other bit v (fun e => hl (e ▸ hk))).trans hv

/-- Its bit is set on every thread of an owner program. -/
theorem pend_raiseOwners (s : State) (bit : Nat) (w : WfNo) (t : ThrNo) (hst : (s.thread w t).st ≠ .idle)
    (howner : (s.thread w t).kind = .owner) :
    ((s.raiseOwners bit).thread w t).pend = (s.thread w t).pend ||| BitVec.ofNat 32 (2 ^ bit) := by
  have key : thKey w t < 64 := by unfold thKey; omega
  obtain ⟨before, after, split⟩ := List.append_of_mem (List.mem_range.mpr key)
  have nodup := List.nodup_range (n := 64)
  rw [split, List.nodup_middle, List.nodup_cons, List.mem_append, not_or] at nodup
  obtain ⟨⟨notBefore, notAfter⟩, -⟩ := nodup
  have ahead := thread_raisedOwners_others bit before notBefore s
  rw [raiseOwners_eq, split, List.foldl_append, List.foldl_cons, thread_raisedOwners_others bit after notAfter]
  generalize before.foldl (raisedOwner bit) s = v at ahead
  rw [thread_raisedOwner_self bit v t.isLt (by rwa [ahead]) (by rwa [ahead]), ahead]

/-! ### Suspensions that end (R157, R160) -/

section
variable {s : State} {w : WfNo} {t : ThrNo} {expired : Bool}

theorem exec_threadResume (live : s.live = true) (runs : s.wfRuns w = true) (susp : (s.thread w t).st = .suspended)
    (nodbg : (s.thread w t).dbg = false) : exec (.threadResume w t expired) s = .next (s.resume w t expired) :=
  congrArg Host.Outcome.next (if_pos (by simp [live, runs, susp, nodbg]))

theorem exec_stepBudgetExpiry (live : s.live = true) (runs : s.wfRuns w = true) (susp : (s.thread w t).st = .suspended)
    (nodbg : (s.thread w t).dbg = false) (going : ∀ k st r, (s.thread w t).wait ≠ .ending k st r)
    (tenant : (s.tenant w t).isSome = true) :
    exec (.stepBudgetExpiry w t) s = .next ((s.wake w t).takeException w t 5 0 (s.thread w t).suspAddr) := by
  refine congrArg Host.Outcome.next (if_pos ?_)
  have ends : (match (s.thread w t).wait with | .ending _ _ _ => true | _ => false) = false := by
    split
    · rename_i k st r hw
      exact absurd hw (going k st r)
    · rfl
  simp only [live, runs, susp, nodbg, tenant]
  rfl

/-- Completion of a MOVE is reported in its descriptor, and its event follows under NOTIFY. -/
def moveReported (s : State) (w t desc : Nat) (j : Job) : State :=
  let u := ((s.setScr w (desc + 4) (leBytes 4 (j.done / 4096))).setScr w (desc + 0x1C) [j.status.getD 0]).dropJob j.id
  if j.notify then u.raise w t 3 else u

theorem wait_moveReported (desc : Nat) (j : Job) : ((moveReported s w t desc j).thread w t).wait = (s.thread w t).wait := by
  unfold moveReported
  dsimp only
  split
  · rw [thread_raise, if_pos rfl]
    rfl
  · rfl

theorem exec_moveDone {desc : BitVec 18} {j : Job} (live : s.live = true)
    (hj : s.soft.jobs.find? (fun j => j.origin == .move w t desc.toNat && j.status.isSome) = some j) :
    exec (.moveDone w t desc) s = .next ((moveReported s w t desc.toNat j).tryEnd w t) := by
  have run : exec (.moveDone w t desc) s = execMoveDone w t desc s := rfl
  rw [run, execMoveDone, hj]
  simp only [live]
  rfl

/-- An invocation that does not wait for its MOVEs goes on. -/
theorem tryEnd_of_going (going : ∀ k st r, (s.thread w t).wait ≠ .ending k st r) : s.tryEnd w t = s := by
  unfold State.tryEnd
  split
  · rename_i k st r hw
    exact absurd hw (going k st r)
  · rfl

end

/-- Settles O13. -/
theorem suspendedThreadsResumeOrExpire : Obligations.SuspendedThreadsResumeOrExpire := by
  unfold Obligations.SuspendedThreadsResumeOrExpire
  refine ⟨fun s w t => ?wake, fun s w t expired live runs susp nodbg => ?resume, fun s live => ?tick,
    fun s w t => pend_raiseOwners s 7 w t, fun s w t desc j live hj => exec_moveDone live hj,
    fun s w t desc j live hj going => ?moveDone⟩
  case wake =>
    rw [thread_wake, State.thread_setThread_self]
    refine ⟨rfl, rfl, ?_, (wakeUnit_objects _ _).2, fun w' t' hne => ?_⟩
    · unfold Thread.runOn Thread.countSusp
      cases (s.thread w t).kind <;> rfl
    · rw [thread_wake, State.thread_setThread, if_neg (by rw [thKey_inj]; exact hne)]
  case tick => exact congrArg Host.Outcome.next (if_pos live)
  case moveDone =>
    rw [exec_moveDone live hj, tryEnd_of_going (by rwa [wait_moveReported])]
    rfl
  case resume =>
    have resumes := exec_threadResume (expired := expired) live runs susp nodbg
    refine ⟨?sleep, ?event, ?fence, ?status, ?timeout, ?snap, ?none, ?dataPath, ?ending, exec_stepBudgetExpiry live runs susp nodbg⟩
    all_goals rw [resumes]
    case sleep =>
      intro c hw past
      simp only [State.resume, hw]
      exact congrArg Host.Outcome.next (if_pos (by simpa using past))
    case event =>
      intro d mask u hw bits hbits some_
      simp only [State.resume, hw, State.takeEvents, ← hbits]
      exact congrArg Host.Outcome.next (if_pos some_)
    case fence =>
      intro sc tb mv hw met
      simp only [State.resume, hw]
      exact congrArg Host.Outcome.next (if_pos met)
    case status =>
      intro d v hw
      simp only [State.resume, hw]
    case timeout =>
      intro d mask c hw quiet past
      simp only [State.resume, hw, State.takeEvents, quiet]
      exact congrArg Host.Outcome.next ((if_neg (not_not_intro rfl)).trans (if_pos (by simpa using past)))
    case snap =>
      intro d g gen hw done
      simp only [State.resume, hw, done]
      rfl
    case none =>
      intro hw
      simp only [State.resume, hw]
    case dataPath =>
      intro hw
      simp only [State.resume, hw]
    case ending =>
      intro kind st r hw moves
      simp only [State.resume, hw, State.tryEnd]
      exact congrArg Host.Outcome.next (if_pos moves)

end Sys2Proof.Machine
end

section
/-! PROOFS. STOW, UNSTOW, BINV, MREAD and MWRITE (R133, R134, R138, R139, R143, R245). -/
namespace Sys2Proof.Machine

/-! ### What the body reads as it was (R115, R471) -/

@[simp] theorem issued_page (s : State) (w t p : Nat) : (issuedState s w t).page p = s.page p := by
  unfold State.page
  rw [issued_plc]

@[simp] theorem issued_stallOf (s : State) (w t p : Nat) : (issuedState s w t).stallOf w t p = s.stallOf w t p := by
  unfold State.stallOf
  rw [issued_thread]
  rfl

/-! ### STOW and UNSTOW (R134, R137) -/

section
variable {i : Instr} {s : State} {w : WfNo} {t : ThrNo} {d : Reg} {code a arg : Nat} {kind : JobKind} {force : Bool} {body : State → Eff}

/-- A one-page job of an instruction. -/
def pageJobOf (w : WfNo) (t : ThrNo) (d : Reg) (kind : JobKind) (a arg : Nat) (force : Bool) (ld : Option Nat) : Job :=
  { id := 0, origin := .instr w t d, kind := kind, a := a / 4096 * 4096, b := 0, len := 4096, done := 0, key := 0, key2 := 0,
    arg := arg, force := force, notify := false, ld := ld, status := none, busy := none }

theorem exec_pageJob (h : Issues s w t) (he : exec i s = .next (ramer w t i body s))
    (hb : body (issuedState s w t) = pageJob w t d code kind a arg force (issuedState s w t)) {x : Nat}
    (hx : (issuedState s w t).jobAddr (s.tenant w t) a = some x) {v : State}
    (hv : v = ((issuedState s w t).setThread w t { (issuedState s w t).thread w t with wait := .op code d (x / 4096) }).startJob
      (pageJobOf w t d kind a arg force (s.tenant w t))) (hf : Fetched i s w t) : exec i s = .next
        (let u := finish v w t (nextAddr s w t) false
         let u := u.setThread w t { u.thread w t with st := .suspended, wait := (v.thread w t).wait, suspAt := v.time.fclk }
         if (s.thread w t).single then u.setThread w t { u.thread w t with single := false } else u) := by
  have starts : body (issuedState s w t) = .suspend v (v.thread w t).wait := by
    rw [hb]
    simp only [pageJob, issued_tenant, hx, hv]
    rfl
  rw [he, ramer, issue_issues s w t _ _ h hf, starts]
  rfl

theorem computes_pageJob (h : Issues s w t) (he : exec i s = .next (ramer w t i body s))
    (hb : body (issuedState s w t) = pageJob w t d code kind a arg force (issuedState s w t))
    (hx : (issuedState s w t).jobAddr (s.tenant w t) a = none) : Computes i s w t d 3 :=
  computes_of h he (by rw [hb]; simp only [pageJob, issued_tenant, hx])

end

/-! ### BINV (R133, R138) -/

section
variable {s : State} {w : WfNo} {t : ThrNo} {d a b : Reg}

/-- A BINV whose heads have all answered. -/
theorem does_binv (h : Issues s w t) (aligned : (s.g w t a).toNat % 64 = 0) (lines : (s.g w t b).toNat % 64 = 0)
    (some_ : 0 < (s.g w t b).toNat) (short : (s.g w t b).toNat ≤ 2 ^ 21) {lo hi : Nat}
    (hlo : (issuedState s w t).jobAddr (s.tenant w t) (s.g w t a).toNat = some lo)
    (hhi : (issuedState s w t).jobAddr (s.tenant w t) ((s.g w t a).toNat + (s.g w t b).toNat - 1) = some hi)
    (ready : (issuedState s w t).rangeAwaits w t (s.g w t a).toNat (s.g w t b).toNat = false) {ls : List Nat}
    (hls : ls = (List.range ((s.g w t b).toNat / 64)).filterMap
      (fun i => ((issuedState s w t).jobAddr (s.tenant w t) ((s.g w t a).toNat + 64 * i)).map (· / 64)))
    {v : State} (hv : v = (issuedState s w t).invalidate ls (.binv w t) true) (done : v.invalsOver (.binv w t) = true) :
    Does (.binv w t d a b) s w t (v.setG w t d (if ls.any (issuedState s w t).lineClosed then 9 else 0)) := by
  refine does_of h rfl ?_
  simp only [issued_g, issued_tenant]
  rw [if_neg (by omega), if_neg (by omega), hlo, hhi]
  simp only [ready, ← hls, ← hv, done]
  rfl

/-! ### MREAD and MWRITE (R134, R139, R245) -/

section
variable {n : Fin 7} {p : Nat} (h : Issues s w t) (own : s.tenant w t = none)
  (hp : s.scratchAt w t (s.g w t d) (64 * 2 ^ n.val) (64 * 2 ^ n.val) = some p)
  (range : lineRangeOk (s.g w t a).toNat (64 * 2 ^ n.val) = true)
  (addr : ((issuedState s w t).jobAddr none (s.g w t a).toNat).isSome = true)
  (ready : (issuedState s w t).pageAwaits w t (s.g w t a).toNat = false)
include h own hp range addr ready

theorem computes_mread_otherKey (blank : (s.page ((s.g w t a).toNat / 4096)).st ≠ .blank)
    (lost : (s.page ((s.g w t a).toNat / 4096)).st ≠ .lost)
    (key : (s.page ((s.g w t a).toNat / 4096)).key ≠ (s.g w t b).toNat % 4096) : Computes (.mread w t n d a b) s w t d 5 := by
  refine computes_of h rfl ?_
  simp [own, hp, range, Option.isSome_iff_ne_none.mp addr, ready, blank, lost, key]

/-- What an MREAD of a ready page gives (R245). -/
def mreadPage (w : WfNo) (t : ThrNo) (d : Reg) (p pg : Nat) (ls : List Nat) (s : State) : Eff :=
  if (s.page pg).st = .stowed then readStowedPage w t d p pg ls s
  else readEnds w t d p (s.readLines pg (ls.map (· % 64))).1 (s.readLines pg (ls.map (· % 64))).2.1
    (s.readLines pg (ls.map (· % 64))).2.2

omit h in
/-- A ready page whose key is the one named is read. -/
theorem mread_reads {pg : Nat} {ls : List Nat} (hpg : pg = (s.g w t a).toNat / 4096)
    (hls : ls = spanOfLines pg ((s.g w t a).toNat % 4096) ((s.g w t a).toNat % 4096 + 64 * 2 ^ n.val))
    (key : (s.page pg).st = .blank ∨ (s.page pg).st = .lost ∨ (s.page pg).key = (s.g w t b).toNat % 4096)
    (quiet : (issuedState s w t).pageBusy pg = false) (settled : ¬ ((s.page pg).st = .moving ∧ (s.page pg).src = .stowed))
    (blocked : (issuedState s w t).linesBlocked ls false = 0) :
    ∃ body, exec (.mread w t n d a b) s = .next (ramer w t (.mread w t n d a b) body s) ∧
      body (issuedState s w t) = mreadPage w t d p pg ls (issuedState s w t) := by
  refine ⟨_, rfl, ?_⟩
  have ours : ¬ ((s.page pg).st ≠ .blank ∧ (s.page pg).st ≠ .lost ∧ (s.page pg).key ≠ (s.g w t b).toNat % 4096) := by tauto
  subst hls hpg
  simp only [issued_g, issued_tenant, own, issued_scratchAt, hp, range, Option.isNone_iff_eq_none,
    Option.isSome_iff_ne_none.mp addr, ready, issued_page, ours, quiet, settled, blocked]
  simp [mreadPage]

/-- A MWRITE of a page that is not being stowed, promoted or moved. -/
theorem mwrite_writes {pg : Nat} (hpg : pg = (s.g w t a).toNat / 4096)
    (go : (issuedState s w t).writeReady pg ((s.g w t b).toNat % 4096) = .go)
    (blocked : (issuedState s w t).linesBlocked
      (spanOfLines pg ((s.g w t a).toNat % 4096) ((s.g w t a).toNat % 4096 + 64 * 2 ^ n.val)) true = 0) {r : State × Nat}
    (hr : r = (issuedState s w t).writeLines pg ((s.g w t b).toNat % 4096) ((List.range (64 * 2 ^ n.val / 64)).map (fun i =>
      ((s.g w t a).toNat % 4096 / 64 + i, bytesLine ((s.scr w p (64 * 2 ^ n.val)).drop (64 * i)))))) :
    Does (.mwrite w t n d a b) s w t ((r.1.unstall w t).setG w t d (BitVec.ofNat 64 r.2)) := by
  refine does_of h rfl ?_
  subst hpg
  simp only [issued_g, issued_tenant, own, issued_scratchAt, hp, range, Option.isNone_iff_eq_none,
    Option.isSome_iff_ne_none.mp addr, ready, go, blocked, issued_scr, ← hr]
  rfl

/-- A write to a STOWED page whose promotion another unit could not complete. -/
theorem raises_mwrite {pg : Nat} (hpg : pg = (s.g w t a).toNat / 4096)
    (promotes : (issuedState s w t).writeReady pg ((s.g w t b).toNat % 4096) = .promote)
    (fails : s.stallOf w t pg = some (some 0x206)) : Raises (.mwrite w t n d a b) s w t 6 0 := by
  refine raises_of h rfl ?_
  subst hpg
  simp only [issued_g, issued_tenant, own, issued_scratchAt, hp, range, Option.isNone_iff_eq_none,
    Option.isSome_iff_ne_none.mp addr, ready, promotes, writePromotes, issued_stallOf, fails]
  rfl

end

end

/-- Settles O15. -/
theorem pageAndLineInstructions : Obligations.PageAndLineInstructions := by
  unfold Obligations.PageAndLineInstructions
  intro s w t h d a b _ j g job begun
  refine ⟨fun x hx v hv => ?stow, fun x hx v hv => ?unstow, fun outside => ?outside, ?empty, fun bad => ?bad, ?binv,
    fun n p own hp range addr ready pg ls hpg hls => ⟨?otherKey, fun key quiet settled blocked => ⟨?read, ?decoded, ?failed⟩,
      ?write, ?promote⟩, fun tenant n => ?tenant⟩
  case stow => exact exec_pageJob h rfl (by simp only [issued_g]; rfl) hx hv
  case unstow => exact exec_pageJob h rfl (by simp only [issued_g]; rfl) hx hv
  case outside =>
    exact ⟨computes_pageJob h rfl (by simp only [issued_g]; rfl) outside, computes_pageJob h rfl (by simp only [issued_g]; rfl) outside⟩
  case empty =>
    intro aligned none_
    have aligned : (s.g w t a).toNat % 64 = 0 := aligned
    have none_ : (s.g w t b).toNat = 0 := none_
    exact computes_of h rfl (by simp [aligned, none_])
  case bad => exact computes_of h rfl ((if_pos (by simpa [g] using bad)).trans rfl)
  case binv =>
    exact fun aligned lines some_ short lo hi hlo hhi ready ls hls v hv done =>
      does_binv h aligned lines some_ short hlo hhi ready hls hv done
  case tenant => exact ⟨raises_of h rfl (by simp [tenant]), raises_of h rfl (by simp [tenant])⟩
  case otherKey => exact hpg ▸ computes_mread_otherKey h own hp range addr ready
  case read =>
    intro notStowed r hr
    obtain ⟨body, he, hb⟩ := mread_reads own hp range addr ready hpg hls key quiet settled blocked
    refine does_of h he (hb.trans ?_)
    rw [mreadPage, issued_page, if_neg notStowed, hr]
    rfl
  case decoded =>
    intro stowed decoded bs hbs
    obtain ⟨body, he, hb⟩ := mread_reads own hp range addr ready hpg hls key quiet settled blocked
    refine does_of h he (hb.trans ?_)
    have hbs : (issuedState s w t).decodeStowed pg = .ok bs := hbs
    rw [mreadPage, issued_page, if_pos stowed, readStowedPage, issued_stallOf, decoded]
    dsimp only
    rw [hbs]
    rfl
  case failed =>
    intro stowed failed
    obtain ⟨body, he, hb⟩ := mread_reads own hp range addr ready hpg hls key quiet settled blocked
    refine raises_of h he (hb.trans ?_)
    rw [mreadPage, issued_page, if_pos stowed, readStowedPage, issued_stallOf, failed]
    rfl
  case write => exact fun go blocked r hr => mwrite_writes h own hp range addr ready hpg go (hls ▸ blocked) hr
  case promote => exact fun promotes fails => raises_mwrite h own hp range addr ready hpg promotes fails

end Sys2Proof.Machine
end

section
/-! PROOFS. The election's table (R79-R84). -/
namespace Sys2Proof.Machine

theorem from_halted (s : State) (c : Nat) : (s.from_ c).board.halted = s.board.halted := by
  unfold State.from_
  split
  · unfold State.ownerBack
    split <;> rfl
  · rfl

theorem ownerOp_running {s : State} {c : Nat} (up : s.pathUp c = true) (running : s.board.halted = false) (f : State → State) :
    s.ownerOp c f = (f (s.from_ c)).ownerReply c := by
  unfold State.ownerOp
  simp [up, from_halted, running]

/-! ### The rows of the table (R84) -/

section
variable {a : State} {c : Nat} {word : BitVec 32}

theorem claimBy_takes (some_ : word ≠ 0)
    (h : a.own.st = .open ∧ a.eligible c = true ∨ a.own.st = .handover ∧ a.own.successor = some c) :
    a.claimBy c word = { a with own := a.own.take c word } := by
  unfold State.claimBy
  rcases h with ⟨st, ok⟩ | ⟨st, ok⟩
  · simp only [st]
    exact if_pos ⟨some_, ok⟩
  · simp only [st]
    exact if_pos ⟨some_, ok⟩

theorem claimBy_refused (h : word = 0 ∨ a.own.st = .closed ∨ a.own.st = .owned ∨ a.own.st = .lapsing ∨
    (a.own.st = .open ∧ a.eligible c = false) ∨ (a.own.st = .handover ∧ a.own.successor ≠ some c)) : a.claimBy c word = a := by
  unfold State.claimBy
  rcases h with none_ | st | st | st | ⟨st, no⟩ | ⟨st, no⟩
  case inl =>
    simp only [none_, ne_eq, not_true, false_and, if_false]
    split <;> rfl
  all_goals simp [*]

theorem bmcReset_ofOwner {s : State} (answers : s.bmcAnswers = true) (running : s.board.halted = false)
    (owner : s.own.owner = some 1) (holds : s.own.st = .owned ∨ s.own.st = .handover) :
    s.bmcReset = { s with board := { s.board with bmcDown := true }, own := { s.own with st := .lapsing, successor := none } } := by
  unfold State.bmcReset State.ownerDown
  simp [answers, running, owner, holds]

end

/-- Settles O23: a command on a path that is up acts on the election as its row says, and the reply follows. -/
theorem electionFollowsItsTable : Obligations.ElectionFollowsItsTable := by
  unfold Obligations.ElectionFollowsItsTable
  intro s c up running a ha
  have acts (f : State → State) : s.ownerOp c f = (f a).ownerReply c := ha ▸ ownerOp_running up running f
  have next {i : Instr} {f : State → State} {v : State} (he : exec i s = .next (s.ownerOp c f)) (hf : f a = v) :
      exec i s = .next (v.ownerReply c) := by rw [he, acts, hf]
  refine ⟨fun word some_ h => next rfl (claimBy_takes some_ h), fun word h => next rfl (claimBy_refused h), ?status,
    fun v owner st other ok => next rfl (if_pos ⟨owner, st, other, ok⟩), fun v no => next rfl (if_neg ?handover),
    fun owner st => next rfl ((if_pos owner).trans (if_pos st)), fun owner st => next rfl (if_pos ⟨owner, st⟩),
    fun no => ⟨next rfl (if_neg fun h => no h.1), next rfl (if_neg no)⟩, fun live st => ?timer, fun live st => ?lapse,
    fun answers owner st i hi => ?bmc⟩
  case status =>
    have run : exec (.status c) s = execStatus c s := rfl
    rw [run, execStatus, if_pos up, ha]
  case handover =>
    rintro ⟨owner, -, other, ok⟩
    rcases no with no | no | no
    · exact no owner
    · exact other no
    · exact absurd ok (by simp [no])
  case timer => exact congrArg Host.Outcome.next ((if_pos live).trans (if_pos st))
  case lapse => exact congrArg Host.Outcome.next (if_pos (by simp [live, st]))
  case bmc =>
    simp only [List.mem_cons, List.not_mem_nil, or_false] at hi
    rcases hi with rfl | rfl
    all_goals exact congrArg Host.Outcome.next (bmcReset_ofOwner answers running owner st)

end Sys2Proof.Machine
end

section
/-! PROOFS. A host's acknowledgement of an empty mailbox (R97). -/
namespace Sys2Proof.Machine
open Sys2Proof.Tests

/-- The management endpoint's first device-to-host mailbox, empty, is listed although it is as after reset. -/
def hostBox : State := { devUp with soft := { devUp.soft with mail := [(mailKey 256 false 0, Mailbox.init)] } }

/-- Writing the empty mailbox back leaves it unlisted. -/
theorem hostBox_unlisted : mailAfter (exec (.mailboxAck 256 0) hostBox) = some [] := by decide +kernel

/-- Refutes O38: an acknowledgement of an empty mailbox writes it back, which changes `hostBox`. -/
theorem not_mailboxesAndDoorbellsOfTheHost : ¬ Obligations.MailboxesAndDoorbellsOfTheHost := by
  unfold Obligations.MailboxesAndDoorbellsOfTheHost
  intro holds
  obtain ⟨-, -, -, quiet, -⟩ := holds hostBox 256 (by decide +kernel)
  have unlisted := hostBox_unlisted
  rw [quiet 0 (by decide) (by decide +kernel)] at unlisted
  exact absurd unlisted (by decide)

end Sys2Proof.Machine
end

section
/-! PROOFS. Field service access, debug reads, and the debugger's hold of a thread (R104-R107, R157, R344). -/
namespace Sys2Proof.Machine

/-! ### Challenges, responses and the lock (R104, R105) -/

/-- Where service access is not OPEN, no thread is in debug halt. -/
theorem dbg_undebug (x : Thread) (now : Nat) : (x.undebug now).dbg = false := by
  unfold Thread.undebug
  split <;> rfl

theorem tget_map_undebug (l : Tab Thread) (now k : Nat) :
    (tget (fun _ => Thread.init) (l.map (fun p => (p.1, p.2.undebug now))) k).dbg = false := by
  induction l with
  | nil => rfl
  | cons p l ih =>
    simp only [List.map_cons, tget]
    split
    · exact dbg_undebug _ _
    · exact ih

theorem dbg_dbgRelease (s : State) (w t : Nat) : (s.dbgRelease.thread w t).dbg = false := tget_map_undebug _ _ _

section
variable {a : State}

theorem saCheck_noChallenge (unlocked : a.svc.st ≠ 2) (none_ : a.svc.hasChallenge = false) :
    a.saCheck 0 = { a with svc := { a.svc with method := 0, last := 3 } } :=
  (if_neg (not_or.mpr ⟨unlocked, by decide⟩)).trans (if_pos (by simp [none_]))

section
variable (unlocked : a.svc.st ≠ 2) (asked : a.svc.hasChallenge = true)
include unlocked asked

/-- ECDSA needs no key of the owner's. -/
theorem saCheck_ecdsa : a.saCheck 0 =
    let v := { a.svc with method := 0, hasChallenge := false }
    if a.saRight 0 then { a with svc := { v with st := 1, last := 1 } }
    else if v.fails = 2 then ({ a with svc := { v with fails := 3, last := 2, st := 2 } }).dbgRelease
    else { a with svc := { v with fails := v.fails + 1, last := 2 } } :=
  (if_neg (not_or.mpr ⟨unlocked, by decide⟩)).trans ((if_neg (by simp [asked])).trans
    ((if_neg fun h => absurd h.1 (by decide)).trans (if_neg fun h => absurd h.1 (by decide))))

theorem saCheck_rightEcdsa (right : a.saRight 0 = true) :
    a.saCheck 0 = { a with svc := { a.svc with method := 0, hasChallenge := false, st := 1, last := 1 } } :=
  (saCheck_ecdsa unlocked asked).trans (if_pos right)

theorem saCheck_rightHmac (key : a.infB OWNER.SA_KEY_SET 0 = true) (allowed : a.infB OWNER.SA_HMAC_OK 0 = true)
    (right : a.saRight 1 = true) :
    a.saCheck 1 = { a with svc := { a.svc with method := 1, hasChallenge := false, st := 1, last := 1 } } :=
  (if_neg (not_or.mpr ⟨unlocked, by decide⟩)).trans ((if_neg (by simp [asked])).trans
    ((if_neg (by simp [key])).trans ((if_neg (by simp [allowed])).trans (if_pos right))))

theorem saCheck_noKey (key : a.infB OWNER.SA_KEY_SET 0 = false) :
    a.saCheck 1 = { a with svc := { a.svc with method := 1, hasChallenge := false, last := 4 } } :=
  (if_neg (not_or.mpr ⟨unlocked, by decide⟩)).trans ((if_neg (by simp [asked])).trans (if_pos ⟨rfl, key⟩))

theorem saCheck_wrong (wrong : a.saRight 0 = false) (again : a.svc.fails ≠ 2) :
    a.saCheck 0 = { a with svc := { a.svc with method := 0, hasChallenge := false, fails := a.svc.fails + 1, last := 2 } } :=
  (saCheck_ecdsa unlocked asked).trans ((if_neg (Bool.eq_false_iff.mp wrong)).trans (if_neg again))

theorem saCheck_thirdWrong (wrong : a.saRight 0 = false) (third : a.svc.fails = 2) : a.saCheck 0 =
      ({ a with svc := { a.svc with method := 0, hasChallenge := false, fails := 3, last := 2, st := 2 } }).dbgRelease :=
  (saCheck_ecdsa unlocked asked).trans ((if_neg (Bool.eq_false_iff.mp wrong)).trans (if_pos third))

end

theorem saCheck_closed (closed : a.svc.st = 2) (m : BitVec 2) : a.saCheck m = a := if_pos (.inl closed)

theorem relock_unlocked (unlocked : a.svc.st ≠ 2) : a.relock = ({ a with svc := { a.svc with st := 0 } }).dbgRelease :=
  if_neg unlocked

/-! ### A debug read's start (R106, R107) -/

section
variable (idle : a.svc.dbgBusy = false)
include idle

theorem dbgGo_notOpen (shut : a.svc.st ≠ 1) : a.dbgGo = a.dbgDone 5 :=
  (if_neg (by simp [idle])).trans (if_pos shut)

theorem dbgGo_halted (opened : a.svc.st = 1) (halted : a.board.halted = true) : a.dbgGo = a.dbgDone 7 :=
  (if_neg (by simp [idle])).trans ((if_neg (not_not_intro opened)).trans (if_pos halted))

theorem dbgGo_unaligned (opened : a.svc.st = 1) (running : a.board.halted = false) (odd : a.svc.dbgAddr.toNat % 64 ≠ 0) :
    a.dbgGo = a.dbgDone 6 :=
  (if_neg (by simp [idle])).trans ((if_neg (not_not_intro opened)).trans ((if_neg (by simp [running])).trans (if_pos odd)))

end

/-- The read that a debugger's GO sends. -/
def debugRead (a : State) : MemReq :=
  { src := .debug, kind := .read, mv := .invalid, line := (BitVec.ofNat 40 (a.svc.dbgAddr.toNat / 64)).toNat, key := 0,
    cls := 6, data := 0, mask := 0, poison := false, throttled := false, at_ := a.time.fclk }

theorem debugRead_line (a : State) : (debugRead a).line = a.svc.dbgAddr.toNat / 64 := by
  have := a.svc.dbgAddr.isLt
  unfold debugRead
  rw [BitVec.toNat_ofNat, Nat.mod_eq_of_lt (by omega)]

theorem dbgGo_reads (idle : a.svc.dbgBusy = false) (opened : a.svc.st = 1) (running : a.board.halted = false)
    (aligned : a.svc.dbgAddr.toNat % 64 = 0) : a.dbgGo =
      ({ a with svc := { a.svc with dbgBusy := true, dbgReady := false, dbgLine := BitVec.ofNat 40 (a.svc.dbgAddr.toNat / 64) } }).setToll
        32 { a.toll 32 with queue := (a.toll 32).queue ++ [debugRead a] } := by
  unfold State.dbgGo
  rw [if_neg (by simp [idle]), if_neg (not_not_intro opened), if_neg (by simp [running]), if_neg (not_not_intro aligned)]
  rfl

end

/-- Settles O39. -/
theorem serviceAccessOpensAndCloses : Obligations.ServiceAccessOpensAndCloses := by
  unfold Obligations.ServiceAccessOpensAndCloses
  intro s c may a ha
  have acts {i : Instr} {f : State → State} {v : State} (he : exec i s = .next (if s.mayService c then f (s.from_ c) else s))
      (hf : f a = v) : exec i s = .next v := by rw [he, if_pos may, ← ha, hf]
  refine ⟨acts (f := State.saNew) rfl rfl, fun un none_ => acts (f := (State.saCheck · 0)) rfl (saCheck_noChallenge un none_),
    fun un asked right => acts (f := (State.saCheck · 0)) rfl (saCheck_rightEcdsa un asked right),
    fun un asked key allowed right => acts (f := (State.saCheck · 1)) rfl (saCheck_rightHmac un asked key allowed right),
    fun un asked key => acts (f := (State.saCheck · 1)) rfl (saCheck_noKey un asked key),
    fun un asked wrong again => acts (f := (State.saCheck · 0)) rfl (saCheck_wrong un asked wrong again),
    fun un asked wrong third => ?third, fun closed => ?closed, fun un => ?lock, fun idle => ?go⟩
  case third =>
    exact ⟨_, acts (f := (State.saCheck · 0)) rfl (saCheck_thirdWrong un asked wrong third), rfl, rfl, rfl, dbg_dbgRelease _⟩
  case closed =>
    exact ⟨acts (f := (State.saCheck · 0)) rfl (saCheck_closed closed 0), acts (f := State.relock) rfl (if_pos closed)⟩
  case lock => exact ⟨_, acts (f := State.relock) rfl (relock_unlocked un), rfl, rfl, dbg_dbgRelease _⟩
  case go =>
    refine ⟨fun shut => acts (f := State.dbgGo) rfl (dbgGo_notOpen idle shut),
      fun opened halted => acts (f := State.dbgGo) rfl (dbgGo_halted idle opened halted),
      fun opened running odd => acts (f := State.dbgGo) rfl (dbgGo_unaligned idle opened running odd),
      fun opened running aligned => ⟨_, debugRead a, acts (f := State.dbgGo) rfl (dbgGo_reads idle opened running aligned), rfl,
        State.toll_setToll_self _ _ _, rfl, rfl, rfl, debugRead_line a⟩⟩

/-! ### The end of a debug read (R107, R344) -/

/-- What the end of a debug read gives (R107). -/
def debugReadEnded (s : State) (dec : Decode) : State :=
  let line := s.svc.dbgLine.toNat
  let x := s.page (line / 64)
  match x.st with
  | .blank => s.dbgEnds 4 { x with key := 0 } 0
  | .lost => s.dbgEnds 3 x 0
  | st =>
    if ¬ (s.mode x.key = 0 ∨ s.rdB KEYSLOT.ACTIVE_DEBUGGABLE x.key = true) then s.dbgEnds 2 x 0
    else if s.pageBusy (line / 64) = true ∨ (st = .moving ∧ x.src = .stowed) then s
    else if st = .stowed then
      match (s.readStowed (line / 64)).2 with
      | some bs => (s.readStowed (line / 64)).1.dbgEnds 1 x (bytesLine (bs.drop (line % 64 * 64)))
      | none => (s.readStowed (line / 64)).1.dbgEnds 3 x 0
    else s.dbgFrame line x dec

section
variable {s : State} {dec : Decode} {x : Page} (hx : x = s.page (s.svc.dbgLine.toNat / 64))
include hx

theorem debugReadEnded_blank (st : x.st = .blank) : debugReadEnded s dec = s.dbgEnds 4 { x with key := 0 } 0 := by
  subst hx
  simp only [debugReadEnded, st]

theorem debugReadEnded_lost (st : x.st = .lost) : debugReadEnded s dec = s.dbgEnds 3 x 0 := by
  subst hx
  simp only [debugReadEnded, st]

theorem debugReadEnded_sealed (blank : x.st ≠ .blank) (lost : x.st ≠ .lost) (hidden : s.mode x.key ≠ 0)
    (closed : s.rdB KEYSLOT.ACTIVE_DEBUGGABLE x.key = false) : debugReadEnded s dec = s.dbgEnds 2 x 0 := by
  subst hx
  have no : ¬ (s.mode (s.page (s.svc.dbgLine.toNat / 64)).key = 0 ∨
      s.rdB KEYSLOT.ACTIVE_DEBUGGABLE (s.page (s.svc.dbgLine.toNat / 64)).key = true) :=
    not_or.mpr ⟨hidden, by simp [closed]⟩
  unfold debugReadEnded
  dsimp only
  split
  · exact absurd ‹_› blank
  · exact absurd ‹_› lost
  · exact if_pos no

theorem debugReadEnded_frame (st : x.st = .near ∨ x.st = .far)
    (may : s.mode x.key = 0 ∨ s.rdB KEYSLOT.ACTIVE_DEBUGGABLE x.key = true)
    (quiet : s.pageBusy (s.svc.dbgLine.toNat / 64) = false) :
    debugReadEnded s dec = s.dbgFrame s.svc.dbgLine.toNat x dec := by
  subst hx
  rcases st with st | st
  all_goals
    simp only [debugReadEnded, st, may, quiet]
    rfl

theorem debugReadEnded_stowed (st : x.st = .stowed)
    (may : s.mode x.key = 0 ∨ s.rdB KEYSLOT.ACTIVE_DEBUGGABLE x.key = true)
    (quiet : s.pageBusy (s.svc.dbgLine.toNat / 64) = false) :
    debugReadEnded s dec = match (s.readStowed (s.svc.dbgLine.toNat / 64)).2 with
      | some bs => (s.readStowed (s.svc.dbgLine.toNat / 64)).1.dbgEnds 1 x (bytesLine (bs.drop (s.svc.dbgLine.toNat % 64 * 64)))
      | none => (s.readStowed (s.svc.dbgLine.toNat / 64)).1.dbgEnds 3 x 0 := by
  subst hx
  simp only [debugReadEnded, st, may, quiet]
  rfl

end

theorem exec_debugReadComplete {s : State} {dec : Decode} {v : State} (live : s.live = true) (busy : s.svc.dbgBusy = true)
    (ready : s.svc.dbgReady = true) (hv : debugReadEnded s dec = v) : exec (.debugReadComplete dec) s = .next v := by
  subst hv
  exact congrArg Host.Outcome.next (if_neg (by simp [live, busy, ready]))

/-! ### The debugger's hold of a thread (R107, R157) -/

theorem wakeDom_dram (s : State) (d : Nat) : (s.wakeDom d).dram = s.dram := by
  unfold State.wakeDom
  dsimp only
  split
  · rfl
  · split
    · rfl
    · split
      · obtain ⟨⟨-, -, -, -, -, -, -, -, -, -, -, dram, -⟩, -⟩ :=
          countFrame_fixed ((s.wr POWER.STATE d 5).inc POWER.WAKES d) 535 (by norm_num)
        exact dram
      · rfl

theorem wakeUnit_dram (s : State) (u : Nat) : (s.wakeUnit u).dram = s.dram := by
  unfold State.wakeUnit
  split
  · exact wakeDom_dram s _
  · rfl

/-- A thread that is held stays where it is. -/
theorem debug_held {x : Thread} (now : Nat) (off : x.dbg = false) : (x.debug now).dbg = true ∧ (x.debug now).pc = x.pc := by
  have pc : (x.countSusp now).pc = x.pc := by
    unfold Thread.countSusp
    split <;> rfl
  unfold Thread.debug
  rw [if_neg (by simp [off])]
  split
  · exact ⟨rfl, pc⟩
  · exact ⟨rfl, rfl⟩

/-- Settles O40. -/
theorem debugReadsAndThreadDebug : Obligations.DebugReadsAndThreadDebug := by
  unfold Obligations.DebugReadsAndThreadDebug
  intro s live
  refine ⟨fun busy ready dec x hx => ⟨fun st => ?blank, fun st => ?lost, fun blank lost hidden closed => ?noDebug,
      fun st may quiet => ?frame, fun st may quiet => ?stowed⟩,
    fun w t may off => ?halt, fun w t may on => ?resume, fun w t may on run => ?step, fun w t may on susp => ?stepSuspended⟩
  case blank => exact exec_debugReadComplete live busy ready (debugReadEnded_blank hx st)
  case lost => exact exec_debugReadComplete live busy ready (debugReadEnded_lost hx st)
  case noDebug => exact exec_debugReadComplete live busy ready (debugReadEnded_sealed hx blank lost hidden closed)
  case frame => exact exec_debugReadComplete live busy ready (debugReadEnded_frame hx st may quiet)
  case stowed => exact exec_debugReadComplete live busy ready (debugReadEnded_stowed hx st may quiet)
  case stepSuspended => exact congrArg Host.Outcome.next (if_pos (by simp [may, on]))
  case halt =>
    refine ⟨_, congrArg Host.Outcome.next (if_pos may), ?_⟩
    rw [thread_wakeUnit, State.thread_setThread_self, (wakeUnit_objects _ _).2, wakeUnit_dram]
    obtain ⟨held, pc⟩ := debug_held s.time.fclk off
    exact ⟨held, pc, rfl, rfl⟩
  case resume =>
    refine ⟨_, congrArg Host.Outcome.next (if_pos (by simp [may, on])), ?_⟩
    rw [thread_wakeUnit, State.thread_setThread_self, (wakeUnit_objects _ _).2]
    refine ⟨dbg_undebug _ _, ?_⟩
    unfold Thread.undebug
    split <;> exact ⟨rfl, rfl, rfl⟩
  case step =>
    refine ⟨_, congrArg Host.Outcome.next (if_pos (by simp [may, on])), ?_⟩
    rw [thread_wakeUnit, State.thread_setThread_self, (wakeUnit_objects _ _).2, Thread.singleStep, if_neg (by simp [run])]
    exact ⟨rfl, on, rfl⟩

end Sys2Proof.Machine
end

section
/-! PROOFS. Ring state, and the fetch and completion of commands (R87-R95, R101). -/
namespace Sys2Proof.Machine

/-! ### Ring state (R87, R88) -/

section
variable (s : State) (ld r : Nat)

theorem ring_fetchStops : (s.fetchStops ld r).ring ld r = { s.ring ld r with fetching := false } :=
  State.ring_setRing_self s ld r { s.ring ld r with fetching := false }

theorem ring_ringError (cause : Nat) : (s.ringError ld r cause).ring ld r =
    { s.ring ld r with error := true, cause := BitVec.ofNat 4 cause, fetching := false } := by
  unfold State.ringError
  rw [ring_fetchStops, State.ring_setRing_self]

theorem ring_ringStop : (s.ringStop ld r).ring ld r = { s.ring ld r with enable := false, fetching := false } := by
  unfold State.ringStop
  rw [ring_fetchStops, State.ring_setRing_self]

theorem cmds_ringStop : (s.ringStop ld r).soft.cmds =
    s.soft.cmds.filter (fun c => ¬ (c.ld = ld ∧ c.ring = r ∧ c.st = .held)) := rfl

/-- A ring as enabling it leaves it. -/
def Ring.started (x : Ring) : Ring :=
  { x with enable := true, error := false, cause := 0, cmdHead := 0, cplTail := 0, cmdTail := 0, cplHead := 0, phase := true,
           fetching := false, unread := 0 }

/-- Its bases are aligned and its sizes are in range. -/
def Ring.sound (x : Ring) : Prop :=
  x.cmdBase.toNat % 4096 = 0 ∧ x.cplBase.toNat % 4096 = 0 ∧ (4 ≤ x.cmdLog2.toNat ∧ x.cmdLog2.toNat ≤ 16) ∧
    (4 ≤ x.cplLog2.toNat ∧ x.cplLog2.toNat ≤ 16)

theorem ringStart_sound (h : (s.ring ld r).sound) : s.ringStart ld r =
    if s.inf ACCESS.RINGS ld ≤ r then (s.setRing ld r (s.ring ld r).started).ringError ld r 2
    else s.setRing ld r (s.ring ld r).started := by
  obtain ⟨cmd, cpl, cmdSize, cplSize⟩ := h
  refine if_neg ?_
  simp only [Bool.or_eq_true, decide_eq_true_eq]
  omega

theorem ringStart_unsound (h : ¬ (s.ring ld r).sound) :
    s.ringStart ld r = (s.setRing ld r (s.ring ld r).started).ringError ld r 1 := by
  refine if_pos ?_
  unfold Ring.sound at h
  simp only [Bool.or_eq_true, decide_eq_true_eq]
  omega

/-- A write of CPL_HEAD on an enabled ring. -/
theorem headWrite_enabled (v : BitVec 16) (on : (s.ring ld r).enable = true) : s.headWrite ld r v =
    if decide ((s.ring ld r).cplSize ≤ v.toNat) || decide ((s.ring ld r).unread < (s.ring ld r).consumed v.toNat) then
      (s.setRing ld r { s.ring ld r with cplHead := v }).ringError ld r 4
    else (s.setRing ld r { s.ring ld r with cplHead := v }).setRing ld r
      { s.ring ld r with cplHead := v, unread := (s.ring ld r).unread - (s.ring ld r).consumed v.toNat } :=
  if_neg (by simp [on])

theorem State.setRing_setRing (x y : Ring) : (s.setRing ld r x).setRing ld r y = s.setRing ld r y := by
  unfold State.setRing
  simp

end

/-- Settles O33. -/
theorem ringRegistersAndErrors : Obligations.RingRegistersAndErrors := by
  unfold Obligations.RingRegistersAndErrors
  intro s ld r up x
  have acts {i : Instr} {u : State} (he : exec i s = .next (if s.funcUp ld then u else s)) : exec i s = .next u := by
    rw [he, if_pos up]
  refine ⟨fun off cmd cpl cmdSize cplSize y hy => ?sound, fun off bad => ?unsound, fun on => ?disable, fun v free => ?tail,
    fun v on past => ?tailPast, fun v on inside enough => ?head, fun v on bad => ?headBad⟩
  case sound =>
    have starts : exec (.ringEnable ld r) s = .next (s.ringStart ld r) :=
      congrArg Host.Outcome.next (if_pos (by simp [up, show (s.ring ld r).enable = false from off]))
    rw [starts, ringStart_sound s ld r ⟨cmd, cpl, cmdSize, cplSize⟩]
    refine ⟨fun granted => ?_, fun beyond => ⟨_, congrArg Host.Outcome.next (if_pos beyond), ?_⟩⟩
    · rw [if_neg (not_le.mpr granted), hy]
      rfl
    · rw [ring_ringError, State.ring_setRing_self, hy]
      rfl
  case unsound =>
    refine ⟨_, congrArg Host.Outcome.next ((if_pos (by simp [up, show (s.ring ld r).enable = false from off])).trans
      (ringStart_unsound s ld r ?_)), ?_⟩
    · rintro ⟨cmd, cpl, cmdSize, cplSize⟩
      rcases bad with h | h | h | h
      · exact h cmd
      · exact h cpl
      · exact h cmdSize
      · exact h cplSize
    · rw [ring_ringError, State.ring_setRing_self]
      exact ⟨rfl, rfl, rfl⟩
  case disable =>
    refine ⟨_, congrArg Host.Outcome.next (if_pos (by simp [up, show (s.ring ld r).enable = true from on])), ring_ringStop s ld r, ?_⟩
    simp only [cmds_ringStop, List.mem_filter, decide_eq_true_eq]
    exact ⟨fun c h => h.1, fun c hc held => ⟨hc, fun h => held h.2.2⟩, fun c h hld hring held => h.2 ⟨hld, hring, held⟩⟩
  case tail =>
    refine acts (u := s.tailWrite ld r v) rfl |>.trans (congrArg Host.Outcome.next (if_neg ?_))
    rcases free with off | inside
    · simp [show (s.ring ld r).on = false from off]
    · simp [not_le.mpr (show v.toNat < (s.ring ld r).cmdSize from inside)]
  case tailPast =>
    refine ⟨_, acts (u := s.tailWrite ld r v) rfl |>.trans (congrArg Host.Outcome.next (if_pos ?_)), ?_⟩
    · simp [show (s.ring ld r).on = true from on, show (s.ring ld r).cmdSize ≤ v.toNat from past]
    · rw [ring_ringError, State.ring_setRing_self]
      rfl
  case head =>
    rw [acts (u := s.headWrite ld r v) rfl, headWrite_enabled s ld r v on]
    refine congrArg Host.Outcome.next ((if_neg ?_).trans (State.setRing_setRing ..))
    simp [not_le.mpr (show v.toNat < (s.ring ld r).cplSize from inside),
      not_lt.mpr (show (s.ring ld r).consumed v.toNat ≤ (s.ring ld r).unread from enough)]
  case headBad =>
    refine ⟨_, acts (u := s.headWrite ld r v) rfl |>.trans (congrArg Host.Outcome.next
      ((headWrite_enabled s ld r v on).trans (if_pos ?_))), ?_⟩
    · simpa using bad
    · rw [ring_ringError, State.ring_setRing_self]
      rfl

/-! ### Fetch (R89, R90) -/

section
variable (s : State) (ld r : Nat) (bytes : List (BitVec 8))

/-- The command of a descriptor that has arrived, before it starts. -/
def arrived : RingCmd :=
  { ld := ld, ring := r, idx := (s.ring ld r).cmdHead.toNat, desc := (bytes ++ zeros 64).take 64, st := .held, data := [],
    at_ := s.time.fclk }

theorem fetched_ring : ((s.fetched ld r bytes).ring ld r).cmdHead =
    BitVec.ofNat 16 (((s.ring ld r).cmdHead.toNat + 1) % (s.ring ld r).cmdSize) :=
  congrArg Ring.cmdHead (State.ring_setRing_self s ld r _)

theorem fetched_held (h : (arrived s ld r bytes).flags % 2 = 1 ∧ s.flight ld r ≠ []) :
    (s.fetched ld r bytes).soft.cmds = s.soft.cmds ++ [arrived s ld r bytes] := by
  have keep : (if (arrived s ld r bytes).flags % 2 = 1 ∧ s.flight ld r ≠ [] then arrived s ld r bytes
    else (arrived s ld r bytes).start) = arrived s ld r bytes := if_pos h
  exact congrArg (s.soft.cmds ++ [·]) keep

theorem fetched_started (h : ¬ ((arrived s ld r bytes).flags % 2 = 1 ∧ s.flight ld r ≠ [])) :
    (s.fetched ld r bytes).soft.cmds = s.soft.cmds ++ [(arrived s ld r bytes).start] := by
  have start : (if (arrived s ld r bytes).flags % 2 = 1 ∧ s.flight ld r ≠ [] then arrived s ld r bytes
    else (arrived s ld r bytes).start) = (arrived s ld r bytes).start := if_neg h
  exact congrArg (s.soft.cmds ++ [·]) start

theorem take_descriptor (h : bytes.length = 64) : (bytes ++ zeros 64).take 64 = bytes := by
  rw [List.take_append_of_le_length (by omega), List.take_of_length_le (by omega)]

end

/-! ### Completion (R90, R95) -/

/-- A completed command is in flight no more, and its ring goes on. -/
theorem cmds_releaseFence (s : State) (ld r : Nat) : ∀ d ∈ (s.releaseFence ld r).soft.cmds, ∃ e ∈ s.soft.cmds,
    d.ld = e.ld ∧ d.ring = e.ring ∧ d.idx = e.idx := by
  intro d hd
  unfold State.releaseFence at hd
  split at hd
  · split at hd
    · obtain ⟨e, he, rfl⟩ := List.mem_map.mp hd
      refine ⟨e, he, ?_⟩
      split
      · rename_i same
        exact ⟨same.1.symm, same.2.1.symm, same.2.2.symm⟩
      · exact ⟨rfl, rfl, rfl⟩
    · exact ⟨d, hd, rfl, rfl, rfl⟩
  · exact ⟨d, hd, rfl, rfl, rfl⟩

/-- The ring state and what is sent are as before. -/
theorem releaseFence_frame (s : State) (ld r : Nat) : (s.releaseFence ld r).ring = s.ring ∧ (s.releaseFence ld r).out = s.out := by
  unfold State.releaseFence
  split
  · split <;> exact ⟨rfl, rfl⟩
  · exact ⟨rfl, rfl⟩

theorem setToHost_frame (s : State) (f : Nat) (bits : BitVec 16) : (s.setToHost f bits).ring = s.ring ∧
    (s.setToHost f bits).soft.cmds = s.soft.cmds ∧ ∀ m ∈ s.out, m ∈ (s.setToHost f bits).out := by
  unfold State.setToHost
  dsimp only
  split
  · exact ⟨rfl, rfl, fun m h => h⟩
  · exact ⟨rfl, rfl, fun m h => by simp [State.send, h]⟩

/-- The device with a command's completion entry on its way. -/
def entrySent (s : State) (c : RingCmd) (status : BitVec 8) (result : BitVec 64) : State :=
  let x := s.ring c.ld c.ring
  let s : State := { s with soft := { s.soft with cmds := s.soft.cmds.filter (fun d => ¬ (d.ld = c.ld ∧ d.ring = c.ring ∧ d.idx = c.idx)) } }
  let n := (x.cplTail.toNat + 1) % x.cplSize
  (s.hostPost c.ld (x.cplBase.toNat + 16 * x.cplTail.toNat) (cplEntry c x status result)).setRing c.ld c.ring
    { x with cplTail := BitVec.ofNat 16 n, phase := if n = 0 then !x.phase else x.phase, unread := x.unread + 1 }

/-- And its doorbell bit set. -/
def belled (s : State) (c : RingCmd) : State :=
  if c.flags / 2 % 2 = 1 then s.setToHost c.ld (BitVec.ofNat 16 (2 ^ (c.ring % 16))) else s

/-- A command's completion but for what then goes on elsewhere. -/
def completed (s : State) (c : RingCmd) (status : BitVec 8) (result : BitVec 64) : State :=
  ((belled (entrySent s c status result) c).fixed 537).releaseFence c.ld c.ring

section
variable (s : State) (c : RingCmd) (status : BitVec 8) (result : BitVec 64)

theorem complete_eq : s.complete c status result true = (completed s c status result).settle := rfl

theorem entrySent_spec :
    .hostWrite c.ld (BitVec.ofNat 64 ((s.ring c.ld c.ring).cplBase.toNat + 16 * (s.ring c.ld c.ring).cplTail.toNat))
      (cplEntry c (s.ring c.ld c.ring) status result) ∈ (entrySent s c status result).out ∧
    ((entrySent s c status result).ring c.ld c.ring).unread = (s.ring c.ld c.ring).unread + 1 ∧
    ((entrySent s c status result).ring c.ld c.ring).cplTail =
      BitVec.ofNat 16 (((s.ring c.ld c.ring).cplTail.toNat + 1) % (s.ring c.ld c.ring).cplSize) ∧
    ∀ d ∈ (entrySent s c status result).soft.cmds, ¬ (d.ld = c.ld ∧ d.ring = c.ring ∧ d.idx = c.idx) := by
  refine ⟨by simp [entrySent, State.hostPost, State.send], congrArg Ring.unread (State.ring_setRing_self ..), congrArg Ring.cplTail (State.ring_setRing_self ..), ?_⟩
  intro d hd
  have kept : d ∈ s.soft.cmds.filter (fun d => ¬ (d.ld = c.ld ∧ d.ring = c.ring ∧ d.idx = c.idx)) := hd
  exact of_decide_eq_true (List.mem_filter.mp kept).2

theorem belled_frame : (belled s c).ring = s.ring ∧ (belled s c).soft.cmds = s.soft.cmds ∧ ∀ m ∈ s.out, m ∈ (belled s c).out := by
  unfold belled
  split
  · exact setToHost_frame s _ _
  · exact ⟨rfl, rfl, fun m h => h⟩

/-- What the counter of completions and the release of a fence then leave (R90). -/
theorem counted_frame (s : State) (ld r : Nat) : ((s.fixed 537).releaseFence ld r).ring = s.ring ∧
    ((s.fixed 537).releaseFence ld r).out = s.out ∧
    ∀ d ∈ ((s.fixed 537).releaseFence ld r).soft.cmds, ∃ e ∈ s.soft.cmds, d.ld = e.ld ∧ d.ring = e.ring ∧ d.idx = e.idx := by
  obtain ⟨⟨-, -, -, -, -, -, -, -, -, -, -, -, -, -, -, out, -⟩, -, soft, -⟩ := countFrame_fixed s 537 (by norm_num)
  obtain ⟨ring, out'⟩ := releaseFence_frame (s.fixed 537) ld r
  have cmds := cmds_releaseFence (s.fixed 537) ld r
  refine ⟨ring.trans ?_, out'.trans out, by rwa [soft] at cmds⟩
  unfold State.ring
  rw [soft]

theorem completed_spec :
    .hostWrite c.ld (BitVec.ofNat 64 ((s.ring c.ld c.ring).cplBase.toNat + 16 * (s.ring c.ld c.ring).cplTail.toNat))
      (cplEntry c (s.ring c.ld c.ring) status result) ∈ (completed s c status result).out ∧
    ((completed s c status result).ring c.ld c.ring).unread = (s.ring c.ld c.ring).unread + 1 ∧
    ((completed s c status result).ring c.ld c.ring).cplTail =
      BitVec.ofNat 16 (((s.ring c.ld c.ring).cplTail.toNat + 1) % (s.ring c.ld c.ring).cplSize) ∧
    ∀ d ∈ (completed s c status result).soft.cmds, ¬ (d.ld = c.ld ∧ d.ring = c.ring ∧ d.idx = c.idx) := by
  obtain ⟨sent, unread, tail, gone⟩ := entrySent_spec s c status result
  obtain ⟨ring, cmds, out⟩ := belled_frame (entrySent s c status result) c
  obtain ⟨ring', out', cmds'⟩ := counted_frame (belled (entrySent s c status result) c) c.ld c.ring
  unfold completed
  rw [ring', ring, out']
  refine ⟨out _ sent, unread, tail, fun d hd same => ?_⟩
  obtain ⟨e, he, ld, r, idx⟩ := cmds' d hd
  rw [cmds] at he
  exact gone e he ⟨ld.symm.trans same.1, r.symm.trans same.2.1, idx.symm.trans same.2.2⟩

end

/-- A finished command completes as its link lets it (R95). -/
theorem exec_commandComplete {s : State} {ld : LdNo} {r : RingNo} {i : BitVec 16} {c : RingCmd} {st : BitVec 8} {res : BitVec 64}
    (ok : Bool) (live : s.live = true) (hc : s.cmdAt ld r i.toNat = some c) (done : c.st = .done st res)
    (posts : s.canPost ld = true ∨ (s.link (ldHead ld)).up = false) :
    exec (.commandComplete ld r i ok) s = .next (s.complete c st res (ok && (s.link (ldHead ld)).up)) := by
  have run : exec (.commandComplete ld r i ok) s = execCommandComplete ld r i ok s := rfl
  have free : ((s.link (ldHead ld)).up && !s.canPost ld) = false := by
    rcases posts with h | h <;> simp [h]
  rw [run, execCommandComplete, if_pos live, hc]
  simp only [done, free]
  rfl

/-- Settles O34. -/
theorem commandsAreFetchedAndCompleted : Obligations.CommandsAreFetchedAndCompleted := by
  unfold Obligations.CommandsAreFetchedAndCompleted
  intro s ld r x
  refine ⟨fun up may resp a ha => ?fetch, fun bytes full => ?fetched, fun live i c st res hc done => ?complete,
    fun c st res hld hring => ?entry⟩
  case fetch =>
    have fetches : exec (.commandFetch ld r resp) s = .next (a.fetchAnswer ld r resp) := by
      rw [ha]
      exact congrArg Host.Outcome.next (if_pos (by simp [up, may]))
    refine ⟨?_, ?_, ?_⟩
    · rintro bytes rfl
      exact fetches
    · rintro rfl
      refine ⟨_, fetches, ?_⟩
      have stopped := ring_ringError a ld r 5
      exact ⟨congrArg Ring.error stopped, congrArg Ring.cause stopped⟩
    · rintro rfl
      exact fetches
  case fetched =>
    have desc := take_descriptor bytes full
    by_cases held : (arrived s ld r bytes).flags % 2 = 1 ∧ s.flight ld r ≠ []
    · exact ⟨_, fetched_held s ld r bytes held, rfl, rfl, rfl, desc, fetched_ring s ld r bytes, fun _ => rfl, fun no => absurd held no⟩
    · exact ⟨_, fetched_started s ld r bytes held, rfl, rfl, rfl, desc, fetched_ring s ld r bytes, fun yes => absurd yes held, fun _ => rfl⟩
  case complete =>
    refine ⟨fun posts => ?_, fun posts => exec_commandComplete false live hc done posts⟩
    rw [exec_commandComplete true live hc done (.inl posts), up_of_canPost posts]
    rfl
  case entry =>
    have spec := completed_spec s c st res
    rw [hld, hring] at spec ⊢
    exact ⟨_, complete_eq s c st res, spec⟩

end Sys2Proof.Machine
end

section
/-! PROOFS. The commands over a range (R92, R93, R110, R140, R260-R263). -/
namespace Sys2Proof.Machine

section
variable {s : State} {ld : LdNo} {r : RingNo} {i : BitVec 16} {c : RingCmd} {op : Nat} {f : RingCmd → State}

/-- A started command of the arm's opcode is taken up. -/
theorem takeUp_started (live : s.live = true) (hc : s.cmdAt ld r i.toNat = some c) (hst : c.st = .started) (hop : c.opcode = op) :
    s.takeUp ld r i.toNat op f = f c := by
  simp [State.takeUp, live, hc, hst, hop]

end

/-- Settles O35: each arm's own checks, in their order. -/
theorem ringCommandsOverARange : Obligations.RingCommandsOverARange := by
  unfold Obligations.RingCommandsOverARange
  intro s ld r i c k live hc hst
  have acts {v : Instr} {op : Nat} {f : RingCmd → State} {u : State}
      (he : exec v s = .next (s.takeUp ld r i.toNat op f)) (hop : c.opcode = op) (hf : f c = u) : exec v s = .next u := by
    rw [he, takeUp_started live hc hst hop, hf]
  refine ⟨fun op range apart key => ?copy, fun op bad => ?copyBad, fun op range _ key => ?zero, fun op bad => ?zeroBad,
    fun op range arg => ?stow, fun op bad => ?stowBad, fun op range arg => ?unstow, fun op bad => ?unstowBad,
    fun op range arg => ?pin, fun op bad => ?pinBad, fun op range _ => ?unpin, fun op bad => ?unpinBad, ?unmapped,
    fun op granted range k1 k2 key1 key2 => ?rekey, fun op denied => ?rekeyDenied, fun op range arg full => ?hintFull,
    fun op range arg room d hd a ha => ?hint⟩
  case copy =>
    refine acts rfl op ((if_neg (by simp [range, apart.1])).trans ((if_neg (by simpa using apart.2)).trans ?_))
    rw [key]
  case zero =>
    refine acts rfl op ((if_neg (by simp [range])).trans ?_)
    rw [key]
  case copyBad =>
    by_cases aligned : rangeOk c.addrA c.len 64 = true ∧ c.addrB % 64 = 0
    · refine acts rfl op ((if_neg (by simp [aligned])).trans (if_pos ?_))
      simpa [aligned] using bad
    · exact acts rfl op (if_pos (by simpa [or_iff_not_imp_left] using aligned))
  case stow | unstow | pin => exact acts rfl op (if_neg (by simp [range, arg]))
  case unpin => exact acts rfl op (if_neg (by simp [range]))
  case zeroBad | unpinBad => exact acts rfl op (if_pos (by simp [bad]))
  case stowBad | unstowBad | pinBad => exact acts rfl op (if_pos (by simpa using bad))
  case unmapped =>
    rintro v - (⟨op, rfl, align, apart⟩ | ⟨op, rfl⟩) range key
    · refine acts rfl op ((if_neg (by simp [range, align])).trans ((if_neg (by simpa using apart)).trans ?_))
      rw [key]
    · refine acts rfl op ((if_neg (by simp [range])).trans ?_)
      rw [key]
  case rekey =>
    refine acts rfl op ((if_neg (by simp [granted])).trans ((if_neg (by simp [range])).trans ?_))
    rw [key1, key2]
    rfl
  case rekeyDenied => exact acts rfl op (if_pos (by simp [denied]))
  case hintFull => exact acts rfl op ((if_neg (by simp [range, arg])).trans (if_pos full))
  case hint =>
    subst hd ha
    exact acts rfl op ((if_neg (by simp [range, arg])).trans (if_neg (not_le.mpr room)))

end Sys2Proof.Machine
end

section
/-! PROOFS. RUN, SNAP and the host's completions (R110, R158, R159, R193, R194, R475, R477). -/
namespace Sys2Proof.Machine

/-! ### RUN (R158, R159) -/

section
variable {s : State} {ld : LdNo} {r : RingNo} {i : BitVec 16} {c : RingCmd} {resp : HostResp}
  (live : s.live = true) (hc : s.cmdAt ld r i.toNat = some c)

section
variable (hst : c.st = .started) (hop : c.opcode = 11)
include live hc hst hop

theorem exec_run_denied (denied : s.infB ACCESS.RUN_OK ld = false) : exec (.run ld r i resp) s = .next (s.fail c 0xE) :=
  congrArg Host.Outcome.next ((takeUp_started live hc hst hop).trans (if_pos (by simp [denied])))

theorem exec_run_phase (granted : s.infB ACCESS.RUN_OK ld = true) (phase : s.phase = 0 ∨ s.phase = 3) :
    exec (.run ld r i resp) s = .next (s.fail c 7) :=
  congrArg Host.Outcome.next ((takeUp_started live hc hst hop).trans ((if_neg (by simp [granted])).trans (if_pos phase)))

theorem exec_run_noProgram (granted : s.infB ACCESS.RUN_OK ld = true) (phase : s.phase = 1 ∨ s.phase = 2)
    (none_ : s.runProgram c = none) : exec (.run ld r i resp) s = .next (s.fail c 2) := by
  refine congrArg Host.Outcome.next ((takeUp_started live hc hst hop).trans ((if_neg (by simp [granted])).trans
    ((if_neg (by omega)).trans ?_)))
  rw [none_]
  exact ite_self _

/-- A RUN whose checks pass reads its argument block. -/
theorem exec_run_reads (granted : s.infB ACCESS.RUN_OK ld = true) (phase : s.phase = 1 ∨ s.phase = 2) (align : c.addrB % 64 = 0)
    (short : c.len ≤ 4096) (some_ : 0 < c.len) {p : Program} (hp : s.runProgram c = some p) (fits : c.len ≤ p.scratch)
    (held : s.holders p ≠ []) (asks : s.canAsk ld = true) (hld : c.ld = ld.val) :
    exec (.run ld r i resp) s =
      .next ((s.hostAsk c.ld c.ring (some c.idx) c.addrB c.len resp).runData c resp) := by
  refine congrArg Host.Outcome.next ((takeUp_started live hc hst hop).trans ((if_neg (by simp [granted])).trans
    ((if_neg (by omega)).trans ((if_neg (by omega)).trans ?_))))
  rw [hp]
  have up : (s.link (ldHead c.ld)).up = true := hld ▸ up_of_canAsk asks
  exact (if_neg (not_lt.mpr fits)).trans ((if_neg (by simpa using held)).trans ((if_neg (by simp [asks])).trans
    (readHost_up resp (fun s x => s.runData c x) some_.ne' up)))

end

/-! ### SNAP (R475, R477) -/

include live hc

theorem exec_snap_started {ok : Bool} (hop : c.opcode = 12) (hst : c.st = .started) : exec (.snap ld r i ok) s = .next
    (if !(s.infB ACCESS.SNAP_OK ld && s.infB ACCESS.MILEPOST_WINDOW ld) then s.fail c 0xE
    else if 16 < c.arg0 ∨ c.len < 328 ∨ 2 ^ 30 < c.len ∨ c.addrB % 64 ≠ 0 then s.fail c 2
    else if !s.groupSeen ld c.arg0 then s.fail c 0xE
    else (s.snapAsk c.arg0).1.setCmd { c with st := .working, data := leBytes 4 (s.snapAsk c.arg0).2.toNat }) := by
  have run : exec (.snap ld r i ok) s = execSnap ld r i ok s := rfl
  rw [run, execSnap, if_pos live, hc]
  simp only [hop, hst]
  rfl

theorem exec_snap_working {ok : Bool} (hop : c.opcode = 12) (hst : c.st = .working) :
    exec (.snap ld r i ok) s = .next (s.snapWrite c ok) := by
  have run : exec (.snap ld r i ok) s = execSnap ld r i ok s := rfl
  rw [run, execSnap, if_pos live, hc]
  simp only [hop, hst]
  rfl

end

/-! ### The host's completions (R193, R194) -/

/-- The read that a completion answers is outstanding no more. -/
def readAnswered (s : State) (h : HeadNo) (tag : BitVec 16) : State :=
  { s with soft := { s.soft with ioReads := s.soft.ioReads.filter (fun x => ¬ (x.head = h.val ∧ x.tag = tag)) } }

section
variable {s : State} {h : HeadNo} {tag : BitVec 16} {resp : HostResp} (live : s.live = true) (up : (s.link h).up = true)
  (answered : resp ≠ .outstanding)
include live up answered

theorem exec_completion_violation (none_ : ∀ q ∈ s.soft.ioReads, ¬ (q.head = h ∧ q.tag = tag)) :
    exec (.cxlIoCompletion h tag resp) s =
      .next ((s.violate h 0xFF 0x10 1 0 (cplType resp + tag.toNat * 2 ^ 8)).send (.errCor (16 * h))) := by
  have unasked : s.soft.ioReads.find? (fun q => q.head == h.val && q.tag == tag) = none := by
    rw [List.find?_eq_none]
    exact fun q hq => by simpa using none_ q hq
  have run : exec (.cxlIoCompletion h tag resp) s = execCxlIoCompletion h tag resp s := rfl
  rw [run, execCxlIoCompletion, if_neg (by simp [live, up, answered]), unasked]

section
variable {q : IoRead} (hq : s.soft.ioReads.find? (fun q => q.head == h.val && q.tag == tag) = some q)
include hq

theorem exec_completion_data {j : Nat} {d : RingCmd} (hj : q.idx = some j) (hd : s.cmdAt q.ld q.ring j = some d)
    (reading : d.st = .reading) :
    exec (.cxlIoCompletion h tag resp) s = .next ((readAnswered s h tag).hostData d resp) := by
  have run : exec (.cxlIoCompletion h tag resp) s = execCxlIoCompletion h tag resp s := rfl
  have found : (readAnswered s h tag).cmdAt q.ld q.ring j = some d := hd
  rw [run, execCxlIoCompletion, if_neg (by simp [live, up, answered]), hq]
  unfold readAnswered at found ⊢
  simp only [hj, found]
  exact congrArg Host.Outcome.next (if_pos reading)

theorem exec_completion_descriptor (hnone : q.idx = none) (ring : q.ring < 128)
    (fetching : (s.ring q.ld q.ring).fetching = true) :
    exec (.cxlIoCompletion h tag resp) s = .next ((readAnswered s h tag).fetchAnswer q.ld q.ring resp) := by
  have run : exec (.cxlIoCompletion h tag resp) s = execCxlIoCompletion h tag resp s := rfl
  rw [run, execCxlIoCompletion, if_neg (by simp [live, up, answered]), hq]
  simp only [hnone]
  exact congrArg Host.Outcome.next (if_pos ⟨ring, fetching⟩)

end
end

/-- Settles O37. -/
theorem runAndSnapCommands : Obligations.RunAndSnapCommands := by
  unfold Obligations.RunAndSnapCommands
  intro s ld r i c live hc
  refine ⟨fun hst hop granted phase align short some_ p hp fits held asks hld hring hidx bytes a d ha hd => ?run,
    fun hst hop resp => ⟨exec_run_denied live hc hst hop, exec_run_phase live hc hst hop, exec_run_noProgram live hc hst hop⟩,
    congrArg Host.Outcome.next (if_pos live),
    fun hst hop granted window group size long align seen ok q hq => ?snap, fun hst hop hld out posts => ?image,
    fun h tag resp up answered none_ => ?violation, fun h tag resp q j d up answered hq hj hd reading => ?data,
    fun h tag bytes q up hq hidx ring fetching => ?descriptor⟩
  case run =>
    rw [exec_run_reads live hc hst hop granted phase align short some_ hp fits held asks hld, hld, hring, hidx, ← ha, hd]
    rfl
  case snap =>
    rw [exec_snap_started live hc hop hst, hq]
    refine congrArg Host.Outcome.next ((if_neg (by simp [granted, window])).trans ((if_neg ?_).trans (if_neg (by simp [seen]))))
    omega
  case image =>
    rw [exec_snap_working live hc hop hst]
    refine congrArg Host.Outcome.next ((if_neg (by simp [out])).trans ((if_neg ?_).trans ((if_neg ?_).trans ?_)))
    · simp [hld, up_of_canPost posts]
    · simp [hld, posts]
    · rw [hld]
  case violation => exact exec_completion_violation live up answered none_
  case data => exact exec_completion_data live up answered hq hj hd reading
  case descriptor => exact exec_completion_descriptor live up (by simp) hq hidx ring fetching

end Sys2Proof.Machine
end

section
/-! PROOFS. Copy passes, the switch, slot relocation and heat decay (R129, R252-R258, R427). -/
namespace Sys2Proof.Machine

/-! ### Copy passes and the switch (R252-R257) -/

section
variable {s : State} {p : BitVec 34} {m : Move} (live : s.live = true) (hm : s.moveOf p.toNat = some m)
include live hm

section
variable (mover : m.byMover = true) (copying : m.pass ≠ 4)
include mover copying

theorem exec_copyPassEnd_ended : exec (.pageMoveCopyPassEnd p .ended) s = .next
    (if m.pass = 1 ∧ redoCount m.redo ≠ 0 then (s.redone m).setMove { m with redo := 0, pass := 2 }
    else if m.pass = 2 ∧ 8 < redoCount m.redo then (s.redone m).setMove { m with redo := 0, pass := 3 }
    else ((s.redone m).setMove { m with pass := 4 }).closeFrame (locFrame (s.page m.page).loc)) := by
  have run (ev : CopyEvent) : exec (.pageMoveCopyPassEnd p ev) s = execPageMoveCopyPassEnd p ev s := rfl
  rw [run, execPageMoveCopyPassEnd, hm]
  exact congrArg Host.Outcome.next ((if_neg (by simp [live, mover, copying])).trans ((if_neg (by decide)).trans (if_neg (by decide))))

theorem exec_copyPassEnd_targetBad : exec (.pageMoveCopyPassEnd p .targetBad) s = .next (s.badTarget m) := by
  have run (ev : CopyEvent) : exec (.pageMoveCopyPassEnd p ev) s = execPageMoveCopyPassEnd p ev s := rfl
  rw [run, execPageMoveCopyPassEnd, hm]
  exact congrArg Host.Outcome.next ((if_neg (by simp [live, mover, copying])).trans (if_pos rfl))

theorem exec_copyPassEnd_moverFault : exec (.pageMoveCopyPassEnd p .moverFault) s = .next (s.moverStops m.mover) := by
  have run (ev : CopyEvent) : exec (.pageMoveCopyPassEnd p ev) s = execPageMoveCopyPassEnd p ev s := rfl
  rw [run, execPageMoveCopyPassEnd, hm]
  exact congrArg Host.Outcome.next ((if_neg (by simp [live, mover, copying])).trans ((if_neg (by decide)).trans (if_pos rfl)))

end

/-- The switch of a held page with no merge entry of its frame left. -/
theorem exec_pageMoveSwitch (mover : m.byMover = true) (held : m.pass = 4)
    (drained : s.mergesOf (locFrame (s.page m.page).loc) = []) : exec (.pageMoveSwitch p) s = .next
      (((((if m.kind = .relocate then
        (s.switchRelocate m.page m).occur ⟨uid 7 m.mover, 4, none, none, some (m.page * 4096, 0)⟩
      else ((s.switchFrame m.page m).occur ⟨uid 7 m.mover, 1, none, none, some (m.page * 4096, 0)⟩).fixed 525).pageDone
        m.page 0).accessAll m.held).unpark).settle) := by
  have run : exec (.pageMoveSwitch p) s = execPageMoveSwitch p s := rfl
  rw [run, execPageMoveSwitch, hm]
  exact congrArg Host.Outcome.next (if_neg (by simp [live, mover, held, drained]))

end

/-! ### Slot relocation (R258) -/

section
variable {s : State} {loc : BitVec 36} (live : s.live = true) (listed : s.plc.compact.contains loc.toNat = true)
  (movers : s.moversOk = true)
include live listed movers

theorem exec_slotRelocation_freed (freed : (s.frame (locFrame loc.toNat)).use = .free) : exec (.slotRelocation loc) s = .next
    { s with plc := { s.plc with compact := s.plc.compact.filter (· ≠ loc.toNat) } } := by
  have run : exec (.slotRelocation loc) s = execSlotRelocation loc s := rfl
  rw [run, execSlotRelocation]
  refine congrArg Host.Outcome.next ((if_neg (by simp [live, movers, List.contains_iff_mem.mp listed])).trans ?_)
  simp only [freed]

/-- The move of a stowed page into a slot that is free. -/
def slotMove (s : State) (loc cls q : Nat) : Move :=
  { page := q, kind := .relocate, mover := s.countMover, target := loc, tgtClass := cls, redo := 0, pass := 4,
    retried := false, held := [], near := false, force := false }

/-- The device with the page in that slot. -/
def slotGiven (s : State) (loc cls : Nat) (ps : List (Option Nat)) (q : Nat) : State :=
  let s := s.setFrame (locFrame loc) { s.frame (locFrame loc) with use := .slots cls (setAt ps (slotIdx loc cls) (some q)) }
  s.switchRelocate q (slotMove s loc cls q)

theorem exec_slotRelocation_given {cls : Nat} {ps : List (Option Nat)}
    (use_ : (s.frame (locFrame loc.toNat)).use = .slots cls ps) (retiring : (s.frame (locFrame loc.toNat)).retiring = false)
    (free : ps.getD (slotIdx loc.toNat cls) none = none) {f : Nat} {fr : Frame} {rest : List (Nat × Frame)}
    {qs : List (Option Nat)} {q i : Nat}
    (givers : s.plc.frames.filter (fun f => f.1 / 2 ^ 28 == frUnit (locFrame loc.toNat) && f.1 != locFrame loc.toNat &&
      !f.2.retiring && (match f.2.use with | .slots c qs => c == cls && qs.any Option.isNone && qs.any Option.isSome | _ => false)) =
        (f, fr) :: rest)
    (slots : fr.use = .slots cls qs) (last : ((qs.zipIdx).filter (fun x => x.1.isSome)).getLast? = some (some q, i))
    (stowed : (s.page q).st = .stowed) (noOp : s.opOn q = false)
    (idle : s.stow.decoding.any (fun d => d.q.page == q) = false) (from_ : locFrame (s.page q).loc = f) :
    exec (.slotRelocation loc) s = .next ((({ slotGiven s loc.toNat cls ps q with plc :=
        { (slotGiven s loc.toNat cls ps q).plc with
          compact := (slotGiven s loc.toNat cls ps q).plc.compact.filter (· ≠ loc.toNat) } }).occur
      ⟨uid 7 s.countMover, 4, none, none, some (q * 4096, 0)⟩).settle) := by
  have run : exec (.slotRelocation loc) s = execSlotRelocation loc s := rfl
  rw [run, execSlotRelocation]
  refine congrArg Host.Outcome.next ((if_neg (by simp [live, movers, List.contains_iff_mem.mp listed])).trans ?_)
  simp only [use_]
  refine (if_neg (by rw [retiring, free]; decide)).trans ?_
  split
  case h_1 none_ => exact absurd (givers.symm.trans none_) (by simp)
  case h_2 f' fr' tail some_ =>
    obtain ⟨⟨rfl, rfl⟩, rfl⟩ : (f' = f ∧ fr' = fr) ∧ tail = rest := by simpa using some_.symm.trans givers
    simp only [slots, last]
    exact if_neg (by simp [stowed, noOp, idle, from_])

end

theorem occur_compact (s : State) (o : Occ) : (s.occur o).plc.compact = s.plc.compact := by
  obtain ⟨⟨-, -, -, -, -, -, -, -, plc, -⟩, -⟩ := countFrame_occur s o
  rw [plc]

/-- Settles O50. -/
theorem pagesMove : Obligations.PagesMove := by
  unfold Obligations.PagesMove
  intro s live
  refine ⟨fun p m hm kind copying => ?copy, fun p m hm held kind drained => ?switch, fun p m hm held kind drained => ?relocate,
    fun p none_ => ?nothing, fun loc listed movers => exec_slotRelocation_freed live listed movers,
    fun loc cls ps listed movers use_ retiring free f fr rest qs q i givers slots last stowed noOp idle from_ => ?give,
    fun hot hh => ?decay⟩
  case copy =>
    have mover : m.byMover = true := by
      rcases kind with h | h | h <;> simp [Move.byMover, h]
    refine ⟨fun first redo => ?_, fun second redo => ?_, fun over_ => ?_,
      exec_copyPassEnd_targetBad live hm mover copying, exec_copyPassEnd_moverFault live hm mover copying⟩
    all_goals rw [exec_copyPassEnd_ended live hm mover copying]
    · rw [if_pos ⟨first, redo⟩]
    · rw [if_neg (by omega), if_pos ⟨second, redo⟩]
    · rw [if_neg (by omega), if_neg (by omega)]
  case switch =>
    have mover : m.byMover = true := by
      rcases kind with h | h <;> simp [Move.byMover, h]
    rw [exec_pageMoveSwitch live hm mover held drained, if_neg (by rcases kind with h | h <;> simp [h])]
  case relocate =>
    rw [exec_pageMoveSwitch live hm (by simp [Move.byMover, kind]) held drained, if_pos kind]
  case nothing =>
    have switch : exec (.pageMoveSwitch p) s = execPageMoveSwitch p s := rfl
    have copy (ev : CopyEvent) : exec (.pageMoveCopyPassEnd p ev) s = execPageMoveCopyPassEnd p ev s := rfl
    refine ⟨?_, fun ev => ?_⟩
    · rw [switch, execPageMoveSwitch, none_]
    · rw [copy, execPageMoveCopyPassEnd, none_]
  case decay =>
    subst hh
    exact congrArg Host.Outcome.next (if_pos live)
  case give =>
    refine ⟨_, exec_slotRelocation_given live listed movers use_ retiring free givers slots last stowed noOp idle from_, ?_⟩
    rw [occur_compact]
    intro x hx
    obtain ⟨kept, other⟩ := List.mem_filter.mp hx
    exact ⟨kept, of_decide_eq_true other⟩

end Sys2Proof.Machine
end

section
/-! PROOFS. What an LD's reset stops (R102, R140, R157, R302). -/
namespace Sys2Proof.Machine

/-! ### Lookups in a filtered map -/

theorem tget_filter_of_kept {α : Type} (d : Nat → α) (p : Nat → Bool) (l : Tab α) {k : Nat} (hk : p k = true) :
    tget d (l.filter (fun x => p x.1)) k = tget d l k := by
  induction l with
  | nil => rfl
  | cons x l ih =>
    by_cases hp : p x.1 = true
    · simp only [List.filter_cons, hp, if_true, tget, ih]
    · have other : x.1 ≠ k := fun e => hp (e ▸ hk)
      simp [hp, tget, other, ih]

theorem tget_filter_of_dropped {α : Type} (d : Nat → α) (p : Nat → Bool) (l : Tab α) {k : Nat} (hk : p k = false) :
    tget d (l.filter (fun x => p x.1)) k = d k := by
  induction l with
  | nil => rfl
  | cons x l ih =>
    by_cases hp : p x.1 = true
    · have other : x.1 ≠ k := fun e => by simp [e, hk] at hp
      simp only [List.filter_cons, hp, if_true, tget, other, if_false, ih]
    · simp only [List.filter_cons, hp]
      exact ih

/-- A lookup in a filtered map gives the default or an entry that the filter kept. -/
theorem tget_filter_cases {α : Type} (d : Nat → α) (p : Nat × α → Bool) (l : Tab α) (k : Nat) :
    tget d (l.filter p) k = d k ∨ p (k, tget d (l.filter p) k) = true := by
  induction l with
  | nil => exact .inl rfl
  | cons x l ih =>
    by_cases hp : p x = true
    · simp only [List.filter_cons, hp, if_true, tget]
      split
      · rename_i hk
        exact .inr (hk ▸ hp)
      · exact ih
    · simp only [List.filter_cons, hp]
      exact ih

/-! ### Jobs and tenants stop (R102, R157) -/

/-- Only jobs, threads and outstanding invalidations differ. -/
def OnlyStops (s u : State) : Prop :=
  u = { s with coh := u.coh, soft := { s.soft with jobs := u.soft.jobs, threads := u.soft.threads } }

theorem OnlyStops.refl (s : State) : OnlyStops s s := rfl

theorem OnlyStops.trans {s u v : State} (h : OnlyStops s u) (k : OnlyStops u v) : OnlyStops s v := by
  unfold OnlyStops at h k ⊢
  rw [k, h]

/-- What is the same of the rest. -/
theorem OnlyStops.parts {s u : State} (h : OnlyStops s u) : u.tab = s.tab ∧ u.stow = s.stow ∧ u.dram = s.dram ∧ u.plc = s.plc ∧
    u.own = s.own := by
  unfold OnlyStops at h
  rw [h]
  exact ⟨rfl, rfl, rfl, rfl, rfl⟩

theorem OnlyStops.objects {s u : State} (h : OnlyStops s u) : u.soft.rings = s.soft.rings ∧ u.soft.cmds = s.soft.cmds ∧
    u.soft.ioReads = s.soft.ioReads ∧ u.soft.runQ = s.soft.runQ ∧ u.soft.policyQ = s.soft.policyQ ∧
    u.soft.mail = s.soft.mail ∧ u.soft.bells = s.soft.bells := by
  unfold OnlyStops at h
  rw [h]
  exact ⟨rfl, rfl, rfl, rfl, rfl, rfl, rfl⟩

theorem onlyStops_stopJob (s : State) (j : Job) : OnlyStops s (s.stopJob j) := by
  unfold State.stopJob
  split <;> rfl

theorem onlyStops_stopJobs (s : State) (js : List Job) : OnlyStops s (js.foldl (fun s j => s.stopJob j) s) :=
  List.foldlRecOn (motive := OnlyStops s) js _ (.refl s) (fun v hv j _ => hv.trans (onlyStops_stopJob v j))

theorem thread_stopJob (s : State) (j : Job) : (s.stopJob j).thread = s.thread := by
  unfold State.stopJob
  split <;> rfl

/-- The end of an invocation that no RUN command waits for. -/
theorem endInvocation_noRun (s : State) (w t : Nat) (kind : BitVec 2) (status : BitVec 16) (runStatus : BitVec 8)
    (result : BitVec 64) (h : (s.thread w t).run = none) : s.endInvocation w t kind status runStatus result =
      (s.detachOps w t).setThread w t ((s.thread w t).ended kind status) := by
  unfold State.endInvocation
  dsimp only [detachOps_thread]
  rw [h]
  rfl

theorem detachOps_setThread (s : State) (w t w' t' : Nat) (x : Thread) :
    (s.setThread w t x).detachOps w' t' = (s.detachOps w' t').setThread w t x := rfl

/-- A tenant's invocation that an LD's reset ends. -/
def tenantStopped (ld : Nat) (s : State) (k : Nat) : State :=
  let x := s.thread (k / 4) (k % 4)
  if x.st ≠ .idle ∧ x.kind = .tenant ld then
    ((s.orphanMoves (k / 4) (k % 4)).setThread (k / 4) (k % 4) { x with run := none }).endInvocation (k / 4) (k % 4) 0b10 0xFF 0 0
  else s

theorem stopTenants_eq (s : State) (ld : Nat) : s.stopTenants ld = (List.range 64).foldl (tenantStopped ld) s := rfl

section
variable (s : State) (ld k : Nat)

/-- A thread of a tenant of the LD ends, another is left as it is. -/
theorem tenantStopped_cases : tenantStopped ld s k = s ∧ ¬ ((s.thread (k / 4) (k % 4)).st ≠ .idle ∧ (s.thread (k / 4) (k % 4)).kind = .tenant ld) ∨
    ∃ v, OnlyStops s v ∧ v.thread = s.thread ∧ tenantStopped ld s k =
      v.setThread (k / 4) (k % 4) ({ s.thread (k / 4) (k % 4) with run := none }.ended 0b10 0xFF) := by
  by_cases stops : (s.thread (k / 4) (k % 4)).st ≠ .idle ∧ (s.thread (k / 4) (k % 4)).kind = .tenant ld
  · refine .inr ⟨(s.orphanMoves (k / 4) (k % 4)).detachOps (k / 4) (k % 4), rfl, rfl, ?_⟩
    unfold tenantStopped
    rw [if_pos stops, endInvocation_noRun _ _ _ _ _ _ _ (by rw [State.thread_setThread_self]), State.thread_setThread_self,
      detachOps_setThread, State.setThread_setThread]
  · exact .inl ⟨if_neg stops, stops⟩

theorem onlyStops_tenantStopped : OnlyStops s (tenantStopped ld s k) := by
  rcases tenantStopped_cases s ld k with ⟨same, -⟩ | ⟨v, frame, -, hv⟩
  · rw [same]
    exact .refl s
  · rw [hv]
    exact frame.trans rfl

/-- No invocation of a tenant of the LD stands on the thread. -/
def Stopped (ld w t : Nat) (s : State) : Prop := (s.thread w t).kind = .tenant ld → (s.thread w t).st = .idle

theorem stopped_tenantStopped_self : Stopped ld (k / 4) (k % 4) (tenantStopped ld s k) := by
  unfold Stopped
  rcases tenantStopped_cases s ld k with ⟨same, other⟩ | ⟨v, -, -, hv⟩
  · rw [same]
    exact fun kind => by_contra fun running => other ⟨running, kind⟩
  · rw [hv, State.thread_setThread_self]
    exact fun _ => rfl

theorem Stopped.tenantStopped {w t : Nat} (h : Stopped ld w t s) : Stopped ld w t (tenantStopped ld s k) := by
  unfold Stopped at h ⊢
  rcases tenantStopped_cases s ld k with ⟨same, -⟩ | ⟨v, -, thread, hv⟩
  · rwa [same]
  · rw [hv, State.thread_setThread]
    split
    · exact fun _ => rfl
    · rwa [thread]

end

/-- What a step of a fold establishes and every step keeps holds at its end. -/
theorem foldl_of_mem {α β : Type} {f : β → α → β} {P : β → Prop} {l : List α} {k : α} (hk : k ∈ l)
    (establishes : ∀ s, P (f s k)) (keeps : ∀ s j, P s → P (f s j)) (s : β) : P (l.foldl f s) := by
  obtain ⟨before, after, rfl⟩ := List.append_of_mem hk
  rw [List.foldl_append, List.foldl_cons]
  exact List.foldlRecOn (motive := P) after f (establishes _) (fun v hv j _ => keeps v j hv)

section
variable (s : State) (ld : Nat)

theorem onlyStops_stopTenants : OnlyStops s (s.stopTenants ld) := by
  rw [stopTenants_eq]
  exact List.foldlRecOn (motive := OnlyStops s) _ _ (.refl s) (fun v hv k _ => hv.trans (onlyStops_tenantStopped v ld k))

theorem stopped_stopTenants (w : WfNo) (t : ThrNo) : Stopped ld w t (s.stopTenants ld) := by
  have key : thKey w t / 4 = w ∧ thKey w t % 4 = t := by unfold thKey; omega
  have self (v : State) : Stopped ld w t (tenantStopped ld v (thKey w t)) := by
    have := stopped_tenantStopped_self v ld (thKey w t)
    rwa [key.1, key.2] at this
  rw [stopTenants_eq]
  exact foldl_of_mem (List.mem_range.mpr (by unfold thKey; omega)) self (fun v k hv => hv.tenantStopped v ld k) s

/-- The device with the LD's jobs stopped. -/
def jobsStopped (s : State) (ld : Nat) : State :=
  (s.soft.jobs.filter (fun j => match j.origin with | .ring l _ _ => l == ld | _ => false)).foldl (fun s j => s.stopJob j) s

/-- Its rings back at reset and its commands gone. -/
def ringsCleared (s : State) (ld : Nat) : State :=
  { s with soft := { s.soft with
      rings := s.soft.rings.filter (fun r => r.1 / 128 ≠ ld)
      cmds := s.soft.cmds.filter (fun c => c.ld ≠ ld)
      ioReads := s.soft.ioReads.filter (fun r => r.ld ≠ ld)
      runQ := s.soft.runQ.filter (fun c => c.ld ≠ ld)
      policyQ := s.soft.policyQ.filter (fun c => c.ld ≠ ld) } }

theorem stopRings_eq : s.stopRings ld = ringsCleared (jobsStopped s ld) ld := rfl

theorem onlyStops_jobsStopped : OnlyStops s (jobsStopped s ld) := onlyStops_stopJobs s _

end

section
variable {s : State} {ld : Nat}

theorem ring_ringsCleared_self {r : Nat} (hr : r < 128) : (ringsCleared s ld).ring ld r = Ring.init :=
  tget_filter_of_dropped _ (fun k => decide (k / 128 ≠ ld)) _ (by unfold ringKey; simp; omega)

theorem ring_ringsCleared_other {ld' r : Nat} (hr : r < 128) (hld : ld' ≠ ld) : (ringsCleared s ld).ring ld' r = s.ring ld' r :=
  tget_filter_of_kept _ (fun k => decide (k / 128 ≠ ld)) _ (by unfold ringKey; simp; omega)

theorem cmds_ringsCleared {c : RingCmd} (hc : c ∈ (ringsCleared s ld).soft.cmds ++ (ringsCleared s ld).soft.runQ ++
    (ringsCleared s ld).soft.policyQ) : c.ld ≠ ld := by
  simp only [ringsCleared, List.mem_append, List.mem_filter, decide_eq_true_eq] at hc
  rcases hc with (⟨-, h⟩ | ⟨-, h⟩) | ⟨-, h⟩ <;> exact h

theorem ioReads_ringsCleared {q : IoRead} (hq : q ∈ (ringsCleared s ld).soft.ioReads) : q.ld ≠ ld :=
  of_decide_eq_true (List.mem_filter.mp hq).2

theorem holder_freeCtxs {c : Nat} (open_ : ((s.freeCtxs ld).ctx c).st ≠ 0) : ((s.freeCtxs ld).ctx c).holder ≠ ld := by
  have cases_ := tget_filter_cases (fun _ => Ctx.init) (fun c => decide (c.2.st = 0 ∨ c.2.holder ≠ ld)) s.stow.ctxs c
  rcases cases_ with init | kept
  · exact absurd (congrArg Ctx.st init) open_
  · exact (of_decide_eq_true kept).resolve_left open_

end

/-- Settles O32. -/
theorem anLdResetStopsItsRingsAndTenants : Obligations.AnLdResetStopsItsRingsAndTenants := by
  unfold Obligations.AnLdResetStopsItsRingsAndTenants
  intro s ld
  refine ⟨(((s.stopRings ld).stopTenants ld).freeCtxs ld).resetBell ld, rfl, ?_⟩
  rw [stopRings_eq]
  have jobs := onlyStops_jobsStopped s ld
  generalize jobsStopped s ld = v at jobs
  have tenants := onlyStops_stopTenants (ringsCleared v ld) ld
  have idle := stopped_stopTenants (ringsCleared v ld) ld
  generalize (ringsCleared v ld).stopTenants ld = u at tenants idle
  obtain ⟨vtab, -, vdram, vplc, vown⟩ := jobs.parts
  obtain ⟨vrings, -, -, -, -, vmail, vbells⟩ := jobs.objects
  obtain ⟨tab, stow, dram, plc, own⟩ := tenants.parts
  obtain ⟨rings, cmds, ioReads, runQ, policyQ, mail, bells⟩ := tenants.objects
  have ring (ld' r : Nat) : (((u.freeCtxs ld).resetBell ld).ring ld' r) = (ringsCleared v ld).ring ld' r := by
    simp only [State.ring, ← rings]
    rfl
  have bell (f : Nat) : u.bell f = s.bell f := by
    simp only [State.bell, bells]
    exact congrArg (tget _ · f) vbells
  refine ⟨fun r hr => ?_, fun c hc => ?_, fun q hq => ?_, idle, fun c open_ => ?_, ?_, ?_, ?_, fun ld' r other hr => ?_, ?_,
    fun f other => ?_, ?_, ?_, ?_, ?_⟩
  · rw [ring, ring_ringsCleared_self hr]
  · refine cmds_ringsCleared (s := v) ?_
    rw [← cmds, ← runQ, ← policyQ]
    exact hc
  · refine ioReads_ringsCleared (s := v) ?_
    rw [← ioReads]
    exact hq
  · exact holder_freeCtxs open_
  · exact congrArg Doorbell.toHost (State.bell_setBell_self _ _ _)
  · exact congrArg Doorbell.hostMask (State.bell_setBell_self _ _ _)
  · have kept := congrArg Doorbell.toDev (bell ld)
    exact (congrArg Doorbell.toDev (State.bell_setBell_self _ _ _)).trans kept
  · rw [ring, ring_ringsCleared_other hr (fun e => other (Fin.ext e))]
    exact congrArg (tget _ · _) vrings
  · exact mail.trans vmail
  · exact (tget_tset_ne _ _ _ (fun e => other (Fin.ext e))).trans (bell f)
  · intro tbl idx word _ _ _
    exact congrArg (tget resetWord · _) (tab.trans vtab)
  · exact dram.trans vdram
  · exact plc.trans vplc
  · exact own.trans vown

end Sys2Proof.Machine
end


section
/-! PROOFS. What every step keeps (R84, R86, R104, R105, R112, R152-R154): the claims of ElectionStaysLegal,
ServiceAccessStaysLockedOut and RegistersAndMemoriesStayCanonical as one predicate of a state, and the rules of the
operations that write a field it speaks of. Each operation of the model has one lemma `…_sound` in the files below: an `↔`
where it writes no such field, and otherwise that it keeps what holds; the order is that of the model, up to `exec`. -/
namespace Sys2Proof.Machine

/-- The election's part: an owner exactly in OWNED, HANDOVER and LAPSING, a successor exactly in HANDOVER (R84, R86). -/
def Election.Legal (o : Election) : Prop :=
  (o.owner.isSome = true ↔ o.st = .owned ∨ o.st = .handover ∨ o.st = .lapsing) ∧
  (o.successor.isSome = true ↔ o.st = .handover) ∧
  (∀ c, o.owner = some c → c < 34 ∧ o.successor ≠ some c) ∧ (∀ c, o.successor = some c → c < 34) ∧
  (o.word = 0 ↔ o.owner = none)

theorem Election.Legal.lapse {o : Election} {c : Nat} (legal : o.Legal) (owns : o.owner = some c) :
    ({ o with st := .lapsing, successor := none } : Election).Legal := by
  obtain ⟨-, -, hown, -, hword⟩ := legal
  exact ⟨by simp [owns], by simp, fun c h => ⟨(hown c h).1, by simp⟩, by simp, hword⟩

theorem Election.Legal.resume {o : Election} {c : Nat} (legal : o.Legal) (lapsing : o.st = .lapsing)
    (owns : o.owner = some c) : ({ o with st := .owned } : Election).Legal := by
  obtain ⟨-, hsucc, hown, hlt, hword⟩ := legal
  have none_ : o.successor.isSome = false := by simpa [lapsing] using hsucc
  exact ⟨by simp [owns], by simp [none_], hown, hlt, hword⟩

theorem Election.Legal.take {c : Nat} (o : Election) {word : BitVec 32} (hc : c < 34) (hword : word ≠ 0) :
    (o.take c word).Legal := by
  refine ⟨by simp [Election.take], by simp [Election.take], fun c' h => ⟨?_, by simp [Election.take]⟩,
    by simp [Election.take], by simpa [Election.take] using hword⟩
  obtain rfl : c = c' := Option.some.inj h
  exact hc

theorem Election.Legal.successor_lt {o : Election} {c : Nat} (legal : o.Legal) (h : o.successor = some c) : c < 34 := by
  obtain ⟨-, -, -, hlt, -⟩ := legal
  exact hlt c h

theorem Election.Legal.drop (o : Election) : o.drop.Legal :=
  ⟨by simp [Election.drop], by simp [Election.drop], by simp [Election.drop], by simp [Election.drop],
    by simp [Election.drop]⟩

theorem Election.Legal.handTo {o : Election} {c successor : Nat} (legal : o.Legal) (owns : o.owner = some c)
    (other : successor ≠ c) (hlt : successor < 34) :
    ({ o with st := .handover, successor := some successor } : Election).Legal := by
  obtain ⟨-, -, hown, -, hword⟩ := legal
  refine ⟨by simp [owns], by simp, fun c' h => ⟨(hown c' h).1, ?_⟩, by simp [hlt], hword⟩
  obtain rfl : c = c' := Option.some.inj (owns.symm.trans h)
  simpa using other

theorem Election.Legal.handoverEnds {o : Election} (legal : o.Legal) (pending : o.st = .handover) :
    ({ o with st := .owned, successor := none } : Election).Legal := by
  obtain ⟨howner, -, hown, -, hword⟩ := legal
  have owned : o.owner.isSome = true := howner.mpr (by simp [pending])
  exact ⟨by simp [owned], by simp, fun c h => ⟨(hown c h).1, by simp⟩, by simp, hword⟩

theorem Election.Legal.opens {o : Election} (legal : o.Legal) : o.opens.Legal := by
  unfold Election.opens
  split
  · rename_i closed
    obtain ⟨howner, hsucc, hown, hlt, hword⟩ := legal
    exact ⟨by simpa [closed] using howner, by simpa [closed] using hsucc, hown, hlt, hword⟩
  · exact legal

/-- An eligible candidate is one of the 34 (R79). -/
theorem State.eligible_lt {s : State} {c : Nat} (h : s.eligible c = true) : c < 34 := by
  unfold State.eligible at h
  dsimp only at h
  repeat' split at h
  all_goals simp at h; omega

/-- The memories' part: the register map and the byte memories are canonical (R112, R152-R154). -/
def Canonical (regs : Tab (BitVec 64)) (scratch istore buf : Mem) : Prop :=
  Tab.wf (fun _ => (0 : BitVec 64)) regs = true ∧ Memory.wf scratch = true ∧ Memory.wf istore = true ∧ Memory.wf buf = true

/-- Which of the claims are made of a state: those of a statement whose hypothesis does not make the others. -/
structure Claims where
  election : Prop
  lock : Prop
  closed : Prop
  memory : Prop

/-- The claims `C` hold of the fields that they speak of. -/
def Claims.Hold (C : Claims) (own : Election) (fails st : BitVec 2) (regs : Tab (BitVec 64)) (scratch istore buf : Mem) : Prop :=
  (C.election → own.Legal) ∧ (C.lock → (fails = 3 ↔ st = 2)) ∧ (C.closed → st = 2) ∧
  (C.memory → Canonical regs scratch istore buf)

/-- The claims `C` hold of a state. No lemma of the library sees through this name, and no step of a proof below evaluates a
state to find the fields. -/
@[irreducible] def State.Sound (C : Claims) (s : State) : Prop :=
  C.Hold s.own s.svc.fails s.svc.st s.regs s.soft.scratch s.soft.istore s.soft.win.buf

theorem State.sound_iff (C : Claims) (s : State) :
    s.Sound C ↔ C.Hold s.own s.svc.fails s.svc.st s.regs s.soft.scratch s.soft.istore s.soft.win.buf := by
  unfold State.Sound; rfl

/-! ### What an update of other fields leaves -/

section
variable {C : Claims} (board : Board) (time : Time) (tab : Tab (BitVec 64)) (uncommitted : List Uncommitted) (stamps : List Stamp)
    (links : Tab Link) (decoders : Tab Decoder) (coh : Coh) (plc : Plc) (stow : Stow) (sealing : Seal) (dram : Dram)
    (traffic : Traffic) (aon : Aon) (mile : Mile) (freeUsed : Nat) (out : List Out) (pending : List Instr) (s : State)

theorem sound_with (svc : Service) (soft : Soft)
    (fails : svc.fails = s.svc.fails) (st : svc.st = s.svc.st) (scratch : soft.scratch = s.soft.scratch)
    (istore : soft.istore = s.soft.istore) (buf : soft.win.buf = s.soft.win.buf) :
    (State.mk board time s.own svc tab uncommitted stamps soft s.regs links decoders coh plc stow sealing dram traffic aon mile
      freeUsed out pending).Sound C ↔ s.Sound C := by
  simp only [State.sound_iff, fails, st, scratch, istore, buf]

@[simp] theorem sound_withOther :
    (State.mk board time s.own s.svc tab uncommitted stamps s.soft s.regs links decoders coh plc stow sealing dram traffic aon
      mile freeUsed out pending).Sound C ↔ s.Sound C := by
  apply sound_with <;> rfl

@[simp] theorem sound_withSvc (challenge : BitVec 128) (hasChallenge : Bool) (method : BitVec 2) (last : BitVec 4)
    (response : BitVec 1024) (dbgAddr : BitVec 46) (dbgLine : BitVec 40) (dbgBusy dbgReady : Bool) (dbgResult : BitVec 4)
    (dbgKey : BitVec 12) (dbgPage : BitVec 3) (dbgData : BitVec 512) :
    (State.mk board time s.own (Service.mk challenge hasChallenge method s.svc.st s.svc.fails last response dbgAddr dbgLine
      dbgBusy dbgReady dbgResult dbgKey dbgPage dbgData) tab uncommitted stamps s.soft s.regs links decoders coh plc stow sealing
      dram traffic aon mile freeUsed out pending).Sound C ↔ s.Sound C := by
  apply sound_with <;> rfl

section
variable (rings : Tab Ring) (cmds : List RingCmd) (ioReads : List IoRead) (nextTag : BitVec 16) (jobs : List Job)
    (mail : Tab Mailbox) (bells : Tab Doorbell) (epMask : BitVec 16) (wfs : Tab Wf) (threads : Tab Thread)
    (programs : Tab (Option Program)) (runQ policyQ : List RingCmd) (checkTicks : Nat) (poisonList : List (Nat × Nat))

@[simp] theorem sound_withSoft :
    (State.mk board time s.own s.svc tab uncommitted stamps (Soft.mk rings cmds ioReads nextTag jobs mail bells epMask wfs threads
      s.soft.istore s.soft.scratch programs runQ policyQ checkTicks poisonList s.soft.win) s.regs links decoders coh plc stow
      sealing dram traffic aon mile freeUsed out pending).Sound C ↔ s.Sound C := by
  apply sound_with <;> rfl

@[simp] theorem sound_withWin (base : BitVec 17) (busy : Bool) (status program : BitVec 8) :
    (State.mk board time s.own s.svc tab uncommitted stamps (Soft.mk rings cmds ioReads nextTag jobs mail bells epMask wfs threads
      s.soft.istore s.soft.scratch programs runQ policyQ checkTicks poisonList
      (LoadWin.mk s.soft.win.buf base busy status program)) s.regs links decoders coh plc stow
      sealing dram traffic aon mile freeUsed out pending).Sound C ↔ s.Sound C := by
  apply sound_with <;> rfl

end

end

/-! ### A write to a field that a claim speaks of -/

section
variable {C : Claims} {s : State}

theorem sound_setOwn {own : Election} (kept : s.Sound C) (legal : s.own.Legal → own.Legal) :
    ({ s with own := own }).Sound C := by
  obtain ⟨election, rest⟩ := (s.sound_iff C).mp kept
  exact (State.sound_iff ..).mpr ⟨fun hC => legal (election hC), rest⟩

theorem sound_setSvc {svc : Service} (kept : s.Sound C)
    (lock : (s.svc.fails = 3 ↔ s.svc.st = 2) → (svc.fails = 3 ↔ svc.st = 2)) (closed : s.svc.st = 2 → svc.st = 2) :
    ({ s with svc := svc }).Sound C := by
  obtain ⟨election, locked, shut, memory⟩ := (s.sound_iff C).mp kept
  exact (State.sound_iff ..).mpr ⟨election, fun hC => lock (locked hC), fun hC => closed (shut hC), memory⟩

theorem sound_setRegs {regs : Tab (BitVec 64)} (kept : s.Sound C)
    (wf : Tab.wf (fun _ => (0 : BitVec 64)) s.regs = true → Tab.wf (fun _ => (0 : BitVec 64)) regs = true) :
    ({ s with regs := regs }).Sound C := by
  obtain ⟨election, locked, shut, memory⟩ := (s.sound_iff C).mp kept
  refine (State.sound_iff ..).mpr ⟨election, locked, shut, fun hC => ?_⟩
  obtain ⟨hregs, others⟩ := memory hC
  exact ⟨wf hregs, others⟩

/-- A write to the memories of the wayfinders and of the loader. -/
theorem sound_setSoft {soft : Soft} (kept : s.Sound C)
    (scratch : Memory.wf s.soft.scratch = true → Memory.wf soft.scratch = true)
    (istore : Memory.wf s.soft.istore = true → Memory.wf soft.istore = true)
    (buf : Memory.wf s.soft.win.buf = true → Memory.wf soft.win.buf = true) : ({ s with soft := soft }).Sound C := by
  obtain ⟨election, locked, shut, memory⟩ := (s.sound_iff C).mp kept
  refine (State.sound_iff ..).mpr ⟨election, locked, shut, fun hC => ?_⟩
  obtain ⟨hregs, hscratch, histore, hbuf⟩ := memory hC
  exact ⟨hregs, scratch hscratch, istore histore, buf hbuf⟩

end

/-! ### Branches, folds and results -/

section
variable {C : Claims}

@[simp] theorem ite_sound {c : Prop} [Decidable c] (a b : State) :
    (if c then a else b).Sound C ↔ if c then a.Sound C else b.Sound C := by split <;> rfl

@[simp] theorem fst_ite_sound {β : Type} {c : Prop} [Decidable c] (a b : State × β) :
    (if c then a else b).1.Sound C ↔ if c then a.1.Sound C else b.1.Sound C := by split <;> rfl

@[simp] theorem snd_ite_sound {β : Type} {c : Prop} [Decidable c] (a b : β × State) :
    (if c then a else b).2.Sound C ↔ if c then a.2.Sound C else b.2.Sound C := by split <;> rfl

/-- A fold whose steps keep the claims keeps them. -/
@[simp] theorem foldl_kept {α : Type} {f : State → α → State} {s : State} {l : List α}
    (h : ∀ v x, v.Sound C → (f v x).Sound C) (kept : s.Sound C) : (l.foldl f s).Sound C := by
  induction l generalizing s with
  | nil => exact kept
  | cons x l ih => exact ih (h s x kept)

/-- The same for a fold that also gathers something else. -/
@[simp] theorem foldl_fst_kept {α β : Type} {f : State × β → α → State × β} {a : State × β} {l : List α}
    (h : ∀ b x, b.1.Sound C → (f b x).1.Sound C) (kept : a.1.Sound C) : (l.foldl f a).1.Sound C := by
  induction l generalizing a with
  | nil => exact kept
  | cons x l ih => exact ih (h a x kept)

/-- A fold whose steps write other fields leaves them as they are. -/
@[simp] theorem foldl_sound {α : Type} {f : State → α → State} {s : State} {l : List α}
    (h : ∀ v x, (f v x).Sound C ↔ v.Sound C) : (l.foldl f s).Sound C ↔ s.Sound C := by
  induction l generalizing s with
  | nil => rfl
  | cons x l ih => rw [List.foldl_cons, ih, h]

@[simp] theorem foldl_fst_sound {α β : Type} {f : State × β → α → State × β} {a : State × β} {l : List α}
    (h : ∀ b x, (f b x).1.Sound C ↔ b.1.Sound C) : (l.foldl f a).1.Sound C ↔ a.1.Sound C := by
  induction l generalizing a with
  | nil => rfl
  | cons x l ih => rw [List.foldl_cons, ih, h]

end

/-- The claims hold of the states in which an instruction's body ends. -/
def Eff.Sound (C : Claims) : Eff → Prop
  | .next s => s.Sound C
  | .jump s _ => s.Sound C
  | .raise _ _ => True
  | .suspend s _ => s.Sound C
  | .stop s => s.Sound C
  | .retry f => ∀ v, v.Sound C → (f v).Sound C

section
variable {C : Claims}

@[simp] theorem Eff.sound_next (s : State) : (Eff.next s).Sound C ↔ s.Sound C := Iff.rfl

@[simp] theorem Eff.sound_jump (s : State) (a : BitVec 64) : (Eff.jump s a).Sound C ↔ s.Sound C := Iff.rfl

@[simp] theorem Eff.sound_raise (code trap : Nat) : (Eff.raise code trap).Sound C := trivial

@[simp] theorem Eff.sound_suspend (s : State) (w : Wait) : (Eff.suspend s w).Sound C ↔ s.Sound C := Iff.rfl

@[simp] theorem Eff.sound_stop (s : State) : (Eff.stop s).Sound C ↔ s.Sound C := Iff.rfl

@[simp] theorem Eff.sound_retry (f : State → State) :
    (Eff.retry f).Sound C ↔ ∀ v, v.Sound C → (f v).Sound C := Iff.rfl

@[simp] theorem Eff.sound_ite {c : Prop} [Decidable c] (a b : Eff) :
    (if c then a else b).Sound C ↔ if c then a.Sound C else b.Sound C := by split <;> rfl

end

/-- What a command answers keeps the claims. -/
def Keeps (C : Claims) (o : Host.Outcome State Fault Refusal) : Prop := ∀ u, o = .next u → u.Sound C

@[simp] theorem keeps_next {C : Claims} (u : State) : Keeps C (.next u) ↔ u.Sound C := by simp [Keeps]

@[simp] theorem keeps_fault {C : Claims} (r : Fault) : Keeps C (.fault r) := by simp [Keeps]

end Sys2Proof.Machine
end


section
/-! PROOFS. What every step keeps: words and maps, invocations, the frame of every Ramer instruction, and memory. -/
namespace Sys2Proof.Machine

/-! ### The named operations: words and maps, messages, mileposts, wakes, events to threads, reports and the halt -/

section
variable (s : State) {tbl idx word v k w t r n ld l u c d unit bit code detail : Nat} {f : Fld} {o : Occ}
    {bits : BitVec 16}

@[simp] theorem State.setWord_sound (v : BitVec 64) :
    (s.setWord tbl idx word v).Sound C ↔ s.Sound C := by simp [State.setWord]

@[simp] theorem State.wr_sound : (s.wr f idx v).Sound C ↔ s.Sound C := by simp [State.wr]
@[simp] theorem State.inc_sound : (s.inc f idx).Sound C ↔ s.Sound C := by simp [State.inc]
@[simp] theorem State.incSat_sound : (s.incSat f idx k).Sound C ↔ s.Sound C := by simp [State.incSat]

@[simp] theorem State.stamp_sound (mask : BitVec 64) :
    (s.stamp tbl idx word mask).Sound C ↔ s.Sound C := by simp [State.stamp]

@[simp] theorem State.setW1c_sound : (s.setW1c f idx v).Sound C ↔ s.Sound C := by simp [State.setW1c]
@[simp] theorem State.clearW1c_sound : (s.clearW1c f idx v).Sound C ↔ s.Sound C := by simp [State.clearW1c]

@[simp] theorem State.setThread_sound (x : Thread) :
    (s.setThread w t x).Sound C ↔ s.Sound C := by simp [State.setThread]

@[simp] theorem State.setWf_sound (x : Wf) : (s.setWf w x).Sound C ↔ s.Sound C := by simp [State.setWf]

@[simp] theorem State.setG_sound (v : BitVec 64) (kept : s.Sound C) :
    (s.setG w t r v).Sound C := by
  unfold State.setG
  split
  · exact kept
  · exact sound_setRegs kept (wf_tset _ _ _ _)

@[simp] theorem State.setProgram_sound (p : Option Program) :
    (s.setProgram n p).Sound C ↔ s.Sound C := by simp [State.setProgram]

@[simp] theorem State.setScr_sound (a : Nat) (bs : List (BitVec 8)) (kept : s.Sound C) :
    (s.setScr w a bs).Sound C := by
  unfold State.setScr
  exact sound_setSoft kept (Memory.wf_writeN _ _ _) id id

@[simp] theorem State.setRing_sound (x : Ring) : (s.setRing ld r x).Sound C ↔ s.Sound C := by simp [State.setRing]

@[simp] theorem State.setMailbox_sound (f : Nat) (toDev : Bool) (m : Nat) (x : Mailbox) :
    (s.setMailbox f toDev m x).Sound C ↔ s.Sound C := by simp [State.setMailbox]

@[simp] theorem State.setBell_sound (f : Nat) (x : Doorbell) :
    (s.setBell f x).Sound C ↔ s.Sound C := by simp [State.setBell]

@[simp] theorem State.setLink_sound (x : Link) : (s.setLink l x).Sound C ↔ s.Sound C := by simp [State.setLink]

@[simp] theorem State.setDecoder_sound (x : Decoder) :
    (s.setDecoder ld n x).Sound C ↔ s.Sound C := by simp [State.setDecoder]

@[simp] theorem State.setPage_sound (p : Nat) (x : Page) :
    (s.setPage p x).Sound C ↔ s.Sound C := by simp [State.setPage]

@[simp] theorem State.setRegion_sound (x : Region) :
    (s.setRegion r x).Sound C ↔ s.Sound C := by simp [State.setRegion]

@[simp] theorem State.setFrame_sound (x : Frame) : (s.setFrame k x).Sound C ↔ s.Sound C := by simp [State.setFrame]
@[simp] theorem State.setPool_sound (x : Pool) : (s.setPool u x).Sound C ↔ s.Sound C := by simp [State.setPool]
@[simp] theorem State.setCtx_sound (x : Ctx) : (s.setCtx c x).Sound C ↔ s.Sound C := by simp [State.setCtx]
@[simp] theorem State.setChan_sound (x : Chan) : (s.setChan u x).Sound C ↔ s.Sound C := by simp [State.setChan]
@[simp] theorem State.setToll_sound (x : Toll) : (s.setToll t x).Sound C ↔ s.Sound C := by simp [State.setToll]
@[simp] theorem State.setRb_sound (x : Rb) : (s.setRb r x).Sound C ↔ s.Sound C := by simp [State.setRb]
@[simp] theorem State.setDom_sound (x : Dom) : (s.setDom d x).Sound C ↔ s.Sound C := by simp [State.setDom]
@[simp] theorem State.send_sound (o : Out) : (s.send o).Sound C ↔ s.Sound C := by simp [State.send]
@[simp] theorem State.took_sound : s.took.Sound C ↔ s.Sound C := by simp [State.took]
@[simp] theorem State.sample_sound : (s.sample n o).Sound C ↔ s.Sound C := by simp [State.sample]
@[simp] theorem State.wrapped_sound : (s.wrapped n o).Sound C ↔ s.Sound C := by simp [State.wrapped]
@[simp] theorem State.addOne_sound : (s.addOne n o).Sound C ↔ s.Sound C := by simp [State.addOne]
@[simp] theorem State.addOcc_sound : (s.addOcc n o).Sound C ↔ s.Sound C := by simp [State.addOcc]
@[simp] theorem State.occur_sound : (s.occur o).Sound C ↔ s.Sound C := by simp [State.occur]
@[simp] theorem State.event_sound (event : Nat) : (s.event unit event).Sound C ↔ s.Sound C := by simp [State.event]
@[simp] theorem State.fixed_sound : (s.fixed n).Sound C ↔ s.Sound C := by simp [State.fixed]

@[simp] theorem State.endHandling_sound (codes : List Nat) :
    (s.endHandling unit codes).Sound C ↔ s.Sound C := by simp [State.endHandling]

@[simp] theorem State.startTrain_sound : (s.startTrain l).Sound C ↔ s.Sound C := by simp [State.startTrain]
@[simp] theorem State.wakeDom_sound : (s.wakeDom d).Sound C ↔ s.Sound C := by simp [State.wakeDom]

@[simp] theorem State.wakeUnit_sound : (s.wakeUnit u).Sound C ↔ s.Sound C := by
  unfold State.wakeUnit
  split <;> simp

@[simp] theorem State.shelve_sound : (s.shelve n).Sound C ↔ s.Sound C := by simp [State.shelve]
@[simp] theorem State.raise_sound : (s.raise w t bit).Sound C ↔ s.Sound C := by simp [State.raise]
@[simp] theorem State.raiseOwners_sound : (s.raiseOwners bit).Sound C ↔ s.Sound C := by simp [State.raiseOwners]

@[simp] theorem State.raiseHandler_sound (f : Nat) :
    (s.raiseHandler f bit).Sound C ↔ s.Sound C := by simp [State.raiseHandler]

@[simp] theorem State.report_sound (cls : Nat) (alarm : Bool) :
    (s.report unit code cls detail alarm).Sound C ↔ s.Sound C := by simp [State.report]

@[simp] theorem State.ownerDown_sound (kept : s.Sound C) :
    (s.ownerDown c).Sound C := by
  unfold State.ownerDown
  split
  · rename_i owns
    exact sound_setOwn kept fun legal => legal.lapse owns.1
  · exact kept

@[simp] theorem State.linkLost_sound (kept : s.Sound C) : (s.linkLost l).Sound C := by simp [State.linkLost, kept]
@[simp] theorem State.dropQueues_sound : s.dropQueues.Sound C ↔ s.Sound C := by simp [State.dropQueues]

@[simp] theorem State.halt_sound (kept : s.Sound C) : s.halt.Sound C := by
  simp +contextual [State.halt, kept]

@[simp] theorem State.fatal_sound (kept : s.Sound C) :
    (s.fatal unit code detail).Sound C := by simp [State.fatal, kept]

@[simp] theorem State.integrity_sound (dpa key kind : Nat) (kept : s.Sound C) :
    (s.integrity unit dpa key kind).Sound C := by simp [State.integrity, kept]

@[simp] theorem State.setToHost_sound (f : Nat) :
    (s.setToHost f bits).Sound C ↔ s.Sound C := by simp [State.setToHost]

@[simp] theorem State.setToDev_sound (f : Nat) : (s.setToDev f bits).Sound C ↔ s.Sound C := by simp [State.setToDev]

@[simp] theorem State.dbgDone_sound (result : BitVec 4) :
    (s.dbgDone result).Sound C ↔ s.Sound C := by simp [State.dbgDone]

end

/-! ### Invocations, exceptions and restarts (R144, R155-R165) -/

section
variable (s : State) {w t addr code : Nat} {status : BitVec 16} {result g1 g2 g3 : BitVec 64} {kind : BitVec 2}
    {runStatus : BitVec 8}

@[simp] theorem State.orphanMoves_sound : (s.orphanMoves w t).Sound C ↔ s.Sound C := by simp [State.orphanMoves]
@[simp] theorem State.detachOps_sound : (s.detachOps w t).Sound C ↔ s.Sound C := by simp [State.detachOps]

@[simp] theorem State.finishCmd_sound (ld ring idx : Nat) (status : BitVec 8) :
    (s.finishCmd ld ring idx status result).Sound C ↔ s.Sound C := by simp [State.finishCmd]

@[simp] theorem State.endInvocation_sound :
    (s.endInvocation w t kind status runStatus result).Sound C ↔ s.Sound C := by
  unfold State.endInvocation
  dsimp only
  split <;> simp

@[simp] theorem State.initRegs_sound (kept : s.Sound C) :
    (s.initRegs w t g1 g2 g3).Sound C := by
  have cleared := sound_setRegs kept (wf_filter _ (fun p => decide (p.1 / 32 ≠ thKey w t)) _)
  exact State.setG_sound _ _ (State.setG_sound _ _ (State.setG_sound _ _ cleared))

@[simp] theorem State.startThread_sound (n : Nat) (p : Program) (winBase winSize : Nat) (run : Option
    (Nat × Nat × Nat)) (kept : s.Sound C) :
    (s.startThread w t n p winBase winSize g1 g2 g3 run).Sound C := by simp [State.startThread, kept]

@[simp] theorem State.startBase_sound (kept : s.Sound C) : (s.startBase w).Sound C := by
  unfold State.startBase
  split <;> simp [kept]

@[simp] theorem State.rewriteStore_sound (s : State) (w : Nat) (kept : s.Sound C) : (s.rewriteStore w).Sound C := by
  unfold State.rewriteStore
  refine foldl_kept (fun v np kept => ?_) (sound_setSoft kept id (wf_filter _ _ _) id)
  split
  · split
    · exact sound_setSoft kept id (Memory.wf_writeN _ _ _) id
    · exact kept
  · exact kept

@[simp] theorem State.abortUnservable_sound :
    s.abortUnservable.Sound C ↔ s.Sound C := by simp [State.abortUnservable]

@[simp] theorem State.endThreads_sound : (s.endThreads w).Sound C ↔ s.Sound C := by
  unfold State.endThreads
  refine foldl_sound fun v t => ?_
  dsimp only
  split <;> simp

@[simp] theorem State.restartWf_sound (kept : s.Sound C) :
    (s.restartWf w).Sound C := by
  unfold State.restartWf
  extract_lets s1 x s2 recent wf1 s3 soft s4 wf2 s5 s6
  have idle : s3.Sound C := by simp [s3, s2, s1, kept]
  clear_value s3
  have cleared : s4.Sound C := sound_setSoft idle (wf_filter _ _ _) id id
  clear_value s4
  split
  · have stopped : s6.Sound C := by simp [s6, s5, cleared]
    split <;> simp [stopped]
  · simp [cleared]

@[simp] theorem State.wfUe_sound (kept : s.Sound C) : (s.wfUe w addr).Sound C := by simp [State.wfUe, kept]

@[simp] theorem State.endWhenMoved_sound :
    (s.endWhenMoved w t kind status runStatus result).Sound C ↔ s.Sound C := by simp [State.endWhenMoved]

@[simp] theorem State.baseFails_sound : (s.baseFails code).Sound C ↔ s.Sound C := by simp [State.baseFails]

@[simp] theorem State.takeException_sound (trap : Nat) (kept : s.Sound C) :
    (s.takeException w t code trap addr).Sound C := by
  unfold State.takeException
  repeat' split <;> simp [kept]

@[simp] theorem State.tryEnd_sound : (s.tryEnd w t).Sound C ↔ s.Sound C := by
  unfold State.tryEnd
  split <;> simp

end

/-! ### The frame of every Ramer instruction (R115, R123, R142) -/

section
variable (s : State)

@[simp] theorem runBody_sound {w t : Nat} {body : State → Eff} {s : State}
    (h : ∀ v, v.Sound C → (body v).Sound C) (kept : s.Sound C) : (runBody w t body s).Sound C := by
  unfold runBody
  dsimp only
  split
  · simp [kept]
  · split
    · simp [kept]
    · generalize hv : State.fixed _ 539 = v
      have issued : v.Sound C := by simp [← hv, kept]
      have ends := h v issued
      split <;> rename_i eff <;> simp only [eff, Eff.sound_next, Eff.sound_jump, Eff.sound_suspend, Eff.sound_stop,
        Eff.sound_retry] at ends <;> simp [ends, kept]

@[simp] theorem issue_sound {w t : Nat} {ok : Nat → Bool} {body : State → Eff} {s : State}
    (h : ∀ v, v.Sound C → (body v).Sound C) (kept : s.Sound C) : (issue w t ok body s).Sound C := by
  have ends := runBody_sound h kept (w := w) (t := t)
  simp [issue, ends, kept]

@[simp] theorem ramer_sound {w t : Nat} {i : Instr} {body : State → Eff} {s : State}
    (h : ∀ v, v.Sound C → (body v).Sound C) (kept : s.Sound C) : (ramer w t i body s).Sound C := issue_sound h kept

end

/-! ### Watermarks, the allocator, regions and extents (R237-R270) -/

section
variable (s : State) {k r : Nat}

@[simp] theorem State.take_sound (use : Use) : (s.take k use).Sound C ↔ s.Sound C := by simp [State.take]
@[simp] theorem State.watermarks_sound : s.watermarks.Sound C ↔ s.Sound C := by simp [State.watermarks]

@[simp] theorem State.withMarks_sound (s : State) (f : State → State) : (s.withMarks f).Sound C ↔ (f s).Sound C := by
  simp [State.withMarks]

@[simp] theorem State.release_sound : (s.release k).Sound C ↔ s.Sound C := by simp [State.release]
@[simp] theorem State.takeMap_sound (u : Nat) : (s.takeMap u).1.Sound C ↔ s.Sound C := by simp [State.takeMap]

@[simp] theorem State.uncache_sound (pages : Bool) :
    (s.uncache r pages).Sound C ↔ s.Sound C := by simp [State.uncache]

@[simp] theorem State.setAccessed_sound (region : Bool) (pages : Page → Bool) :
    (s.setAccessed r region pages).Sound C ↔ s.Sound C := by simp [State.setAccessed]

@[simp] theorem State.split_sound : (s.split r).Sound C ↔ s.Sound C := by
  unfold State.split
  dsimp only
  split <;> simp

@[simp] theorem State.mixed_sound : (s.mixed r).Sound C ↔ s.Sound C := by simp [State.mixed]

@[simp] theorem State.unsplit_sound (kind : Nat) : (s.unsplit r kind).Sound C ↔ s.Sound C := by
  unfold State.unsplit
  dsimp only
  (repeat' split) <;> simp

@[simp] theorem State.fixRegion_sound : (s.fixRegion r).Sound C ↔ s.Sound C := by simp [State.fixRegion]

@[simp] theorem State.putPages_sound (xs : List (Nat × Page)) :
    (s.putPages xs).Sound C ↔ s.Sound C := by simp [State.putPages]

@[simp] theorem State.putPage_sound (p : Nat) (x : Page) :
    (s.putPage p x).Sound C ↔ s.Sound C := by simp [State.putPage]

end

/-! ### Memory units, retirement and the correctable-error tables (R353-R385) -/

section
variable (s : State) {u code e f l : Nat} {inFr : Bool} {ds : List Nat}

@[simp] theorem State.rebook_sound : (s.rebook u).Sound C ↔ s.Sound C := by simp [State.rebook]
@[simp] theorem State.redeliver_sound : (s.redeliver u).Sound C ↔ s.Sound C := by simp [State.redeliver]
@[simp] theorem State.setUnit_sound (st : Nat) : (s.setUnit u st).Sound C ↔ s.Sound C := by simp [State.setUnit]

@[simp] theorem State.exclude_sound (detail : Nat) :
    (s.exclude u code detail).Sound C ↔ s.Sound C := by simp [State.exclude]

@[simp] theorem State.remap_sound (k : Nat) : (s.remap k).Sound C ↔ s.Sound C := by
  unfold State.remap
  split <;> simp

@[simp] theorem State.retireFrame_sound (s : State) (k : Nat) : (s.retireFrame k).Sound C ↔ s.Sound C := by
  unfold State.retireFrame
  dsimp only
  split
  · rfl
  · split
    · simp
    · simp
    · refine (foldl_sound fun v p => ?_).trans ?_
      · split <;> simp
      · simp
    · simp
    · simp

@[simp] theorem State.setCe_sound (c : Ce) : (s.setCe u e c).Sound C ↔ s.Sound C := by simp [State.setCe]
@[simp] theorem State.devHit_sound (d : Nat) : (s.devHit u d).Sound C ↔ s.Sound C := by simp [State.devHit]
@[simp] theorem State.retireAt_sound : (s.retireAt u f).Sound C ↔ s.Sound C := by simp [State.retireAt]
@[simp] theorem State.ceLimit_sound : (s.ceLimit u e inFr).Sound C ↔ s.Sound C := by simp [State.ceLimit]

@[simp] theorem State.ceTable_sound : (s.ceTable u f inFr ds).Sound C ↔ s.Sound C := by
  unfold State.ceTable
  (repeat' split) <;> simp

@[simp] theorem State.writeBack_sound : (s.writeBack u l).Sound C ↔ s.Sound C := by simp [State.writeBack]
@[simp] theorem State.ceFound_sound : (s.ceFound u l ds).Sound C ↔ s.Sound C := by simp [State.ceFound]

@[simp] theorem State.ueTable_sound : (s.ueTable u l).Sound C ↔ s.Sound C := by
  unfold State.ueTable
  repeat' split <;> simp

@[simp] theorem State.ueFound_sound : (s.ueFound u l code).Sound C ↔ s.Sound C := by simp [State.ueFound]

@[simp] theorem State.miscorrect_sound (flip : BitVec 512) :
    (s.miscorrect u l flip).Sound C ↔ s.Sound C := by simp [State.miscorrect]

@[simp] theorem State.decodeFaults_sound (s : State) (u l : Nat) (dec : Decode) :
    (s.decodeFaults u l dec).Sound C ↔ s.Sound C := by
  cases dec with
  | corrected ds => exact State.ceFound_sound ..
  | uncorrectable => exact State.ueFound_sound ..
  | wrong flip asClean =>
    cases asClean with
    | false => exact State.miscorrect_sound ..
    | true => rfl
  | clean => rfl
  | poisoned => rfl

@[simp] theorem State.ceDecay_sound : (s.ceDecay u).Sound C ↔ s.Sound C := by simp [State.ceDecay]
@[simp] theorem State.ceEmpty_sound : (s.ceEmpty u).Sound C ↔ s.Sound C := by simp [State.ceEmpty]

end

/-! ### Write queues, counters, tags and merges (R316-R338, R363-R368) -/

section
variable (s : State) {u key level idx k page span i : Nat} {data : BitVec 512} {poison : Bool} {dec : Decode}
    {mask : BitVec 64}

@[simp] theorem State.rowUse_sound (l : Nat) : (s.rowUse u l).Sound C ↔ s.Sound C := by simp [State.rowUse]

@[simp] theorem State.issueWrite_sound (w : Wr) :
    (s.issueWrite u w).Sound C ↔ s.Sound C := by simp [State.issueWrite]

@[simp] theorem State.makeRoom_sound (a : Nat) : (s.makeRoom u a).Sound C ↔ s.Sound C := by
  unfold State.makeRoom
  dsimp only
  (repeat' split) <;> simp

@[simp] theorem State.putRaw_sound : (s.putRaw key data poison).Sound C ↔ s.Sound C := by simp [State.putRaw]
@[simp] theorem State.clockTo_sound (m : BitVec 64) : (s.clockTo m).Sound C ↔ s.Sound C := by simp [State.clockTo]

@[simp] theorem State.setNode_sound (n : Node) :
    (s.setNode level idx n).Sound C ↔ s.Sound C := by simp [State.setNode]

@[simp] theorem State.markDirty_sound : (s.markDirty level idx).Sound C ↔ s.Sound C := by simp [State.markDirty]
@[simp] theorem State.advance_sound (c : Nat) : (s.advance level c).Sound C ↔ s.Sound C := by simp [State.advance]
@[simp] theorem State.leafChanged_sound : (s.leafChanged k).Sound C ↔ s.Sound C := by simp [State.leafChanged]
@[simp] theorem State.remac_sound : (s.remac level idx).Sound C ↔ s.Sound C := by simp [State.remac]

@[simp] theorem State.setBlock_sound (b : CBlock) :
    (s.setBlock k key b).Sound C ↔ s.Sound C := by simp [State.setBlock]

@[simp] theorem State.retag_sound : (s.retag k key page span).Sound C ↔ s.Sound C := by simp [State.retag]

@[simp] theorem State.spanFault_sound (corrected : Bool) (kept : s.Sound C) :
    (s.spanFault k key page span corrected).Sound C := by simp [State.spanFault, kept]

@[simp] theorem State.poisonSpan_sound : (s.poisonSpan k span).Sound C ↔ s.Sound C := by simp [State.poisonSpan]

@[simp] theorem State.sealFrame_sound (major : BitVec 64) (lines : List (BitVec 512 × Bool)) :
    (s.sealFrame k key page major lines).Sound C ↔ s.Sound C := by simp [State.sealFrame]

@[simp] theorem State.reencrypt_sound (kept : s.Sound C) :
    (s.reencrypt k key page).Sound C := by
  simp +contextual [State.reencrypt, kept]

@[simp] theorem State.sealMerge_sound (m : Merge) (kept : s.Sound C) : (s.sealMerge m dec).Sound C := by
  unfold State.sealMerge
  dsimp only
  (repeat' split) <;> simp [kept]

@[simp] theorem State.closeMerges_sound (sel : Merge → Bool) :
    (s.closeMerges sel).Sound C ↔ s.Sound C := by simp [State.closeMerges]

@[simp] theorem State.closeFrame_sound : (s.closeFrame k).Sound C ↔ s.Sound C := by simp [State.closeFrame]

@[simp] theorem State.closeOldest_sound : (s.closeOldest u).Sound C ↔ s.Sound C := by
  unfold State.closeOldest
  repeat' split <;> simp

@[simp] theorem State.mergeWrite_sound (kept : s.Sound C) : (s.mergeWrite k key page i data mask poison).Sound C := by
  unfold State.mergeWrite
  extract_lets span s1 entry src entered
  have kept1 : entered.Sound C := by
    unfold entered
    split <;> simp [s1, kept]
  split
  · exact kept1
  · simp [kept1]

@[simp] theorem State.writeLine_sound (kept : s.Sound C) :
    (s.writeLine k key page i data mask poison dec).Sound C := by simp [State.writeLine, kept]

end

end Sys2Proof.Machine
end


section
/-! PROOFS. What every step keeps: slots, pages and moves, the fault collector, the snoop filter, and what a request meets at its
page. -/
namespace Sys2Proof.Machine

/-! ### Slots, pages, and the switch of a move (R241-R259, R286-R290) -/

section
variable (s : State) {loc cls k level key p code u : Nat} {m : Move}

@[simp] theorem State.putSlot_sound (bs : List (BitVec 8)) :
    (s.putSlot loc cls bs).Sound C ↔ s.Sound C := by simp [State.putSlot]

@[simp] theorem State.reseal_sound : (s.reseal k).Sound C ↔ s.Sound C := by simp [State.reseal]

@[simp] theorem State.resealChildren_sound (idx : Nat) :
    (s.resealChildren level idx).Sound C ↔ s.Sound C := by simp [State.resealChildren]

@[simp] theorem State.setSlotCtr_sound (c : BitVec 64) :
    (s.setSlotCtr loc cls key c).Sound C ↔ s.Sound C := by simp [State.setSlotCtr]

@[simp] theorem State.sealSlot_sound (page : Nat) (counter : BitVec 64) (crc : BitVec 32) (body : List (BitVec 8)) :
    (s.sealSlot page key loc cls level counter crc body).Sound C ↔ s.Sound C := by simp [State.sealSlot]

@[simp] theorem State.freeSlot_sound : (s.freeSlot loc cls).Sound C ↔ s.Sound C := by
  unfold State.freeSlot
  dsimp only
  split <;> simp

@[simp] theorem State.freeLoc_sound : (s.freeLoc loc cls).Sound C ↔ s.Sound C := by simp [State.freeLoc]
@[simp] theorem State.dropMerges_sound : (s.dropMerges k).Sound C ↔ s.Sound C := by simp [State.dropMerges]

@[simp] theorem State.freeStorage_sound : (s.freeStorage p).Sound C ↔ s.Sound C := by
  unfold State.freeStorage
  repeat' split <;> simp

@[simp] theorem State.blankPage_sound : (s.blankPage p).Sound C ↔ s.Sound C := by simp [State.blankPage]

@[simp] theorem State.losePages_sound (ps : List Nat) :
    (s.losePages ps code).Sound C ↔ s.Sound C := by simp [State.losePages]

@[simp] theorem State.losePage_sound : (s.losePage p code).Sound C ↔ s.Sound C := by simp [State.losePage]

theorem State.allocate_sound {s u : State} {p key : Nat} {lines : List (BitVec 512 × Bool)}
    (h : s.allocate p key lines = some u) : u.Sound C ↔ s.Sound C := by
  unfold State.allocate at h
  dsimp only at h
  split at h
  · simp at h
  · split at h
    · simp at h
    · simp [← Option.some.inj h]

@[simp] theorem State.rekeyFrame_sound (lines : List (BitVec 512 × Bool)) :
    (s.rekeyFrame p key lines).Sound C ↔ s.Sound C := by simp [State.rekeyFrame]

@[simp] theorem State.setMove_sound : (s.setMove m).Sound C ↔ s.Sound C := by simp [State.setMove]
@[simp] theorem State.goMoving_sound : (s.goMoving p m).Sound C ↔ s.Sound C := by simp [State.goMoving]

@[simp] theorem State.moveFails_sound : (s.moveFails p).Sound C ↔ s.Sound C := by
  unfold State.moveFails
  split <;> simp

@[simp] theorem State.copyFrame_sound (a b : Nat) (lines : List Nat) :
    (s.copyFrame a b lines).Sound C ↔ s.Sound C := by simp [State.copyFrame]

@[simp] theorem State.retireMark_sound : (s.retireMark p).Sound C ↔ s.Sound C := by simp [State.retireMark]
@[simp] theorem State.unsplitMoved_sound : (s.unsplitMoved p m).Sound C ↔ s.Sound C := by simp [State.unsplitMoved]
@[simp] theorem State.leafMoved_sound : (s.leafMoved key k).Sound C ↔ s.Sound C := by simp [State.leafMoved]

@[simp] theorem State.retireOld_sound (retire : Bool) :
    (s.retireOld k retire).Sound C ↔ s.Sound C := by simp [State.retireOld]

@[simp] theorem State.switchFrame_sound : (s.switchFrame p m).Sound C ↔ s.Sound C := by simp [State.switchFrame]

theorem State.takeSlot_sound {s u : State} {k cls p loc : Nat} (h : s.takeSlot k cls p = some (u, loc)) :
    u.Sound C ↔ s.Sound C := by
  unfold State.takeSlot at h
  (repeat' split at h) <;> simp at h
  simp [← h.1]

theorem State.placeSlot_sound {s u : State} {cls p loc : Nat} {avoid : Option Nat}
    (h : s.placeSlot cls p avoid = some (u, loc)) : u.Sound C ↔ s.Sound C := by
  unfold State.placeSlot at h
  extract_lets fit at h
  split at h
  · split at h
    · exact State.takeSlot_sound h
    · simpa using State.takeSlot_sound h
  · split at h
    · split at h
      · exact State.takeSlot_sound h
      · simp at h
    · simp at h

@[simp] theorem State.switchStow_sound : (s.switchStow p loc cls).Sound C ↔ s.Sound C := by simp [State.switchStow]

@[simp] theorem State.switchPromote_sound (bytes : List (BitVec 8)) :
    (s.switchPromote p m bytes).Sound C ↔ s.Sound C := by simp [State.switchPromote]

@[simp] theorem State.switchRelocate_sound :
    (s.switchRelocate p m).Sound C ↔ s.Sound C := by simp [State.switchRelocate]

@[simp] theorem State.stowCrc_sound : (s.stowCrc p).Sound C ↔ s.Sound C := by simp [State.stowCrc]

@[simp] theorem State.slotIntegrity_sound (kind : Nat) (kept : s.Sound C) :
    (s.slotIntegrity p kind).Sound C := by simp [State.slotIntegrity, kept]

@[simp] theorem State.failTargets_sound : (s.failTargets u).Sound C ↔ s.Sound C := by simp [State.failTargets]
@[simp] theorem State.moveMaps_sound : (s.moveMaps u).Sound C ↔ s.Sound C := by simp [State.moveMaps]
@[simp] theorem State.loseUnit_sound : (s.loseUnit u code).1.Sound C ↔ s.Sound C := by simp [State.loseUnit]

end

/-! ### The fault collector (R414-R435) -/

section
variable (s : State) {w : WfNo} {r : Report} {i c u : Nat} {t : ThrNo} {d : Reg}

@[simp] theorem State.submitted_sound (w status : Nat) :
    (s.submitted w status).Sound C ↔ s.Sound C := by simp [State.submitted]

@[simp] theorem ownerStore_sound {w t : Nat} {d : Reg} {f : State → Nat × State} {s : State}
    (h : ∀ v, v.Sound C → (f v).2.Sound C) (kept : s.Sound C) :
    (ownerStore w t d f s).Sound C := 
  issue_sound (fun v kept => by simp [h v kept]) kept

@[simp] theorem State.latch_sound (seq : Nat) : (s.latch r seq).Sound C ↔ s.Sound C := by simp [State.latch]
@[simp] theorem State.dropRecord_sound : (s.dropRecord i).Sound C ↔ s.Sound C := by simp [State.dropRecord]
@[simp] theorem State.makeRecord_sound : (s.makeRecord i r).Sound C ↔ s.Sound C := by simp [State.makeRecord]

@[simp] theorem State.applyReport_sound : (s.applyReport r).Sound C ↔ s.Sound C := by
  unfold State.applyReport
  dsimp only
  (repeat' split) <;> simp

@[simp] theorem execCollectorTake_sound (kept : s.Sound C) : Keeps C (execCollectorTake s) := by
  unfold execCollectorTake
  (repeat' split) <;> simp [kept]

@[simp] theorem State.ackRecord_sound : (s.ackRecord i).Sound C ↔ s.Sound C := by simp [State.ackRecord]

@[simp] theorem State.ownerBack_sound (kept : s.Sound C) :
    (s.ownerBack c).Sound C := by
  unfold State.ownerBack
  split
  · rename_i lapsed
    exact sound_setOwn kept fun legal => legal.resume lapsed.1 lapsed.2
  · exact kept

@[simp] theorem State.from_sound (kept : s.Sound C) : (s.from_ c).Sound C := by simp [State.from_, kept]

@[simp] theorem execRecordAck_sound (c : Cand) (slot : BitVec 8) (kept : s.Sound C) :
    Keeps C (execRecordAck c slot s) := by simp [execRecordAck, kept]

@[simp] theorem State.clearLatch_sound (cls : Nat) :
    (s.clearLatch cls).Sound C ↔ s.Sound C := by simp [State.clearLatch]

@[simp] theorem execLatchClear_sound (c : Cand) (cls : Fin 4) (kept : s.Sound C) :
    Keeps C (execLatchClear c cls s) := by simp [execLatchClear, kept]

@[simp] theorem execFaultStatusRead_sound (kept : s.Sound C) :
    Keeps C (execFaultStatusRead s) := by simp [execFaultStatusRead, kept]

@[simp] theorem execFaultRecordsRead_sound (i j : BitVec 8) (kept : s.Sound C) :
    Keeps C (execFaultRecordsRead i j s) := by simp [execFaultRecordsRead, kept]

@[simp] theorem State.resetGo_sound : (s.resetGo u).2.Sound C ↔ s.Sound C := by
  unfold State.resetGo
  (repeat' split) <;> simp

@[simp] theorem execResetGo_sound (uid : BitVec 10) (kept : s.Sound C) :
    Keeps C (execResetGo w t d uid s) := by simp [execResetGo, kept]

@[simp] theorem State.unitReturns_sound : (s.unitReturns u).Sound C ↔ s.Sound C := by simp [State.unitReturns]

@[simp] theorem execUnitResetComplete_sound (faulty : Bool) (kept : s.Sound C) :
    Keeps C (execUnitResetComplete faulty s) := by
  unfold execUnitResetComplete
  split <;> simp [kept]

@[simp] theorem State.checkin_sound : s.checkin.Sound C ↔ s.Sound C := by simp [State.checkin]
@[simp] theorem execCheckin_sound (kept : s.Sound C) : Keeps C (execCheckin w t d s) := by simp [execCheckin, kept]

@[simp] theorem execCheckinTimeout_sound (kept : s.Sound C) :
    Keeps C (execCheckinTimeout s) := by simp [execCheckinTimeout, kept]

@[simp] theorem execHeartbeatToggle_sound (kept : s.Sound C) :
    Keeps C (execHeartbeatToggle s) := by simp [execHeartbeatToggle, kept]

end

/-! ### Violations (R193-R196) -/

section
variable (s : State) {code resp : Nat}

@[simp] theorem State.violate_sound (h : Nat) (ld : BitVec 8) (addr : BitVec 64) (detail : Nat) :
    (s.violate h ld code resp addr detail).Sound C ↔ s.Sound C := by simp [State.violate]

@[simp] theorem State.violateReq_sound (r : MemReq) : (s.violateReq r code resp).Sound C ↔ s.Sound C := by
  unfold State.violateReq
  split <;> simp

end

/-! ### The snoop filter and back-invalidate snoops (R201-R231) -/

section
variable (s : State) {hs set l : Nat} {e : SfEntry} {r : MemReq} {inv : Bool} {why : Why}

@[simp] theorem State.setWay_sound (way : Nat) :
    (s.setWay hs set way e).Sound C ↔ s.Sound C := by simp [State.setWay]

@[simp] theorem State.setEntry_sound : (s.setEntry l e).Sound C ↔ s.Sound C := by
  unfold State.setEntry
  split <;> simp

@[simp] theorem State.plruReset_sound : (s.plruReset hs set).Sound C ↔ s.Sound C := by simp [State.plruReset]

@[simp] theorem State.touch_sound : (s.touch l).Sound C ↔ s.Sound C := by
  unfold State.touch
  split <;> simp

@[simp] theorem State.setGroup_sound (f : Fld) (g v : Nat) :
    (s.setGroup f g v).Sound C ↔ s.Sound C := by simp [State.setGroup]

@[simp] theorem State.startDwell_sound (h : Nat) :
    (s.startDwell l h).Sound C ↔ s.Sound C := by simp [State.startDwell]

@[simp] theorem State.granting_sound : (s.granting r).Sound C ↔ s.Sound C := by
  unfold State.granting
  split <;> simp

@[simp] theorem State.handGrant_sound : (s.handGrant r).Sound C ↔ s.Sound C := by
  unfold State.handGrant
  split <;> simp

@[simp] theorem State.sendSnoop_sound (n : Snoop) : (s.sendSnoop n).Sound C ↔ s.Sound C := by simp [State.sendSnoop]

@[simp] theorem State.issueSnoop_sound (s : State) (h l : Nat) (inv : Bool) (why : Why) :
    ((s.issueSnoop h l inv why).getD s).Sound C ↔ s.Sound C := by
  unfold State.issueSnoop
  dsimp only
  (repeat' split) <;> simp

@[simp] theorem State.issueAll_sound (hs : List Nat) :
    (s.issueAll hs l inv why).Sound C ↔ s.Sound C := by simp [State.issueAll]

@[simp] theorem State.pumpInvals_sound : s.pumpInvals.Sound C ↔ s.Sound C := by simp [State.pumpInvals]

@[simp] theorem State.invalidate_sound (ls : List Nat) :
    (s.invalidate ls why inv).Sound C ↔ s.Sound C := by simp [State.invalidate]

@[simp] theorem State.pumpVictims_sound : (s.pumpVictims hs).Sound C ↔ s.Sound C := by simp [State.pumpVictims]
@[simp] theorem State.dropVictim_sound : (s.dropVictim l).Sound C ↔ s.Sound C := by simp [State.dropVictim]

@[simp] theorem State.allocEntry_sound : (s.allocEntry l e).1.Sound C ↔ s.Sound C := by
  unfold State.allocEntry
  dsimp only
  (repeat' split) <;> simp

end

/-! ### Answers, heat, and what a request meets at its page (R184, R185, R218, R251-R254) -/

section
variable (s : State) {r : MemReq} {poison : Bool} {level p u k : Nat}

@[simp] theorem State.respond_sound (data : Option (BitVec 512)) :
    (s.respond r data poison level).Sound C ↔ s.Sound C := by
  unfold State.respond
  split <;> simp

@[simp] theorem State.sendPoison_sound : (s.sendPoison r).Sound C ↔ s.Sound C := by
  unfold State.sendPoison
  split <;> simp

@[simp] theorem State.answerPoison_sound : (s.answerPoison r).Sound C ↔ s.Sound C := by
  unfold State.answerPoison
  split <;> simp

@[simp] theorem State.refuse_sound : (s.refuse r).Sound C ↔ s.Sound C := by
  unfold State.refuse
  repeat' split <;> simp

@[simp] theorem State.answerLost_sound : (s.answerLost r).Sound C ↔ s.Sound C := by simp [State.answerLost]

@[simp] theorem State.wrote_sound : (s.wrote r level).Sound C ↔ s.Sound C := by
  unfold State.wrote
  split <;> simp

@[simp] theorem State.answerData_sound (data : BitVec 512) :
    (s.answerData r data poison level).Sound C ↔ s.Sound C := by
  unfold State.answerData
  split <;> simp

@[simp] theorem State.heatSample_sound : (s.heatSample p).Sound C ↔ s.Sound C := by
  unfold State.heatSample
  dsimp only
  repeat' split <;> simp

@[simp] theorem State.heat_sound : (s.heat p).Sound C ↔ s.Sound C := by simp [State.heat]
@[simp] theorem State.markAccessed_sound : (s.markAccessed p).Sound C ↔ s.Sound C := by simp [State.markAccessed]

@[simp] theorem State.capacityLoss_sound : (s.capacityLoss p).Sound C ↔ s.Sound C := by
  unfold State.capacityLoss
  dsimp only
  split <;> simp

@[simp] theorem State.counterLookup_sound (key : Nat) :
    (s.counterLookup u key r).Sound C ↔ s.Sound C := by simp [State.counterLookup]

@[simp] theorem State.placeLookup_sound : (s.placeLookup r).Sound C ↔ s.Sound C := by simp [State.placeLookup]
@[simp] theorem State.readLine_sound : (s.readLine r k).Sound C ↔ s.Sound C := by simp [State.readLine]
@[simp] theorem State.debugReady_sound : s.debugReady.Sound C ↔ s.Sound C := by simp [State.debugReady]

@[simp] theorem State.promote_sound (buffer : Bool) : (s.promote p buffer r).Sound C ↔ s.Sound C := by
  unfold State.promote
  dsimp only
  split <;> simp

@[simp] theorem State.park_sound : (s.park r).Sound C ↔ s.Sound C := by simp [State.park]

@[simp] theorem State.holdReq_sound : (s.holdReq p r).Sound C ↔ s.Sound C := by
  unfold State.holdReq
  split <;> simp

@[simp] theorem State.writeFrame_sound (kept : s.Sound C) :
    (s.writeFrame r k).Sound C := by simp [State.writeFrame, kept]

@[simp] theorem State.firstWrite_sound (s : State) (r : MemReq) (adopt : Bool) :
    (s.firstWrite r adopt).Sound C ↔ s.Sound C := by
  unfold State.firstWrite
  dsimp only
  split
  · rename_i h
    simp [State.allocate_sound h]
  · simp

@[simp] theorem State.accessStowed_sound : (s.accessStowed r).Sound C ↔ s.Sound C := by simp [State.accessStowed]

@[simp] theorem State.access.frameAccess_sound (x : Page) (same w adopt : Bool) (kept : s.Sound C) :
    (State.access.frameAccess s r x same w adopt).Sound C := by simp [State.access.frameAccess, kept]

@[simp] theorem State.access_sound (s : State) (r : MemReq) (kept : s.Sound C) : (s.access r).Sound C := by
  unfold State.access
  extract_lets p x host s1 touches s2 r' x' same w adopt s3
  split
  · simp [kept]
  · split
    · exact kept
    · split
      · simp [kept]
      · split
        · simp [kept]
        ·
          have h1 : s1.Sound C := by simp [s1, kept]
          have h2 : s2.Sound C := by simp [s2, h1]
          split
          · simp [h2]
          · simp [h2]
          · simp [h2]
          · simp [h2]
          · simp [h2, s3]
          · split
            · simp [h2]
            · split
              · simp [h2]
              · split
                · simp [h2]
                · split
                  · simp [h2]
                  · split
                    · simp [h2]
                    · simp [h2]

@[simp] theorem State.accessAll_sound (rs : List MemReq) (kept : s.Sound C) :
    (s.accessAll rs).Sound C := by
  simp +contextual [State.accessAll, kept]

@[simp] theorem State.unpark_sound (kept : s.Sound C) : s.unpark.Sound C := by simp [State.unpark, kept]

@[simp] theorem State.replayUnit_sound (kept : s.Sound C) :
    (s.replayUnit u).Sound C := by simp [State.replayUnit, kept]

@[simp] theorem State.dropUnit_sound (code : Nat) (kept : s.Sound C) :
    (s.dropUnit u code).1.Sound C := by simp [State.dropUnit, kept]

end

end Sys2Proof.Machine
end


section
/-! PROOFS. What every step keeps: ordering at the home slices, extents, page operations and range jobs, movers, coders and
decoders. -/
namespace Sys2Proof.Machine

/-! ### Ordering at the home slices (R203-R227) -/

section
variable (s : State) {l h detail g : Nat} {r : MemReq} {shared : Bool}

@[simp] theorem State.putEntry_sound (e : SfEntry) : (s.putEntry l e).1.Sound C ↔ s.Sound C := by
  unfold State.putEntry
  split <;> simp

@[simp] theorem State.grantEntry_sound : (s.grantEntry r).1.Sound C ↔ s.Sound C := by
  unfold State.grantEntry
  dsimp only
  (repeat' split) <;> simp

@[simp] theorem State.lookup_sound : (s.lookup l).Sound C ↔ s.Sound C := by simp [State.lookup]

@[simp] theorem State.serve_sound (kept : s.Sound C) : (s.serve r).1.Sound C := by
  unfold State.serve
  dsimp only
  (repeat' split) <;> simp [kept]

@[simp] theorem State.setTrack_sound (q : List MemReq) :
    (s.setTrack l q).Sound C ↔ s.Sound C := by simp [State.setTrack]

@[simp] theorem State.runTracker_sound (n : Nat) (s : State) (l : Nat) (kept : s.Sound C) :
    (State.runTracker n s l).Sound C := by
  induction n generalizing s with
  | zero => exact kept
  | succ n ih =>
    unfold State.runTracker
    split
    · exact kept
    · extract_lets seen x s1
      have served : x.1.Sound C := by simp [x, kept]
      split
      · simp [ih, served]
      · split
        · rename_i r _ _ _ _ _ keeper _ _
          have again : (s1.serve keeper).1.Sound C := by simp [s1, served]
          dsimp only
          split
          · simp [ih, again]
          · exact again
        · simp [s1, served]

@[simp] theorem State.tidy_sound : (s.tidy l).Sound C ↔ s.Sound C := by simp [State.tidy]

@[simp] theorem State.finishLine_sound (kept : s.Sound C) : (s.finishLine l).Sound C := by
  unfold State.finishLine
  extract_lets ns evicted e src s1 s2 s3
  split
  · exact kept
  · have kept1 : s1.Sound C := by simp [s1, kept]
    have kept2 : s2.Sound C := by
      unfold s2
      split <;> simp [kept1]
    have kept3 : s3.Sound C := by simp [s3, kept2]
    simp [kept3]

@[simp] theorem State.pump_sound (kept : s.Sound C) : s.pump.Sound C := by
  unfold State.pump
  refine foldl_kept (fun v x kept => by simp [kept]) ?_
  simp +contextual [kept]

@[simp] theorem State.order_sound (kept : s.Sound C) : (s.order r).Sound C := by simp [State.order, kept]
@[simp] theorem State.dropSnoop_sound : (s.dropSnoop h l).Sound C ↔ s.Sound C := by simp [State.dropSnoop]

@[simp] theorem State.unmatched_sound (addr : BitVec 64) :
    (s.unmatched h l addr detail).Sound C ↔ s.Sound C := by simp [State.unmatched]

@[simp] theorem State.respondSnoop_sound :
    (s.respondSnoop h l shared).Sound C ↔ s.Sound C := by simp [State.respondSnoop]

@[simp] theorem State.biRsp_sound (odd : Bool) (kept : s.Sound C) : (s.biRsp h l shared odd detail).Sound C := by
  unfold State.biRsp
  split <;> simp [kept]

@[simp] theorem State.pumpAcks_sound : s.pumpAcks.Sound C ↔ s.Sound C := by simp [State.pumpAcks]

@[simp] theorem State.biConflict_sound (hpa : BitVec 64) : (s.biConflict h l hpa detail).Sound C ↔ s.Sound C := by
  unfold State.biConflict
  split <;> simp

@[simp] theorem State.dropSnoops_sound : (s.dropSnoops g h).Sound C ↔ s.Sound C := by simp [State.dropSnoops]
@[simp] theorem State.reclaim_sound : (s.reclaim g h).Sound C ↔ s.Sound C := by simp [State.reclaim]

@[simp] theorem State.setGroupState_sound (v : Nat) :
    (s.setGroupState g v).Sound C ↔ s.Sound C := by simp [State.setGroupState]

@[simp] theorem State.closeRoad_sound : (s.closeRoad g h).Sound C ↔ s.Sound C := by simp [State.closeRoad]

@[simp] theorem State.snoopTimeout_sound (kept : s.Sound C) : (s.snoopTimeout h l).Sound C := by
  unfold State.snoopTimeout
  dsimp only
  split <;> simp [kept]

@[simp] theorem State.poisonLine_sound (ld : Nat) (kept : s.Sound C) :
    (s.poisonLine l ld).Sound C := by simp [State.poisonLine, kept]

@[simp] theorem State.walkOver_sound (w : Walk) (ls : List Nat) (kept : s.Sound C) :
    (s.walkOver w ls).Sound C := by simp [State.walkOver, kept]

@[simp] theorem State.endWalks_sound (s : State) (kept : s.Sound C) : (s.endWalks).Sound C := by
  unfold State.endWalks
  refine foldl_kept (fun v w kept => ?_) kept
  split <;> simp [kept]

@[simp] theorem State.walkEnd_sound (win : Nat) (kept : s.Sound C) : (s.walkEnd h win).Sound C := by
  unfold State.walkEnd
  split
  · exact kept
  · exact State.endWalks_sound _ (foldl_kept (fun v l kept => by simp [kept]) (by simp [kept]))

@[simp] theorem State.reopen_sound (kept : s.Sound C) : (s.reopen g).Sound C := by simp [State.reopen, kept]

end

/-! ### Extents of dynamic capacity (R265-R273) -/

section
variable (s : State) {e : Nat} {h : HeadNo} {w : WfNo} {t : ThrNo} {d : Reg}

@[simp] theorem State.headMask_sound (f : Fld) (h : Nat) (v : Bool) :
    (s.headMask f e h v).Sound C ↔ s.Sound C := by simp [State.headMask]

@[simp] theorem State.unserve_sound (rs : List MemReq) :
    (s.unserve rs).Sound C ↔ s.Sound C := by simp [State.unserve]

@[simp] theorem State.blankExtent_sound : (s.blankExtent e).Sound C ↔ s.Sound C := by simp [State.blankExtent]
@[simp] theorem State.extFree_sound : (s.extFree e).Sound C ↔ s.Sound C := by simp [State.extFree]
@[simp] theorem State.extEval_sound : (s.extEval e).Sound C ↔ s.Sound C := by simp [State.extEval]
@[simp] theorem State.extEvalAll_sound : s.extEvalAll.Sound C ↔ s.Sound C := by simp [State.extEvalAll]
@[simp] theorem State.extRecall_sound : (s.extRecall e).Sound C ↔ s.Sound C := by simp [State.extRecall]
@[simp] theorem State.extOffer_sound : (s.extOffer e).Sound C ↔ s.Sound C := by simp [State.extOffer]

@[simp] theorem execOffer_sound (e : BitVec 14) (kept : s.Sound C) :
    Keeps C (execOffer w t d e s) := by simp [execOffer, kept]

@[simp] theorem execRecall_sound (e : BitVec 14) (kept : s.Sound C) :
    Keeps C (execRecall w t d e s) := by simp [execRecall, kept]

@[simp] theorem execExtentAccept_sound (e : BitVec 14) (kept : s.Sound C) :
    Keeps C (execExtentAccept h e s) := by simp [execExtentAccept, kept]

@[simp] theorem execExtentRelease_sound (e : BitVec 14) (kept : s.Sound C) :
    Keeps C (execExtentRelease h e s) := by simp [execExtentRelease, kept]

@[simp] theorem State.autoRelease_sound : s.autoRelease.Sound C ↔ s.Sound C := by simp [State.autoRelease]

end

/-! ### Page operations and range jobs (R136, R137, R254-R264) -/

section
variable (s : State) {p status id target r t w : Nat} {is : List Nat} {j : Job}

@[simp] theorem State.readStowed_sound (kept : s.Sound C) : (s.readStowed p).1.Sound C := by
  unfold State.readStowed
  repeat' split <;> simp [kept]

@[simp] theorem State.readFrame_sound (kept : s.Sound C) :
    (s.readFrame p is).1.Sound C := by
  simp +contextual [State.readFrame, kept]

@[simp] theorem State.readLines_sound (kept : s.Sound C) : (s.readLines p is).1.Sound C := by
  unfold State.readLines
  dsimp only
  repeat' split <;> simp [kept]

@[simp] theorem State.writeLines_sound (s : State) (p key : Nat) (ls : List (Nat × BitVec 512)) (kept : s.Sound C) :
    (s.writeLines p key ls).1.Sound C := by
  unfold State.writeLines
  dsimp only
  split
  · split
    · rename_i h
      simp [State.allocate_sound h, kept]
    · exact kept
  · refine foldl_kept (fun v y kept => by simp [kept]) ?_
    split <;> simp [kept]

@[simp] theorem State.stallDone_sound : (s.stallDone p status).Sound C ↔ s.Sound C := by simp [State.stallDone]
@[simp] theorem State.pageDone_sound : (s.pageDone p status).Sound C ↔ s.Sound C := by simp [State.pageDone]
@[simp] theorem State.decodeTwice_sound : (s.decodeTwice p).Sound C ↔ s.Sound C := by simp [State.decodeTwice]
@[simp] theorem State.moverRetry_sound : (s.moverRetry p).Sound C ↔ s.Sound C := by simp [State.moverRetry]
@[simp] theorem State.setBusy_sound : (s.setBusy id p).Sound C ↔ s.Sound C := by simp [State.setBusy]

@[simp] theorem State.startMove_sound (us : List Nat) : (s.startMove id p us).state.Sound C ↔ s.Sound C := by
  unfold State.startMove
  dsimp only
  (repeat' split) <;> simp

@[simp] theorem State.queuePromo_sound : (s.queuePromo p target).Sound C ↔ s.Sound C := by simp [State.queuePromo]

@[simp] theorem State.startPromo_sound :
    (s.startPromo id p target).state.Sound C ↔ s.Sound C := by simp [State.startPromo]

@[simp] theorem State.startRelocate_sound (s : State) (id p : Nat) (c : Option Nat) :
    (s.startRelocate id p c).state.Sound C ↔ s.Sound C := by
  unfold State.startRelocate
  extract_lets x place
  have placed {v : State} {loc : Nat} (h : place = some (v, loc)) : v.Sound C ↔ s.Sound C := by
    unfold place at h
    split at h
    · exact State.placeSlot_sound h
    · split at h
      · split at h
        · exact State.takeSlot_sound h
        · simp at h
      · split at h
        · simp at h
        · simpa using State.takeSlot_sound h
  split
  · simp
  · cases h : place with
    | none => rfl
    | some found => simp [placed h]

@[simp] theorem State.takeRun_sound : (s.takeRun r t).Sound C ↔ s.Sound C := by
  unfold State.takeRun
  dsimp only
  (repeat' split) <;> simp

@[simp] theorem State.dropRun_sound : (s.dropRun r).Sound C ↔ s.Sound C := by simp [State.dropRun]

@[simp] theorem State.tierPage_sound : (s.tierPage j p).state.Sound C ↔ s.Sound C := by
  unfold State.tierPage
  dsimp only
  split <;> simp

@[simp] theorem State.copyPage_sound (s : State) (j : Job) (p : Nat) (addr : Nat → Option Nat) (kept : s.Sound C) :
    (s.copyPage j p addr).state.Sound C := by
  unfold State.copyPage
  extract_lets x lo n src dst dl dps wr b r zipped res
  have read : r.1.Sound C := by simp [r, kept]
  have written : res.1.Sound C := by
    refine foldl_fst_kept (fun b q kept => ?_) read
    split <;> simp [kept]
  split
  · exact kept
  · split
    · exact kept
    · split
      · exact kept
      · split
        · exact kept
        · split
          · exact kept
          · split
            · simp [kept]
            · simp [read, written, kept]

@[simp] theorem State.zeroPage_sound (kept : s.Sound C) : (s.zeroPage j p).state.Sound C := by
  unfold State.zeroPage
  repeat' split <;> simp [kept]

@[simp] theorem State.rekeyPage_sound (kept : s.Sound C) : (s.rekeyPage j p).state.Sound C := by
  unfold State.rekeyPage
  repeat' split <;> simp [kept]

@[simp] theorem State.stowPage_sound : (s.stowPage j p).state.Sound C ↔ s.Sound C := by
  unfold State.stowPage
  split <;> simp

@[simp] theorem State.unstowPage_sound : (s.unstowPage j p).state.Sound C ↔ s.Sound C := by
  unfold State.unstowPage
  split <;> simp

@[simp] theorem State.pinPage_sound : (s.pinPage j p).state.Sound C ↔ s.Sound C := by
  unfold State.pinPage
  repeat' split <;> simp

@[simp] theorem State.unpinPage_sound : (s.unpinPage p).state.Sound C ↔ s.Sound C := by
  unfold State.unpinPage
  dsimp only
  split <;> simp

@[simp] theorem State.jobPage_sound (kept : s.Sound C) : (s.jobPage j).state.Sound C := by
  unfold State.jobPage
  repeat' split <;> simp [kept]

@[simp] theorem State.setJob_sound : (s.setJob j).Sound C ↔ s.Sound C := by simp [State.setJob]
@[simp] theorem State.dropJob_sound : (s.dropJob id).Sound C ↔ s.Sound C := by simp [State.dropJob]

@[simp] theorem State.moveRaises_sound (pc : Nat) (kept : s.Sound C) : (s.moveRaises w t pc).Sound C := by
  unfold State.moveRaises
  dsimp only
  split <;> simp [kept]

@[simp] theorem State.endJob_sound (kept : s.Sound C) : (s.endJob j status).Sound C := by
  unfold State.endJob
  extract_lets s1 s2 s3
  have kept1 : s1.Sound C := by
    unfold s1
    repeat' split <;> simp [kept]
  split
  · simp [kept1]
  · split <;> simp [s2, kept1]
  · dsimp only
    split <;> simp [s3, kept1]
  · simp [kept1]

@[simp] theorem State.jobAdvance_sound (kept : s.Sound C) :
    (s.jobAdvance j).Sound C := by simp [State.jobAdvance, kept]

@[simp] theorem State.jobFail_sound (kept : s.Sound C) : (s.jobFail j status).Sound C := by
  unfold State.jobFail
  split <;> simp [kept]

@[simp] theorem State.runJob_sound (n : Nat) (s : State) (id : Nat) (kept : s.Sound C) :
    (State.runJob n s id).Sound C := by
  induction n generalizing s with
  | zero => exact kept
  | succ n ih =>
    unfold State.runJob
    split
    · exact kept
    · rename_i j _
      split
      · exact kept
      · split
        · simp [ih, kept]
        · simp [ih, kept]
        · have page : (s.jobPage j).state.Sound C := by simp [kept]
          split
          · exact kept
          · split <;> rename_i h <;> simp [h] at page <;> simp [ih, page]

@[simp] theorem State.runJobs_sound (kept : s.Sound C) : s.runJobs.Sound C := by
  simp +contextual [State.runJobs, kept]

@[simp] theorem State.binvDone_sound : (s.binvDone w t).Sound C ↔ s.Sound C := by
  unfold State.binvDone
  dsimp only
  split <;> simp

@[simp] theorem State.drainCheck_sound (s : State) : (s.drainCheck).Sound C ↔ s.Sound C := by
  unfold State.drainCheck
  dsimp only
  split
  · rfl
  · refine foldl_sound fun v b => ?_
    split <;> simp

@[simp] theorem State.dropBlocks_sound : s.dropBlocks.Sound C ↔ s.Sound C := by simp [State.dropBlocks]

@[simp] theorem State.settle_sound (kept : s.Sound C) : s.settle.Sound C := by
  unfold State.settle
  extract_lets s1 s2
  have jobs : s1.Sound C := by simp [s1, kept]
  have ended : s2.Sound C := by simp [s2, jobs]
  have walks : s2.dropBlocks.drainCheck.endWalks.Sound C := by simp [ended]
  simp [walks]

/-- The requests that a page held go on, then those that wait, then the jobs. -/
@[simp] theorem State.accessAll_unpark_settle_sound (rs : List MemReq) (kept : s.Sound C) :
    ((s.accessAll rs).unpark).settle.Sound C :=
  State.settle_sound _ (State.unpark_sound _ (State.accessAll_sound _ _ kept))

@[simp] theorem State.startJob_sound (kept : s.Sound C) : (s.startJob j).Sound C := by simp [State.startJob, kept]

end

/-! ### Movers, coders and decoders (R252-R258, R293-R299) -/

section
variable (s : State) {m : Move} {p : BitVec 34} {d : Nat} {engineFault : Bool}

@[simp] theorem execMoveDone_sound (w : WfNo) (t : ThrNo) (desc : BitVec 18) (kept : s.Sound C) :
    Keeps C (execMoveDone w t desc s) := by
  unfold execMoveDone
  split <;> simp [kept]

@[simp] theorem State.redone_sound : (s.redone m).Sound C ↔ s.Sound C := by simp [State.redone]

@[simp] theorem State.moverFails_sound (kept : s.Sound C) :
    (s.moverFails m).Sound C := by simp [State.moverFails, kept]

@[simp] theorem State.badTarget_sound (s : State) (m : Move) (kept : s.Sound C) : (s.badTarget m).Sound C := by
  unfold State.badTarget
  dsimp only
  split
  · simp [kept]
  · split
    · split
      · simp [kept]
      · rename_i h
        simp [State.placeSlot_sound h, kept]
    · split <;> simp [kept]

@[simp] theorem State.moverStops_sound (mv : Nat) (kept : s.Sound C) :
    (s.moverStops mv).Sound C := by
  unfold State.moverStops
  refine State.settle_sound _ (foldl_kept (fun v m kept => ?_) ?_) <;> simp [kept]

@[simp] theorem execPageMoveCopyPassEnd_sound (ev : CopyEvent) (kept : s.Sound C) :
    Keeps C (execPageMoveCopyPassEnd p ev s) := by
  unfold execPageMoveCopyPassEnd
  split <;> simp [kept]

@[simp] theorem execPageMoveSwitch_sound (kept : s.Sound C) : Keeps C (execPageMoveSwitch p s) := by
  unfold execPageMoveSwitch
  split <;> simp [kept]

@[simp] theorem execSlotRelocation_sound (loc : BitVec 36) (kept : s.Sound C) :
    Keeps C (execSlotRelocation loc s) := by
  unfold execSlotRelocation
  dsimp only
  (repeat' split) <;> simp [kept]

@[simp] theorem State.dropStow_sound (p : Nat) : (s.dropStow p).Sound C ↔ s.Sound C := by simp [State.dropStow]

@[simp] theorem execCoderAssign_sound (kept : s.Sound C) : Keeps C (execCoderAssign s) := by
  unfold execCoderAssign
  dsimp only
  (repeat' split) <;> simp [kept]

@[simp] theorem State.stowEnds_sound (p status : Nat) (kept : s.Sound C) :
    (s.stowEnds p status).Sound C := by simp [State.stowEnds, kept]

@[simp] theorem State.slotFor_sound (fails : Nat) (s : State) (cls p : Nat) (avoid : Option Nat) :
    (State.slotFor fails s cls p avoid).1.Sound C ↔ s.Sound C := by
  induction fails generalizing s avoid with
  | zero =>
    unfold State.slotFor
    split
    · rfl
    · rename_i h
      exact State.placeSlot_sound h
  | succ n ih =>
    unfold State.slotFor
    split
    · rfl
    · rename_i h
      dsimp only
      split
      · simp [State.placeSlot_sound h]
      · simp [ih, State.placeSlot_sound h]

@[simp] theorem State.stowCode_sound (s : State) (c : Nat) (q : Queued) (p fails : Nat) (m : Move) (kept : s.Sound C) :
    (s.stowCode c q p fails m).Sound C := by
  unfold State.stowCode
  extract_lets x k at_ r s1 bytes pay
  have read : r.1.Sound C := by simp [r, kept]
  split
  · simp [read]
  · split
    · simp [s1, read]
    · rename_i cls _
      split
      · simp [s1, read]
      · have found := State.slotFor_sound (C := C) fails s1 cls p none
        split <;> rename_i h <;> simp [h] at found <;> simp [found, s1, read]

@[simp] theorem execStowComplete_sound (ev : StowEvent) (kept : s.Sound C) : Keeps C (execStowComplete p ev s) := by
  unfold execStowComplete
  dsimp only
  (repeat' split) <;> simp [kept]

@[simp] theorem State.dropPromo_sound (q : Queued) :
    (s.dropPromo q).Sound C ↔ s.Sound C := by simp [State.dropPromo]

@[simp] theorem execDecoderGrant_sound (kept : s.Sound C) : Keeps C (execDecoderGrant s) := by
  unfold execDecoderGrant
  dsimp only
  (repeat' split) <;> simp [kept]

@[simp] theorem State.decoderFails_sound : (s.decoderFails d).Sound C ↔ s.Sound C := by simp [State.decoderFails]

@[simp] theorem State.refuseAll_sound (rs : List MemReq) :
    (s.refuseAll rs).Sound C ↔ s.Sound C := by simp [State.refuseAll]

@[simp] theorem State.decoded_sound : (s.decoded d).Sound C ↔ s.Sound C := by simp [State.decoded]

@[simp] theorem execPromotionComplete_sound (kept : s.Sound C) :
    Keeps C (execPromotionComplete p engineFault s) := by
  unfold execPromotionComplete
  dsimp only
  (repeat' split) <;> simp [kept]

@[simp] theorem execPromotionBufferRead_sound (kept : s.Sound C) :
    Keeps C (execPromotionBufferRead p engineFault s) := by
  unfold execPromotionBufferRead
  dsimp only
  (repeat' split) <;> simp [kept]

@[simp] theorem execHeatDecay_sound (kept : s.Sound C) : Keeps C (execHeatDecay s) := by simp [execHeatDecay, kept]

end

end Sys2Proof.Machine
end


section
/-! PROOFS. What every step keeps: events and suspension, the election and service access, links and resets, temperatures,
tollgates, and CXL.mem requests. -/
namespace Sys2Proof.Machine

/-! ### Events, suspension and fences (R129-R133, R141) -/

section
variable (s : State) {w : WfNo} {t : ThrNo} {d a b : Reg} {expired : Bool} {i : Instr}

@[simp] theorem State.takeEvents_sound (w t : Nat) (mask : BitVec 32) :
    (s.takeEvents w t mask).2.Sound C ↔ s.Sound C := by simp [State.takeEvents]

@[simp] theorem execWait_sound (kept : s.Sound C) : Keeps C (execWait w t d a b s) := by simp +contextual [execWait, kept]
@[simp] theorem execSleep_sound (kept : s.Sound C) : Keeps C (execSleep w t a s) := by simp [execSleep, kept]
@[simp] theorem State.wake_sound (w t : Nat) : (s.wake w t).Sound C ↔ s.Sound C := by simp [State.wake]

@[simp] theorem State.resume_sound (w t : Nat) (kept : s.Sound C) : (s.resume w t expired).Sound C := by
  unfold State.resume
  dsimp only
  repeat' split <;> simp [kept]

@[simp] theorem execThreadResume_sound (kept : s.Sound C) :
    Keeps C (execThreadResume w t expired s) := by simp [execThreadResume, kept]

@[simp] theorem execStepBudgetExpiry_sound (kept : s.Sound C) :
    Keeps C (execStepBudgetExpiry w t s) := by simp [execStepBudgetExpiry, kept]

@[simp] theorem State.post_sound (w t : Nat) (sel v : BitVec 64) (kept : s.Sound C) :
    (s.post w t d sel v).Sound C := by simp [State.post, kept]

@[simp] theorem postBody_sound (kept : s.Sound C) : (postBody w t i d a b s).Sound C := by
  unfold postBody
  refine ramer_sound (fun v kept => ?_) kept
  (repeat' split) <;> simp [kept]

@[simp] theorem execPostThread_sound (kept : s.Sound C) :
    Keeps C (execPostThread w t d a b s) := by simp [execPostThread, kept]

@[simp] theorem execPostMailbox_sound (kept : s.Sound C) :
    Keeps C (execPostMailbox w t d a b s) := by simp [execPostMailbox, kept]

@[simp] theorem execPostDoorbell_sound (kept : s.Sound C) :
    Keeps C (execPostDoorbell w t d a b s) := by simp [execPostDoorbell, kept]

@[simp] theorem execMbrd_sound (kept : s.Sound C) : Keeps C (execMbrd w t d a s) := by
  unfold execMbrd
  rw [keeps_next]
  refine ramer_sound (fun v kept => ?_) kept
  dsimp only
  (repeat' split) <;> simp [kept]

@[simp] theorem execMback_sound (kept : s.Sound C) : Keeps C (execMback w t d a s) := by
  unfold execMback
  rw [keeps_next]
  refine ramer_sound (fun v kept => ?_) kept
  dsimp only
  (repeat' split) <;> simp [kept]

@[simp] theorem State.bellTake_sound (f : Nat) (bits : BitVec 16) :
    (s.bellTake f bits).Sound C ↔ s.Sound C := by simp [State.bellTake]

@[simp] theorem execDbtake_sound (kept : s.Sound C) : Keeps C (execDbtake w t d a b s) := by
  unfold execDbtake
  rw [keeps_next]
  refine ramer_sound (fun v kept => ?_) kept
  dsimp only
  (repeat' split) <;> simp [kept]

@[simp] theorem execTime_sound (kept : s.Sound C) : Keeps C (execTime w t d s) := by simp +contextual [execTime, kept]

@[simp] theorem fence_sound (scr tab mv : Bool) (kept : s.Sound C) :
    (fence w t i scr tab mv s).Sound C := by simp [fence, kept]

@[simp] theorem execFenceS_sound (kept : s.Sound C) : Keeps C (execFenceS w t s) := by simp [execFenceS, kept]
@[simp] theorem execFenceT_sound (kept : s.Sound C) : Keeps C (execFenceT w t s) := by simp [execFenceT, kept]
@[simp] theorem execFenceD_sound (kept : s.Sound C) : Keeps C (execFenceD w t s) := by simp [execFenceD, kept]
@[simp] theorem execFenceA_sound (kept : s.Sound C) : Keeps C (execFenceA w t s) := by simp [execFenceA, kept]
@[simp] theorem execHalt_sound (kept : s.Sound C) : Keeps C (execHalt w t a s) := by simp [execHalt, kept]

end

/-! ### The election, mailboxes and doorbells of hosts, field service access (R79-R110) -/

section
variable (s : State) {c : Cand} {word v : BitVec 32} {f m : Nat} {p : Tlp} {method : BitVec 2} {w : WfNo} {t : ThrNo}

@[simp] theorem State.ownerReply_sound (c : Nat) :
    (s.ownerReply c).Sound C ↔ s.Sound C := by simp [State.ownerReply]

@[simp] theorem State.claimBy_sound (c : Nat) (kept : s.Sound C) : (s.claimBy c word).Sound C := by
  unfold State.claimBy
  dsimp only
  split
  · split
    · rename_i claims
      exact sound_setOwn kept fun _ => .take _ (State.eligible_lt claims.2) claims.1
    · exact kept
  · split
    · rename_i claims
      exact sound_setOwn kept fun legal => .take _ (legal.successor_lt claims.2) claims.1
    · exact kept
  · exact kept

@[simp] theorem State.ownerOp_sound {s : State} {c : Nat} {f : State → State}
    (h : ∀ v, v.Sound C → (f v).Sound C) (kept : s.Sound C) : (s.ownerOp c f).Sound C := by
  simp [State.ownerOp, h, kept]

@[simp] theorem execClaim_sound (kept : s.Sound C) : Keeps C (execClaim c word s) := by simp +contextual [execClaim, kept]
@[simp] theorem execStatus_sound (kept : s.Sound C) : Keeps C (execStatus c s) := by simp [execStatus, kept]

@[simp] theorem State.handoverBy_sound (c successor : Nat) (kept : s.Sound C) :
    (s.handoverBy c successor).Sound C := by
  unfold State.handoverBy
  split
  · rename_i names
    obtain ⟨owns, -, other, eligible⟩ := names
    exact sound_setOwn kept fun legal => legal.handTo owns other (State.eligible_lt eligible)
  · exact kept

@[simp] theorem execHandover_sound (successor : BitVec 6) (kept : s.Sound C) :
    Keeps C (execHandover c successor s) := by simp +contextual [execHandover, kept]

@[simp] theorem State.handoverEnds_sound (kept : s.Sound C) :
    s.handoverEnds.Sound C := by
  unfold State.handoverEnds
  split
  · rename_i pending
    exact sound_setOwn kept fun legal => legal.handoverEnds pending
  · exact kept

@[simp] theorem State.cancelBy_sound (c : Nat) (kept : s.Sound C) :
    (s.cancelBy c).Sound C := by simp [State.cancelBy, kept]

@[simp] theorem execHandoverCancel_sound (kept : s.Sound C) :
    Keeps C (execHandoverCancel c s) := by simp +contextual [execHandoverCancel, kept]

@[simp] theorem State.releaseBy_sound (c : Nat) (kept : s.Sound C) :
    (s.releaseBy c).Sound C := by
  unfold State.releaseBy
  split
  · exact sound_setOwn kept fun _ => .drop _
  · exact kept

@[simp] theorem execRelease_sound (kept : s.Sound C) : Keeps C (execRelease c s) := by simp +contextual [execRelease, kept]

@[simp] theorem execHandoverTimerExpiry_sound (kept : s.Sound C) :
    Keeps C (execHandoverTimerExpiry s) := by simp [execHandoverTimerExpiry, kept]

@[simp] theorem execLapseTimerExpiry_sound (kept : s.Sound C) :
    Keeps C (execLapseTimerExpiry s) := by
  unfold execLapseTimerExpiry
  rw [keeps_next]
  split
  · exact sound_setOwn kept fun _ => .drop _
  · exact kept

@[simp] theorem State.funcBack_sound (l : Nat) (kept : s.Sound C) :
    (s.funcBack l).Sound C := by simp [State.funcBack, kept]

@[simp] theorem State.bmcReset_sound (kept : s.Sound C) : s.bmcReset.Sound C := by simp [State.bmcReset, kept]

@[simp] theorem execBmcSclLowTimeout_sound (kept : s.Sound C) :
    Keeps C (execBmcSclLowTimeout s) := by simp [execBmcSclLowTimeout, kept]

@[simp] theorem execI3cTargetReset_sound (kept : s.Sound C) :
    Keeps C (execI3cTargetReset s) := by simp [execI3cTargetReset, kept]

@[simp] theorem State.ioViolate_sound (code resp : Nat) :
    (s.ioViolate f code resp p).Sound C ↔ s.Sound C := by simp [State.ioViolate]

@[simp] theorem State.hostPosts_sound (v : BitVec 64) :
    (s.hostPosts f m v p).Sound C ↔ s.Sound C := by simp [State.hostPosts]

@[simp] theorem execMailboxSend_sound (f : Func) (m : BitVec 4) (v : MailWord) (kept : s.Sound C) :
    Keeps C (execMailboxSend f m v s) := by simp [execMailboxSend, kept]

@[simp] theorem State.hostAcks_sound : (s.hostAcks f m).Sound C ↔ s.Sound C := by simp [State.hostAcks]

@[simp] theorem execMailboxAck_sound (f : Func) (m : BitVec 4) (kept : s.Sound C) :
    Keeps C (execMailboxAck f m s) := by simp [execMailboxAck, kept]

@[simp] theorem execDbSet_sound (f : Func) (kept : s.Sound C) :
    Keeps C (execDbSet f v s) := by simp [execDbSet, kept]

@[simp] theorem State.bellClear_sound (m : BitVec 16) :
    (s.bellClear f m).Sound C ↔ s.Sound C := by simp [State.bellClear]

@[simp] theorem execDbStatusClear_sound (f : Func) (kept : s.Sound C) :
    Keeps C (execDbStatusClear f v s) := by simp [execDbStatusClear, kept]

@[simp] theorem State.bellMask_sound (m : BitVec 16) :
    (s.bellMask f m).Sound C ↔ s.Sound C := by simp [State.bellMask]

@[simp] theorem execDbMaskWrite_sound (f : Func) (kept : s.Sound C) :
    Keeps C (execDbMaskWrite f v s) := by simp [execDbMaskWrite, kept]

@[simp] theorem State.dbgRelease_sound : s.dbgRelease.Sound C ↔ s.Sound C := by simp [State.dbgRelease]

@[simp] theorem State.relock_sound (kept : s.Sound C) : s.relock.Sound C := by
  unfold State.relock
  split
  · exact kept
  · rename_i open_
    rw [State.dbgRelease_sound]
    refine sound_setSvc kept (fun lock => ?_) fun closed => absurd closed open_
    exact iff_of_false (fun three => open_ (lock.mp three)) (by simp)

@[simp] theorem State.saNew_sound : s.saNew.Sound C ↔ s.Sound C := by simp [State.saNew]
@[simp] theorem execSaNew_sound (kept : s.Sound C) : Keeps C (execSaNew c s) := by simp [execSaNew, kept]

@[simp] theorem State.saCheck_sound (kept : s.Sound C) : (s.saCheck method).Sound C := by
  unfold State.saCheck
  dsimp only
  split
  · exact kept
  · rename_i answers
    have open_ : s.svc.st ≠ 2 := fun closed => answers (.inl closed)
    have fails (lock : s.svc.fails = 3 ↔ s.svc.st = 2) : s.svc.fails ≠ 3 := fun three => open_ (lock.mp three)
    split
    · simp [kept]
    · split
      · simp [kept]
      · split
        · simp [kept]
        · split
          · exact sound_setSvc kept (fun lock => iff_of_false (fails lock) (by simp)) fun closed => absurd closed open_
          · split
            · rw [State.dbgRelease_sound]
              exact sound_setSvc kept (fun _ => by simp) fun _ => rfl
            · rename_i two
              refine sound_setSvc kept (fun lock => ?_) fun closed => absurd closed open_
              have more : s.svc.fails + 1 ≠ 3 := fun h => two (by bv_omega)
              exact iff_of_false more open_

@[simp] theorem execSaSubmit_sound (kept : s.Sound C) :
    Keeps C (execSaSubmit c method s) := by simp [execSaSubmit, kept]

@[simp] theorem execSaLock_sound (kept : s.Sound C) : Keeps C (execSaLock c s) := by simp [execSaLock, kept]
@[simp] theorem State.dbgGo_sound : s.dbgGo.Sound C ↔ s.Sound C := by simp [State.dbgGo]
@[simp] theorem execSaDbgGo_sound (kept : s.Sound C) : Keeps C (execSaDbgGo c s) := by simp [execSaDbgGo, kept]

@[simp] theorem execDebugHalt_sound (kept : s.Sound C) :
    Keeps C (execDebugHalt w t s) := by simp [execDebugHalt, kept]

@[simp] theorem execDebugResume_sound (kept : s.Sound C) :
    Keeps C (execDebugResume w t s) := by simp [execDebugResume, kept]

@[simp] theorem execDebugSingleStep_sound (kept : s.Sound C) :
    Keeps C (execDebugSingleStep w t s) := by simp [execDebugSingleStep, kept]

@[simp] theorem execTestAccessPortInstruction_sound (p : TapDrive) (kept : s.Sound C) :
    Keeps C (execTestAccessPortInstruction p s) := by
  unfold execTestAccessPortInstruction
  (repeat' split) <;> simp [kept]

end

/-! ### Links, resets and HDM decoders (R83, R102, R172-R199) -/

section
variable (s : State) {idx ld f : Nat} {h : HeadNo} {v : Bool} {l : LinkNo} {width : BitVec 5} {snd : Sender}

@[simp] theorem State.commitBits_sound (tbl word : Nat) (bits : BitVec 64) :
    (s.commitBits tbl idx word bits).Sound C ↔ s.Sound C := by simp [State.commitBits]

@[simp] theorem State.commitFlds_sound (fs : List Fld) :
    (s.commitFlds idx fs).Sound C ↔ s.Sound C := by simp [State.commitFlds]

@[simp] theorem State.commitL_sound (h : Nat) : (s.commitL h).Sound C ↔ s.Sound C := by simp [State.commitL]
@[simp] theorem State.commitL0p_sound (h : Nat) : (s.commitL0p h).Sound C ↔ s.Sound C := by simp [State.commitL0p]
@[simp] theorem State.stopJob_sound (j : Job) : (s.stopJob j).Sound C ↔ s.Sound C := by simp [State.stopJob]
@[simp] theorem State.stopRings_sound : (s.stopRings ld).Sound C ↔ s.Sound C := by simp [State.stopRings]
@[simp] theorem State.stopTenants_sound : (s.stopTenants ld).Sound C ↔ s.Sound C := by simp [State.stopTenants]
@[simp] theorem State.freeCtxs_sound : (s.freeCtxs ld).Sound C ↔ s.Sound C := by simp [State.freeCtxs]
@[simp] theorem State.resetBell_sound : (s.resetBell f).Sound C ↔ s.Sound C := by simp [State.resetBell]
@[simp] theorem State.resetLd_sound (kept : s.Sound C) : (s.resetLd ld).Sound C := by simp [State.resetLd, kept]
@[simp] theorem State.setInReset_sound : (s.setInReset f v).Sound C ↔ s.Sound C := by simp [State.setInReset]

@[simp] theorem State.functionReset_sound (kept : s.Sound C) :
    (s.functionReset f).Sound C := by simp [State.functionReset, kept]

@[simp] theorem execFunctionLevelReset_sound (f : Func) (kept : s.Sound C) :
    Keeps C (execFunctionLevelReset f s) := by simp [execFunctionLevelReset, kept]

@[simp] theorem execLdReset_sound (ld : LdNo) (kept : s.Sound C) :
    Keeps C (execLdReset ld s) := by simp [execLdReset, kept]

@[simp] theorem execFunctionOutOfReset_sound (f : Func) (kept : s.Sound C) :
    Keeps C (execFunctionOutOfReset f s) := by simp [execFunctionOutOfReset, kept]

@[simp] theorem execLinkTrainingComplete_sound (rate : BitVec 4) (flit256 cxl : Bool) (kept : s.Sound C) :
    Keeps C (execLinkTrainingComplete l rate width flit256 cxl s) := by simp [execLinkTrainingComplete, kept]

@[simp] theorem execLinkDown_sound (kept : s.Sound C) : Keeps C (execLinkDown l s) := by simp [execLinkDown, kept]
@[simp] theorem State.setPerst_sound (l : Nat) : (s.setPerst l v).Sound C ↔ s.Sound C := by simp [State.setPerst]

@[simp] theorem execHdperstNFall_sound (kept : s.Sound C) :
    Keeps C (execHdperstNFall h s) := by
  unfold execHdperstNFall
  extract_lets was s1 s2 s3
  rw [keeps_next]
  split
  · have resets : s3.Sound C := foldl_kept (fun v i kept => by simp [kept]) (by simp [s2, s1, kept])
    simp [resets]
  · simp [s1, kept]

@[simp] theorem execHdperstNRise_sound (kept : s.Sound C) :
    Keeps C (execHdperstNRise h s) := by simp [execHdperstNRise, kept]

@[simp] theorem execMgPerstNFall_sound (kept : s.Sound C) :
    Keeps C (execMgPerstNFall s) := by simp [execMgPerstNFall, kept]

@[simp] theorem execMgPerstNRise_sound (kept : s.Sound C) :
    Keeps C (execMgPerstNRise s) := by simp [execMgPerstNRise, kept]

@[simp] theorem execHdmDecoderCommit_sound (ld : LdNo) (n : Fin 4) (dec : DecoderSet) (kept : s.Sound C) :
    Keeps C (execHdmDecoderCommit ld n dec s) := by simp [execHdmDecoderCommit, kept]

@[simp] theorem State.cfgRead_sound (r : CfgReg) : (s.cfgRead f r).Sound C ↔ s.Sound C := by
  unfold State.cfgRead
  split <;> simp

@[simp] theorem execConfigurationRequest_sound (r : CfgReq) (kept : s.Sound C) :
    Keeps C (execConfigurationRequest r s) := by
  unfold execConfigurationRequest
  (repeat' split) <;> simp [kept]

@[simp] theorem execIsolationInterval_sound (kept : s.Sound C) :
    Keeps C (execIsolationInterval h s) := by simp [execIsolationInterval, kept]

@[simp] theorem execIsolatedClear_sound (w : WfNo) (t : ThrNo) (d : Reg) (kept : s.Sound C) :
    Keeps C (execIsolatedClear w t d h s) := by simp [execIsolatedClear, kept]

@[simp] theorem execViolationLogRead_sound (kept : s.Sound C) : Keeps C (execViolationLogRead snd h s) := by
  unfold execViolationLogRead
  (repeat' split) <;> simp [kept]

@[simp] theorem execViolationLogClear_sound (kept : s.Sound C) :
    Keeps C (execViolationLogClear snd h s) := by simp [execViolationLogClear, kept]

@[simp] theorem State.askWidth_sound (h w : Nat) : (s.askWidth h w).Sound C ↔ s.Sound C := by simp [State.askWidth]
@[simp] theorem State.stopWidth_sound (h : Nat) : (s.stopWidth h).Sound C ↔ s.Sound C := by simp [State.stopWidth]

@[simp] theorem execL0pSample_sound (load : BitVec 7) (kept : s.Sound C) : Keeps C (execL0pSample h load s) := by
  unfold execL0pSample
  (repeat' split) <;> simp [kept]

@[simp] theorem execHostL0pRequest_sound (kept : s.Sound C) : Keeps C (execHostL0pRequest h width s) := by
  unfold execHostL0pRequest
  dsimp only
  (repeat' split) <;> simp [kept]

@[simp] theorem State.expressWidth_sound (h : Nat) :
    (s.expressWidth h).Sound C ↔ s.Sound C := by simp [State.expressWidth]

@[simp] theorem State.reviewWidth_sound (h : Nat) :
    (s.reviewWidth h).Sound C ↔ s.Sound C := by simp [State.reviewWidth]

@[simp] theorem execL0pChangeComplete_sound (kept : s.Sound C) : Keeps C (execL0pChangeComplete h s) := by
  unfold execL0pChangeComplete
  dsimp only
  (repeat' split) <;> simp [kept]

@[simp] theorem execL1Entry_sound (kept : s.Sound C) : Keeps C (execL1Entry h s) := by simp [execL1Entry, kept]
@[simp] theorem execL1Exit_sound (kept : s.Sound C) : Keeps C (execL1Exit h s) := by simp [execL1Exit, kept]

@[simp] theorem execFlowControlCreditReturn_sound (kind : CreditKind) (n : BitVec 16) (kept : s.Sound C) :
    Keeps C (execFlowControlCreditReturn h kind n s) := by
  unfold execFlowControlCreditReturn
  split <;> simp [kept]

@[simp] theorem State.biRspRow_sound (h l : Nat) (shared odd : Bool) (detail : Nat) (kept : s.Sound C) :
    (s.biRspRow h l shared odd detail).Sound C := by simp [State.biRspRow, kept]

@[simp] theorem execBiRspI_sound (r : RspI) (kept : s.Sound C) :
    Keeps C (execBiRspI h r s) := by simp [execBiRspI, kept]

@[simp] theorem execBiRspS_sound (r : RspS) (kept : s.Sound C) :
    Keeps C (execBiRspS h r s) := by simp [execBiRspS, kept]

@[simp] theorem execBiConflict_sound (r : Conflict) (kept : s.Sound C) :
    Keeps C (execBiConflict h r s) := by simp [execBiConflict, kept]

@[simp] theorem execReclaimWalkEnd_sound (win : BitVec 12) (kept : s.Sound C) :
    Keeps C (execReclaimWalkEnd h win s) := by simp [execReclaimWalkEnd, kept]

@[simp] theorem execDwellWindowEnd_sound (dpa : BitVec 46) (kept : s.Sound C) :
    Keeps C (execDwellWindowEnd dpa s) := by
  unfold execDwellWindowEnd
  rw [keeps_next]
  dsimp only
  split
  · exact State.settle_sound _ (State.pump_sound _ (by simp [kept]))
  · exact kept

@[simp] theorem execVictimSnoopIssue_sound (hs : SliceNo) (kept : s.Sound C) :
    Keeps C (execVictimSnoopIssue hs s) := by simp [execVictimSnoopIssue, kept]

end

/-! ### Temperatures and the life ledger (R442-R448, R458-R460) -/

section
variable (s : State) {th : Nat}

@[simp] theorem State.roundFree_sound (num den : Nat) : (s.roundFree num den).2.Sound C ↔ s.Sound C := by
  unfold State.roundFree
  split <;> simp

@[simp] theorem State.sensorFails_sound : (s.sensorFails th).Sound C ↔ s.Sound C := by simp [State.sensorFails]

@[simp] theorem State.refreshRate_sound (u : Nat) (twice : Bool) :
    (s.refreshRate u twice).Sound C ↔ s.Sound C := by simp [State.refreshRate]

@[simp] theorem State.stackRefresh_sound (st : Nat) :
    (s.stackRefresh st).Sound C ↔ s.Sound C := by simp [State.stackRefresh]

@[simp] theorem State.hardTrip_sound (kept : s.Sound C) : (s.hardTrip th).Sound C := by simp [State.hardTrip, kept]
@[simp] theorem State.shutdown_sound (by_ : Nat) : (s.shutdown by_).Sound C ↔ s.Sound C := by simp [State.shutdown]

@[simp] theorem execThermalSample_sound (th : ThNo) (raw : Option (BitVec 16)) (kept : s.Sound C) :
    Keeps C (execThermalSample th raw s) := by
  unfold execThermalSample
  (repeat' split) <;> simp [kept]

@[simp] theorem execHardTrip_sound (th : ThNo) (kept : s.Sound C) :
    Keeps C (execHardTrip th s) := by simp [execHardTrip, kept]

@[simp] theorem execShutdownGraceEnd_sound (kept : s.Sound C) :
    Keeps C (execShutdownGraceEnd s) := by simp [execShutdownGraceEnd, kept]

@[simp] theorem State.cutNow_sound (hot : Option Nat) : (s.cutNow hot).2.Sound C ↔ s.Sound C := by
  unfold State.cutNow
  dsimp only
  (repeat' split) <;> simp

@[simp] theorem execThrottleUpdate_sound (kept : s.Sound C) : Keeps C (execThrottleUpdate s) := by
  unfold execThrottleUpdate
  extract_lets hot old r s1 s2 s3
  clear_value hot
  have cut : s1.Sound C := by simp [s1, r, kept]
  have hottest : s2.Sound C := by
    unfold s2
    split <;> simp [cut]
  have reported : s3.Sound C := by simp [s3, hottest]
  (repeat' split) <;> simp [kept, reported]

@[simp] theorem execDimmSensorRead_sound (c : ChanNo) (reading : Option (BitVec 16)) (dramHot : Bool) (kept : s.Sound C) :
    Keeps C (execDimmSensorRead c reading dramHot s) := by simp [execDimmSensorRead, kept]

@[simp] theorem State.lifeUp_sound : s.lifeUp.Sound C ↔ s.Sound C := by simp [State.lifeUp]

@[simp] theorem execLedgerSecond_sound (util : BitVec 7) (kept : s.Sound C) :
    Keeps C (execLedgerSecond util s) := by simp [execLedgerSecond, kept]

@[simp] theorem execAgeingRead_sound (drift : BitVec 16) (kept : s.Sound C) :
    Keeps C (execAgeingRead drift s) := by simp [execAgeingRead, kept]

@[simp] theorem execLedgerWrite_sound (ok : Bool) (kept : s.Sound C) :
    Keeps C (execLedgerWrite ok s) := by simp [execLedgerWrite, kept]

end

/-! ### Tollgates and roundabouts (R386-R413) -/

section
variable (s : State) {g c : Nat} {r : MemReq}

@[simp] theorem State.commitTbl_sound (tbl : Nat) (ok : Nat → Bool) :
    (s.commitTbl tbl ok).Sound C ↔ s.Sound C := by simp [State.commitTbl]

@[simp] theorem State.tollWr_sound (f : Fld) (v : Nat) :
    (s.tollWr f g c v).Sound C ↔ s.Sound C := by simp [State.tollWr]

@[simp] theorem State.tollLevel_sound : s.tollLevel.2.Sound C ↔ s.Sound C := by
  unfold State.tollLevel
  split <;> simp

@[simp] theorem State.tollClass_sound (s : State) (g f scale c : Nat) :
    (s.tollClass g f scale c).Sound C ↔ s.Sound C := by
  unfold State.tollClass
  extract_lets t bytes express guar cap eff above throttled y gain t' s1 r s2 s3 s4
  have h1 : s1.Sound C ↔ s.Sound C := by simp [s1]
  have h2 : s2.Sound C ↔ s.Sound C := by simp [s2, r, h1]
  have h3 : s3.Sound C ↔ s.Sound C := by
    unfold s3
    generalize gain = o
    cases o <;> simp [h2]
  have h4 : s4.Sound C ↔ s.Sound C := by simp [s4, h3]
  simp [h4]

@[simp] theorem execTollInterval_sound (kept : s.Sound C) :
    Keeps C (execTollInterval s) := by simp [execTollInterval, kept]

@[simp] theorem execQueueLevelReport_sound (u : UnitNo) (level : BitVec 7) (kept : s.Sound C) :
    Keeps C (execQueueLevelReport u level s) := by simp [execQueueLevelReport, kept]

@[simp] theorem State.tollCount_sound : (s.tollCount g c).Sound C ↔ s.Sound C := by simp [State.tollCount]

@[simp] theorem State.toSlice_sound (kept : s.Sound C) : (s.toSlice r).Sound C := by
  unfold State.toSlice
  split <;> simp [kept]

@[simp] theorem execTollgateAdmit_sound (g : TollNo) (kept : s.Sound C) : Keeps C (execTollgateAdmit g s) := by
  unfold execTollgateAdmit
  dsimp only
  (repeat' split) <;> simp [kept]

@[simp] theorem State.tollArrive_sound (h : Nat) (shared : Bool) (kept : s.Sound C) :
    (s.tollArrive h shared r).Sound C := by simp [State.tollArrive, kept]

@[simp] theorem State.refillRb_sound (r : Nat) : (s.refillRb r).Sound C ↔ s.Sound C := by simp [State.refillRb]

@[simp] theorem execRoundaboutRefill_sound (kept : s.Sound C) :
    Keeps C (execRoundaboutRefill s) := by simp [execRoundaboutRefill, kept]

@[simp] theorem State.rbPass_sound (r : Nat) (q : MemReq) (kept : s.Sound C) :
    (s.rbPass r q).Sound C := by simp [State.rbPass, kept]

@[simp] theorem execRoundaboutGrant_sound (r : RbNo) (kept : s.Sound C) : Keeps C (execRoundaboutGrant r s) := by
  unfold execRoundaboutGrant
  dsimp only
  (repeat' split) <;> simp [kept]

end

/-! ### CXL.mem requests (R176-R187) -/

section
variable (s : State) {ld : LdNo} {mv : MetaVal} {hpa mask : BitVec 64} {tag : BitVec 16} {data : BitVec 512}
    {poisoned : Bool}

@[simp] theorem State.headRefuse_sound (r : MemReq) (code : Nat) :
    (s.headRefuse r code).Sound C ↔ s.Sound C := by simp [State.headRefuse]

@[simp] theorem State.expressArrives_sound (h cls : Nat) :
    (s.expressArrives h cls).Sound C ↔ s.Sound C := by simp [State.expressArrives]

@[simp] theorem State.hostReq_sound (ld : Nat) (kind : Req) (dec : Decode) (kept : s.Sound C) :
    (s.hostReq ld kind mv hpa tag data mask poisoned dec).Sound C := by
  unfold State.hostReq
  repeat' split <;> simp [kept]

@[simp] theorem execMemRd_sound (kept : s.Sound C) :
    Keeps C (execMemRd ld mv hpa tag s) := by simp [execMemRd, kept]

@[simp] theorem execMemRdData_sound (kept : s.Sound C) :
    Keeps C (execMemRdData ld mv hpa tag s) := by simp [execMemRdData, kept]

@[simp] theorem execMemRdFwd_sound (kept : s.Sound C) :
    Keeps C (execMemRdFwd ld mv hpa tag s) := by simp [execMemRdFwd, kept]

@[simp] theorem execMemSpecRd_sound (kept : s.Sound C) :
    Keeps C (execMemSpecRd ld mv hpa tag s) := by simp [execMemSpecRd, kept]

@[simp] theorem execMemInv_sound (kept : s.Sound C) :
    Keeps C (execMemInv ld mv hpa tag s) := by simp [execMemInv, kept]

@[simp] theorem execMemInvNt_sound (kept : s.Sound C) :
    Keeps C (execMemInvNt ld mv hpa tag s) := by simp [execMemInvNt, kept]

@[simp] theorem execMemWr_sound (kept : s.Sound C) :
    Keeps C (execMemWr ld mv hpa tag data poisoned s) := by simp [execMemWr, kept]

@[simp] theorem execMemWrPtl_sound (p : PtlWrite) (kept : s.Sound C) :
    Keeps C (execMemWrPtl ld mv hpa tag data mask p s) := by simp [execMemWrPtl, kept]

end

end Sys2Proof.Machine
end


section
/-! PROOFS. What every step keeps: region blocks and evacuation, channel controllers, power domains, bays, power-on, and
mileposts. -/
namespace Sys2Proof.Machine

/-! ### Region-table blocks, subtrees and evacuation (R238, R284, R455) -/

section
variable (s : State) {b win hs h : Nat} {w : WfNo} {t : ThrNo} {d : Reg} {mask : BitVec 32}

theorem State.takeBlock_sound {s u : State} {b : Nat} (h : s.takeBlock b = some u) : u.Sound C ↔ s.Sound C := by
  unfold State.takeBlock at h
  split at h
  · rw [Option.some.inj h]
  · split at h
    · simp at h
    · rw [← Option.some.inj h]
      simp [foldl_fst_sound]

theorem State.takeBlocks_sound {s u : State} {base size : Nat} (h : s.takeBlocks base size = some u) :
    u.Sound C ↔ s.Sound C := by
  have step : ∀ v : State, s.takeBlocks base size = some v → (v.Sound C ↔ s.Sound C) := by
    refine List.foldlRecOn (motive := fun o => ∀ v : State, o = some v → (v.Sound C ↔ s.Sound C)) _ _ (fun v h => ?_)
      fun o ih i _ v h => ?_
    · rw [← Option.some.inj h]
    · cases o with
      | none => simp at h
      | some w => exact (State.takeBlock_sound h).trans (ih w rfl)
  exact step u h

@[simp] theorem State.placeSubtrees_sound : s.placeSubtrees.Sound C ↔ s.Sound C := by simp [State.placeSubtrees]

@[simp] theorem State.evacuateBay_sound (kept : s.Sound C) :
    (s.evacuateBay b).Sound C := by simp [State.evacuateBay, kept]

@[simp] theorem State.evacuate_sound (kept : s.Sound C) : (s.evacuate b).2.Sound C := by
  unfold State.evacuate
  repeat' split <;> simp [kept]

@[simp] theorem State.cancelEvac_sound (kept : s.Sound C) :
    (s.cancelEvac b).Sound C := by simp [State.cancelEvac, kept]

@[simp] theorem execEvacuate_sound (b : BayNo) (kept : s.Sound C) :
    Keeps C (execEvacuate w t d b s) := by simp +contextual [execEvacuate, kept]

@[simp] theorem execCancel_sound (b : BayNo) (kept : s.Sound C) :
    Keeps C (execCancel w t d b s) := by simp +contextual [execCancel, kept]

@[simp] theorem State.reopenStore_sound (kept : s.Sound C) : (s.reopenStore win).Sound C := by
  unfold State.reopenStore
  (repeat' split) <;> simp [kept]

@[simp] theorem execReopen_sound (win : BitVec 12) (kept : s.Sound C) :
    Keeps C (execReopen w t d win s) := by simp +contextual [execReopen, kept]

@[simp] theorem State.clearReclaimed_sound (kept : s.Sound C) : (s.clearReclaimed win mask).Sound C := by
  unfold State.clearReclaimed
  repeat' split <;> simp [kept]

@[simp] theorem execReclaimedClear_sound (win : BitVec 12) (kept : s.Sound C) :
    Keeps C (execReclaimedClear w t d win mask s) := by simp +contextual [execReclaimedClear, kept]

@[simp] theorem State.sfRead_sound (dec : Decode) (kept : s.Sound C) : (s.sfRead hs dec).Sound C := by
  unfold State.sfRead
  split <;> simp [kept]

@[simp] theorem State.scrubStep_sound : (s.scrubStep hs).Sound C ↔ s.Sound C := by simp [State.scrubStep]

@[simp] theorem execSnoopFilterScrub_sound (hs : SliceNo) (set : BitVec 14) (x2 : BitVec 4) (ev : SfRead) (kept : s.Sound C) :
    Keeps C (execSnoopFilterScrub hs set x2 ev s) := by
  unfold execSnoopFilterScrub
  (repeat' split) <;> simp [kept]

@[simp] theorem State.windowOff_sound (kept : s.Sound C) :
    (s.windowOff win).Sound C := by simp [State.windowOff, kept]

@[simp] theorem State.leaveRange_sound : (s.leaveRange win h).Sound C ↔ s.Sound C := by simp [State.leaveRange]

@[simp] theorem State.disableWindow_sound (kept : s.Sound C) : (s.disableWindow win).Sound C := by
  unfold State.disableWindow
  repeat' split <;> simp [kept]

@[simp] theorem execWindowDisable_sound (win : BitVec 12) (kept : s.Sound C) :
    Keeps C (execWindowDisable w t d win s) := by simp +contextual [execWindowDisable, kept]

@[simp] theorem State.disableDone_sound (kept : s.Sound C) :
    (s.disableDone win).Sound C := by
  unfold State.disableDone
  dsimp only
  exact State.settle_sound _ (State.pump_sound _ (by simp [kept]))

@[simp] theorem execWindowDisableComplete_sound (win : BitVec 12) (kept : s.Sound C) :
    Keeps C (execWindowDisableComplete win s) := by simp [execWindowDisableComplete, kept]

@[simp] theorem State.timeoutRow_sound (l : Nat) (kept : s.Sound C) : (s.timeoutRow h l).Sound C := by
  unfold State.timeoutRow
  extract_lets first s1
  have timed : s1.Sound C := by simp [s1, kept]
  clear_value s1
  split
  · simp [timed]
  · split
    · exact State.settle_sound _ (foldl_kept (fun v i kept => by simp [kept]) timed)
    · simp [timed]

@[simp] theorem execSnoopTimeout_sound (h : HeadNo) (dpa : BitVec 46) (kept : s.Sound C) :
    Keeps C (execSnoopTimeout h dpa s) := by simp [execSnoopTimeout, kept]

end

/-! ### Channel and stack controllers (R362-R384) -/

section
variable (s : State) {u : UnitNo} {r : MemReq} {k span code level idx detail : Nat} {dec : Decode} {w : WfNo}
    {t : ThrNo} {d : Reg}

@[simp] theorem State.issueRead_sound (u : Nat) (r : Rd) :
    (s.issueRead u r).Sound C ↔ s.Sound C := by simp [State.issueRead]

@[simp] theorem execDramCommandIssue_sound (kept : s.Sound C) : Keeps C (execDramCommandIssue u s) := by
  unfold execDramCommandIssue
  dsimp only
  (repeat' split) <;> simp [kept]

@[simp] theorem State.spanFails_sound (corrected : Bool) (kept : s.Sound C) :
    (s.spanFails r k corrected).Sound C := by simp [State.spanFails, kept]

@[simp] theorem State.keepTwin_sound (u l : Nat) : (s.keepTwin u l).Sound C ↔ s.Sound C := by simp [State.keepTwin]
@[simp] theorem State.keepSpan_sound : (s.keepSpan k span).Sound C ↔ s.Sound C := by simp [State.keepSpan]

@[simp] theorem State.readDone_sound (u : Nat) (kept : s.Sound C) : (s.readDone u r dec).Sound C := by
  unfold State.readDone
  split <;> simp [kept]

@[simp] theorem State.poisonReads_sound (hit : MemReq → Bool) :
    (s.poisonReads hit).Sound C ↔ s.Sound C := by simp [State.poisonReads]

@[simp] theorem State.losePagesTo_sound (ps : List Nat) :
    (s.losePagesTo ps code).Sound C ↔ s.Sound C := by simp [State.losePagesTo]

@[simp] theorem State.leafLost_sound (sealWord : Bool) :
    (s.leafLost k sealWord).Sound C ↔ s.Sound C := by simp [State.leafLost]

@[simp] theorem State.nodeLost_sound : (s.nodeLost level idx).Sound C ↔ s.Sound C := by
  unfold State.nodeLost
  extract_lets pages s1 counters s2
  have lost : s2.Sound C ↔ s.Sound C := by simp [s2, counters, ↓ sound_withOther, s1]
  simp [lost]

@[simp] theorem State.nodeFails_sound (kept : s.Sound C) : (s.nodeFails level idx).Sound C := by
  unfold State.nodeFails
  dsimp only
  split <;> simp [kept]

@[simp] theorem State.leafFails_sound (kept : s.Sound C) : (s.leafFails k).Sound C := by
  unfold State.leafFails
  split <;> simp [kept]

@[simp] theorem State.tagLost_sound : (s.tagLost k span).Sound C ↔ s.Sound C := by
  unfold State.tagLost
  split <;> simp

@[simp] theorem State.copyBad_sound (unit loc : Nat) :
    (s.copyBad unit code loc).Sound C ↔ s.Sound C := by simp [State.copyBad]

@[simp] theorem State.mapLost_sound (u r : Nat) : (s.mapLost u r).Sound C ↔ s.Sound C := by simp [State.mapLost]

@[simp] theorem State.metaRead_sound (u : Nat) (m : MetaRead) (kept : s.Sound C) : (s.metaRead u m).Sound C := by
  unfold State.metaRead
  split <;> simp [kept]

@[simp] theorem execDramReadComplete_sound (ev : DramRead) (kept : s.Sound C) :
    Keeps C (execDramReadComplete u ev s) := by
  unfold execDramReadComplete
  (repeat' split) <;> simp [kept]

@[simp] theorem State.stopUnit_sound (u cause : Nat) (kept : s.Sound C) :
    (s.stopUnit u cause).Sound C := by simp [State.stopUnit, kept]

@[simp] theorem State.resetUnit_sound (u : Nat) : (s.resetUnit u).Sound C ↔ s.Sound C := by simp [State.resetUnit]

@[simp] theorem State.recover_sound (u : Nat) : (s.recover u detail).Sound C ↔ s.Sound C := by
  unfold State.recover
  repeat' split <;> simp

@[simp] theorem State.alert_sound (u : Nat) : (s.alert u detail).Sound C ↔ s.Sound C := by simp [State.alert]

@[simp] theorem execCaParityAlert_sound (slot : Bool) (kept : s.Sound C) :
    Keeps C (execCaParityAlert u slot s) := by simp [execCaParityAlert, kept]

@[simp] theorem execWriteCrcAlert_sound (place : BitVec 5) (kept : s.Sound C) :
    Keeps C (execWriteCrcAlert u place s) := by simp [execWriteCrcAlert, kept]

@[simp] theorem execRecoveryRetrainingEnd_sound (ok : Bool) (kept : s.Sound C) :
    Keeps C (execRecoveryRetrainingEnd u ok s) := by simp [execRecoveryRetrainingEnd, kept]

@[simp] theorem execPmicFault_sound (kept : s.Sound C) :
    Keeps C (execPmicFault u s) := by simp [execPmicFault, kept]

@[simp] theorem State.commitMemch_sound (u : Nat) :
    (s.commitMemch u).Sound C ↔ s.Sound C := by simp [State.commitMemch]

@[simp] theorem execRefresh_sound (hot postpone : Bool) (kept : s.Sound C) :
    Keeps C (execRefresh u hot postpone s) := by simp [execRefresh, kept]

@[simp] theorem execRetrainingPause_sound (kept : s.Sound C) :
    Keeps C (execRetrainingPause u s) := by simp [execRetrainingPause, kept]

@[simp] theorem State.scrubbed_sound (u : Nat) : (s.scrubbed u).Sound C ↔ s.Sound C := by simp [State.scrubbed]

@[simp] theorem execPatrolScrubRead_sound (line : BitVec 34) (kept : s.Sound C) :
    Keeps C (execPatrolScrubRead u line dec s) := by
  unfold execPatrolScrubRead
  split <;> simp [kept]

@[simp] theorem execCeDecay_sound (kept : s.Sound C) : Keeps C (execCeDecay u s) := by simp [execCeDecay, kept]

@[simp] theorem execCeClear_sound (kept : s.Sound C) :
    Keeps C (execCeClear w t d u s) := by simp [execCeClear, kept]

@[simp] theorem execMemchReset_sound (kept : s.Sound C) :
    Keeps C (execMemchReset w t d u s) := by simp [execMemchReset, kept]

end

/-! ### Power domains (R374, R409, R436-R441) -/

section
variable (s : State) {d level : Nat} {dom : DomNo} {error : Bool} {u : UnitNo}

@[simp] theorem State.refuseEntry_sound (unit cause : Nat) :
    (s.refuseEntry d unit cause).Sound C ↔ s.Sound C := by simp [State.refuseEntry]

@[simp] theorem State.enterLevel_sound : (s.enterLevel d level).Sound C ↔ s.Sound C := by
  unfold State.enterLevel
  split <;> simp

@[simp] theorem State.tryLevel_sound : (s.tryLevel d level).Sound C ↔ s.Sound C := by
  unfold State.tryLevel
  split <;> simp

@[simp] theorem execDomainEvaluation_sound (idle : BitVec 32) (kept : s.Sound C) :
    Keeps C (execDomainEvaluation dom idle s) := by simp [execDomainEvaluation, kept]

@[simp] theorem State.drainAll_sound (n : Nat) (s : State) (u : Nat) :
    (State.drainAll n s u).Sound C ↔ s.Sound C := by
  induction n generalizing s with
  | zero => rfl
  | succ n ih =>
    unfold State.drainAll
    split
    · simp [ih]
    · rfl

@[simp] theorem State.reached_sound : (s.reached d).Sound C ↔ s.Sound C := by
  unfold State.reached
  split <;> simp

@[simp] theorem State.entryEnds_sound : (s.entryEnds d error).Sound C ↔ s.Sound C := by simp [State.entryEnds]

@[simp] theorem State.orderEarly_sound (hs : Nat) (kept : s.Sound C) :
    (s.orderEarly hs).Sound C := by simp +contextual [State.orderEarly, kept]

@[simp] theorem State.domReady_sound (kept : s.Sound C) : (s.domReady d).Sound C := by
  unfold State.domReady
  split
  · exact kept
  · extract_lets level dom s1 zero lanes s2
    have awake : s1.Sound C := by simp [s1, kept]
    have credited (v : State) (r : Nat) : (zero v r).Sound C ↔ v.Sound C := by simp [zero]
    clear_value s1 zero
    have ready : s2.Sound C := by
      unfold s2
      split
      · simp [credited, awake]
      · (repeat' split) <;> simp [lanes, credited, awake]
    simp [ready]

@[simp] theorem execDomainEntryComplete_sound (kept : s.Sound C) :
    Keeps C (execDomainEntryComplete dom error s) := by simp [execDomainEntryComplete, kept]

@[simp] theorem execDomainWake_sound (kept : s.Sound C) :
    Keeps C (execDomainWake dom s) := by simp [execDomainWake, kept]

@[simp] theorem execDomainReady_sound (kept : s.Sound C) :
    Keeps C (execDomainReady dom s) := by simp [execDomainReady, kept]

@[simp] theorem execLayByEntryComplete_sound (kept : s.Sound C) :
    Keeps C (execLayByEntryComplete u s) := by simp [execLayByEntryComplete, kept]

@[simp] theorem execLayByExitComplete_sound (kept : s.Sound C) :
    Keeps C (execLayByExitComplete u s) := by simp [execLayByExitComplete, kept]

end

/-! ### The ends of power-on steps -/

section
variable (s : State) {n : Nat}

@[simp] theorem State.stepDone_sound : (s.stepDone n).Sound C ↔ s.Sound C := by simp [State.stepDone]
@[simp] theorem State.stepFailed_sound : (s.stepFailed n).Sound C ↔ s.Sound C := by simp [State.stepFailed]

@[simp] theorem State.startWayfinders_sound (kept : s.Sound C) :
    s.startWayfinders.Sound C := by
  unfold State.startWayfinders
  extract_lets soft s1 s2 mask p s3
  have emptied : s1.Sound C := sound_setSoft kept id (fun _ => rfl) id
  clear_value s1
  have released : s3.Sound C := by simp [s3, s2, emptied]
  clear_value s3 p
  refine foldl_kept (fun v w kept => ?_) released
  split
  · exact State.startBase_sound _ (sound_setSoft kept id (Memory.wf_writeN _ _ _) id)
  · exact kept

@[simp] theorem State.stepEnds_sound (ms : Nat) (kept : s.Sound C) :
    (s.stepEnds ms).Sound C := by simp [State.stepEnds, kept]

@[simp] theorem State.stepLoses_sound (kept : s.Sound C) : s.stepLoses.Sound C := by simp [State.stepLoses, kept]

end

/-! ### Bays (R46, R60-R63, R450-R456) -/

section
variable (s : State) {u code detail : Nat} {dimms : List Dimm} {b : BayNo} {bayvinMv bayvsMv current mv : BitVec 16}
    {w : WfNo} {t : ThrNo} {d : Reg}

@[simp] theorem State.describe_sound (width dimms ranks gib speed : Nat) :
    (s.describe u width dimms ranks gib speed).Sound C ↔ s.Sound C := by simp [State.describe]

@[simp] theorem State.applySpd_sound (inService : Bool) : (s.applySpd u dimms inService).Sound C ↔ s.Sound C := by
  unfold State.applySpd
  dsimp only
  split <;> simp

@[simp] theorem State.train_sound : (s.train u).Sound C ↔ s.Sound C := by simp [State.train]
@[simp] theorem State.gatesLow_sound (b : Nat) : (s.gatesLow b).Sound C ↔ s.Sound C := by simp [State.gatesLow]

@[simp] theorem State.bayFault_sound (b : Nat) :
    (s.bayFault b code detail).Sound C ↔ s.Sound C := by
  unfold State.bayFault
  dsimp only
  split <;> simp [↓ sound_withOther]

@[simp] theorem State.startBay_sound (b : Nat) (insertion : Bool) :
    (s.startBay b insertion).Sound C ↔ s.Sound C := by
  unfold State.startBay
  dsimp only
  (repeat' split) <;> simp

@[simp] theorem State.bayUnitsGone_sound (s : State) (b : Nat) (kept : s.Sound C) :
    (s.bayUnitsGone b).1.Sound C := by
  unfold State.bayUnitsGone
  split
  · exact kept
  · extract_lets pool r mask s1 s2 aon s3
    have gone : r.1.Sound C := foldl_fst_kept (fun b u kept => by simp [kept]) kept
    clear_value r
    have cleared : s3.Sound C := by simp [s3, s2, s1, gone]
    simp [cleared]

@[simp] theorem State.forceOff_sound (b st : Nat) (byPresence : Bool) (kept : s.Sound C) :
    (s.forceOff b st byPresence).Sound C := by
  unfold State.forceOff
  dsimp only
  split <;> simp [kept]

@[simp] theorem State.tripBay_sound (b cause : Nat) (kept : s.Sound C) :
    (s.tripBay b cause code detail).Sound C := by simp [State.tripBay, kept]

@[simp] theorem execBayPresenceValid_sound (kept : s.Sound C) :
    Keeps C (execBayPresenceValid b s) := by simp [execBayPresenceValid, kept]

@[simp] theorem execBayPresenceLost_sound (kept : s.Sound C) :
    Keeps C (execBayPresenceLost b s) := by simp [execBayPresenceLost, kept]

@[simp] theorem execDebounceExpiry_sound (kept : s.Sound C) :
    Keeps C (execDebounceExpiry b s) := by simp [execDebounceExpiry, kept]

@[simp] theorem execHoldoffExpiry_sound (kept : s.Sound C) : Keeps C (execHoldoffExpiry b bayvinMv s) := by
  unfold execHoldoffExpiry
  dsimp only
  (repeat' split) <;> simp [kept]

@[simp] theorem execBayTurn_sound (kept : s.Sound C) :
    Keeps C (execBayTurn b bayvinMv s) := by simp [execBayTurn, kept]

@[simp] theorem execPrechargeComplete_sound (kept : s.Sound C) :
    Keeps C (execPrechargeComplete b bayvsMv s) := by simp [execPrechargeComplete, kept]

@[simp] theorem execPrechargeTimeout_sound (kept : s.Sound C) :
    Keeps C (execPrechargeTimeout b bayvsMv s) := by simp [execPrechargeTimeout, kept]

@[simp] theorem execRampTimeout_sound (kept : s.Sound C) :
    Keeps C (execRampTimeout b bayvsMv s) := by simp [execRampTimeout, kept]

@[simp] theorem State.insertionDone_sound (b : Nat) :
    (s.insertionDone b).Sound C ↔ s.Sound C := by simp [State.insertionDone]

@[simp] theorem execGateFullyOn_sound (kept : s.Sound C) :
    Keeps C (execGateFullyOn b bayvsMv dimms s) := by simp [execGateFullyOn, kept]

@[simp] theorem State.current_sound (b : Nat) (c : BitVec 16) :
    (s.current b c).Sound C ↔ s.Sound C := by simp [State.current]

@[simp] theorem execFastTrip_sound (kept : s.Sound C) :
    Keeps C (execFastTrip b current s) := by simp [execFastTrip, kept]

@[simp] theorem execSlowTrip_sound (kept : s.Sound C) :
    Keeps C (execSlowTrip b current s) := by simp [execSlowTrip, kept]

@[simp] theorem execVbaydrvLoss_sound (kept : s.Sound C) :
    Keeps C (execVbaydrvLoss mv s) := by simp +contextual [execVbaydrvLoss, kept]

@[simp] theorem execVbaydrvPassesAgain_sound (kept : s.Sound C) :
    Keeps C (execVbaydrvPassesAgain s) := by simp [execVbaydrvPassesAgain, kept]

@[simp] theorem execBayvinExcursion_sound (kept : s.Sound C) :
    Keeps C (execBayvinExcursion b mv s) := by simp [execBayvinExcursion, kept]

@[simp] theorem State.enableBay_sound (b : Nat) (on : Bool) : (s.enableBay b on).2.Sound C ↔ s.Sound C := by
  unfold State.enableBay
  dsimp only
  (repeat' split) <;> simp

@[simp] theorem execBayEnable_sound (kept : s.Sound C) :
    Keeps C (execBayEnable w t d b s) := by simp [execBayEnable, kept]

@[simp] theorem execBayDisable_sound (kept : s.Sound C) :
    Keeps C (execBayDisable w t d b s) := by simp [execBayDisable, kept]

@[simp] theorem execBayPowerDown_sound (kept : s.Sound C) :
    Keeps C (execBayPowerDown b s) := by simp [execBayPowerDown, kept]

end

/-! ### Power pins, power-on and the phase (R42-R78) -/

section
variable (s : State) {st : Straps} {u n : Nat} {fl : Flash}

@[simp] theorem State.resetReturns_sound : s.resetReturns.Sound C ↔ s.Sound C := by simp [State.resetReturns]

theorem reset_legal : State.reset.own.Legal := by
  simp [State.reset, Election.init, Election.Legal]

theorem reset_canonical :
    Canonical State.reset.regs State.reset.soft.scratch State.reset.soft.istore State.reset.soft.win.buf :=
  ⟨rfl, rfl, rfl, rfl⟩

/-- After reset every claim holds but that of a closed port: no election, no service access, and empty memories. -/
theorem reset_sound (open_ : ¬ C.closed) : State.reset.Sound C :=
  (State.sound_iff ..).mpr
    ⟨fun _ => reset_legal, fun _ => by decide, fun closed => absurd closed open_, fun _ => reset_canonical⟩

@[simp] theorem State.deviceReset_sound (kept : s.Sound C) :
    s.deviceReset.Sound C := by
  unfold State.deviceReset
  extract_lets r svc0 svc aon0 aon board0 board time s1 s2
  have anew : s1.Sound C := by
    obtain ⟨-, lock, closed, -⟩ := (s.sound_iff C).mp kept
    refine (State.sound_iff ..).mpr ⟨fun _ => ?_, fun hC => ?_, fun hC => ?_, fun _ => ?_⟩
    · exact reset_legal
    · simp only [s1, svc]
      split
      · rename_i shut
        simpa [shut] using lock hC
      · rename_i open_
        exact iff_of_false (fun three => open_ ((lock hC).mp three)) (by simp [svc0, r, State.reset, Service.init])
    · simp [s1, svc, closed hC]
    · exact reset_canonical
  clear_value s1
  simp [s2, anew]

@[simp] theorem State.draw_sound (n : Nat) (s : State) : (State.draw n s).2.Sound C ↔ s.Sound C := by
  induction n generalizing s with
  | zero => rfl
  | succ n ih => simp [State.draw, ih]

@[simp] theorem State.powerOn_sound : (s.powerOn st).Sound C ↔ s.Sound C := by
  unfold State.powerOn
  extract_lets c k h m s1 keys s2 board s3 detail s4 board'
  have drawn : s1.Sound C ↔ s.Sound C := by simp [s1, m, h, k, c]
  clear_value s1
  have straps : s3.Sound C ↔ s.Sound C := by simp [s3, s2, drawn]
  clear_value s3
  split <;> simp [s4, ↓ sound_withOther, straps]

@[simp] theorem execPwrgoodRise_sound (sysrstHigh : Bool) (kept : s.Sound C) :
    Keeps C (execPwrgoodRise sysrstHigh s) := by simp [execPwrgoodRise, kept]

@[simp] theorem execSysrstNTakenAsRising_sound (kept : s.Sound C) :
    Keeps C (execSysrstNTakenAsRising st s) := by simp [execSysrstNTakenAsRising, kept]

@[simp] theorem execSysrstNRise_sound (kept : s.Sound C) :
    Keeps C (execSysrstNRise st s) := by simp [execSysrstNRise, kept]

@[simp] theorem execSysrstNFall_sound (kept : s.Sound C) : Keeps C (execSysrstNFall s) := by
  unfold execSysrstNFall
  repeat' split <;> simp [kept]

@[simp] theorem execPwrgoodFall_sound (open_ : ¬ C.closed) :
    Keeps C (execPwrgoodFall s) := by
  simp [execPwrgoodFall, reset_sound open_]

@[simp] theorem execSpdReadsComplete_sound (dimms : List Dimm) (kept : s.Sound C) :
    Keeps C (execSpdReadsComplete dimms s) := by simp [execSpdReadsComplete, kept]

@[simp] theorem execRootPllLock_sound (kept : s.Sound C) :
    Keeps C (execRootPllLock s) := by simp [execRootPllLock, kept]

@[simp] theorem execPllLockTimeout_sound (kept : s.Sound C) :
    Keeps C (execPllLockTimeout s) := by simp [execPllLockTimeout, kept]

@[simp] theorem State.joinPool_sound (kept : s.Sound C) : (s.joinPool u).Sound C := by simp [State.joinPool, kept]

@[simp] theorem State.sramFails_sound (kept : s.Sound C) :
    (s.sramFails u).Sound C := by simp [State.sramFails, kept]

@[simp] theorem execSelfTestComplete_sound (u : UnitNo) (res : TestResult) (kept : s.Sound C) :
    Keeps C (execSelfTestComplete u res s) := by
  unfold execSelfTestComplete
  repeat' split <;> simp [kept]

@[simp] theorem State.loadLedger_sound (l : LedgerRec) :
    (s.loadLedger l).Sound C ↔ s.Sound C := by simp [State.loadLedger]

@[simp] theorem State.bayAtStep6_sound (b : Nat) (kept : s.Sound C) :
    (s.bayAtStep6 b).Sound C := by simp [State.bayAtStep6, kept]

@[simp] theorem State.bootFields_sound (r : List (BitVec 8)) :
    (s.bootFields r).Sound C ↔ s.Sound C := by simp [State.bootFields]

@[simp] theorem State.startTraining_sound : s.startTraining.Sound C ↔ s.Sound C := by simp [State.startTraining]

@[simp] theorem State.groupAtStep6_sound (clock : Bool) :
    (s.groupAtStep6 n clock).Sound C ↔ s.Sound C := by simp [State.groupAtStep6]

@[simp] theorem State.applyBoot_sound (kept : s.Sound C) :
    (s.applyBoot fl n).Sound C := by
  unfold State.applyBoot
  extract_lets board s1 s2 s3 s4 s5 s6
  have fields : s2.Sound C := by simp [s2, s1, kept]
  have bays : s3.Sound C := foldl_kept (fun v b kept => by simp [kept]) fields
  have units : s5.Sound C := by simp [s5, s4, bays]
  clear_value s5
  split
  · simp [units]
  · simp [s6, units]

@[simp] theorem State.bootWaits_sound (cause detail : Nat) :
    (s.bootWaits cause detail).Sound C ↔ s.Sound C := by simp [State.bootWaits]

@[simp] theorem execBootImageVerify_sound (f0 f1 : Option Flash) (ledger : Option LedgerRec) (refclk : BitVec 16)
    (kept : s.Sound C) :
    Keeps C (execBootImageVerify f0 f1 ledger refclk s) := by
  unfold execBootImageVerify
  repeat' split <;> simp [kept]

@[simp] theorem State.recoveryImage_sound (kept : s.Sound C) : (s.recoveryImage fl).2.Sound C := by
  unfold State.recoveryImage
  repeat' split <;> simp [kept]

@[simp] theorem execRecoveryImageSubmit_sound (c : Cand) (image : Flash) (kept : s.Sound C) :
    Keeps C (execRecoveryImageSubmit c image s) := by simp [execRecoveryImageSubmit, kept]

@[simp] theorem execFillComplete_sound (u : UnitNo) (failedAt : Option (BitVec 64)) (ms : BitVec 32) (kept : s.Sound C) :
    Keeps C (execFillComplete u failedAt ms s) := by
  unfold execFillComplete
  repeat' split <;> simp [kept]

@[simp] theorem execBaseProgramReady_sound (ms : BitVec 32) (s : State) (kept : s.Sound C) :
    Keeps C (execBaseProgramReady ms s) := by
  unfold execBaseProgramReady
  rw [keeps_next]
  split
  · extract_lets s1 s2 board
    have placed : s2.Sound C := by simp [s2, s1, kept]
    clear_value s2
    obtain ⟨election, rest⟩ := (s2.sound_iff C).mp placed
    exact (State.sound_iff ..).mpr ⟨fun hC => (election hC).opens, rest⟩
  · exact kept

@[simp] theorem execBaseProgramTimeout_sound (code : BitVec 8) (kept : s.Sound C) :
    Keeps C (execBaseProgramTimeout code s) := by simp [execBaseProgramTimeout, kept]

@[simp] theorem State.phaseStore_sound (v : Nat) : (s.phaseStore v).2.Sound C ↔ s.Sound C := by
  unfold State.phaseStore
  dsimp only
  (repeat' split) <;> simp

@[simp] theorem execPhaseStore_sound (w : WfNo) (t : ThrNo) (d : Reg) (v : BitVec 2) (kept : s.Sound C) :
    Keeps C (execPhaseStore w t d v s) := by simp [execPhaseStore, kept]

end

/-! ### Mileposts (R141, R467-R484) -/

section
variable (s : State) {g : Nat} {mask : BitVec 17} {w : WfNo} {t : ThrNo} {d a : Reg}

@[simp] theorem State.capture_sound : (s.capture g).Sound C ↔ s.Sound C := by simp [State.capture]

@[simp] theorem State.snapAsk_sound : (s.snapAsk g).1.Sound C ↔ s.Sound C := by
  unfold State.snapAsk
  split <;> simp

@[simp] theorem State.snapReq_sound : (s.snapReq mask).Sound C ↔ s.Sound C := by simp [State.snapReq]

@[simp] theorem execSnapReq_sound (c : Cand) (kept : s.Sound C) :
    Keeps C (execSnapReq c mask s) := by simp [execSnapReq, kept]

@[simp] theorem execSnapshotComplete_sound (g : Fin 17) (kept : s.Sound C) :
    Keeps C (execSnapshotComplete g s) := by
  unfold execSnapshotComplete
  split <;> simp [kept]

@[simp] theorem execCounterWrap_sound (n : Fin 544) (occ : Occurrence) (kept : s.Sound C) :
    Keeps C (execCounterWrap n occ s) := by simp [execCounterWrap, kept]

@[simp] theorem State.clearAll_sound : s.clearAll.Sound C ↔ s.Sound C := by simp [State.clearAll]

@[simp] theorem execClearAll_sound (kept : s.Sound C) :
    Keeps C (execClearAll w t d s) := by simp [execClearAll, kept]

@[simp] theorem execMprd_sound (kept : s.Sound C) : Keeps C (execMprd w t d a s) := by
  unfold execMprd
  rw [keeps_next]
  refine ramer_sound (fun v kept => ?_) kept
  (repeat' split) <;> simp [kept]

@[simp] theorem execMpsnap_sound (kept : s.Sound C) : Keeps C (execMpsnap w t d a s) := by simp +contextual [execMpsnap, kept]

end

end Sys2Proof.Machine
end


section
/-! PROOFS. What every step keeps: the placement policy, command rings, streams, RUN and SNAP, and the loader. -/
namespace Sys2Proof.Machine

/-! ### The placement policy (R251, R261-R264) -/

section
variable (s : State) {p : Nat} {w : WfNo} {t : ThrNo} {d a : Reg}

@[simp] theorem State.dropHot_sound : (s.dropHot p).Sound C ↔ s.Sound C := by simp [State.dropHot]

@[simp] theorem State.policyJob_sound (kind : JobKind) (arg : Nat) (kept : s.Sound C) :
    (s.policyJob kind p arg).Sound C := by simp [State.policyJob, kept]

@[simp] theorem State.drainHeat_sound (n : Nat) (s : State) (kept : s.Sound C) : (State.drainHeat n s).Sound C := by
  induction n generalizing s with
  | zero => exact kept
  | succ n ih =>
    unfold State.drainHeat
    split
    · simp [ih, kept]
    · exact kept

@[simp] theorem State.noteTouched_sound : s.noteTouched.Sound C ↔ s.Sound C := by simp [State.noteTouched]

@[simp] theorem State.placePages_sound (s : State) (kept : s.Sound C) : (s.placePages).Sound C := by
  unfold State.placePages
  refine foldl_kept (fun v q kept => ?_) kept
  dsimp only
  (repeat' split) <;> simp [kept]

@[simp] theorem State.coolPages_sound (kept : s.Sound C) : s.coolPages.Sound C := by
  unfold State.coolPages
  extract_lets low ps s1 level age stow first
  have near : s1.Sound C := by simp +contextual [s1, kept]
  clear_value s1
  refine foldl_kept (fun v p kept => ?_) near
  simp only [stow]
  split <;> simp [kept]

@[simp] theorem State.hintJob_sound (c : RingCmd) (kept : s.Sound C) :
    (s.hintJob c).Sound C := by simp [State.hintJob, kept]

@[simp] theorem State.takeHints_sound (kept : s.Sound C) : s.takeHints.Sound C := by simp +contextual [State.takeHints, kept]

@[simp] theorem State.runPolicy_sound (kept : s.Sound C) : s.runPolicy.Sound C := by
  unfold State.runPolicy
  split
  · have hints : ((s.drainHeat s.plc.hot.length).takeHints).Sound C := by simp [kept]
    simp [hints]
  · exact kept

theorem checkin_soft (s : State) : s.checkin.soft = s.soft := by
  unfold State.checkin
  dsimp only
  split <;> simp

@[simp] theorem State.baseCheckin_sound : s.baseCheckin.Sound C ↔ s.Sound C := by
  unfold State.baseCheckin
  dsimp only
  split
  · split
    · rw [sound_with] <;> simp [checkin_soft]
    · simp
  · rfl

@[simp] theorem execTick_sound (kept : s.Sound C) : Keeps C (execTick s) := by simp [execTick, kept]

@[simp] theorem execHeat_sound (kept : s.Sound C) : Keeps C (execHeat w t d s) := by
  unfold execHeat
  rw [keeps_next]
  refine ramer_sound (fun v kept => ?_) kept
  (repeat' split) <;> simp [kept]

@[simp] theorem execRget_sound (kept : s.Sound C) : Keeps C (execRget w t d a s) := by
  unfold execRget
  rw [keeps_next]
  refine ramer_sound (fun v kept => ?_) kept
  split
  · simp
  · split
    · simp
    · split
      · simp [kept]
      · extract_lets soft v1
        have taken : v1.Sound C := by simp [v1, soft, kept]
        clear_value v1
        simp [taken]

@[simp] theorem execRput_sound (b : Reg) (kept : s.Sound C) : Keeps C (execRput w t d a b s) := by
  unfold execRput
  rw [keeps_next]
  refine ramer_sound (fun v kept => ?_) kept
  (repeat' split) <;> simp [kept]

end

/-! ### Command rings (R87-R96, R260) -/

section
variable (s : State) {ld : LdNo} {addr : Nat} {resp : HostResp} {r : RingNo} {v i : BitVec 16} {c : RingCmd}

@[simp] theorem State.hostPost_sound (ld : Nat) (bytes : List (BitVec 8)) :
    (s.hostPost ld addr bytes).Sound C ↔ s.Sound C := by simp [State.hostPost]

@[simp] theorem State.hostAsk_sound (ld ring : Nat) (idx : Option Nat) (n : Nat) :
    (s.hostAsk ld ring idx addr n resp).Sound C ↔ s.Sound C := by simp [State.hostAsk]

@[simp] theorem State.fetchStops_sound (ld r : Nat) :
    (s.fetchStops ld r).Sound C ↔ s.Sound C := by
  unfold State.fetchStops
  dsimp only
  simp [↓ sound_withSoft]

@[simp] theorem State.ringError_sound (ld r cause : Nat) :
    (s.ringError ld r cause).Sound C ↔ s.Sound C := by simp [State.ringError]

@[simp] theorem State.ringStart_sound (ld r : Nat) :
    (s.ringStart ld r).Sound C ↔ s.Sound C := by simp [State.ringStart]

@[simp] theorem execRingEnable_sound (kept : s.Sound C) :
    Keeps C (execRingEnable ld r s) := by simp [execRingEnable, kept]

@[simp] theorem State.ringStop_sound (ld r : Nat) :
    (s.ringStop ld r).Sound C ↔ s.Sound C := by simp [State.ringStop]

@[simp] theorem execRingDisable_sound (kept : s.Sound C) :
    Keeps C (execRingDisable ld r s) := by simp [execRingDisable, kept]

@[simp] theorem State.tailWrite_sound (ld r : Nat) :
    (s.tailWrite ld r v).Sound C ↔ s.Sound C := by simp [State.tailWrite]

@[simp] theorem execCmdTailWrite_sound (kept : s.Sound C) :
    Keeps C (execCmdTailWrite ld r v s) := by simp [execCmdTailWrite, kept]

@[simp] theorem State.headWrite_sound (ld r : Nat) :
    (s.headWrite ld r v).Sound C ↔ s.Sound C := by simp [State.headWrite]

@[simp] theorem execCplHeadWrite_sound (kept : s.Sound C) :
    Keeps C (execCplHeadWrite ld r v s) := by simp [execCplHeadWrite, kept]

@[simp] theorem State.fetched_sound (ld r : Nat) (desc : List (BitVec 8)) :
    (s.fetched ld r desc).Sound C ↔ s.Sound C := by
  unfold State.fetched
  dsimp only
  simp [↓ sound_withSoft]

@[simp] theorem State.fetchAnswer_sound (ld r : Nat) : (s.fetchAnswer ld r resp).Sound C ↔ s.Sound C := by
  unfold State.fetchAnswer
  split <;> simp

@[simp] theorem execCommandFetch_sound (kept : s.Sound C) :
    Keeps C (execCommandFetch ld r resp s) := by simp [execCommandFetch, kept]

@[simp] theorem State.setCmd_sound : (s.setCmd c).Sound C ↔ s.Sound C := by simp [State.setCmd]

@[simp] theorem State.releaseFence_sound (ld r : Nat) : (s.releaseFence ld r).Sound C ↔ s.Sound C := by
  unfold State.releaseFence
  split <;> simp

@[simp] theorem State.complete_sound (status : BitVec 8) (result : BitVec 64) (ok : Bool) (kept : s.Sound C) :
    (s.complete c status result ok).Sound C := by simp [State.complete, kept]

@[simp] theorem execCommandComplete_sound (hostOk : Bool) (kept : s.Sound C) :
    Keeps C (execCommandComplete ld r i hostOk s) := by
  unfold execCommandComplete
  (repeat' split) <;> simp [kept]

@[simp] theorem State.fail_sound (status : Nat) : (s.fail c status).Sound C ↔ s.Sound C := by simp [State.fail]
@[simp] theorem State.work_sound (j : Job) (kept : s.Sound C) : (s.work c j).Sound C := by simp [State.work, kept]

@[simp] theorem State.takeUp_sound {s : State} {ld r i op : Nat} {f : RingCmd → State}
    (h : ∀ c, (f c).Sound C) (kept : s.Sound C) : (s.takeUp ld r i op f).Sound C := by
  unfold State.takeUp
  split <;> simp [h, kept]

@[simp] theorem execCopy_sound (kept : s.Sound C) : Keeps C (execCopy ld r i s) := by
  unfold execCopy
  rw [keeps_next]
  refine State.takeUp_sound (fun c => ?_) kept
  (repeat' split) <;> simp [kept]

@[simp] theorem execZero_sound (kept : s.Sound C) : Keeps C (execZero ld r i s) := by
  unfold execZero
  rw [keeps_next]
  refine State.takeUp_sound (fun c => ?_) kept
  (repeat' split) <;> simp [kept]

@[simp] theorem execRekey_sound (kept : s.Sound C) : Keeps C (execRekey ld r i s) := by simp [execRekey, kept]
@[simp] theorem execStow_sound (kept : s.Sound C) : Keeps C (execStow ld r i s) := by simp [execStow, kept]
@[simp] theorem execUnstow_sound (kept : s.Sound C) : Keeps C (execUnstow ld r i s) := by simp [execUnstow, kept]
@[simp] theorem execPin_sound (kept : s.Sound C) : Keeps C (execPin ld r i s) := by simp [execPin, kept]
@[simp] theorem execUnpin_sound (kept : s.Sound C) : Keeps C (execUnpin ld r i s) := by simp [execUnpin, kept]
@[simp] theorem execHint_sound (kept : s.Sound C) : Keeps C (execHint ld r i s) := by simp [execHint, kept]

end

/-! ### Streams (R301-R306, R310) -/

section
variable (s : State) {c : RingCmd} {status : Nat} {broke hostOk : Bool} {ld : LdNo} {r : RingNo} {i : BitVec 16}
    {resp : HostResp}

@[simp] theorem execContextRelease_sound (w : WfNo) (t : ThrNo) (d : Reg) (c : BitVec 12) (kept : s.Sound C) :
    Keeps C (execContextRelease w t d c s) := by simp [execContextRelease, kept]

@[simp] theorem State.streamEnds_sound (result : Nat) (free : Bool) (kept : s.Sound C) :
    (s.streamEnds c status result free broke).Sound C := by simp [State.streamEnds, kept]

@[simp] theorem State.exportOut_sound (bytes : List (BitVec 8)) :
    (s.exportOut c bytes).Sound C ↔ s.Sound C := by simp [State.exportOut]

@[simp] theorem State.exportEnd_sound (kept : s.Sound C) :
    (s.exportEnd c hostOk).Sound C := by simp [State.exportEnd, kept]

@[simp] theorem State.exportPage_sound (kept : s.Sound C) : (s.exportPage c hostOk).state.Sound C := by
  unfold State.exportPage
  dsimp only
  (repeat' split) <;> simp [kept]

@[simp] theorem State.exportRun_sound (ld r i : Nat) (hostOk : Bool) (n : Nat) (s : State) (kept : s.Sound C) :
    (State.exportRun ld r i hostOk n s).Sound C := by
  induction n generalizing s with
  | zero => exact kept
  | succ n ih =>
    unfold State.exportRun
    split
    · exact kept
    · rename_i c _
      have page : (s.exportPage c hostOk).state.Sound C := by simp [kept]
      split
      · simp [kept]
      · split <;> rename_i h <;> simp [h] at page <;> simp [ih, page]

@[simp] theorem execExportStream_sound (kept : s.Sound C) : Keeps C (execExportStream ld r i hostOk s) := by
  unfold execExportStream
  (repeat' split) <;> simp [kept]

@[simp] theorem State.importPage_sound (kept : s.Sound C) : (s.importPage c).state.Sound C := by
  unfold State.importPage
  dsimp only
  (repeat' split) <;> simp [kept]

@[simp] theorem State.importStops_sound (kept : s.Sound C) :
    (s.importStops c status broke).Sound C := by simp [State.importStops, kept]

@[simp] theorem State.importRun_sound (ld r i n : Nat) (s : State) (kept : s.Sound C) :
    (State.importRun ld r i n s).Sound C := by
  induction n generalizing s with
  | zero => exact kept
  | succ n ih =>
    unfold State.importRun
    split
    · exact kept
    · rename_i c _
      dsimp only
      split
      · simp [kept]
      · simp [kept]
      · generalize hv : s.setCtx c.ctxNo _ = v
        have inflated : v.Sound C := by simp [← hv, kept]
        have page : (v.importPage c).state.Sound C := by simp [inflated]
        split <;> rename_i h <;> rw [h] at page <;> simp at page <;> simp [ih, page]

@[simp] theorem State.importData_sound (s : State) (c : RingCmd) (resp : HostResp) (kept : s.Sound C) :
    (s.importData c resp).Sound C := by
  unfold State.importData
  split <;> simp [kept]

@[simp] theorem State.readHost_sound {s : State} {c : RingCmd} {n : Nat} {resp : HostResp}
    {f : State → HostResp → State}
    (h : ∀ v x, v.Sound C → (f v x).Sound C) (kept : s.Sound C) : (s.readHost c n resp f).Sound C := by
  simp [State.readHost, h, kept]

@[simp] theorem execImportStream_sound (kept : s.Sound C) : Keeps C (execImportStream ld r i resp s) := by
  unfold execImportStream
  rw [keeps_next]
  split
  · exact kept
  · split
    · exact kept
    · split
      · split
        · simp [kept]
        · split
          · simp [kept]
          · split
            · simp [kept]
            · split
              · simp [kept]
              · split
                · exact kept
                · exact State.readHost_sound (fun v x kept => by simp [kept]) (by simp [kept])
      · simp [kept]
      · exact kept

@[simp] theorem State.takeCtxOp_sound {s : State} {ld r i op : Nat} {f : RingCmd → State}
    (h : ∀ c, (f c).Sound C) (kept : s.Sound C) : (s.takeCtxOp ld r i op f).Sound C := by
  unfold State.takeCtxOp
  split <;> simp [h, kept]

@[simp] theorem execSave_sound (kept : s.Sound C) : Keeps C (execSave ld r i hostOk s) := by simp [execSave, kept]

@[simp] theorem State.restoreData_sound : (s.restoreData c resp).Sound C ↔ s.Sound C := by
  unfold State.restoreData
  repeat' split <;> simp

@[simp] theorem execRestore_sound (kept : s.Sound C) :
    Keeps C (execRestore ld r i resp s) := by simp [execRestore, kept]

end

/-! ### RUN, SNAP, and the answers of hosts (R157, R475) -/

section
variable (s : State) {c : RingCmd} {resp : HostResp} {ld : LdNo} {r : RingNo} {i : BitVec 16} {hostOk : Bool}

@[simp] theorem State.runStart_sound (p : Program) (w t : Nat) (kept : s.Sound C) :
    (s.runStart c p w t).Sound C := by
  unfold State.runStart
  split
  · exact kept
  · rename_i base _
    extract_lets soft s1
    have emptied : s1.Sound C := sound_setSoft kept (wf_filter _ _ _) id id
    clear_value s1
    have loaded : ((s1.wakeUnit (uid 8 w)).setScr w base c.data).Sound C := by simp [emptied]
    simp [loaded]

@[simp] theorem State.dispatchRun_sound (kept : s.Sound C) : s.dispatchRun.Sound C := by
  unfold State.dispatchRun
  split <;> simp [kept]

@[simp] theorem execRunDispatch_sound (kept : s.Sound C) :
    Keeps C (execRunDispatch s) := by simp [execRunDispatch, kept]

@[simp] theorem State.runData_sound (kept : s.Sound C) : (s.runData c resp).Sound C := by
  unfold State.runData
  split <;> simp [kept]

@[simp] theorem execRun_sound (kept : s.Sound C) : Keeps C (execRun ld r i resp s) := by
  unfold execRun
  rw [keeps_next]
  refine State.takeUp_sound (fun c => ?_) kept
  split
  · simp [kept]
  · split
    · simp [kept]
    · split
      · simp [kept]
      · split
        · simp [kept]
        · split
          · simp [kept]
          · split
            · simp [kept]
            · split
              · exact kept
              · exact State.readHost_sound (fun v x kept => by simp [kept]) kept

@[simp] theorem State.snapWrite_sound : (s.snapWrite c hostOk).Sound C ↔ s.Sound C := by simp [State.snapWrite]

@[simp] theorem execSnap_sound (kept : s.Sound C) : Keeps C (execSnap ld r i hostOk s) := by
  unfold execSnap
  (repeat' split) <;> simp [kept]

@[simp] theorem State.hostData_sound (kept : s.Sound C) :
    (s.hostData c resp).Sound C := by simp [State.hostData, kept]

@[simp] theorem execCxlIoCompletion_sound (h : HeadNo) (tag : BitVec 16) (kept : s.Sound C) :
    Keeps C (execCxlIoCompletion h tag resp s) := by
  unfold execCxlIoCompletion
  dsimp only
  (repeat' split) <;> simp [kept]

end

/-! ### The loader (R150-R164) -/

section
variable (s : State) {snd : Sender} {status n w t : Nat} {mask : BitVec 16} {prog thr : BitVec 8}
    {args : List (BitVec 8)}

@[simp] theorem State.reply_sound (program : Nat) (extra : List (BitVec 8)) :
    (s.reply snd status program extra).Sound C ↔ s.Sound C := by simp [State.reply]

@[simp] theorem State.replyNone_sound : (s.replyNone snd status).Sound C ↔ s.Sound C := by simp [State.replyNone]

@[simp] theorem State.loaderOp_sound {s : State} {snd : Sender} {held : State → Bool} {f : State → State}
    (h : ∀ v, v.Sound C → (f v).Sound C) (kept : s.Sound C) : (s.loaderOp snd held f).Sound C := by
  unfold State.loaderOp
  split
  · exact kept
  · split
    · exact kept
    · refine h _ ?_
      split <;> simp [kept]

@[simp] theorem State.place_sound (img : List (BitVec 8)) (kept : s.Sound C) :
    (s.place mask img).Sound C := by
  unfold State.place
  extract_lets p s1
  clear_value p
  refine foldl_kept (fun v w kept => ?_) (by simp [s1, kept])
  split
  · exact sound_setSoft kept id (Memory.wf_writeN _ _ _) id
  · exact kept

@[simp] theorem execLoad_sound (image : List (BitVec 8)) (kept : s.Sound C) :
    Keeps C (execLoad snd mask image s) := by simp +contextual [execLoad, kept]

@[simp] theorem State.removeProgram_sound (kept : s.Sound C) : (s.removeProgram n).Sound C := by
  unfold State.removeProgram
  split
  · exact kept
  · refine foldl_kept (fun v w kept => ?_) (by simp [kept])
    split <;> simp [kept]

@[simp] theorem execUnload_sound (kept : s.Sound C) : Keeps C (execUnload snd prog s) := by simp +contextual [execUnload, kept]

@[simp] theorem State.startOwner_sound (kept : s.Sound C) : (s.startOwner w t n args).Sound C := by
  unfold State.startOwner
  split <;> simp [kept]

@[simp] theorem execStart_sound (kept : s.Sound C) :
    Keeps C (execStart snd mask thr prog args s) := by simp +contextual [execStart, kept]

@[simp] theorem State.stopThread_sound : (s.stopThread w t).Sound C ↔ s.Sound C := by
  unfold State.stopThread
  dsimp only
  split <;> simp

@[simp] theorem execStop_sound (kept : s.Sound C) : Keeps C (execStop snd mask thr s) := by simp [execStop, kept]

@[simp] theorem execQuery_sound (kept : s.Sound C) : Keeps C (execQuery snd mask prog s) := by
  unfold execQuery
  split <;> simp [kept]

@[simp] theorem execRestart_sound (kept : s.Sound C) : Keeps C (execRestart snd mask s) := by
  unfold execRestart
  split <;> simp +contextual [kept]

@[simp] theorem State.winClear_sound (kept : s.Sound C) : s.winClear.Sound C := by
  unfold State.winClear
  split
  · exact kept
  · exact sound_setSoft kept id id fun _ => rfl

@[simp] theorem execWinClear_sound (kept : s.Sound C) : Keeps C (execWinClear s) := by simp [execWinClear, kept]
@[simp] theorem State.winGo_sound (kept : s.Sound C) : s.winGo.Sound C := by simp [State.winGo, kept]

@[simp] theorem execWayfinderRestartComplete_sound (w : WfNo) (kept : s.Sound C) :
    Keeps C (execWayfinderRestartComplete w s) := by simp [execWayfinderRestartComplete, kept]

end

end Sys2Proof.Machine
end


section
/-! PROOFS. What every step keeps: key slots, the data-path instructions, table stores, the Ramer instructions, registers, and
every command; and the statements. -/
namespace Sys2Proof.Machine

/-! ### Key slots and the events of sealing (R313-R338) -/

section
variable (s : State) {k mode : Nat} {material : BitVec 256} {dbg gen : Bool} {w : WfNo} {t : ThrNo} {d : Reg}
    {u : UnitNo} {frame : BitVec 28} {span : BitVec 4} {idx : BitVec 33}

@[simp] theorem State.installed_sound : (s.installed k material mode dbg gen).Sound C ↔ s.Sound C := by
  unfold State.installed
  split <;> simp

@[simp] theorem State.install_sound :
    (s.install k material mode dbg gen).2.Sound C ↔ s.Sound C := by simp [State.install]

@[simp] theorem execInstall_sound (k : BitVec 12) (mode : BitVec 2) (kept : s.Sound C) :
    Keeps C (execInstall w t d k material mode dbg gen s) := by simp [execInstall, kept]

@[simp] theorem State.clearKey_sound : (s.clearKey k).Sound C ↔ s.Sound C := by simp [State.clearKey]

@[simp] theorem execClear_sound (k : BitVec 12) (kept : s.Sound C) :
    Keeps C (execClear w t d k s) := by simp [execClear, kept]

@[simp] theorem execMergeWindowExpiry_sound (kept : s.Sound C) :
    Keeps C (execMergeWindowExpiry u frame span s) := by simp [execMergeWindowExpiry, kept]

@[simp] theorem execMergeEntrySeal_sound (dec : Decode) (kept : s.Sound C) :
    Keeps C (execMergeEntrySeal u frame span dec s) := by
  unfold execMergeEntrySeal
  split <;> simp [kept]

@[simp] theorem execReencryptionComplete_sound (p : BitVec 34) (kept : s.Sound C) :
    Keeps C (execReencryptionComplete p s) := by simp [execReencryptionComplete, kept]

@[simp] theorem execTreeNodeWriteback_sound (level : Fin 4) (kept : s.Sound C) :
    Keeps C (execTreeNodeWriteback level idx s) := by simp [execTreeNodeWriteback, kept]

@[simp] theorem execNodeRebaseComplete_sound (level : Fin 6) (kept : s.Sound C) :
    Keeps C (execNodeRebaseComplete level idx s) := by simp [execNodeRebaseComplete, kept]

end

/-! ### The data-path instructions (R134-R140) -/

section
variable (s : State) {w : WfNo} {t : ThrNo} {d a b : Reg} {p pg : Nat} {x : Page} {dec : Decode}

/-- The bytes an instruction puts in scratch, then its result. -/
@[simp] theorem setScr_setG_sound {w t r p : Nat} {bs : List (BitVec 8)} {v : BitVec 64} (kept : s.Sound C) :
    ((s.setScr w p bs).setG w t r v).Sound C := State.setG_sound _ _ (State.setScr_sound _ _ _ kept)

@[simp] theorem moveBody_sound (kind : Nat) (i : Instr) (kept : s.Sound C) :
    (moveBody kind w t i d a s).Sound C := by
  unfold moveBody
  refine ramer_sound (fun v kept => ?_) kept
  dsimp only
  (repeat' split) <;> simp [kept]

@[simp] theorem execMoveTier_sound (kept : s.Sound C) :
    Keeps C (execMoveTier w t d a s) := by simp [execMoveTier, kept]

@[simp] theorem execMoveCopy_sound (kept : s.Sound C) :
    Keeps C (execMoveCopy w t d a s) := by simp [execMoveCopy, kept]

@[simp] theorem execMoveZero_sound (kept : s.Sound C) :
    Keeps C (execMoveZero w t d a s) := by simp [execMoveZero, kept]

@[simp] theorem execMoveRekey_sound (kept : s.Sound C) :
    Keeps C (execMoveRekey w t d a s) := by simp [execMoveRekey, kept]

@[simp] theorem pageJob_sound (code : Nat) (kind : JobKind) (a arg : Nat) (force : Bool) (kept : s.Sound C) :
    (pageJob w t d code kind a arg force s).Sound C := by
  unfold pageJob
  dsimp only
  (repeat' split) <;> simp [kept]

@[simp] theorem execStowInstr_sound (kept : s.Sound C) :
    Keeps C (execStowInstr w t d a b s) := by simp +contextual [execStowInstr, kept]

@[simp] theorem execUnstowInstr_sound (kept : s.Sound C) :
    Keeps C (execUnstowInstr w t d a b s) := by simp +contextual [execUnstowInstr, kept]

@[simp] theorem execBinv_sound (kept : s.Sound C) : Keeps C (execBinv w t d a b s) := by
  unfold execBinv
  rw [keeps_next]
  refine ramer_sound (fun v kept => ?_) kept
  dsimp only
  (repeat' split) <;> simp [kept]

@[simp] theorem State.stallOn_sound (w t : Nat) : (s.stallOn w t p).Sound C ↔ s.Sound C := by simp [State.stallOn]
@[simp] theorem State.unstall_sound (w t : Nat) : (s.unstall w t).Sound C ↔ s.Sound C := by simp [State.unstall]
@[simp] theorem State.queueDecode_sound : (s.queueDecode p).Sound C ↔ s.Sound C := by simp [State.queueDecode]

@[simp] theorem readEnds_sound (w : WfNo) (t : ThrNo) (d : Reg) (p : Nat) (s : State) (lines : List (BitVec 512))
    (status : Nat) (kept : s.Sound C) : (readEnds w t d p s lines status).Sound C := by
  simp [readEnds, kept]

@[simp] theorem readStowedPage_sound (ls : List Nat) (kept : s.Sound C) :
    (readStowedPage w t d p pg ls s).Sound C := by
  unfold readStowedPage
  (repeat' split) <;> simp [kept]

@[simp] theorem execMread_sound (w : WfNo) (t : ThrNo) (n : Fin 7) (d a b : Reg) (s : State) (kept : s.Sound C) :
    Keeps C (execMread w t n d a b s) := by
  unfold execMread
  rw [keeps_next]
  refine ramer_sound (fun v kept => ?_) kept
  extract_lets size x key ended pg e ls none_ r
  split
  · trivial
  · split
    · trivial
    · (repeat' split) <;> simp [ended, r, kept]

@[simp] theorem writePromotes_sound (kept : s.Sound C) : (writePromotes w t d pg s).Sound C := by
  unfold writePromotes
  split <;> simp [kept]

@[simp] theorem execMwrite_sound (n : Fin 7) (kept : s.Sound C) : Keeps C (execMwrite w t n d a b s) := by
  unfold execMwrite
  rw [keeps_next]
  refine ramer_sound (fun v kept => ?_) kept
  dsimp only
  (repeat' split) <;> simp [kept]

@[simp] theorem State.dbgEnds_sound (result : BitVec 4) (data : BitVec 512) :
    (s.dbgEnds result x data).Sound C ↔ s.Sound C := by simp [State.dbgEnds]

@[simp] theorem State.dbgFrame_sound (line : Nat) (kept : s.Sound C) : (s.dbgFrame line x dec).Sound C := by
  unfold State.dbgFrame
  split <;> simp [kept]

@[simp] theorem execDebugReadComplete_sound (kept : s.Sound C) : Keeps C (execDebugReadComplete dec s) := by
  unfold execDebugReadComplete
  dsimp only
  (repeat' split) <;> simp [kept]

end

/-! ### Table stores admitted (R125-R128) -/

section
variable (s : State)

@[simp] theorem State.candidate_sound (tbl idx : Nat) (st : Staged) :
    (s.candidate tbl idx st).Sound C ↔ s.Sound C := by simp [State.candidate]

end

/-! ### Commit points (R126, R168, R169) -/

section
variable (s : State) {tbl idx by_ i : Nat} {st : Staged}

@[simp] theorem State.hold_sound (word : Nat) (mask old ones : BitVec 64) :
    (s.hold tbl idx word mask old ones by_).Sound C ↔ s.Sound C := by simp [State.hold]

@[simp] theorem State.storeLater_sound (keep : Nat → BitVec 64) :
    (s.storeLater tbl idx st by_ keep).Sound C ↔ s.Sound C := by simp [State.storeLater]

@[simp] theorem State.storePort_sound (h : Nat) :
    (s.storePort h st by_).Sound C ↔ s.Sound C := by simp [State.storePort]

@[simp] theorem State.storeWindow_sound (kept : s.Sound C) :
    (s.storeWindow i st by_).Sound C := by simp [State.storeWindow, kept]

@[simp] theorem State.storePlace_sound (kept : s.Sound C) :
    (s.storePlace i st).Sound C := by simp [State.storePlace, kept]

@[simp] theorem State.storeBay_sound (b : Nat) (kept : s.Sound C) :
    (s.storeBay b st).Sound C := by simp [State.storeBay, kept]

@[simp] theorem State.storeFault_sound : (s.storeFault i st).Sound C ↔ s.Sound C := by simp [State.storeFault]

@[simp] theorem State.storeMilepost_sound (n : Nat) :
    (s.storeMilepost n st).Sound C ↔ s.Sound C := by simp [State.storeMilepost]

@[simp] theorem State.storeAccess_sound (ld : Nat) :
    (s.storeAccess ld st).Sound C ↔ s.Sound C := by simp [State.storeAccess]

@[simp] theorem State.storeOwner_sound : (s.storeOwner i st).Sound C ↔ s.Sound C := by simp [State.storeOwner]

@[simp] theorem State.store_sound (kept : s.Sound C) : (s.store tbl idx st by_).Sound C := by
  unfold State.store
  repeat' split <;> simp [kept]

@[simp] theorem State.commitWindow_sound (s : State) (i : Nat) (kept : s.Sound C) : (s.commitWindow i).Sound C := by
  have taken (v : State) (kept : v.Sound C) :
      ((v.takeBlocks (v.inf WINDOW.DEV_BASE i) (v.inf WINDOW.SIZE i)).getD v).Sound C := by
    cases h : v.takeBlocks (v.inf WINDOW.DEV_BASE i) (v.inf WINDOW.SIZE i) with
    | none => exact kept
    | some u => exact (State.takeBlocks_sound h).mpr kept
  unfold State.commitWindow
  dsimp only
  (repeat' split) <;> simp [taken, kept]

@[simp] theorem State.commitKeyslot_sound (k : Nat) :
    (s.commitKeyslot k).Sound C ↔ s.Sound C := by simp [State.commitKeyslot]

@[simp] theorem State.commitCapacity_sound (kept : s.Sound C) :
    (s.commitCapacity i).Sound C := by simp [State.commitCapacity, kept]

@[simp] theorem State.commitSnoop_sound (kept : s.Sound C) :
    (s.commitSnoop i).Sound C := by simp [State.commitSnoop, kept]

@[simp] theorem State.commit_sound (kept : s.Sound C) : (s.commit tbl idx).Sound C := by
  unfold State.commit
  split <;> simp [kept]

@[simp] theorem execTableCommit_sound (tbl : BitVec 8) (idx : BitVec 48) (kept : s.Sound C) :
    Keeps C (execTableCommit tbl idx s) := by simp [execTableCommit, kept]

end

/-! ### Integer, branch and jump instructions (R121, R122) -/

section
variable (s : State) {w : WfNo} {t : ThrNo} {i : Instr} {d a b : Reg} {f : BitVec 64 → BitVec 64 → BitVec 64}
    {imm : BitVec 16}

@[simp] theorem aluReg_sound (kept : s.Sound C) : (aluReg w t i d a b f s).Sound C := by simp +contextual [aluReg, kept]

@[simp] theorem aluImm_sound (imm : BitVec 64) (kept : s.Sound C) :
    (aluImm w t i d a imm f s).Sound C := by simp +contextual [aluImm, kept]

@[simp] theorem execAdd_sound (kept : s.Sound C) : Keeps C (execAdd w t d a b s) := by simp [execAdd, kept]
@[simp] theorem execSub_sound (kept : s.Sound C) : Keeps C (execSub w t d a b s) := by simp [execSub, kept]
@[simp] theorem execAnd_sound (kept : s.Sound C) : Keeps C (execAnd w t d a b s) := by simp [execAnd, kept]
@[simp] theorem execOr_sound (kept : s.Sound C) : Keeps C (execOr w t d a b s) := by simp [execOr, kept]
@[simp] theorem execXor_sound (kept : s.Sound C) : Keeps C (execXor w t d a b s) := by simp [execXor, kept]
@[simp] theorem execShl_sound (kept : s.Sound C) : Keeps C (execShl w t d a b s) := by simp [execShl, kept]
@[simp] theorem execShr_sound (kept : s.Sound C) : Keeps C (execShr w t d a b s) := by simp [execShr, kept]
@[simp] theorem execSar_sound (kept : s.Sound C) : Keeps C (execSar w t d a b s) := by simp [execSar, kept]
@[simp] theorem execMul_sound (kept : s.Sound C) : Keeps C (execMul w t d a b s) := by simp [execMul, kept]
@[simp] theorem execMulh_sound (kept : s.Sound C) : Keeps C (execMulh w t d a b s) := by simp [execMulh, kept]
@[simp] theorem execDivu_sound (kept : s.Sound C) : Keeps C (execDivu w t d a b s) := by simp [execDivu, kept]
@[simp] theorem execRemu_sound (kept : s.Sound C) : Keeps C (execRemu w t d a b s) := by simp [execRemu, kept]
@[simp] theorem execMin_sound (kept : s.Sound C) : Keeps C (execMin w t d a b s) := by simp [execMin, kept]
@[simp] theorem execMax_sound (kept : s.Sound C) : Keeps C (execMax w t d a b s) := by simp [execMax, kept]
@[simp] theorem execClz_sound (kept : s.Sound C) : Keeps C (execClz w t d a s) := by simp [execClz, kept]
@[simp] theorem execPopc_sound (kept : s.Sound C) : Keeps C (execPopc w t d a s) := by simp [execPopc, kept]
@[simp] theorem execSeq_sound (kept : s.Sound C) : Keeps C (execSeq w t d a b s) := by simp [execSeq, kept]
@[simp] theorem execSlt_sound (kept : s.Sound C) : Keeps C (execSlt w t d a b s) := by simp [execSlt, kept]
@[simp] theorem execSltu_sound (kept : s.Sound C) : Keeps C (execSltu w t d a b s) := by simp [execSltu, kept]
@[simp] theorem execAddi_sound (kept : s.Sound C) : Keeps C (execAddi w t d a imm s) := by simp [execAddi, kept]
@[simp] theorem execAndi_sound (kept : s.Sound C) : Keeps C (execAndi w t d a imm s) := by simp [execAndi, kept]
@[simp] theorem execOri_sound (kept : s.Sound C) : Keeps C (execOri w t d a imm s) := by simp [execOri, kept]
@[simp] theorem execXori_sound (kept : s.Sound C) : Keeps C (execXori w t d a imm s) := by simp [execXori, kept]
@[simp] theorem execShli_sound (kept : s.Sound C) : Keeps C (execShli w t d a imm s) := by simp [execShli, kept]
@[simp] theorem execShri_sound (kept : s.Sound C) : Keeps C (execShri w t d a imm s) := by simp [execShri, kept]
@[simp] theorem execSari_sound (kept : s.Sound C) : Keeps C (execSari w t d a imm s) := by simp [execSari, kept]
@[simp] theorem execMuli_sound (kept : s.Sound C) : Keeps C (execMuli w t d a imm s) := by simp [execMuli, kept]
@[simp] theorem execSlti_sound (kept : s.Sound C) : Keeps C (execSlti w t d a imm s) := by simp [execSlti, kept]
@[simp] theorem execSltiu_sound (kept : s.Sound C) : Keeps C (execSltiu w t d a imm s) := by simp [execSltiu, kept]
@[simp] theorem execSeqi_sound (kept : s.Sound C) : Keeps C (execSeqi w t d a imm s) := by simp [execSeqi, kept]
@[simp] theorem execLhi_sound (kept : s.Sound C) : Keeps C (execLhi w t d imm s) := by simp [execLhi, kept]

@[simp] theorem branch_sound (c : BitVec 64 → BitVec 64 → Bool) (kept : s.Sound C) :
    (branch w t i a b imm c s).Sound C := by simp [branch, kept]

@[simp] theorem execBeq_sound (kept : s.Sound C) : Keeps C (execBeq w t a b imm s) := by simp [execBeq, kept]
@[simp] theorem execBne_sound (kept : s.Sound C) : Keeps C (execBne w t a b imm s) := by simp [execBne, kept]
@[simp] theorem execBlt_sound (kept : s.Sound C) : Keeps C (execBlt w t a b imm s) := by simp [execBlt, kept]
@[simp] theorem execBge_sound (kept : s.Sound C) : Keeps C (execBge w t a b imm s) := by simp [execBge, kept]
@[simp] theorem execBltu_sound (kept : s.Sound C) : Keeps C (execBltu w t a b imm s) := by simp [execBltu, kept]
@[simp] theorem execBgeu_sound (kept : s.Sound C) : Keeps C (execBgeu w t a b imm s) := by simp [execBgeu, kept]

@[simp] theorem execJ_sound (imm : BitVec 26) (kept : s.Sound C) :
    Keeps C (execJ w t imm s) := by simp [execJ, kept]

@[simp] theorem execJal_sound (imm : BitVec 26) (kept : s.Sound C) :
    Keeps C (execJal w t imm s) := by simp +contextual [execJal, kept]

@[simp] theorem execJr_sound (kept : s.Sound C) : Keeps C (execJr w t d a s) := by simp +contextual [execJr, kept]

@[simp] theorem execIllegalInstruction_sound (t : BadFetch) (kept : s.Sound C) :
    Keeps C (execIllegalInstruction w t s) := by simp +contextual [execIllegalInstruction, kept]

@[simp] theorem execTrap_sound (kept : s.Sound C) : Keeps C (execTrap w t imm s) := by simp [execTrap, kept]

end

/-! ### Scratch loads and stores (R124) -/

section
variable (s : State) {w : WfNo} {t : ThrNo} {i : Instr} {d a : Reg} {imm : BitVec 16} {n : Nat}

@[simp] theorem loadScr_sound (ext : Nat → BitVec 64) (kept : s.Sound C) :
    (loadScr w t i d a imm n ext s).Sound C := by
  unfold loadScr
  refine ramer_sound (fun v kept => ?_) kept
  (repeat' split) <;> simp [kept]

@[simp] theorem storeScr_sound (kept : s.Sound C) : (storeScr w t i d a imm n s).Sound C := by
  unfold storeScr
  refine ramer_sound (fun v kept => ?_) kept
  (repeat' split) <;> simp [kept]

@[simp] theorem execLdb_sound (kept : s.Sound C) : Keeps C (execLdb w t d a imm s) := by simp [execLdb, kept]
@[simp] theorem execLdbu_sound (kept : s.Sound C) : Keeps C (execLdbu w t d a imm s) := by simp [execLdbu, kept]
@[simp] theorem execLdh_sound (kept : s.Sound C) : Keeps C (execLdh w t d a imm s) := by simp [execLdh, kept]
@[simp] theorem execLdhu_sound (kept : s.Sound C) : Keeps C (execLdhu w t d a imm s) := by simp [execLdhu, kept]
@[simp] theorem execLdw_sound (kept : s.Sound C) : Keeps C (execLdw w t d a imm s) := by simp [execLdw, kept]
@[simp] theorem execLdwu_sound (kept : s.Sound C) : Keeps C (execLdwu w t d a imm s) := by simp [execLdwu, kept]
@[simp] theorem execLdd_sound (kept : s.Sound C) : Keeps C (execLdd w t d a imm s) := by simp [execLdd, kept]
@[simp] theorem execStb_sound (kept : s.Sound C) : Keeps C (execStb w t d a imm s) := by simp [execStb, kept]
@[simp] theorem execSth_sound (kept : s.Sound C) : Keeps C (execSth w t d a imm s) := by simp [execSth, kept]
@[simp] theorem execStw_sound (kept : s.Sound C) : Keeps C (execStw w t d a imm s) := by simp [execStw, kept]
@[simp] theorem execStd_sound (kept : s.Sound C) : Keeps C (execStd w t d a imm s) := by simp [execStd, kept]

end

/-! ### The table instructions (R125-R128) -/

section
variable (s : State) {w : WfNo} {t : ThrNo} {d a b : Reg}

@[simp] theorem State.walk_sound (i : Nat) : (s.walk i).2.Sound C ↔ s.Sound C := by
  unfold State.walk
  dsimp only
  split <;> simp

@[simp] theorem tldBody_sound (i : Instr) (kept : s.Sound C) : (tldBody w t i d a s).Sound C := by
  unfold tldBody
  refine ramer_sound (fun v kept => ?_) kept
  dsimp only
  (repeat' split) <;> simp [kept]

@[simp] theorem execTld_sound (kept : s.Sound C) : Keeps C (execTld w t d a s) := by simp [execTld, kept]

@[simp] theorem execWalkerNext_sound (kept : s.Sound C) :
    Keeps C (execWalkerNext w t d a s) := by simp [execWalkerNext, kept]

@[simp] theorem State.submit_sound (w t : Nat) (kept : s.Sound C) :
    (s.submit w t).2.Sound C := by simp [State.submit, kept]

@[simp] theorem execTst_sound (kept : s.Sound C) : Keeps C (execTst w t d a b s) := by
  unfold execTst
  rw [keeps_next]
  refine ramer_sound (fun v kept => ?_) kept
  dsimp only
  (repeat' split) <;> simp [kept]

@[simp] theorem execTstC_sound (kept : s.Sound C) : Keeps C (execTstC w t d a b s) := by
  unfold execTstC
  rw [keeps_next]
  refine ramer_sound (fun v kept => ?_) kept
  dsimp only
  (repeat' split) <;> simp [kept]

@[simp] theorem execTcas_sound (kept : s.Sound C) : Keeps C (execTcas w t d a b s) := by
  unfold execTcas
  rw [keeps_next]
  refine ramer_sound (fun v kept => ?_) kept
  dsimp only
  (repeat' split) <;> simp [kept]

end

/-! ### Accesses to registers (R97-R107) -/

section
variable (s : State) {f b ld off size : Nat} {w m : BitVec 64} {p : Tlp} {op : RegOp}

@[simp] theorem State.mailOut_sound : (s.mailOut f b w p).Sound C ↔ s.Sound C := by simp [State.mailOut]
@[simp] theorem State.mailIn_sound : (s.mailIn f b).Sound C ↔ s.Sound C := by simp [State.mailIn]
@[simp] theorem State.bellWord_sound : (s.bellWord f b w m).Sound C ↔ s.Sound C := by simp [State.bellWord]

@[simp] theorem State.ownerWord_sound (kept : s.Sound C) :
    (s.ownerWord b w m).Sound C := by simp +contextual [State.ownerWord, kept]

@[simp] theorem State.winWord_sound (kept : s.Sound C) : (s.winWord b w m).Sound C := by
  unfold State.winWord
  extract_lets win buf soft base go
  split
  · split
    · exact kept
    · refine sound_setSoft kept id id fun wf => ?_
      exact List.foldlRecOn (motive := fun m => Memory.wf m = true) _ _ wf fun m hm i _ => by
        dsimp only
        split
        · exact Memory.wf_write _ _ _ hm
        · exact hm
  · split
    · exact sound_setSoft kept id id id
    · split
      · have gone : go.Sound C := by simp [go, kept]
        simp [gone]
      · exact kept

@[simp] theorem State.faultRegs_sound : (s.faultRegs b w).Sound C ↔ s.Sound C := by simp [State.faultRegs]

@[simp] theorem State.serviceWord_sound (c : Nat) (kept : s.Sound C) :
    (s.serviceWord c b w m).Sound C := by simp [State.serviceWord, kept]

@[simp] theorem State.endpointWord_sound (kept : s.Sound C) :
    (s.endpointWord b w m p).Sound C := by simp [State.endpointWord, kept]

@[simp] theorem State.ringWord_sound (r : Nat) :
    (s.ringWord ld r b w m).Sound C ↔ s.Sound C := by simp [State.ringWord]

@[simp] theorem State.ldWord_sound : (s.ldWord ld b w m p).Sound C ↔ s.Sound C := by simp [State.ldWord]

@[simp] theorem State.turnAway_sound (code : Nat) :
    (s.turnAway f code p).Sound C ↔ s.Sound C := by simp [State.turnAway]

@[simp] theorem State.regWrite_sound (v : BitVec 64) (kept : s.Sound C) : (s.regWrite f p off size v).Sound C := by
  unfold State.regWrite
  split <;> simp [kept]

@[simp] theorem State.regRead_sound : (s.regRead f p off size).Sound C ↔ s.Sound C := by
  unfold State.regRead
  (repeat' split) <;> simp

@[simp] theorem State.tlpError_sound : (s.tlpError f p).Sound C ↔ s.Sound C := by simp [State.tlpError]

@[simp] theorem State.saMessage_sound (kept : s.Sound C) : (s.saMessage off size op).Sound C := by
  unfold State.saMessage
  split <;> simp [kept]

@[simp] theorem execRegisterWrite_sound (p : RegPath) (off : BitVec 24) (size : BitVec 8) (kept : s.Sound C) :
    Keeps C (execRegisterWrite p off size op s) := by
  unfold execRegisterWrite
  (repeat' split) <;> simp [kept]

end

/-! ### Every command -/

section
variable (s : State)

/-- Every command keeps the claims; that of a closed port it keeps where PWRGOOD does not fall. -/
theorem exec_sound (i : Instr) (power : C.closed → i ≠ .pwrgoodFall) (kept : s.Sound C) : Keeps C (exec i s) := by
  by_cases falls : i = .pwrgoodFall
  · rw [falls]
    exact execPwrgoodFall_sound _ fun closed => power closed falls
  · unfold exec
    split
    case h_5 => exact absurd rfl falls
    all_goals simp [kept]

end

/-! ### A cycle with no command waiting (R10, R141) -/

section
variable (s : State) {C : Claims}

@[simp] theorem State.condCycle_sound (n : Nat) (us : List Nat) :
    (s.condCycle n us).Sound C ↔ s.Sound C := by simp [State.condCycle]

@[simp] theorem State.tickConds_sound : s.tickConds.Sound C ↔ s.Sound C := by simp [State.tickConds]
@[simp] theorem State.tickFixed_sound : s.tickFixed.Sound C ↔ s.Sound C := by simp [State.tickFixed]
@[simp] theorem State.tickClock_sound : s.tickClock.Sound C ↔ s.Sound C := by simp [State.tickClock]

end

/-! ### The statements -/

/-- A step keeps the claims; that of a closed port it keeps where the front command is not the fall of PWRGOOD. -/
theorem step_sound {C : Claims} {s u : State} (power : C.closed → s.pending.head? ≠ some .pwrgoodFall) (kept : s.Sound C)
    (h : step s = .next u) : u.Sound C := by
  unfold step at h
  split at h
  · rename_i c rest waits
    have front : C.closed → c ≠ .pwrgoodFall := fun closed falls => power closed (by rw [waits, List.head?_cons, falls])
    exact exec_sound _ c front (by simp [kept]) u h
  · rw [← Host.Outcome.next.inj h]
    simp [kept]

/-- Settles O24: the election's claim alone, kept by every operation that writes it. -/
theorem electionStaysLegal : Obligations.ElectionStaysLegal := by
  unfold Obligations.ElectionStaysLegal
  intro s u Inv legal h
  have kept : s.Sound ⟨True, False, False, False⟩ :=
    (State.sound_iff ..).mpr ⟨fun _ => legal, False.elim, False.elim, False.elim⟩
  obtain ⟨election, -⟩ := (State.sound_iff ..).mp (step_sound False.elim kept h)
  exact election trivial

/-- Settles O25: no owner, no successor and no claim word at reset. -/
theorem electionLegalAtReset : Obligations.ElectionLegalAtReset := by
  unfold Obligations.ElectionLegalAtReset
  exact reset_legal

/-- Settles O26: FAILS and CLOSED go together, and only the fall of PWRGOOD opens a closed port. -/
theorem serviceAccessStaysLockedOut : Obligations.ServiceAccessStaysLockedOut := by
  unfold Obligations.ServiceAccessStaysLockedOut
  refine fun s u lock h => ⟨?_, fun closed power => ?_⟩
  · have kept : s.Sound ⟨False, True, False, False⟩ :=
      (State.sound_iff ..).mpr ⟨False.elim, fun _ => lock, False.elim, False.elim⟩
    obtain ⟨-, locked, -⟩ := (State.sound_iff ..).mp (step_sound False.elim kept h)
    exact locked trivial
  · have kept : s.Sound ⟨False, False, True, False⟩ :=
      (State.sound_iff ..).mpr ⟨False.elim, False.elim, fun _ => closed, False.elim⟩
    obtain ⟨-, -, shut, -⟩ := (State.sound_iff ..).mp (step_sound (fun _ => power) kept h)
    exact shut trivial

/-- Settles O27: the memories' claim alone, kept by every operation that writes a register or a byte. -/
theorem registersAndMemoriesStayCanonical : Obligations.RegistersAndMemoriesStayCanonical := by
  unfold Obligations.RegistersAndMemoriesStayCanonical
  intro s u Inv wf h
  have kept : s.Sound ⟨False, False, False, True⟩ :=
    (State.sound_iff ..).mpr ⟨False.elim, False.elim, False.elim, fun _ => wf⟩
  obtain ⟨-, -, -, memory⟩ := (State.sound_iff ..).mp (step_sound False.elim kept h)
  exact memory trivial

/-- Settles O28: nothing is listed at reset. -/
theorem memoriesCanonicalAtReset : Obligations.MemoriesCanonicalAtReset := by
  unfold Obligations.MemoriesCanonicalAtReset
  exact reset_canonical

end Sys2Proof.Machine
end
